-- ==== Sys2Proof/Word.lean ====
section
/-! DEFINITION. The word types and their plainest arithmetic. -/
namespace Sys2Proof

/-- One byte. -/
abbrev Byte := BitVec 8

/-- A 64-bit word: a scribe register (R211), a result word, a ledger dword. -/
abbrev W64 := BitVec 64

end Sys2Proof
end

