-- ==== Sys2Proof/Config.lean ====
section
/-! DEFINITION. What the spec leaves open: values nothing constrains (opaque, so no proof can see one), each with its log entry. -/
namespace Sys2Proof.Config

/-- A free natural number, fresh for each value of the state's counter: random draws (R399, R246), and results the spec
states no value for. Log entry 4. -/
opaque freeNat : Nat → Nat

/-- A free byte of a random stream: draw number, then position (R399). Log entry 4. -/
opaque freeByte : Nat → Nat → BitVec 8

/-- The keyed hash of R84: the salt, a system title, a tenant and which of the two candidate buckets. The spec gives no formula. Log entry 10. -/
opaque bucketHash : Nat → Nat → Nat → Nat → Nat

/-- The set of the node address index a key hashes to (R319): KIND and value. The spec gives no formula. Log entry 10. -/
opaque addrHash : Nat → Nat → Nat

/-- How many blocks R441 sets aside for parity with a number of dies. The spec gives no number. Log entry 35. -/
opaque parityBlocks : Nat → Nat

/-- Sample `k` of a current channel's cycle, delayed by PHASE x 2^-22 cycle by fractional-delay interpolation (R175): the occasion, PHASE, the samples
of the cycle. The spec gives no interpolation formula. Log entry 23. -/
opaque delayed : Nat → Nat → List Int → Nat → Int

/-- Sample `k` of a current channel's cycle after the Rogowski integrator (R175): the occasion, the samples of the cycle. The spec gives no
transfer function. Log entry 23. -/
opaque integrated : Nat → List Int → Nat → Int

end Sys2Proof.Config
end

