-- ==== Sys2Proof/Syntax.lean ====
section
/-! DEFINITION. The commands: one constructor per row of spec/opcode_table.json, with the operands the row's rules give it. -/
namespace Sys2Proof

/-- An enable-able unit (R29), for the drain commands. -/
inductive DrainUnit where
  | tenant (t : Nat) | ring (r : Nat) | task (t : Nat) | queue (q : Nat) | table (t : Nat) | lockGroup (g : Nat)
  | lane (n : Nat) | radio (n : Nat) | metrology | node (n : Nat) | port (p : Nat) | compare (u : Nat)
deriving DecidableEq, Repr

/-- A read of one fuse copy that differs from its cells: logical word, copy 0 to 2, the high- and the low-margin value (R372). -/
structure FuseRead where
  word : Nat
  copy : Nat
  hi : Nat
  lo : Nat
deriving DecidableEq, Repr

/-- What the recovery finds of a committed reading's completion (R119, R280): PHASE and RESULT.TAG that its slot holds, and, of a field reading,
that its notification is recorded as delivered. -/
structure SlotSeen where
  phase : Nat := 0
  tag : Nat := 0
  delivered : Bool := false
deriving DecidableEq, Repr

/-- An end of a credit queue: the producer's, or the consumer's (R243). -/
structure QEnd where
  queue : Nat := 0
  consumer : Bool := false
deriving DecidableEq, Repr

/-- A written T_CMD with SWEEP_NOW, and the sets and ways whose parity the visits find wrong (R250, R262). -/
structure SweepAsk where
  value : Nat := 0
  bad : List (Nat × Nat) := []
deriving DecidableEq, Repr

/-- A preamble's SNR in dB on its lane, and that of the combined metric of the lanes of its group that contribute to it (R309, R313). -/
structure Preamble where
  snr : Nat := 0
  metric : Nat := 0
deriving DecidableEq, Repr

/-- A frame a lane's decoder delivers with its FCS right, as the standard's layouts give it (R306, R314 to R317, R323, R324). `kind`: 0 data,
1 acknowledgement, 2 tone map response, 3 beacon request, 4 other. An address is its index key's KIND and value (R319). SNR is per group in 0.25 dB. -/
structure PlcFrame where
  kind : Nat := 0
  secured : Bool := false
  keyIdx : Nat := 0
  counter : Nat := 0
  /-- The CCM* tag verifies under the key index's slot (log entry 24). -/
  tagOk : Bool := false
  dsn : Nat := 0
  srcKind : Nat := 0
  src : Nat := 0
  /-- The destination, as an index key: KIND and value. -/
  dst : Nat × Nat := (0, 0)
  ackReq : Bool := false
  /-- A tone map is requested, and the per-group SNR of the frame. -/
  tmReq : Bool := false
  snr : List Nat := []
  /-- A tone map response: MOD, TONEMAP, TXGAIN. -/
  tm : Nat × Nat × Nat := (0, 0, 0)
  /-- A tone map response that came within TMR_DELAY + 100 ms of the end of the frame that asked (R323). -/
  tmInTime : Bool := true
  frag : Bool := false
  /-- A mesh header: its final destination and its originator, as index keys. -/
  mesh : Option ((Nat × Nat) × (Nat × Nat)) := none
  /-- The UDP port of a compressed IPv6 and UDP header, and whether an 8-byte DLMS wrapper header follows. -/
  port : Option Nat := none
  wrapper : Bool := false
  /-- The MAC payload in the clear (a Thosa frame, R185), the APDU once the headers are stripped, and the frame from its MAC header onward. -/
  payload : List (BitVec 8) := []
  apdu : List (BitVec 8) := []
  raw : List (BitVec 8) := []
  lqi : Nat := 0
  /-- Air time of the acknowledgement it would get, in 100 µs. -/
  ackAir : Nat := 0
  /-- A parity error was found in the address index (R321). -/
  parity : Bool := false
deriving DecidableEq, Repr
/-- A frame a radio delivers (R343 to R347). `kind`: 0 SUN data, 1 SUN acknowledgement, 2 wM-Bus, 3 connected-slot, 4 another SUN frame. -/
structure RfFrame where
  kind : Nat := 0
  secured : Bool := false
  keyIdx : Nat := 0
  counter : Nat := 0
  /-- The CCM* tag of a SUN frame verifies under the key index's slot (log entry 24). -/
  tagOk : Bool := false
  /-- DSN, or wM-Bus access number. -/
  dsn : Nat := 0
  srcKind : Nat := 0
  src : Nat := 0
  /-- The destination, as an index key, and whether it is the radio's own EUI-64, which no register holds. -/
  dst : Nat × Nat := (0, 0)
  toEui : Bool := false
  ackReq : Bool := false
  ackAir : Nat := 0
  frag : Bool := false
  mesh : Option ((Nat × Nat) × (Nat × Nat)) := none
  port : Option Nat := none
  wrapper : Bool := false
  /-- The CI field of a wM-Bus frame. -/
  ci : Nat := 0
  apdu : List (BitVec 8) := []
  /-- The frame from its MAC header onward; for kind 3 the PDU of R349. -/
  raw : List (BitVec 8) := []
  /-- Channel it was heard on, LQI, RSSI in dBm. -/
  chan : Nat := 0
  lqi : Nat := 0
  rssi : Int := 0
  /-- Reception kind of R347. -/
  rx : Nat := 0
  parity : Bool := false
deriving DecidableEq, Repr

/-- What a scan of the safety channel finds (R495 to R502): each input's level (true high) with the µs it has held outside its own source's
pulses; the samples taken in test pulses (source, input, reads high, high 100 µs before and after); test pulse sources whose read-back differs;
read-back levels of the outputs; LOGIC, CLOCK and SUPPLY faults (codes 10 to 12); the demand-to-off time measured, in µs. -/
structure SafScan where
  inputs : List (Bool × Nat) := []
  samples : List (Nat × Nat × Bool × Bool) := []
  tpBad : Nat := 0
  rb : Nat := 0
  self : List Nat := []
  resp : Nat := 0
deriving DecidableEq, Repr

/-- What the NAND parameter pages say (R438, R455): dies, page size code, pages per block, blocks per die, rated erase cycles, and the largest page
program time in µs. -/
structure NandId where
  dies : Nat
  page : Nat
  ppb : Nat
  bpd : Nat
  endur : Nat
  tprog : Nat
deriving DecidableEq, Repr

/-- What BOOT finds outside the device (R65, R372, R399, R428, R438, R448, R453, R524, R560): seconds the vault clock counted, if it ran for the
whole power-down; fuse reads that differ from the cells; the density SFDP names in Mbit, 0 if it fails, and whether suspend is supported; the
start-up test of the random source; the NAND parts, none if they meet no rule of R438; the time of the mapping rebuild in ms and the blocks it scanned; per tenant the
records of a HOLDUP image that could be read, where a page could not; the levels of PAD_BANK_STAT; the capacitor voltage in 10 mV; and the time from POR in ms. -/
structure BootEnv where
  vsecs : Option Nat := none
  dev : List FuseRead := []
  mbit : Nat := 128
  suspend : Bool := true
  trng : Bool := true
  nand : Option NandId := none
  mapMs : Nat := 0
  scan : Nat := 0
  huCut : List (Nat × Nat) := []
  pads : Nat := 0
  volts : Nat := 0
  ms : Nat := 0
deriving DecidableEq, Repr


/-- The commands of the device, in the order of the opcode table. A `host` is the host attachment that sends the access;
a BAR0 window command acts on the instance that host's selector names (R35, R36). -/
inductive Instr where
  /-- A BAR0 write to a register that has no row of its own is judged field by field for lock, range, reserved bits and supervisor access (R563). -/
  | registerWrite (host addr value : Nat)
  /-- A host writes its own copy of a block selector, which changes only that host's copy (R36). -/
  | selectorWrite (host addr value : Nat)
  /-- A BAR0 read that is out of selector range or not permitted to the host returns 0 and sets SEL_RANGE or WINDOW_PROT (R38). -/
  | windowReadRefused (host addr : Nat)
  /-- Writing 1 to CHIP_LOCK.LOCK freezes every RWL field until the next reset (R7). -/
  | chipLock (host value : Nat)
  /-- A write of CHIP_EPOCH_CMD.SWITCH starts an epoch switch, or latches PENDING if a switch is already busy (R27). -/
  | switch (host : Nat)
  /-- When the last check point acknowledges, the protection banks and the shadow tables exchange roles and CHIP_EPOCH increments (R25). -/
  | epochBankExchange
  /-- The pending bank copy ends: BUSY clears, held writes take effect, event 3 is signalled and a pending switch starts (R27). -/
  | epochCopyDone (duration : Nat)
  /-- A write to a tenant record or owner map entry lands in the pending bank, or is held during a switch, and is checked under R18 to R22 and R565
  (R24). -/
  | tenPendingWrite (host off bits value : Nat)
  /-- Once every old-epoch request that names a removed resource has completed, the resource is released and its scrub starts (R28). -/
  | resourceRelease (index : Nat)
  /-- The clearing of a released resource ends and TEN_SCRUB no longer counts it (R19). -/
  | resourceScrubDone (index : Nat)
  /-- A write of TEN_CTRL.ENABLE moves a tenant through the lifecycle; disabling it drains all of its rings and tasks (R33). -/
  | tenEnable (host value : Nat)
  /-- When a draining unit delivers its last old-generation completion, it goes to OFF, or to ON at a new generation if ENABLE_LATCHED is set (R29).
  -/
  | drainEnd (unit : DrainUnit)
  /-- A unit still DRAINING after 10 ms is recorded, event 4 is signalled and a detected fault results (R32). -/
  | drainOverrun (unit : DrainUnit)
  /-- A DB_SQ_TAIL write from the ring's host announces new descriptors (R285). -/
  | doorbellSqTail (host ring value : Nat)
  /-- A DB_HEAD write consumes completion entries or, with CONS_HEAD, produced records (R285). -/
  | doorbellHead (host ring value : Nat)
  /-- At an issue slot, the fetch unit chooses a ring by priority and weight and issues a 64-byte descriptor read (R286). -/
  | descriptorFetchIssue (host : Nat)
  /-- A descriptor read returns; in slot order the descriptor is checked against the active bank and dispatched by its opcode (R275). -/
  | descriptorFetched (ring slot : Nat) (data : List (BitVec 8))
  /-- A descriptor read fails after its retries, the ring stops fetching, FETCH_ERR is set and event 26 is signalled (R278). -/
  | descriptorFetchFail (ring slot : Nat)
  /-- A waiting TASK_CMD is delivered once its command-area entry, input 5 and the pool quota have room (R276). -/
  | taskCmdDeliver (ring slot : Nat)
  /-- The DMA read of an INGEST APDU returns and the reading proceeds to classification (R81). -/
  | apduReadDone (ring slot : Nat) (data : List (BitVec 8))
  /-- A host read of an APDU times out and is issued again within the PIP_RETRY_DMA budget (R117). -/
  | apduReadTimeout (ring slot : Nat)
  /-- The meter-ID hash, or the ledger hint, maps the reading to a ledger and tenant, and the route entry is checked (R84). -/
  | classify (ring slot spot : Nat)
  /-- A field frame is offered from its ingest queue for tag allocation, again every 100 µs, and is dropped after 10 ms (R121). -/
  | ingestQueueOffer (port : Nat) (expired : Bool)
  /-- The unwrap of a missed ledger's blob ends, fills the cache and gives its outcome to every reading waiting on the fill (R96). -/
  | keyUnwrapDone (ledger : Nat)
  /-- An unwrap refused by a busy slot is retried within the PIP_RETRY_KEY budget (R117). -/
  | keyUnwrapRetry (ledger : Nat)
  /-- AES-GCM authentication and decryption of the APDU ends with plaintext or AUTH_FAIL (R102). -/
  | decryptDone (tag : Nat)
  /-- A ledger sector read that reports a detected error is read again within the PIP_RETRY_LDG budget (R117). -/
  | ledgerSectorRetry (ledger : Nat) (ok : Bool)
  /-- Under the ledger lock the commit pipe makes the replay decision, requests the permit, applies tariff, prepayment and digest, and appends the
  journal record (R110). -/
  | ledgerCommit (tag : Nat)
  /-- The balance engine places a committed member's net energy into window portions and adds variance and misalignment terms (R194). -/
  | balanceContribution (tag : Nat)
  /-- A sink's cumulative acknowledgement advances, which releases buffer space and lets held completions be posted (R140). -/
  | journalAck (tenant sink seq : Nat)
  /-- A tag timer expires before the commit permit, and the tag enters ENDING with TIMEOUT and a new generation (R118). -/
  | tagTimeout (tag : Nat)
  /-- Once every old-generation engine step of an ENDING tag has returned, its completion is posted and the tag is freed (R94). -/
  | tagEndingDone (tag : Nat)
  /-- A response that carries a stale generation is discarded and counted in PIP_LATE (R93). -/
  | lateResponse (tag gen : Nat)
  /-- The bucket repair scan after a meter-ID hash parity error ends and REPAIR clears (R88). -/
  | hashRepairDone
  /-- After takeover or recovery, completions are rebuilt from the journal and reposted, or readings are reprocessed or dropped (R119). -/
  | completionRebuild (tenant seq user slot : Nat) (held : SlotSeen)
  /-- A write of PIP_T_CLR.CLEAR zeroes the selected tenant's pipeline counters (R126). -/
  | clear (host value : Nat)
  /-- A supervisor write of a route entry is refused if any task, ring or partition it names is not owned by the entry's tenant (R127). -/
  | routeEntryWrite (host off value : Nat)
  /-- A scribe transaction open longer than LDG_TXN_TMO is aborted and its lock is released (R135). -/
  | txnTimeout (ctx : Nat)
  /-- A partly filled journal page is programmed LDG_T_NFLUSH after its first record arrived (R140). -/
  | nandPartialFlush (tenant : Nat)
  /-- A sink that acknowledges nothing for LDG_T_JACK_TMO while records are outstanding is marked DOWN, and event 1152 is signalled (R143). -/
  | sinkDown (tenant sink : Nat)
  /-- The LDG_T_CMD.RESYNC_NAND command brings the NAND sink back (R143). -/
  | resyncNand (host : Nat)
  /-- The LDG_T_CMD.RESYNC_PTNR command brings the PARTNER sink back (R143). -/
  | resyncPtnr (host : Nat)
  /-- The LDG_T_CMD.RESYNC_HOST command brings the HOST sink back (R143). -/
  | resyncHost (host : Nat)
  /-- The LDG_T_CMD.REBUILD_DONE command ends a rebuild without checkpoint (R148). -/
  | rebuildDone (host : Nat)
  /-- LDG_T_CKPT_CMD.TAKE starts a tenant checkpoint, or is ignored while one is running (R144). -/
  | take (host : Nat)
  /-- The checkpoint period elapses and a checkpoint starts (R144). -/
  | ckptPeriodExpiry (tenant : Nat)
  /-- The ledger and calendar copy of a checkpoint ends and CKPT_END is journaled (R144). -/
  | ckptCopyDone (tenant : Nat)
  /-- A tenant is rebuilt from its newest checkpoint with journal and HOLDUP records replayed, and event 1156 is signalled at the end (R146). -/
  | tenantRebuild (tenant ms : Nat)
  /-- LDG_QUAR_CMD REBUILD reloads a quarantined ledger from checkpoint and journal and verifies it (R155). -/
  | rebuild (host ledger : Nat) (good : Bool)
  /-- LDG_QUAR_CMD CLEAR scrubs a quarantined ledger and removes its entries (R155). -/
  | quarClear (host ledger : Nat)
  /-- LDG_QUAR_CMD REQUAR quarantines the ledger again so that QUAR_ALL can clear (R156). -/
  | requar (host ledger : Nat)
  /-- LDG_CAL_CMD ARM checks a passive calendar copy and makes it PENDING (R159). -/
  | arm (host cal : Nat)
  /-- LDG_CAL_CMD CANCEL removes a PENDING calendar from the pending list (R158). -/
  | cancel (host cal : Nat)
  /-- LDG_CAL_CMD ACTIVATE_NOW activates a PENDING calendar at once (R160). -/
  | activateNow (host cal : Nat)
  /-- The once-per-second check activates PENDING grid-based calendars whose ACT_TIME has been reached (R160). -/
  | calActivationCheck
  /-- At each whole UTC minute, the ledgers on the prepayment watch list are evaluated as a sweep (R168). -/
  | watchSweep
  /-- A ledger line writeback lands in DRAM and the waiting requests are granted in rotating cluster order (R152). -/
  | writebackLanded (ledger : Nat)
  /-- A ledger cache line moves to the requesting cluster's slice once its lock is free (R151). -/
  | lineMove (ledger cluster : Nat)
  /-- A positive-going VA crossing drives the mains-phase source state machine and sets the rate correction (R51). -/
  | zeroCrossing (rms : Nat) (err : Int) (freq : Nat)
  /-- An expected crossing is missing or invalid, which can move the source to HOLDOVER (R51). -/
  | crossingMissing
  /-- HOLD_CYCLES elapse in HOLDOVER and the source becomes NOMINAL (R51). -/
  | holdoverExpiry
  /-- A VB or VC crossing updates the phase lag, rotation and PH_OK flags (R54). -/
  | phaseCrossingBc (phase : Nat) (valid : Bool) (lag : Nat)
  /-- A write of MPT_LOAD_LO requests a cycle count load, or is refused with LOAD_LATE (R55). -/
  | mptLoadLo (host value : Nat)
  /-- At the next phase 0x0000 the requested cycle count is loaded and compare units are evaluated (R55). -/
  | cycleCountLoad
  /-- A change of MPT_CFG.NOMINAL_60 takes effect at the next tick and may step or hold centre-role mains-phase time (R566). -/
  | nominal60Change (host value : Nat)
  /-- A read of MPT_NOW_LO latches MPT_NOW_HI for the reading host (R75). -/
  | mptNowRead (host : Nat)
  /-- A read of GTn_NS latches the seconds halves for the reading host (R75). -/
  | gtNsRead (host domain : Nat)
  /-- MPT_SNAP_CMD.TAKE latches mains-phase, grid and operating time at one tick (R75). -/
  | snapTake (host value : Nat)
  /-- GTn_CMD INVALIDATE moves a grid domain to INVALID and clears STEP_USED (R58). -/
  | invalidate (host domain : Nat)
  /-- GTn_CMD STEP adds the signed offset once and evaluates compare units (R59). -/
  | step (host domain : Nat)
  /-- GTn_CMD CONFIRM is accepted within GTn_TOL, resetting age, or is rejected and counted (R60). -/
  | confirm (host domain : Nat)
  /-- No CONFIRM is accepted for CONFIRM_WIN seconds and a VALID domain enters HOLDOVER (R58). -/
  | confirmWinExpiry (domain : Nat)
  /-- A domain's age reaches HOLD_LIMIT in HOLDOVER and it becomes LOST (R58). -/
  | holdLimitExpiry (domain : Nat)
  /-- A write of GTn_TRIM sets the rate correction, or is refused beyond 500 ppm (R61). -/
  | gtTrimWrite (host domain value : Nat)
  /-- A write of MPT_GRID_SEL changes the selected domain only if the new one is VALID and within TOL_US (R62). -/
  | gridSelWrite (host value : Nat)
  /-- Enabling a compare unit arms it after the horizon, period, trigger and alignment checks (R67). -/
  | compareArm (host value : Nat)
  /-- A compare unit reaches its target, signals its event, issues its trigger and re-arms or turns off (R70). -/
  | compareFire (unit air : Nat)
  /-- At the end of a phase cycle, P, Q and RMS are computed and the energy accumulators are updated (R177). -/
  | metrologyCycleEnd (phase : Nat) (v i vn n : List Nat) (period : Nat)
  /-- WS_EVAL after its closing boundary, or early, a window is evaluated node by node with results and alarms (R199). -/
  | windowEvaluate (set : Nat)
  /-- A received phase report is matched to a phase candidate and updates the member entry's agreement (R203). -/
  | phaseReport (node : Nat) (secured : Bool) (frame : List (BitVec 8))
  /-- A feeder tamper condition holds for its qualifying cycles, which sets the detector and signals event 902 (R205). -/
  | feederDetectorSet (detector : Nat)
  /-- A feeder detector clears after its qualifying cycles without the condition (R205). -/
  | feederDetectorClear (detector : Nat)
  /-- A write of BAL_MEMB_VAL stores bits 7:0 of the selected member entry (R192). -/
  | membValWrite (host value : Nat)
  /-- A write of a mark-table entry is accepted in the centre role and refused with MARK_WR in the field role (R190). -/
  | markTableWrite (host off value : Nat)
  /-- A write of BAL_MET_CTRL.ENABLE switches the metrology front end, and is refused in the centre role (R174). -/
  | metrologyEnable (host value : Nat)
  /-- A write of BAL_N_CTRL.ENABLE starts or discards a balance node's accumulation (R197). -/
  | balNodeEnable (host value : Nat)
  /-- A write of TSK_CTRL.ENABLE turns a task ON only if its owner, bank, entries and windows pass (R215). -/
  | taskEnable (host value : Nat)
  /-- A freed general context is given to the READY task chosen by virtual time and priority (R221). -/
  | taskDispatch (ctx : Nat)
  /-- A priority-0 ring command is dispatched to a free reserved context at ENTRY5 (R223). -/
  | priority0Dispatch
  /-- A handler reaches RUN_MAX × 1,024 instructions without ending and faults with WATCHDOG (R226). -/
  | watchdog (ctx : Nat)
  /-- ALU op 0: wA = wB + wC (R235). -/
  | add (ctx a b c : Nat)
  /-- ALU op 1: wA = wB − wC (R235). -/
  | sub (ctx a b c : Nat)
  /-- ALU op 2: bitwise AND (R235). -/
  | and (ctx a b c : Nat)
  /-- ALU op 3: bitwise OR (R235). -/
  | or (ctx a b c : Nat)
  /-- ALU op 4: bitwise XOR (R235). -/
  | xor (ctx a b c : Nat)
  /-- ALU op 5: shift left logical by wC[5:0] (R235). -/
  | sll (ctx a b c : Nat)
  /-- ALU op 6: shift right logical (R235). -/
  | srl (ctx a b c : Nat)
  /-- ALU op 7: shift right arithmetic (R235). -/
  | sra (ctx a b c : Nat)
  /-- ALU op 8: signed set-less-than (R235). -/
  | slt (ctx a b c : Nat)
  /-- ALU op 9: unsigned set-less-than (R235). -/
  | sltu (ctx a b c : Nat)
  /-- ALU op 10: signed minimum (R235). -/
  | min (ctx a b c : Nat)
  /-- ALU op 11: signed maximum (R235). -/
  | max (ctx a b c : Nat)
  /-- ALU op 12: unsigned minimum (R235). -/
  | minu (ctx a b c : Nat)
  /-- ALU op 13: unsigned maximum (R235). -/
  | maxu (ctx a b c : Nat)
  /-- ALU op 16: low 64 bits of the product (R235). -/
  | mul (ctx a b c : Nat)
  /-- ALU op 17: signed high 64 bits of the product (R235). -/
  | mulh (ctx a b c : Nat)
  /-- ALU op 18: unsigned high 64 bits of the product (R235). -/
  | mulhu (ctx a b c : Nat)
  /-- ALU op 20: signed division rounded toward zero, without faults (R235). -/
  | div (ctx a b c : Nat)
  /-- ALU op 21: unsigned division (R235). -/
  | divu (ctx a b c : Nat)
  /-- ALU op 22: signed remainder (R235). -/
  | rem (ctx a b c : Nat)
  /-- ALU op 23: unsigned remainder (R235). -/
  | remu (ctx a b c : Nat)
  /-- ALU op 24: count of leading zeros of wB (R235). -/
  | clz (ctx a b : Nat)
  /-- wA = wB + sign-extended IMM (R234). -/
  | addi (ctx a b imm : Nat)
  /-- wA = wB AND zero-extended IMM (R234). -/
  | andi (ctx a b imm : Nat)
  /-- wA = wB OR zero-extended IMM (R234). -/
  | ori (ctx a b imm : Nat)
  /-- wA = wB XOR zero-extended IMM (R234). -/
  | xori (ctx a b imm : Nat)
  /-- Signed compare of wB with IMM (R234). -/
  | slti (ctx a b imm : Nat)
  /-- Unsigned compare of wB with IMM (R234). -/
  | sltiu (ctx a b imm : Nat)
  /-- Immediate shift SLL, SRL or SRA, selected by IMM[15:14] (R234). -/
  | shi (ctx a b imm : Nat)
  /-- Loads a 16-bit quarter of wA, optionally clearing it first (R234). -/
  | liq (ctx a b imm : Nat)
  /-- Signed byte load from the data window (R234). -/
  | lb (ctx a b imm : Nat)
  /-- Unsigned byte load (R234). -/
  | lbu (ctx a b imm : Nat)
  /-- Signed halfword load (R234). -/
  | lh (ctx a b imm : Nat)
  /-- Unsigned halfword load (R234). -/
  | lhu (ctx a b imm : Nat)
  /-- Signed word load (R234). -/
  | lw (ctx a b imm : Nat)
  /-- Unsigned word load (R234). -/
  | lwu (ctx a b imm : Nat)
  /-- Doubleword load from the data window (R234). -/
  | ld (ctx a b imm : Nat)
  /-- Byte store to the data window (R234). -/
  | sb (ctx a b imm : Nat)
  /-- Halfword store (R234). -/
  | sh (ctx a b imm : Nat)
  /-- Word store (R234). -/
  | sw (ctx a b imm : Nat)
  /-- Doubleword store (R234). -/
  | sd (ctx a b imm : Nat)
  /-- Loads 8 bytes from the task's DRAM window (R234). -/
  | xld (ctx a b imm : Nat) (bad : Bool)
  /-- Stores 8 bytes to the DRAM window through the 8-entry store buffer (R236). -/
  | xst (ctx a b imm : Nat)
  /-- The oldest store-buffer entry leaves as one DRAM write (R236). -/
  | storeBufferDrain (ctx : Nat)
  /-- Branch if equal (R234). -/
  | beq (ctx a b imm : Nat)
  /-- Branch if not equal (R234). -/
  | bne (ctx a b imm : Nat)
  /-- Branch if signed less (R234). -/
  | blt (ctx a b imm : Nat)
  /-- Branch if signed greater or equal (R234). -/
  | bge (ctx a b imm : Nat)
  /-- Branch if unsigned less (R234). -/
  | bltu (ctx a b imm : Nat)
  /-- Branch if unsigned greater or equal (R234). -/
  | bgeu (ctx a b imm : Nat)
  /-- Jump relative and link (R234). -/
  | jal (ctx a off : Nat)
  /-- Jump to register plus IMM and link (R234). -/
  | jalr (ctx a b imm : Nat)
  /-- SYS F 0 does nothing (R234). -/
  | sysNop (ctx : Nat)
  /-- Ends the handler, saving registers when MULTI is 1, and completes any bound ring command (R222). -/
  | endCmd (ctx : Nat)
  /-- Ends the handler and moves the input rotation on (R222). -/
  | yield (ctx : Nat)
  /-- Waits until the XST store buffer is empty (R236). -/
  | fence (ctx : Nat)
  /-- Reads a context status value (R237). -/
  | csrr (ctx a imm : Nat)
  /-- Pops an event of an input into header and payload registers, binding a ring command from input 5 (R234). -/
  | evpop (ctx a imm : Nat)
  /-- Reads the COUNT of an input (R234). -/
  | evcnt (ctx a imm : Nat)
  /-- Stalls the context until an input in the mask has events (R222). -/
  | evwait (ctx a imm : Nat)
  /-- A stalled EVWAIT resumes when an input in its mask receives an event (R222). -/
  | evwaitWake (ctx : Nat)
  /-- Signals a software event source owned by the tenant (R234). -/
  | signal (ctx a b c : Nat)
  /-- Reads a time base from one 8 ns tick (R234). -/
  | time (ctx a imm : Nat)
  /-- Binds a reading tag to the context (R234). -/
  | tagset (ctx a b : Nat)
  /-- Ends the bound tag's stage with a status and reason, and unbinds the tag (R105). -/
  | stend (ctx a b : Nat)
  /-- FX op 0 reads an A-XDR type tag, length and header size (R106). -/
  | hdr (ctx a b : Nat)
  /-- FX op 1 reads a typed integer (R106). -/
  | int (ctx a b : Nat)
  /-- FX op 2 skips one data element up to depth 16 (R106). -/
  | skip (ctx a b : Nat)
  /-- FX op 3 matches an OBIS octet-string in the route's OBIS set (R106). -/
  | obis (ctx a b : Nat)
  /-- FX op 4 converts a COSEM date-time to UTC seconds (R568). -/
  | dt (ctx a b : Nat)
  /-- FX op 5 reads 1 to 8 bytes as a big-endian value (R106). -/
  | bytes (ctx a b n : Nat)
  /-- FX op 6 searches the plaintext for a pattern within a span (R568). -/
  | find (ctx a b c n : Nat)
  /-- FX op 7 scales a value to 0.1 Wh or 0.1 varh (R106). -/
  | scale (ctx a b c : Nat)
  /-- Reads a dword of the reading record (R234). -/
  | recld (ctx a imm : Nat)
  /-- Writes a dword of the reading record (R234). -/
  | recst (ctx a imm : Nat)
  /-- Opens a ledger transaction and requests its lock (R134). -/
  | lbegin (ctx a b f : Nat)
  /-- A waiting LBEGIN or commit pipe is granted the ledger lock, with LOCK_BROKEN if its owner was reset (R255). -/
  | ledgerLockGrant (ledger : Nat)
  /-- Reads a ledger dword, including the transaction's own writes (R234). -/
  | lrd (ctx a b : Nat)
  /-- Writes a ledger dword under a mask into the open record (R234). -/
  | lwr (ctx a b c : Nat)
  /-- Sets a transaction argument (R234). -/
  | larg (ctx b c : Nat)
  /-- Checks and applies the open record, assigns COMMIT_SEQ and releases the lock (R134). -/
  | lcommit (ctx a : Nat)
  /-- Discards the open record and releases the lock (R134). -/
  | labort (ctx : Nat)
  /-- Writes a quarter of the passive calendar copy (R158). -/
  | lcalWrite (ctx a b c q : Nat)
  /-- Arms the passive calendar copy (R159). -/
  | lcalArm (ctx a b : Nat)
  /-- Cancels a pending calendar activation (R158). -/
  | lcalCancel (ctx a b : Nat)
  /-- Activates the pending calendar at once (R160). -/
  | lcalActivateNow (ctx a b : Nat)
  /-- Pushes an entry to a credit queue if the producer's credit allows (R244). -/
  | qpush (ctx a b c : Nat)
  /-- Pops an entry from a credit queue if the consumer sees one (R244). -/
  | qpop (ctx a b : Nat)
  /-- A queue end publishes its pointer after BATCH entries or STRAND ns (R243). -/
  | queuePublish (queue : QEnd)
  /-- TBL op 0 looks up a key (R247). -/
  | lookup (ctx a b c : Nat) (bad : List Nat)
  /-- TBL op 1 learns a dynamic entry, inserting or replacing it (R247). -/
  | learn (ctx a b c : Nat) (bad : List Nat)
  /-- TBL op 2 inserts a dynamic entry (R247). -/
  | insert (ctx a b c : Nat) (bad : List Nat)
  /-- TBL op 3 inserts or makes a static entry (R248). -/
  | insertStatic (ctx a b c : Nat) (bad : List Nat)
  /-- TBL op 4 removes an entry (R247). -/
  | delete (ctx a b c : Nat) (bad : List Nat)
  /-- The table sweeper visits a dynamic entry, clearing HIT or ageing and removing it (R249). -/
  | sweepVisit (table set way : Nat) (bad : Bool)
  /-- Acquires a primitive lock, waits, or returns NO_CREDIT, PROTECTION or LOCK_BROKEN (R253). -/
  | lkacq (ctx a b c try_ : Nat)
  /-- A waiter's time limit expires and it receives TIMEOUT (R253). -/
  | lockWaitTimeout (ctx : Nat)
  /-- Releases a primitive lock and grants it to the next waiter (R253). -/
  | lkrel (ctx a b : Nat)
  /-- A lock's owner is reset, and the lock goes BROKEN or to the next waiter with LOCK_BROKEN (R254). -/
  | lockOwnerReset (lock : Nat)
  /-- Hands a 64-byte work item to an engine and reserves a completion pool entry (R239). -/
  | issue (ctx a b c urgent : Nat)
  /-- An engine finishes an ISSUE item and its completion is delivered on input 7 (R239). -/
  | engineCompletion (n : Nat)
  /-- SCB_BANK_CMD OPEN moves a program bank to LOADING (R230). -/
  | openCmd (host : Nat)
  /-- SCB_BANK_CMD SEAL checks the bank CRC and makes it SEALED (R230). -/
  | seal (host : Nat)
  /-- SCB_BANK_CMD RELEASE empties an unused bank (R230). -/
  | release (host : Nat)
  /-- A write to the instruction store is accepted only inside a LOADING bank (R230). -/
  | instructionStoreWrite (host off value : Nat)
  /-- A data page owner map write is refused per entry if the page lies in a live task window (R231). -/
  | pageOwnerWrite (host off bits value : Nat)
  /-- TSK_CMD.CLR clears OVERFLOW, TSK_DISCARD and the cycle count (R259). -/
  | tskCmdClr (host value : Nat)
  /-- Q_CTRL.ENABLE switches a credit queue; disabling drains it until empty (R245). -/
  | queueEnable (host value : Nat)
  /-- Q_CMD.FLUSH discards the entries of a DRAINING queue (R245). -/
  | flush (host value : Nat)
  /-- Q_CMD.CLR_HIGH clears HIGH and Q_PUSH_REF (R262). -/
  | clrHigh (host value : Nat)
  /-- T_CTRL.ENABLE draws a new salt and clears the hashed table (R246). -/
  | tableEnable (host value : Nat)
  /-- T_CMD.SWEEP_NOW starts an extra sweep (R262). -/
  | sweepNow (host : Nat) (value : SweepAsk)
  /-- T_CMD.CLR clears the table counters (R262). -/
  | tClr (host value : Nat)
  /-- T_CMD.SCRUB_BAD removes every BAD entry (R250). -/
  | scrubBad (host value : Nat)
  /-- L_CTRL.ENABLE switches a lock group; draining cancels its waiters (R253). -/
  | lockGroupEnable (host value : Nat)
  /-- RNG_R_CTRL.ENABLE turns a ring ON if its owner, host and areas pass (R271). -/
  | ringEnable (host value : Nat)
  /-- RNG_R_CMD.CLR clears DONE and DROP (R301). -/
  | rngRClr (host value : Nat)
  /-- An attachment's UP condition begins to hold with ALLOW set, and event 24 is signalled (R264). -/
  | hostUp (host : Nat)
  /-- An attachment goes DOWN: its rings drain, its reads fail and its locks break (R265). -/
  | hostDown (host : Nat)
  /-- No serial transaction completes within RNG_SHP_CFG.TMO and host 2 goes DOWN (R264). -/
  | shpIdleTimeout
  /-- The supervisor host stays DOWN for WAIT seconds and the alternate becomes supervisor (R269). -/
  | supvAltTakeover
  /-- A serial WRITE transaction writes words to a space (R268). -/
  | write (addr : Nat) (data : List (BitVec 8))
  /-- A serial READ transaction returns words, clearing pending bits it reads (R268). -/
  | read (addr words : Nat)
  /-- A serial STATUS transaction returns UP, pending and refused bits (R268). -/
  | status
  /-- A serial IDENT transaction returns CHIP_ID (R268). -/
  | ident
  /-- COAL_US passes after the first unsignalled completion and the ring's vector is signalled (R288). -/
  | irqCoalesceTimeout (ring : Nat)
  /-- An event source signals and is counted and routed to a task input and/or a PRODUCE ring (R291). -/
  | eventSignal (source : Nat) (payload : List (BitVec 8))
  /-- A write of an event route is checked for owner, task, input and ring (R290). -/
  | evtRouteWrite (host off value : Nat)
  /-- EVT_S_CMD.CLR clears EVT_S_DROP (R303). -/
  | evtSClr (host value : Nat)
  /-- A received MRT HELLO opens a session and is answered with HELLO_ACK (R294). -/
  | hello (port : Nat) (frame : List (BitVec 8))
  /-- A received MRT DATA frame is delivered, held, or discarded by its SEQ (R295). -/
  | data (port : Nat) (frame : List (BitVec 8))
  /-- A received MRT ACK advances the sender's unacknowledged window (R296). -/
  | ack (port : Nat) (frame : List (BitVec 8))
  /-- A received MRT NAK makes the named frame retransmit at once (R296). -/
  | nak (port : Nat) (frame : List (BitVec 8))
  /-- A received MRT CLOSE ends the session (R294). -/
  | close (port : Nat) (frame : List (BitVec 8))
  /-- RTO passes without ACK progress; the oldest frame is retransmitted or the session closes (R296). -/
  | mrtRtoExpiry (host : Nat)
  /-- KEEPALIVE ms pass without sending and an ACK frame is sent (R294). -/
  | mrtKeepalive (host : Nat)
  /-- No valid frame arrives for 3 × KEEPALIVE and the session closes (R294). -/
  | mrtSessionTimeout (host : Nat)
  /-- PLC_L_CTRL.ENABLE switches a lane; draining cancels its queue and stops reception (R305). -/
  | laneEnable (host value : Nat)
  /-- A write of PLC_COMB.MASK is accepted only while every lane named is OFF (R308). -/
  | combiningGroupWrite (host value : Nat)
  /-- A preamble is detected, which starts sync or captures the receiver (R310). -/
  | preambleDetect (lane : Nat) (snr : Preamble) (joined : Bool)
  /-- SYNCM is found or missed within two symbols (R310). -/
  | syncmFound (lane : Nat) (found : Bool)
  /-- The frame control header passes or fails its check (R310). -/
  | fchDecode (lane : Nat) (ok burst2 : Bool) (fch : List (BitVec 8))
  /-- The last symbol is received and soft values go to the decoder or a pair buffer (R310). -/
  | payloadEnd (lane : Nat) (dual erased fcs fcsOld : Bool)
  /-- A muting transmission ends plus 100 µs and the receiver returns to IDLE (R310). -/
  | muteEnd (lane : Nat)
  /-- A held burst 1 exceeds PAIR_WAIT cycles and is decoded alone (R312). -/
  | pairWaitExpiry (lane : Nat) (fcs : Bool)
  /-- A decoded frame passing its FCS goes through security, duplicate check, acknowledgement and fast-path test (R314). -/
  | plcFrameReceived (lane : Nat) (frame : PlcFrame)
  /-- Within TMR_DELAY of a requesting frame, a ROBO tone map response is built and sent (R324). -/
  | toneMapResponseSend (lane air : Nat)
  /-- A neighbour's TM_AGE reaches TTL and MODE falls to ROBO (R322). -/
  | tmAgeExpiry (node : Nat)
  /-- A queued frame gains the channel under CSMA-CA and the energy budget, and starts on air (R327). -/
  | plcTxStart (lane : Nat) (gained : Bool) (air amp sched : Nat)
  /-- A frame ends on air and the measured energy is debited (R333). -/
  | plcTxEnd (lane energy : Nat)
  /-- ACK_TMO passes without acknowledgement, FAILS and MODE update, and the next attempt, first-hop swap or TIMEOUT follows (R327). -/
  | plcAckTimeout (lane : Nat)
  /-- The measured level exceeds MAX + 2 dB for two symbols and the transmission is cut (R334). -/
  | levelTrip (lane : Nat)
  /-- An ordinary frame waits for energy longer than PLC_L_BWAIT and completes with NO_CREDIT (R333). -/
  | plcEnergyWaitExpiry (lane : Nat)
  /-- GAP cycles after burst 1, the lane sends burst 2 of a mark or pair, or skips it (R331). -/
  | burst2Send (lane : Nat) (inTime : Bool) (air : Nat)
  /-- A scheduled beacon starts once the medium is free, or is dropped after its window (R332). -/
  | beaconStart (lane : Nat) (inTime : Bool) (air : Nat)
  /-- After random jitter, the lane answers a beacon request at PLC_L_BCN.PHASE (R332). -/
  | beaconAnswer (lane : Nat)
  /-- PLC engine op 0 queues a MAC frame to a node or broadcast (R329). -/
  | send (n : Nat)
  /-- PLC engine op 1 places an APDU in the ingest queue as if received (R329). -/
  | reinject (n : Nat)
  /-- PLC engine op 2 copies a node entry and its receive record (R329). -/
  | nodeRd (n : Nat)
  /-- PLC engine op 3 writes masked node entry bytes under the tenant rules (R321). -/
  | nodeWr (n : Nat)
  /-- PLC engine op 4 stores a lane's beacon payload (R329). -/
  | beaconSet (n : Nat)
  /-- PLC_NODE_CMD READ loads a node entry into D0 to D7 and RX0 to RX1 (R336). -/
  | plcNodeRead (host : Nat)
  /-- PLC_NODE_CMD WRITE writes a node entry from D0 to D7 (R321). -/
  | plcNodeWrite (host : Nat)
  /-- PLC_NODE_CMD CLEAR clears a node entry (R336). -/
  | plcNodeClear (host : Nat)
  /-- The rebuild of a node index set after a parity error ends (R321). -/
  | nodeIndexRepairDone
  /-- PLC_L_CMD.CLR clears the lane counters (R337). -/
  | plcLClr (host value : Nat)
  /-- PLC_L_CMD.CLR_TRIM sets TRIM to 0 (R337). -/
  | clrTrim (host value : Nat)
  /-- RFM_R_CTRL.ENABLE switches a radio; draining ends its connections (R338). -/
  | radioEnable (host value : Nat)
  /-- A radio preamble is detected, which starts sync or captures the receiver (R341). -/
  | rfPreambleDetect (radio : Nat) (rssi : Int)
  /-- A sync word is found, or not found within two sync-word times (R341). -/
  | syncWord (radio : Nat) (found : Bool)
  /-- A radio frame passing its FCS goes through security, replay check, reply and fast-path test (R343). -/
  | rfFrameReceived (radio now : Nat) (fcs : Bool) (frame : RfFrame)
  /-- RESP_DELAY after the JOIN_REQ, CONNECT_IND is sent without CSMA (R351). -/
  | connectIndSend (conn now air : Nat)
  /-- No valid frame arrives by 6 × INTERVAL after CONNECT_IND and CONNECT completes with TIMEOUT (R352). -/
  | connectingTimeout (conn : Nat)
  /-- A connection window opens at its predicted time, or waits for the busy receiver (R355). -/
  | windowOpen (conn now : Nat)
  /-- A window closes without a sync word; the event is missed and supervision is checked (R357). -/
  | windowClose (radio now : Nat)
  /-- A meter frame in a window is checked for SN and PCNT, gives a drift sample and gets a reply after T_IFS (R360). -/
  | csmFrameExchange (radio anchor now keyIdx : Nat) (pdu : List (BitVec 8)) (lqi : Nat) (rssi : Int) (air : Nat)
  /-- A connection event ends by FCS failure, no MD, silence or CE_MAX (R360). -/
  | connectionEventEnd (radio now : Nat) (fcsFail : Bool)
  /-- Event INSTANT is reached and the new channel map or parameters apply (R358). -/
  | updateInstant (conn : Nat)
  /-- A held wM-Bus or CSM item exceeds HOLD and completes with TIMEOUT (R362). -/
  | wmbHoldExpiry (radio item : Nat)
  /-- A queued radio frame gains the channel and both budgets, and starts on air (R362). -/
  | rfTxStart (radio now : Nat) (gained : Bool) (air : Nat)
  /-- ACK_TMO passes without acknowledgement and the next attempt or TIMEOUT follows (R362). -/
  | rfAckTimeout (radio : Nat)
  /-- A radio frame waits for budget longer than BWAIT and completes with NO_CREDIT (R366). -/
  | rfBudgetWaitExpiry (radio : Nat)
  /-- Radio engine op 0 sends a SUN, wM-Bus or CSM frame (R364). -/
  | rfSend (n : Nat)
  /-- Radio engine op 1 reinjects an APDU (R364). -/
  | rfReinject (n : Nat)
  /-- Radio engine op 2 answers a JOIN_REQ with a new connection (R351). -/
  | connect (n : Nat)
  /-- Radio engine op 3 issues CHMAP_IND or PARAM_IND for an instant (R358). -/
  | connUpdate (n : Nat)
  /-- Radio engine op 4 sends TERMINATE at the next event (R364). -/
  | terminate (n : Nat)
  /-- Radio engine op 5 copies a connection record (R361). -/
  | connRd (n : Nat)
  /-- RFM_R_CMD.CLR clears the radio counters (R370). -/
  | rfmRClr (host value : Nat)
  /-- KV_FUSE_CMD REREAD reads the whole fuse array again (R374). -/
  | reread (host : Nat) (dev : List FuseRead)
  /-- KV_FUSE_CMD PROGRAM ORs bits into a fuse word and verifies it (R375). -/
  | program (host confirm : Nat) (dev : List FuseRead)
  /-- Every 60 s the fuse array is read again and doubtful words are reported (R374). -/
  | fusePeriodicReread (dev : List FuseRead)
  /-- KV_PROV_CMD LOCK programs ROOT_LOCK in PROVISION (R376). -/
  | lock (host confirm : Nat) (dev : List FuseRead)
  /-- A write of the confirmation value to KV_ZEROIZE starts a zeroize (R393). -/
  | kvZeroize (host value : Nat)
  /-- The ZCOUNT bit, and ROOT_KILL if due, are programmed and ZEROIZE_PENDING clears (R393). -/
  | zeroizeFuseDone (dev : List FuseRead)
  /-- A slot's sealed record is written and verified, or fails, ending its CHANGING state (R384). -/
  | sealRecordDone (slot : Nat) (ok : Bool)
  /-- The last pin of an old-generation key is released and its cells are cleared (R383). -/
  | pinRelease (slot gen : Nat)
  /-- A slot is re-masked, at least once every 10 ms (R382). -/
  | keyRemask (slot : Nat)
  /-- KV_S_CMD.ERASE erases the selected slot (R384). -/
  | erase (host : Nat)
  /-- AES op 0 encrypts with GCM (R396). -/
  | gcmEncrypt (n : Nat)
  /-- AES op 1 decrypts and verifies with GCM (R396). -/
  | gcmDecrypt (n : Nat)
  /-- AES op 2 runs counter mode (R396). -/
  | ctr (n : Nat)
  /-- AES op 3 encrypts with CCM* (R396). -/
  | ccmEncrypt (n : Nat)
  /-- AES op 4 decrypts and verifies with CCM* (R396). -/
  | ccmDecrypt (n : Nat)
  /-- AES op 5 generates a CMAC (R396). -/
  | cmacGenerate (n : Nat)
  /-- AES op 6 verifies a CMAC (R396). -/
  | cmacVerify (n : Nat)
  /-- ECC op 0 verifies a signature (R396). -/
  | ecdsaVerify (n : Nat)
  /-- ECC op 1 signs a digest with RFC 6979 nonces (R396). -/
  | ecdsaSign (n : Nat)
  /-- ECC op 2 agrees a shared secret into a DERIVE slot (R396). -/
  | ecdh (n : Nat)
  /-- ECC op 3 generates a key pair into a slot (R396). -/
  | keygen (n : Nat)
  /-- ECC op 4 returns the public key of a slot (R396). -/
  | publicKey (n : Nat)
  /-- SHA op 0 computes SHA-256 (R396). -/
  | sha256 (n : Nat)
  /-- SHA op 1 computes SHA-384 (R396). -/
  | sha384 (n : Nat)
  /-- SHA op 2 computes SHA-512 (R396). -/
  | sha512 (n : Nat)
  /-- SHA op 3 generates HMAC-SHA-256 (R396). -/
  | hmacGenerate (n : Nat)
  /-- SHA op 4 verifies HMAC-SHA-256 (R396). -/
  | hmacVerify (n : Nat)
  /-- TRNG op 0 returns random bytes (R396). -/
  | randomBytes (n : Nat)
  /-- Vault op 0 checks and applies a key-update message (R389). -/
  | keyUpdate (n : Nat)
  /-- Vault op 1 erases the slot of a handle (R396). -/
  | vaultErase (n : Nat)
  /-- Vault op 2 generates a random key into a slot (R396). -/
  | generate (n : Nat)
  /-- Vault op 3 derives a key with the KDF into a slot (R380). -/
  | derive (n : Nat)
  /-- Vault op 4 rewraps a ledger blob under another WRAP slot (R392). -/
  | rewrap (n : Nat)
  /-- Vault op 5 returns the 32-byte slot information (R402). -/
  | info (n : Nat)
  /-- Vault op 6 signs with the identity key (R396). -/
  | identSign (n : Nat)
  /-- A health test fails, TRNG_OK clears and event 259 is signalled (R399). -/
  | trngTestFail (which : Nat)
  /-- Every 1 s the source reruns its start-up test and sets TRNG_OK when it passes (R399). -/
  | trngRestartTest (pass : Bool)
  /-- The DRBG is reseeded from the entropy source at least once per millisecond (R399). -/
  | drbgReseed
  /-- UPD_STAGE_CMD OPEN makes a bank WRITING (R410). -/
  | stageOpen (host value : Nat)
  /-- UPD_STAGE_CMD WRITE_BLOCK erases and programs one bank sector from the staging buffer (R411). -/
  | writeBlock (host value : Nat)
  /-- UPD_STAGE_CMD VERIFY checks the set in a WRITING bank (R408). -/
  | verify (host value : Nat)
  /-- A WRITE_BLOCK or VERIFY ends, BUSY clears and the result is reported (R411). -/
  | stageCommandDone (readFails : Bool) (faults : List (Nat × BitVec 8))
  /-- UPD_STAGE_CMD ARM arms a STAGED bank (R410). -/
  | stageArm (host value : Nat)
  /-- UPD_STAGE_CMD DISARM returns an ARMED bank to STAGED (R410). -/
  | disarm (host value : Nat)
  /-- UPD_STAGE_CMD ACTIVATE_NOW activates the ARMED bank, or in RESTRICTED marks it TRIAL and resets (R414). -/
  | stageActivateNow (host value : Nat)
  /-- UPD_STAGE_CMD CONFIRM makes the TRIAL bank LKG (R410). -/
  | stageConfirm (host value : Nat)
  /-- UPD_STAGE_CMD REVERT restores the LKG images and makes the TRIAL bank BAD (R410). -/
  | revert (host value : Nat)
  /-- UPD_STAGE_CMD RAISE_FLOOR programs rollback fuse bits up to SEC_VER (R409). -/
  | raiseFloor (host value : Nat) (dev : List FuseRead)
  /-- Once its units have drained, an image is read, loaded and its units re-enabled (R415). -/
  | imageActivate
  /-- An activation fails; activated images are restored and the bank becomes BAD (R416). -/
  | activationFailure
  /-- One image takes more than ACT_TMO and the activation fails (R416). -/
  | actTmoExpiry
  /-- CONFIRM_S seconds pass in TRIAL without a trial fault and the bank becomes LKG (R410). -/
  | trialConfirmExpiry
  /-- Staging op 0 opens a campaign (R422). -/
  | campOpen (n : Nat)
  /-- Staging op 1 writes image bytes (R422). -/
  | campWrite (n : Nat)
  /-- Staging op 2 checks the image hash and stages the campaign (R422). -/
  | campSeal (n : Nat)
  /-- Staging op 3 sends BLK_ANNOUNCE and the missing BLK_DATA blocks (R422). -/
  | campSend (n : Nat)
  /-- Staging op 4 ORs meter bitmaps into the missing-block bitmap (R422). -/
  | merge (n : Nat)
  /-- Staging op 5 prepares BLK_ACTIVATE and arms the campaign (R422). -/
  | prepAct (n : Nat)
  /-- Staging op 6 copies image bytes to the DRAM window (R422). -/
  | campRead (n : Nat)
  /-- Staging op 7 frees the campaign (R422). -/
  | campClose (n : Nat)
  /-- The target cycle of a SENT campaign is reached and it becomes ACTIVATED (R418). -/
  | campaignTargetReached (camp : Nat)
  /-- STO_QCMD READ copies configuration memory to the command buffer (R433). -/
  | qspiRead (host value : Nat)
  /-- STO_QCMD PROGRAM programs and verifies the certificate or user area (R433). -/
  | qspiProgram (host value : Nat)
  /-- STO_QCMD ERASE erases a 64 KiB sector (R433). -/
  | qspiErase (host value : Nat)
  /-- STO_QCMD BOOTHDR rewrites the older boot header copy (R433). -/
  | boothdr (host value : Nat)
  /-- The vault store copies the newest records out of the oldest sector and erases it (R432). -/
  | vaultStoreCompact
  /-- STO_NAND_CMD FORMAT erases NAND and lays out its areas (R440). -/
  | format (host value : Nat) (bad fails : List Nat)
  /-- Flash op 0 reads sectors or log bytes (R450). -/
  | ftlRead (n : Nat)
  /-- Flash op 1 writes BLOCK sectors through the log blocks (R450). -/
  | ftlWrite (n : Nat)
  /-- Flash op 2 appends bytes at HEAD (R442). -/
  | append (n : Nat)
  /-- Flash op 3 marks sectors unwritten (R450). -/
  | trim (n : Nat)
  /-- Flash op 4 advances TAIL (R450). -/
  | reclaim (n : Nat)
  /-- Flash op 5 reports capacity and use (R450). -/
  | ftlInfo (n : Nat)
  /-- A switch or full merge of a BLOCK partition ends (R443). -/
  | mergeDone (part : Nat)
  /-- A page program ends and is read back (R448). -/
  | pageProgramDone (block page bits : Nat)
  /-- A page program fails; the block is rebuilt elsewhere and retired (R446). -/
  | programFailure (block : Nat)
  /-- A STALE block erase passes, making it FREE, or fails and retires it (R444). -/
  | blockEraseDone (block : Nat) (ok : Bool)
  /-- A codeword fails after read-retry; it is rebuilt from parity or gives MEDIA_ERROR (R439). -/
  | uncorrectableRead (block : Nat) (item : Option Nat)
  /-- Every MAP_CK minutes a mapping checkpoint is written (R448). -/
  | mapCheckpoint
  /-- The least-erased DATA block's data move when the erase spread passes WL_DELTA × 100 (R455). -/
  | wearLevelMove (die : Nat)
  /-- A released partition's blocks are erased and its scrub ends (R451). -/
  | partitionScrubDone (part : Nat)
  /-- At T_ENTRY the header, journal and Inkwell records are programmed to the newer HOLDUP area (R452). -/
  | holdupFlush
  /-- The HOLDUP flush completes and the device waits for VSYS to fall (R488). -/
  | holdupFlushDone
  /-- A record reserves Inkwell buffer space and a sequence number, or is suppressed or dropped (R458). -/
  | inkwellRecord (typ tenant : Nat) (body : List (BitVec 8))
  /-- Unflushed Inkwell records are written to NAND or the early area on threshold, period or CRIT (R459). -/
  | inkwellFlush
  /-- INK_CMD.FREEZE freezes the recorder after POST records (R461). -/
  | freeze (host value : Nat)
  /-- INK_CMD.RELEASE releases a freeze and writes a GAP record (R461). -/
  | inkRelease (host value : Nat)
  /-- A freeze lasts FREEZE_MAX seconds and is released with REASON 1 (R461). -/
  | freezeMaxExpiry
  /-- INK_SNAP_CMD.TAKE latches OLDEST and NEWEST for the host (R460). -/
  | inkSnapTake (host value : Nat)
  /-- A write of INK_RD_SEQ reads one record into the read window (R460). -/
  | inkRdSeq (host value : Nat) (fails : Bool)
  /-- Inkwell op 0 stores a task record (R462). -/
  | inkItemWrite (n : Nat)
  /-- Inkwell op 1 copies records to the DRAM window (R462). -/
  | inkItemRead (n : Nat) (fails : Bool)
  /-- Inkwell op 2 returns OLDEST and NEWEST (R462). -/
  | inkItemSnap (n : Nat)
  /-- Inkwell op 3 freezes the recorder, for tenant 0 (R462). -/
  | inkItemFreeze (n : Nat)
  /-- Inkwell op 4 releases the freeze, for tenant 0 (R462). -/
  | inkItemRelease (n : Nat)
  /-- ETH_P_CTRL.ENABLE switches an Ethernet port (R468). -/
  | ethPortEnable (host value : Nat)
  /-- A port link goes up or down, or SFP LOS changes, and event 456 is signalled (R492). -/
  | ethLinkChange (port : Nat) (up : Bool) (speed : Nat)
  /-- A received Ethernet frame is learned and forwarded, delivered internally, or handled by PRP (R470). -/
  | ethFrameReceived (port : Nat) (frame : List (BitVec 8)) (ok : Bool) (badSrc badDst : List Nat)
  /-- Every LIFE_MS supervision frames are sent on both LANs (R472). -/
  | prpSupervision
  /-- A PRP node not heard for FORGET_S is removed, and single-LAN silence is reported (R472). -/
  | prpNodeForget (node : Nat) (lan : Option Nat)
  /-- Every 2^LOG_REQ s the port sends Delay_Req or Pdelay_Req (R471). -/
  | ptpRequestSend (port : Nat)
  /-- ETH_FDB_CMD LOOKUP finds a forwarding entry (R470). -/
  | fdbLookup (host value : Nat) (bad : List Nat)
  /-- ETH_FDB_CMD INSERT_STATIC writes a static forwarding entry (R470). -/
  | fdbInsertStatic (host value : Nat) (bad : List Nat)
  /-- ETH_FDB_CMD DELETE removes a forwarding entry (R470). -/
  | fdbDelete (host value : Nat) (bad : List Nat)
  /-- ETH_FDB_CMD FLUSH_DYNAMIC removes every dynamic entry (R470). -/
  | flushDynamic (host value : Nat)
  /-- ETH_P_CMD.CLR clears the port counters (R492). -/
  | ethPClr (host value : Nat)
  /-- An edge on CLAIM_IN asserts it and removes GRANT within 2 µs (R474). -/
  | claimInEdge
  /-- 25 µs pass without an edge and CLAIM_IN reads not asserted (R474). -/
  | claimInRelease
  /-- The safety refresh is missing for 1 ms and the claim toggle stops (R474). -/
  | claimRefreshMissing
  /-- Every 100 µs a HEARTBEAT item is sent on the pair link (R476). -/
  | heartbeatSend
  /-- A received HEARTBEAT updates the partner state and drives the pair state machine (R476). -/
  | heartbeat (body : List (BitVec 8))
  /-- A received JOURNAL item is applied by the standby and acknowledged (R476). -/
  | journal (data : List (BitVec 8))
  /-- A received RESYNC item's sectors are applied by the standby (R481). -/
  | resync (data : List (BitVec 8))
  /-- A received NOTICE of RELEASE or HOLDUP meets the takeover condition (R478). -/
  | notice
  /-- LISTEN_MS pass with no claim and no ACTIVE partner, and the unit starts CLAIMING (R477). -/
  | listenTimeout
  /-- 50 µs pass in CLAIMING with CLAIM_IN not asserted, and the unit becomes ACTIVE with GRANT (R477). -/
  | claimSettle
  /-- No valid heartbeat for HB_MISS × 100 µs, which may trigger takeover (R478). -/
  | heartbeatMiss
  /-- The partner shows ACTIVE while CLAIM_IN stays not asserted for 1 ms, and the state becomes CONFLICT (R477). -/
  | conflictDetect
  /-- CLAIM_IN and heartbeat agree for 10 ms and CONFLICT returns to LISTEN (R477). -/
  | conflictResolve
  /-- RES_CLAIM_CMD RELEASE gives up the ACTIVE claim to a synced standby (R477). -/
  | claimRelease (host value : Nat)
  /-- RES_CLAIM_CMD TAKE allows an unsynced takeover (R478). -/
  | claimTake (host value : Nat)
  /-- A tenant's copy stream ends and catch-up starts (R481). -/
  | resyncStreamEnd (tenant : Nat)
  /-- Every 10 µs the flush cost is recomputed against E_AVAIL, and withholding starts or ends (R485). -/
  | reservoirCostUpdate (v mw : Nat)
  /-- RES_HU_CMD.TEST requests a capacitance test (R487). -/
  | test (host value : Nat)
  /-- Every PERIOD_H hours, or 60 s after a deferral, a capacitance test starts (R487). -/
  | capTestPeriod
  /-- A test ends on DV, T_MAX or the V_PF limit; HU_ISO closes and C_MEAS is computed (R487). -/
  | capTestEnd (v1 v2 energy : Nat)
  /-- V_NOW stays below V_PF for 20 µs; mode HOLDUP, GRANT falls and tags are cancelled (R488). -/
  | holdupEntry (v : Nat)
  /-- Every 250 µs the sequencer samples inputs, evaluates functions, drives outputs and checks read-back (R497). -/
  | safetyScan (scan : SafScan)
  /-- Every OP_PERIOD an energized output is switched off for OP_WIDTH and its read-back checked (R499). -/
  | offPulse (output : Nat) (fell rose : Bool)
  /-- At most hourly, with outputs off for 10 ms, SAF_KILL goes low for 1 ms and its read-back is checked (R500). -/
  | killTest (ok : Bool)
  /-- SAF_CMD ARM checks the configuration CRC and starts the channel in RUN (R501). -/
  | safArm (host value : Nat) (killOk : Bool)
  /-- SAF_CMD RESET returns DEGRADED to RUN or SAFE to OFF where allowed (R501). -/
  | safReset (host value : Nat) (passed : Bool)
  /-- SAF_CMD RESTART ends LATCHED for the named functions (R497). -/
  | restart (host value : Nat)
  /-- The safety DEG timer expires and the channel goes SAFE (R501). -/
  | degTimerExpiry
  /-- A tamper loop opens or the mesh fails, which asserts the tamper line (R506). -/
  | tamperDetect (cause : Nat)
  /-- A W1S write to SAF_TAMP_CFG enables loops or mesh, and an already open loop asserts tamper (R506). -/
  | tampCfgWrite (host value broken : Nat)
  /-- HVIN passes 7.6 V and the controller starts the buck stage (R509). -/
  | hvinRise (v : Nat)
  /-- HVIN falls below 7.2 V and the controller stops (R509). -/
  | hvinFall (v : Nat)
  /-- All earlier groups have been good for 1 ms and the next rail group is enabled (R511). -/
  | railGroupEnable
  /-- A group is not good within 10 ms; enables drop and a restart follows after 100 ms (R511). -/
  | failedStart
  /-- 100 ms after a failed start the sequence starts again (R511). -/
  | startRetry
  /-- VSYS falls below 4.5 V; rails power down and the vault switches to VBAT (R511). -/
  | vsysFall (mv : Nat)
  /-- A rail outside tolerance for 20 µs causes a cold reset with cause RAIL (R512). -/
  | railFault (rail : Nat)
  /-- A rail outside two thirds of tolerance for 1 ms sets WARN as a detected fault (R512). -/
  | railWarn (rail : Nat)
  /-- VBAT reads below 2.2 V and event 6 is signalled (R513). -/
  | vbatLow (mv : Nat)
  /-- After reset or VAULT exit, BOOT reads fuses, configuration memory and the set, loads the vault and brings up NAND (R524). -/
  | boot (env : BootEnv)
  /-- DRAM training and ECC initialisation, or self-refresh exit, end (R524). -/
  | dramInitDone
  /-- Once BOOT's steps end and the thermal band allows, the device enters its role mode or STANDBY (R517). -/
  | roleEntry (ms : Nat)
  /-- BOOT overruns TMO_S, BOOT_FAILS increments and a cold reset follows (R525). -/
  | bootTimeout
  /-- PWR_MODE_REQ ISLAND enters ISLANDED at once (R519). -/
  | island (host value : Nat)
  /-- PWR_MODE_REQ CONNECT returns to CONCENTRATOR at once (R519). -/
  | connectReq (host value : Nat)
  /-- PWR_MODE_REQ DEGRADE raises the SUPERVISOR detected fault (R518). -/
  | degrade (host value : Nat)
  /-- PWR_MODE_REQ RESUME leaves DEGRADED if no fault persists (R518). -/
  | resume (host value : Nat)
  /-- A detected fault sets PWR_FAULT and moves a role mode to DEGRADED or releases the claim (R518). -/
  | detectedFault (bit : Nat)
  /-- All backhaul hosts DOWN, or one UP, for DELAY_S changes between ISLANDED and CONCENTRATOR (R519). -/
  | islandDelayExpiry (up : Bool)
  /-- The DEGRADED timer expires and a warm reset runs (R517). -/
  | degradedTimerExpiry
  /-- PWR_RESET WARM requests a warm reset (R522). -/
  | warm (host value : Nat)
  /-- PWR_RESET COLD requests a cold reset (R522). -/
  | cold (host value : Nat)
  /-- RST_N held low for 10 µs causes a cold reset (R522). -/
  | rstNLow
  /-- After the flush, V_NOW at V_PF + 2 V for 100 ms causes a warm or cold reset (R520). -/
  | holdupReturn (v : Nat)
  /-- Every 10 ms the temperature sensors are sampled and TJ_MAX is updated (R526). -/
  | thermalSample (temps : List Int)
  /-- A threshold crossing held for 2 s qualifies, which changes the band, rereads fuses and may throttle or enter HOLDUP (R527). -/
  | thermalCrossing (k : Nat) (up : Bool) (dev : List FuseRead)
  /-- RESTART_S after a thermal HOLDUP the buck stage restarts (R517). -/
  | thermalRestart
  /-- PCIE_PERSTn_N low holds an endpoint in reset and takes its attachment DOWN (R549). -/
  | pciePerst (endpoint : Nat)
  /-- The DRAM patrol scrubber reads a burst and writes back corrections, or reports an uncorrectable burst (R548). -/
  | patrolScrub (bad : Option Nat)
  /-- A write of PAD_G_CFG.FUNC selects ALT, and is refused for GP6 to GP15 (R562). -/
  | padFuncWrite (host value : Nat)
  /-- At each whole second of a VALID or HOLDOVER domain, a PPS output rises (R562). -/
  | ppsPulse (domain : Nat)
  /-- WIDTH ms after its rise, a PPS pulse ends (R562). -/
  | ppsWidthEnd (domain : Nat)
  /-- A radio transmission ends at the antenna; the receiver goes from TX back to LISTEN, RFn_PA_EN falls PA_LAG later and the acknowledgement
  timeout starts (R341). -/
  | rfTxEnd (radio : Nat)
  /-- VBAT falls below 1.8 V while VSYS is off, and the vault domain loses its counts, VAULT_SEQ, ZEROIZE_PENDING and other contents (R65). -/
  | vbatLost
deriving DecidableEq, Repr

end Sys2Proof
end

