-- ==== Sys2Proof/Machine/State.lean ====
section
/-! DEFINITION. The machine's state as plain data, its reset value, and the reasons a step can stop. -/
namespace Sys2Proof.Machine

/-- Faults of a step. No command of this hardware ends in one: the spec gives every row of the table an effect. -/
inductive Fault where
  /-- Raised by nothing: kept so that the closed type has a name to print. Safe: a step that never answers it proves nothing false. -/
  | none
deriving DecidableEq, Repr

/-- Refusals of a step. -/
inductive Refusal where
  /-- Answered only by an arm of `exec` whose meaning has not been written. Safe: nothing can be proved about a command that is refused. -/
  | notModelled (mnemonic : String)
deriving DecidableEq, Repr

/-- The register blocks of R34; `db` is the doorbell space BAR2 (R267). -/
inductive Blk where
  | chip | ten | rng | evt | scb | prm | pip | ldg | bal | mpt | plc | rfm | kv | upd | sto | res | eth | saf | pwr | pad | db
deriving DecidableEq, Repr

/-- The access codes of R7. -/
inductive Acc where
  | ro | rw | wo | w1c | w1s | rwl | rws
deriving DecidableEq, Repr

/-- One register field: where it lies, how it is accessed, what it reads at reset, and the values a write may carry (R563;
no range listed means every value). `kind` tells apart windows that share offsets (R35), 9 marks a direct register with
one copy per host; `cnt` and `stride` give a row of equal registers. -/
structure Fld where
  id : Nat
  blk : Blk
  kind : Nat
  off : Nat
  cnt : Nat
  stride : Nat
  msb : Nat
  lsb : Nat
  acc : Acc
  rst : Nat
  ranges : List (Nat × Nat)
deriving DecidableEq, Repr

/-- A sparse table in canonical form: keys strictly rising, no entry equal to the table's default. -/
abbrev Tab (α : Type) := List (Nat × α)

/-- What the device sends out of itself, newest last (the model's own record of its outputs). -/
inductive Out where
  /-- A frame on a medium: 0 Ethernet port, 1 PLC lane, 2 radio; `unit` is the port, lane or radio. -/
  | frame (medium unit : Nat) (bytes : List (BitVec 8))
  /-- A MAC frame whose layout is the standard's: medium as above, unit, kind (0 data, 1 acknowledgement, 2 tone map response, 3 mark burst 1,
  4 mark burst 2, 5 beacon, 8 data with the tone map request bit), destination node, payload. -/
  | mac (medium unit kind dest : Nat) (payload : List (BitVec 8))
  /-- An interrupt vector of a host (R288). -/
  | irq (host vector : Nat)
  /-- Words returned to a host on its attachment (R268, R297, R75). -/
  | reply (host : Nat) (words : List Nat)
  /-- A level driven on a named output: 0 HU_ISO, 1 SAF_KILL, 2 radio enables (4 + n PA_EN, 6 + n LNA_EN of radio n), 3 PPS, 4 PWR_EN, 5 SHP_IRQ, 6 compare trigger, 7 CLAIM_OUT,
  8 a safety output, 9 a pad output. -/
  | pin (name unit level : Nat)
deriving DecidableEq, Repr

/-! ### Protection (R23, R24, R48) -/

/-- One bank of the protection table: tenant-record words (word 16·t + w) and the six owner maps, as written (R23, R48). -/
structure Bank where
  recs : Tab Nat := []
  ring : Tab Nat := []
  task : Tab Nat := []
  slot : Tab Nat := []
  event : Tab Nat := []
  cal : Tab Nat := []
  part : Tab Nat := []
deriving DecidableEq, Repr

/-- The phase of an epoch switch (R25): idle, before the bank exchange, or copying. -/
inductive EpochPhase where
  | idle | checking | copying
deriving DecidableEq, Repr

/-- The resource kinds that are cleared when they leave a tenant (R19). -/
inductive ScrubKind where
  | slot | ledgers | calendar | partition
deriving DecidableEq, Repr

/-- A resource still being scrubbed (R19): waiting for its release (R28), or being cleared. -/
structure Scrub where
  kind : ScrubKind
  base : Nat
  count : Nat
  released : Bool
  /-- The tenant that lost it. -/
  tenant : Nat
deriving DecidableEq, Repr

/-- Tenants and the protection table. `held` are pending-bank writes held during a switch, oldest first: offset, width in bits, value (R27). -/
structure TenS where
  active : Bank := {}
  pend : Bank := {}
  phase : EpochPhase := .idle
  held : List (Nat × Nat × Nat) := []
  scrubs : List Scrub := []
deriving DecidableEq, Repr

/-! ### Time bases (R49 to R79) -/

/-- A grid domain's clock. `now` is seconds and nanoseconds, `frac` the part of a nanosecond below it in units of 2^-32 ns. -/
structure GridDom where
  now : Nat × Nat := (0, 0)
  frac : Nat := 0
deriving DecidableEq, Repr

/-- An armed compare unit (R67 to R70): its next target over the full width of its base (pu, ns or s), and that the target had already
passed when the unit was armed or released. -/
structure CmpU where
  next : Nat := 0
  late : Bool := false
deriving DecidableEq, Repr

/-- The time bases beyond their registers. -/
structure TimeS where
  mpt : Nat := 0
  /-- Thousandths of a pu below `mpt`, and the correction still to be made by rate, in pu (R52). -/
  frac : Nat := 0
  slew : Int := 0
  /-- The last measured frequency in mHz; consecutive valid crossings, and missing or invalid ones (R51). -/
  freq : Nat := 50000
  good : Nat := 0
  miss : Nat := 0
  /-- A cycle count that waits for the next phase 0x0000 (R55). -/
  load : Option Nat := none
  /-- Time spent in HOLDOVER, in pu; NOMINAL was reached from HOLDOVER, so that it follows the selected grid domain (R51). -/
  held : Nat := 0
  follow : Bool := false
  /-- The selected domain has left INVALID since the last power-on or cold reset (R56). -/
  left : Bool := false
  gt0 : GridDom := {}
  gt1 : GridDom := {}
  cmps : Tab CmpU := []
  /-- The PPS outputs in a pulse (R562), bit by domain. -/
  pps : Nat := 0
  /-- Kept in the vault domain with the vault clock on: domain and grid time at power-down (R65). -/
  saved : Option (Nat × Nat × Nat) := none
deriving DecidableEq, Repr


/-! ### The reading pipeline (R80 to R128) -/

/-- Where a reading came from. -/
inductive Origin where
  | ring (ring slot gen : Nat)
  | lane (lane : Nat)
  | radio (radio : Nat)
deriving DecidableEq, Repr

/-- What a commit passes to the balance engine (R193): whether the ledger had a last reading with a time, that time and METER_TIME, the
net energy in 0.1 Wh, the node and bucket, and the tamper bits newly set. -/
structure BalIn where
  had : Bool
  t0 : Nat
  t1 : Option Nat
  net : Int
  node : Nat
  bucket : Nat
  tamper : Nat
deriving DecidableEq, Repr

/-- A reading: a tag's contents, or a reading that has no tag yet (R80, R90, R107, R115). Stage codes are those of R115;
`st` is the tag state of R90: 0 FREE, 1 ACTIVE, 2 COMMITTED, 3 ENDING. -/
structure Reading where
  st : Nat := 0
  gen : Nat := 0
  stage : Nat := 0
  tenant : Nat := 0
  ledger : Option Nat := none
  status : Nat := 0
  origin : Origin := .ring 0 0 0
  prio : Nat := 7
  /-- The host and the protection epoch under which it was issued (R16); a field reading's node index and LQI (R317). -/
  host : Nat := 0
  epoch : Nat := 0
  node : Option Nat := none
  lqi : Nat := 0
  /-- R80: LEN, hint, alternate profile, title, receipt time (seconds, milliseconds), digest. -/
  len : Nat := 0
  hint : Option Nat := none
  alt : Bool := false
  title : List (BitVec 8) := []
  rxTime : Option (Nat × Nat) := none
  rxMpt : Nat := 0
  digest : Option (List (BitVec 8)) := none
  bufAddr : Nat := 0
  /-- Host read attempts made so far (R117). -/
  tries : Nat := 0
  apdu : List (BitVec 8) := []
  plain : List (BitVec 8) := []
  raw : Bool := false
  ic : Nat := 0
  /-- The reading record of R107, as 8 dwords. -/
  record : List (BitVec 64) := []
  /-- The result flags of R115. -/
  flags : Nat := 0
  reason : Nat := 0
  /-- Staged on chip (R83). -/
  onchip : Bool := false
  /-- The key found by the key-fetch stage: encryption key, authentication key, suite. -/
  key : Option (List (BitVec 8) × List (BitVec 8) × Nat) := none
  /-- Waiting on a fill of its ledger (R97). -/
  waitFill : Bool := false
  /-- A profile's plausibility task has been asked (R109). -/
  plausAsked : Bool := false
  /-- The cluster that ran its parse task; it commits in that pipe (R150). -/
  cluster : Nat := 0
  lockBroken : Bool := false
  commitSeq : Nat := 0
  balanceDone : Bool := false
  bal : Option BalIn := none
  /-- Old generation of an ENDING tag, reported in its completion (R90). -/
  endGen : Nat := 0
deriving DecidableEq, Repr

/-- An entry of the hidden meter-key cache (R95). -/
structure KeyEnt where
  ledger : Nat
  blobGen : Nat
  handle : Nat
  encKey : List (BitVec 8)
  authKey : List (BitVec 8)
  suite : Nat
  dedicated : Bool := false
deriving DecidableEq, Repr

/-- A bucket entry of the meter-ID hash (R85). -/
structure HashEnt where
  title : List (BitVec 8)
  ledger : Nat
  tenant : Nat
deriving DecidableEq, Repr

/-- A key fill in progress (R97): the ledger, attempts made, and the pinned handle; `dead` once every reading that waited has ended (R118). -/
structure Fill where
  ledger : Nat
  handle : Nat
  tries : Nat
  dead : Bool := false
deriving DecidableEq, Repr

/-- The pipeline beyond its registers. -/
structure PipS where
  tags : Tab Reading := []
  /-- Free tags first in, first out (R91): those from `fresh` up have never been used and come first, then those freed, oldest first. -/
  freed : List Nat := []
  fresh : Nat := 0
  /-- Ring readings before their tag: key ring × 65,536 + slot. -/
  pre : Tab Reading := []
  /-- Ingest queues of field frames, oldest first: lanes 0 to 3, radios 4 and 5 (R121). -/
  ingest : Tab (List Reading) := []
  /-- The key cache, by set; most recently used first. -/
  cache : Tab (List KeyEnt) := []
  fills : List Fill := []
  /-- The hash buckets, the stash, the salt draw, and the buckets that wait for repair, the one under repair first (R88). -/
  buckets : Tab (List HashEnt) := []
  stash : List HashEnt := []
  salt : Nat := 0
  repair : List Nat := []
  /-- Field readings that HOLDUP cancelled; the recovery counts them (R119, R120). -/
  lost : Nat := 0
  /-- Route entries (8 words each), profiles (8 words each) and OBIS sets (2 words each), as written. -/
  routes : Tab Nat := []
  profiles : Tab Nat := []
  obis : Tab Nat := []
  /-- Source 1024 has been signalled for the present crossing. -/
  lowSignalled : Bool := false
deriving DecidableEq, Repr

/-! ### Ledgers, journal, calendars (R129 to R173) -/

/-- Who holds or asks for a ledger lock: a scribe context, or the commit pipe for a reading's tag (R256). -/
inductive LOwner where
  | ctx (n : Nat)
  | pipe (tag : Nat)
deriving DecidableEq, Repr

/-- A waiter for a lock: who, its priority, and its order of arrival (R255). -/
structure LWait where
  who : LOwner
  prio : Nat
  stamp : Nat
deriving DecidableEq, Repr

/-- A ledger lock (R253, R256). -/
structure LLock where
  owner : Option LOwner := none
  broken : Bool := false
  waiters : List LWait := []
deriving DecidableEq, Repr

/-- A scribe program's open transaction (R134): the kind, the ledger, the writes (dword, mask, value) in order, the four
arguments; `timedOut` once LDG_TXN_TMO aborted it (R135). -/
structure Txn where
  ledger : Nat
  kind : Nat
  writes : List (Nat × Nat × Nat) := []
  args : Tab Nat := []
  timedOut : Bool := false
deriving DecidableEq, Repr

/-- A journal record (R137): its sequence number, target and bytes. -/
structure JRec where
  seq : Nat
  typ : Nat
  target : Nat
  bytes : List (BitVec 8)
deriving DecidableEq, Repr

/-- A calendar's control word (R173) and the EFF_TIME of its active copy (R160). -/
structure CalCtl where
  activeB : Bool := false
  activeValid : Bool := false
  passive : Nat := 0
  calSeq : Nat := 0
  eff : Nat := 0
deriving DecidableEq, Repr

/-- One of a tenant's two checkpoint slots (R144): S0, whether complete, the ledgers and calendars copied. -/
structure Ckpt where
  s0 : Nat := 0
  complete : Bool := false
  ledgers : Tab (Tab Nat) := []
  cals : Tab (List (BitVec 8) × List (BitVec 8) × CalCtl) := []
deriving DecidableEq, Repr

/-- A tenant's journal and checkpoints. -/
structure TenJ where
  /-- Records in the journal buffer, oldest first. -/
  buf : List JRec := []
  /-- Records programmed in the NAND journal partition, oldest first. -/
  nand : List JRec := []
  /-- Records handed to the HOST sink ring: sequence number, last entry (65536 for a record the ring no longer holds). -/
  hostSent : List (Nat × Nat) := []
  /-- The NAND sink's unprogrammed page has records. -/
  partial_ : Bool := false
  /-- Position in the journal partition of each record in NAND (R450). -/
  npos : Tab Nat := []
  /-- A resync of a LOST NAND sink waits for a new checkpoint (R143). -/
  nandWait : Bool := false
  slots : Tab Ckpt := []
  /-- The slot a running checkpoint writes, and the COMMIT_SEQ of its CKPT_END once journaled. -/
  running : Option Nat := none
  endSeq : Option Nat := none
  nextSlot : Nat := 0
  /-- Resynchronisation of the partner (R481): 0 NONE, 1 COPY, 2 CATCHUP, 3 SYNCED, and its S0. -/
  sync : Nat := 0
  syncS0 : Nat := 0
  /-- The source of a rebuild: COMMIT_SEQ of the last record applied. -/
  lastApplied : Nat := 0
  /-- Records recovered from the HOLDUP image (R146). -/
  holdup : List JRec := []
  /-- The HOST sink is given records that NAND alone holds before those in the buffer (R143). -/
  hostNand : Bool := false
  /-- 1 more than the full tag of a committed reading whose completion is outstanding, by COMMIT_SEQ (R119, R280). -/
  tags : Tab Nat := []
deriving DecidableEq, Repr

/-- A ledger cache line (R150 to R152): its slice, the sectors it holds, dirty sectors, whether a writeback is under way, and the clusters waiting for it. -/
structure Line where
  slice : Nat := 0
  valid : Nat := 0
  dirty : Nat := 0
  wb : Bool := false
  waiting : List Nat := []
deriving DecidableEq, Repr

/-- The ledger engine beyond its registers. -/
structure LdgS where
  /-- Each ledger's 128 dwords, as the engine sees them (cache and DRAM together). -/
  ledgers : Tab (Tab Nat) := []
  locks : Tab LLock := []
  txns : Tab (Option Txn) := []
  cals : Tab CalCtl := []
  pendList : List Nat := []
  ten : Tab TenJ := []
  /-- The quarantine table: ledger and REASON, by entry (R173). -/
  quar : Tab (Option (Nat × Nat)) := []
  /-- The tenants quarantined whole keep the ledgers that could not be entered (R156). -/
  quarAll : Tab (List Nat) := []
  /-- A quarantine CLEAR that waits for journal room (R142, R171). -/
  quarWait : Option Nat := none
  /-- Calendars whose activation waits for journal room (R142, R160). -/
  actWait : List Nat := []
  watch : List Nat := []
  /-- Archive records that wait for their ring, by tenant, oldest first (R112). -/
  arch : Tab (List (List (BitVec 8))) := []
  lines : Tab (Option Line) := []
  /-- Lines of a set of a slice, least recently used first: key slice × 64 + set. -/
  lru : Tab (List Nat) := []
  rotate : Nat := 0
  /-- Journal-buffer use was above 1,536 KiB at the last check (event 1153). -/
  high : Bool := false
  stamp : Nat := 0
  /-- Failed attempts of a ledger's sector read (R117). -/
  sectorTries : Tab Nat := []
  /-- Rotating cluster pointer of the directory (R152) is `rotate`; requests of clusters granted by the last landing, in order. -/
  granted : List Nat := []
deriving DecidableEq, Repr
/-! ### The pair (R474 to R481) -/

/-- The pair beyond its registers: what the partner's last heartbeat showed, and the conditions R477 and R478 wait on. -/
structure PairS where
  /-- RES_PAIR_CFG.EN as it stood at BOOT (R490). -/
  en : Bool := false
  /-- A detected fault in STANDBY has not been ended by RESUME: condition 2 of R478 does not hold (R517). -/
  faulty : Bool := false
  heard : Bool := false
  partnerSynced : Bool := false
  partnerGrant : Bool := false
  partnerAbi : Nat := 0
  partnerMpt : Nat := 0
  /-- A NOTICE arrived. -/
  notice : Bool := false
  /-- The supervisor wrote TAKE. -/
  take : Bool := false
  /-- Refusal already signalled for the present takeover condition (R478). -/
  refusedSig : Bool := false
  /-- Heartbeats are missing now. -/
  hbMissing : Bool := false
  /-- The partner has the same UNIT value (R473). -/
  sameUnit : Bool := false
  /-- Bytes copied since the last NONE (RES_SYNC_MIB). -/
  copied : Nat := 0
deriving DecidableEq, Repr

/-! ### The balance engine (R174 to R210) -/

/-- A boundary of a window set (R181): its cycle, UTC in milliseconds, marks, and the six latched totals (import A, B, C, export A, B, C). -/
structure Bound where
  cyc : Nat
  ms : Nat
  late : Bool := false
  degraded : Bool := false
  tot : List Nat := []
deriving DecidableEq, Repr

/-- A bucket accumulator (R195): signed demand, variance, members covered, members aligned. -/
structure BAcc where
  demand : Int := 0
  var : Nat := 0
  covered : Nat := 0
  aligned : Nat := 0
deriving DecidableEq, Repr

/-- A node in a window: taking part, first window since enabled, accumulators of buckets 0 to 4, expected members of buckets 0 to 3,
members with new tamper bits, and whether a child fed bucket 0. -/
structure NodeWin where
  on : Bool := false
  first : Bool := false
  accs : Tab BAcc := []
  expected : Tab Nat := []
  tamp : Nat := 0
  fed0 : Bool := false
deriving DecidableEq, Repr

/-- A window: WS_SEQ of its closing, opening and closing boundary, marks, and its nodes. -/
structure Window where
  seq : Nat := 0
  start : Bound
  stop : Option Bound := none
  early : Bool := false
  /-- Time in it was not LOCKED (R179). -/
  degraded : Bool := false
  /-- A feeder detector was active in it (R201). -/
  tamper : Bool := false
  nodes : Tab NodeWin := []
deriving DecidableEq, Repr

/-- A window set: the open window, the closed ones oldest first (R183), and every boundary taken, newest first. -/
structure WinSet where
  cur : Option Window := none
  closed : List Window := []
  bounds : List Bound := []
  /-- Phases whose accumulators the newest boundary has still to latch, at the start of their cycle (R181). -/
  latch : List Nat := []
deriving DecidableEq, Repr

/-- The balance engine beyond its registers. -/
structure BalS where
  sets : Tab WinSet := []
  /-- The member entries (R192). -/
  memb : Tab Nat := []
  /-- For each ledger, the time of the boundary its last aligned reading ended at, plus 1. -/
  lastAligned : Tab Nat := []
  /-- The fractions carried by the twelve energy accumulators (R177), and the last 64 corrected voltage samples of each phase (R176). -/
  frac : Tab Nat := []
  tails : Tab (List Int) := []
  /-- The corrected current samples of each phase's latest cycle, and each feeder detector's run of cycles (R205). -/
  currents : Tab (List Int) := []
  runs : Tab Nat := []
  /-- The HI halves of the energy accumulators as latched, by their offset (R209). -/
  energyHi : Tab Nat := []
  /-- The mark-table entry that is replaced next (R188). -/
  nextMark : Nat := 0
  /-- The next sequence number of the Thosa frames this device sends (R185). -/
  thSeq : Nat := 0
deriving DecidableEq, Repr


/-! ### Tasks (R211 to R231) -/

/-- An event delivered to a task input: source number and payload (R216, R219). -/
structure Evt where
  src : Nat
  pay : List (BitVec 8)
deriving DecidableEq, Repr

/-- A task's state beyond its registers. -/
structure Task where
  /-- TSK_CYC_HI as the latest read of TSK_CYC_LO latched it (R259). -/
  cycHi : Nat := 0
  /-- Queued events by input, oldest first (QUEUE mode). -/
  queues : Tab (List Evt) := []
  /-- The saved image of w1 to w31. -/
  saved : Tab (BitVec 64) := []
  /-- Input served at the previous dispatch. -/
  last : Nat := 7
  /-- Order stamp of the moment it last became READY. -/
  readyAt : Nat := 0
deriving DecidableEq, Repr
/-! ### Scribe contexts and work items (R211, R216, R222, R236, R239) -/

/-- Why a context does not issue: not at all, EVWAIT on a mask, a ledger lock, or a primitive lock, with the register its answer goes to. -/
inductive CtxWait where
  | none
  | event (mask rd : Nat)
  | ledger (ledger kind rd : Nat)
  | lock (lock rd : Nat) (limit : Nat)
deriving DecidableEq, Repr

/-- A context: what it holds from dispatch until its handler ends (R211). -/
structure Ctx where
  task : Option Nat := none
  gen : Nat := 0
  pc : Nat := 0
  /-- w1 to w31; w0 is never listed. -/
  w : Tab (BitVec 64) := []
  input : Nat := 0
  prio0 : Bool := false
  cycles : Nat := 0
  /-- Instructions since dispatch or the last wait that restarts the count (R226). -/
  run : Nat := 0
  /-- The bound tag: index and generation. -/
  tag : Option (Nat × Nat) := none
  /-- The ring command it handles: ring, slot (R277). -/
  cmd : Option (Nat × Nat) := none
  locks : List Nat := []
  /-- The XST store buffer: DRAM address, 8-byte value, oldest first. -/
  stores : List (Nat × Nat) := []
  wait : CtxWait := .none
deriving DecidableEq, Repr

/-- A work item handed to an engine by ISSUE (R239), with the identity of R16. -/
structure Item where
  task : Nat
  gen : Nat
  tenant : Nat
  ctx : Nat
  host : Nat := 0
  epoch : Nat
  engine : Nat
  urgent : Bool
  ticket : Nat
  bytes : List (BitVec 8)
  /-- The verdict of the check at issue (R25): 0, TENANT_OFF or PROTECTION. -/
  verdict : Nat := 0
  /-- The key generation pinned at issue (R383): slot, generation; and that of the second handle. -/
  pin : Option (Nat × Nat) := none
  pin2 : Option (Nat × Nat) := none
  /-- The engine has taken it up and answers later. -/
  inService : Bool := false
  /-- Its outcome: status, result word. -/
  done : Option (Nat × Nat) := none
  /-- Its results are discarded: the task stopped (R224). -/
  dead : Bool := false
deriving DecidableEq, Repr

/-- The scribes beyond their registers. -/
structure ScbS where
  ctxs : Tab Ctx := []
  items : Tab (Option Item) := []
  nextItem : Nat := 0
  /-- The instruction store, 131,072 words (R230). -/
  istore : Tab Nat := []
  /-- Words of the instruction store, and tasks, whose stored state carries a parity error (R238). No command causes one; a write of the word, or
  turning the task ON, mends it. -/
  badWords : List Nat := []
  badTasks : List Nat := []
  /-- Data page owner map, as written (R231). -/
  pages : Tab Nat := []
  /-- Virtual time of each tenant (R227), and the share-0 tenant served last. -/
  vtime : Tab Nat := []
  rot0 : Nat := 0
  stamp : Nat := 0
deriving DecidableEq, Repr

/-! ### Credit queues, tables, locks (R241 to R256) -/

/-- A credit queue's contents: 16-byte entries as pairs of words from HEAD to TAIL, and each end's unpublished count (R242, R243). -/
structure Queue where
  entries : List (Nat × Nat) := []
  /-- Entries the producer has pushed but not published, and the consumer has popped but not published. -/
  unpub : Nat := 0
  unret : Nat := 0
deriving DecidableEq, Repr

/-- An entry of a hashed table (R246 to R251). -/
structure TblEnt where
  key : Nat
  value : Nat
  isStatic : Bool := false
  hit : Bool := false
  age : Nat := 0
  bad : Bool := false
  /-- Set and way it sits in. -/
  bucket : Nat := 0
  way : Nat := 0
deriving DecidableEq, Repr

/-- A hashed table: its entries and salt. -/
structure HTab where
  ents : List TblEnt := []
  salt : Nat := 0
deriving DecidableEq, Repr

/-- Who asks for a primitive lock: a context. -/
structure PWait where
  ctx : Nat
  prio : Nat
  stamp : Nat
deriving DecidableEq, Repr

/-- A primitive lock (R252, R253): state 0 FREE, 1 HELD, 2 BROKEN. -/
structure PLock where
  st : Nat := 0
  /-- The owner's context, task, tenant, and its host where it serves a ring command (KIND 1). -/
  ctx : Nat := 0
  task : Nat := 0
  tenant : Nat := 0
  host : Option Nat := none
  waiters : List PWait := []
deriving DecidableEq, Repr

/-- Primitives beyond their registers. -/
structure PrmS where
  queues : Tab Queue := []
  tables : Tab HTab := []
  locks : Tab PLock := []
  stamp : Nat := 0
deriving DecidableEq, Repr


/-! ### Host attachments, rings, events (R263 to R304) -/

/-- How far an outstanding descriptor has come (R274 to R281). -/
inductive DescSt where
  /-- Fetched and checked, held back by FENCE (R274). -/
  | fenced
  /-- A TASK_CMD that waits for its command-area entry, input 5 or pool quota (R276). -/
  | waitDeliver
  /-- In the priority-0 queue, waiting for a reserved context (R223). -/
  | waitPrio0
  /-- Delivered to its task, or bound to a handler, or an INGEST in the pipeline. -/
  | running
  /-- Its outcome is fixed but no completion slot is free (R281). -/
  | waitCq (status : Nat) (result : List (BitVec 8))
deriving DecidableEq, Repr

/-- A fetched descriptor that has not completed (R273). `area` is bytes 0x10 to 0x3F. -/
structure Desc where
  opcode : Nat
  flags : Nat
  user : Nat
  area : List (BitVec 8)
  gen : Nat
  st : DescSt
  /-- The completion slot reserved for it, and that slot's phase (R280). -/
  cqSlot : Option (Nat × Nat) := none
  /-- Bytes 0x02 to 0x07 as fetched. -/
  resv : List (BitVec 8) := []
  /-- The tenant, host and protection epoch of its check, and the ring's priority, at fetch (R16, R25, R287). -/
  tenant : Nat := 0
  host : Nat := 0
  epoch : Nat := 0
  prio : Nat := 7
deriving DecidableEq, Repr

/-- A written completion entry (R279). -/
structure Cpl where
  user : Nat
  slot : Nat
  status : Nat
  opcode : Nat
  gen : Nat
  phase : Nat
  result : List (BitVec 8)
deriving DecidableEq, Repr

/-- A produced record as written to its PRODUCE ring (R282). -/
structure Prod where
  phase : Nat
  kind : Nat
  units : Nat
  body : List (BitVec 8)
deriving DecidableEq, Repr

/-- A descriptor read in flight, the attempts made, and its data once returned (R278). -/
structure FetchRead where
  slot : Nat
  tries : Nat := 1
  data : Option (List (BitVec 8)) := none
deriving DecidableEq, Repr

/-- A ring's state beyond its registers. -/
structure Ring where
  /-- Outstanding descriptors by slot. -/
  descs : Tab (Option Desc) := []
  /-- Their slots in fetch order. -/
  order : List Nat := []
  /-- Reads in flight, in slot order. -/
  reads : List FetchRead := []
  /-- Completion entries written, by slot (what the host sees in its area). -/
  cpls : Tab (Option Cpl) := []
  /-- Records written, by first entry. -/
  prods : Tab (Option Prod) := []
  /-- Descriptors delivered in MRT DESC items, by slot: 64 bytes, then the APDU (R297). -/
  stored : Tab (Option (List (BitVec 8))) := []
  /-- Unsignalled completions or records that count towards COAL_N (R288). -/
  coal : Nat := 0
deriving DecidableEq, Repr

/-- A MRT frame body kept for retransmission (R296). -/
structure MrtSent where
  seq : Nat
  body : List (BitVec 8)
deriving DecidableEq, Repr

/-- An MRT session (R294 to R298). -/
structure Mrt where
  isOpen : Bool := false
  hostNonce : List (BitVec 8) := []
  devNonce : List (BitVec 8) := []
  key : List (BitVec 8) := []
  txSeq : Nat := 1
  txc : Nat := 0
  rxExp : Nat := 1
  unacked : List MrtSent := []
  /-- Frames waiting for a place in the window of 64. -/
  queued : List (List (BitVec 8)) := []
  held : Tab (Option (List (BitVec 8))) := []
  /-- Retransmissions of the oldest unacknowledged frame without progress. -/
  retx : Nat := 0
  /-- The expected SEQ for which a NAK was already sent within the current RTO. -/
  nakFor : Option Nat := none
  /-- Session number of the pair link, which has no RNG_H_SESSION (R476). -/
  psess : Nat := 0
deriving DecidableEq, Repr

/-- A host attachment's state beyond its registers. -/
structure HostA where
  /-- The attachment's own condition of R264 holds. -/
  cond : Bool := false
  /-- Weight left in the current round, by level (R286); a missing level has its register's weight left. -/
  spent : Tab Nat := []
  /-- The level of 2 to 7 that took the last descriptor of the round. -/
  lastLevel : Nat := 7
  /-- The ring that had the last turn, by level. -/
  lastRing : Tab Nat := []
  /-- Pending and mask words of the interrupt space, by word (R268); for PCIe, the MSI-X pending bits and mask bits. -/
  pend : Tab Nat := []
  mask : Tab Nat := []
  /-- The last serial transaction was refused (R268). -/
  refused : Bool := false
  mrt : Mrt := {}
  /-- The Ethernet port on which its last valid frame arrived (R469). -/
  port : Nat := 0
deriving DecidableEq, Repr

/-- Rings, hosts and event routes. -/
structure RngS where
  rings : Tab Ring := []
  hosts : Tab HostA := []
  /-- The route table of R289 and R304, one word per source. -/
  routes : Tab Nat := []
  /-- Powered second + 1 in which sources 29, 30 and 136 were last signalled (at most once per second). -/
  lastSec : Tab Nat := []
  /-- Attachments may come UP: BOOT has ended (R264). -/
  attach : Bool := false
  /-- Priority-0 commands waiting for a reserved context, oldest first: task, ring, slot (R223). -/
  prio0 : List (Nat × Nat × Nat) := []
  /-- PCIE_ID0 and PCIE_ID1 of the configuration image: the IDs of the two endpoints (R266, R434). -/
  pcieId : List (BitVec 8) := []
deriving DecidableEq, Repr
/-! ### The node table and the lanes (R305 to R337) -/

/-- A node's receive record (R320). -/
structure RxRec where
  cnt : Nat := 0
  dsn0 : Nat := 0
  dsn1 : Nat := 0
  age : Nat := 0
  /-- A frame has set DSN0. -/
  set : Bool := false
deriving DecidableEq, Repr

/-- An entry of the recent-source cache (R316): address key and DSNs, age of the latest in ms. -/
structure Recent where
  kind : Nat
  addr : Nat
  dsn0 : Nat
  dsn1 : Nat
  age : Nat
deriving DecidableEq, Repr

/-- A frame a receiver has begun: its lane of highest preamble SNR and that SNR, its preamble strength, FCH and burst index (R309, R310, R313). -/
structure RxNow where
  lane : Nat
  best : Nat
  snr : Nat
  fch : List (BitVec 8) := []
  burst2 : Bool := false
deriving DecidableEq, Repr

/-- A frame decoded with its FCS right that waits for R314: the lane it is attributed to, single copy. -/
structure Decoded where
  lane : Nat
  single : Bool
deriving DecidableEq, Repr

/-- A queued transmission of a lane or radio: its work item if a task issued it, destination node, options and progress (R327 to R333). -/
structure TxItem where
  item : Option Nat := none
  node : Nat := 0
  bcast : Bool := false
  payload : List (BitVec 8) := []
  flags : Nat := 0
  urgent : Bool := false
  attempts : Nat := 0
  /-- Attempts through every first hop. -/
  total : Nat := 0
  /-- ALT_HOP has been tried. -/
  swapped : Bool := false
  /-- Waiting for energy or budget. -/
  waiting : Bool := false
  air : Nat := 0
  est : Nat := 0
  /-- The mode used on a lane, the channel on a radio. -/
  mode : Nat := 0
  mod : Nat := 0
  energy : Nat := 0
  /-- What it is: 0 ordinary, 1 MAC acknowledgement, 2 tone map response, 3 mark burst 1, 4 mark burst 2, 5 beacon, 6 answer to a beacon request, 7 wM-Bus response, 8 data on a connection, 9 a reply that no item asked for. -/
  what : Nat := 0
  /-- Burst 2 of a DUAL frame is still to be sent. -/
  second : Bool := false
  /-- A campaign frame (R422): the campaign, and the block of a BLK_DATA. -/
  camp : Option (Nat × Option Nat) := none
deriving DecidableEq, Repr

/-- A mark's burst 1 that waits for its lane (R330): the frame, its air time, the time of the trigger, the mark's entry, or the
campaign whose BLK_ACTIVATE it is (R423). -/
structure MarkWait where
  frame : List (BitVec 8)
  air : Nat
  at_ : Nat
  entry : Nat
  camp : Option Nat := none
deriving DecidableEq, Repr

/-- A lane beyond its registers. -/
structure Lane where
  now : Option RxNow := none
  /-- Held bursts 1, oldest first (R312). -/
  pairs : List RxNow := []
  decoded : List Decoded := []
  /-- Transmit queue; the frame on air; the unicast frame that waits for its acknowledgement. -/
  queue : List TxItem := []
  air : Option TxItem := none
  ack : Option TxItem := none
  /-- A mark's burst 1 that waits for the lane; a burst 2 that is due: its frame. -/
  mark1 : Option MarkWait := none
  mark2 : Option (List (BitVec 8)) := none
  /-- The mains-phase time at which that burst 2 starts (R330). -/
  mark2At : Nat := 0
  /-- The beacon payload, a scheduled beacon that waits, a beacon request to be answered. -/
  beacon : List (BitVec 8) := []
  bcnDue : Bool := false
  bcnAsk : Bool := false
  slowSeq : Nat := 0
  /-- Frames that asked for a tone map, oldest first: the SNR by group and the asking node. -/
  tmAsk : List (List Nat × Nat) := []
  /-- Injected energy not yet a whole mJ, in µJ. -/
  ejFrac : Nat := 0
deriving DecidableEq, Repr

/-- The lanes and the node table beyond their registers. -/
structure PlcS where
  /-- Node entries of R319, 32 bytes; an unlisted entry is all zeros. -/
  nodes : Tab (List (BitVec 8)) := []
  rx : Tab RxRec := []
  recent : List Recent := []
  lanes : Tab Lane := []
  ejFrac : Nat := 0
deriving DecidableEq, Repr

/-! ### The radios and the connected-slot MAC (R338 to R370) -/

/-- A frame a radio's receiver has begun: its RSSI in dBm, and whether it came in a connection window (R341). -/
structure RfNow where
  rssi : Int
  win : Bool := false
deriving DecidableEq, Repr

/-- A JOIN_REQ that a CONNECT may answer (R351): its slow-path SEQ, channel, SCA, RESP_DELAY, EUI64, and the slot clock at its end. -/
structure Join where
  seq : Nat
  chan : Nat
  sca : Nat
  delay : Nat
  eui : Nat
  ended : Nat
deriving DecidableEq, Repr

/-- A radio beyond its registers. -/
structure Radio where
  now : Option RfNow := none
  /-- Transmit queue; the frame on air; the one that waits for its acknowledgement. -/
  queue : List TxItem := []
  air : Option TxItem := none
  ack : Option TxItem := none
  /-- Held wM-Bus items, and the response that is due (R362). -/
  held : List TxItem := []
  resp : Option TxItem := none
  slowSeq : Nat := 0
  joins : List Join := []
  /-- The connection whose window is open or whose event goes on, and those whose windows wait (R359). -/
  win : Option Nat := none
  waiting : List Nat := []
  ejFrac : Nat := 0
deriving DecidableEq, Repr

/-- The last PDU sent on a connection and not yet acknowledged (R360). `what`: 0 EMPTY, 1 data, 2 update, 3 TERMINATE. -/
structure Flight where
  what : Nat
  sn : Nat
  pcnt : Nat
  typ : Nat
  payload : List (BitVec 8)
  item : Option TxItem := none
deriving DecidableEq, Repr

/-- A pending update of a connection (R358). -/
structure ConnUpd where
  map : Bool
  chmap : Nat
  interval : Nat
  latency : Nat
  sup : Nat
  ofs : Int
  item : Nat
  acked : Bool := false
deriving DecidableEq, Repr

/-- A connection that is not FREE, beyond its record (R351 to R360). Times are slot-clock µs. -/
structure ConnX where
  /-- CONNECT item, the JOIN's channel, the moment CONNECT_IND is due, and whether it was sent. -/
  item : Option Nat := none
  chan : Nat := 0
  due : Nat := 0
  sent : Bool := false
  /-- Time since T_LAST by the meter's clock, and the anchor shifts since. -/
  gone : Nat := 0
  ofs : Int := 0
  upd : Option ConnUpd := none
  queue : List TxItem := []
  term : Bool := false
  termItem : Option Nat := none
  flight : Option Flight := none
  /-- Last valid frame; some frame has been accepted. -/
  lastRx : Nat := 0
  any : Bool := false
  /-- The event has its anchor. -/
  anchored : Bool := false
  conflicts : Nat := 0
deriving DecidableEq, Repr

/-- The radios beyond their registers; `clk` is the slot clock, `recent` the recent-source cache of R345. Connection and replay
records themselves lie in DRAM. -/
structure RfmS where
  radios : Tab Radio := []
  conns : Tab (Option ConnX) := []
  recent : List Recent := []
  clk : Nat := 0
deriving DecidableEq, Repr

/-! ### The key vault and the fuses (R371 to R402) -/

/-- Where the outcome of a slot change goes: a work item, KV_S_RES, nowhere (a release under R19), or an image. -/
inductive ChgFrom where
  | item (n : Nat)
  | reg
  | release
deriving DecidableEq, Repr

/-- A change of a slot: `typ` 0 erases. `result` is what the item's result word adds to the new handle's place. -/
structure SlotChg where
  src : ChgFrom
  typ : Nat
  attr : Nat := 0
  key : List (BitVec 8) := []
  ak : List (BitVec 8) := []
  cnt : Option Nat := none
  /-- Written to OUT when the change completes (KEYGEN's public key): item output. -/
  out : List (BitVec 8) := []
  /-- The key authority whose counter a message's change stores: a KEK slot, or 4096 for the identity key (R389), and its count before the message. -/
  auth : Option Nat := none
  prev : Nat := 0
deriving DecidableEq, Repr

/-- An older generation of a slot, kept in the pool while it has pins (R383). -/
structure OldKey where
  gen : Nat
  typ : Nat
  attr : Nat
  key : List (BitVec 8)
  ak : List (BitVec 8)
  pins : Nat
deriving DecidableEq, Repr

/-- A key slot beyond its registers: masked cells and their mask (R382), key length, the change under way, those that wait, and
the older generations with their pins. -/
structure VSlot where
  cells : List (BitVec 8) := []
  mask : List (BitVec 8) := []
  klen : Nat := 0
  pins : Nat := 0
  current : Option SlotChg := none
  waiting : List SlotChg := []
  old : List OldKey := []
deriving DecidableEq, Repr

/-- A sealed record of the vault store (R386), with the ZCOUNT whose sealing key opens it. -/
structure SealRec where
  slot : Nat
  owner : Nat
  gen : Nat
  typ : Nat
  attr : Nat
  key : List (BitVec 8)
  ak : List (BitVec 8)
  cnt : Nat
  seq : Nat
  zcount : Nat
  sector : Nat := 0
deriving DecidableEq, Repr

/-- The vault and fuses beyond their registers. Physical copy k of word w is at w + 512·k. -/
structure VaultS where
  slots : Tab VSlot := []
  store : List SealRec := []
  /-- The vault store's next free record and its sectors that are not erased, oldest first (R432). -/
  wp : Nat := 0
  used : List Nat := []
  cells : Tab Nat := []
  /-- Values in use since BOOT, and per word the six-read agreement of the last read with bit 31 for doubtful (R372, R373). -/
  fuse : Tab Nat := []
  /-- The value the last read or read-back accepted, by word. -/
  acc : Tab Nat := []
  wstat : Tab Nat := []
  identity : Nat := 0
  zeroPending : Bool := false
  zeroTamper : Bool := false
  /-- A step-5 programming is due (R393). -/
  zeroStep5 : Bool := false
  /-- VAULT_SEQ kept in the vault domain; lost with VBAT (R65). -/
  vaultSeq : Option Nat := some 0
  /-- Key authorities' counters stored with changes, where newer than a slot's own record: by KEK slot, KV_ECDH_CNT at 4096 (R389). -/
  cnts : Tab Nat := []
  /-- Blob store contents by ledger (R392). -/
  blobs : Tab (List (BitVec 8)) := []
deriving DecidableEq, Repr

/-! ### Updates and campaigns (R403 to R427) -/

/-- The shadow copy of the tables a TABLE image supplies (R415): PIP route entries, profiles, OBIS sets, and EVT routes. -/
structure Tables where
  routes : Tab Nat := []
  profiles : Tab Nat := []
  obis : Tab Nat := []
  evt : Tab Nat := []
deriving DecidableEq, Repr

/-- An activation or a restore in progress (R415, R416): the bank activated, the images still to handle and those activated, as KIND and
instance, the units not OFF when the present image's drain began (kind and index), the mode left, whether it is a restore, and what event 276
is to report of it: kind, instance, status. -/
structure Act where
  bank : Nat
  todo : List (Nat × Nat) := []
  done : List (Nat × Nat) := []
  kept : List (Nat × Nat) := []
  /-- Units that a failure left OFF and the restore is to turn back on. -/
  owed : List (Nat × Nat) := []
  back : Nat := 0
  restoring : Bool := false
  why : Nat × Nat × Nat := (0, 0, 0)
deriving DecidableEq, Repr

/-- A staging command in progress (R411): its OP, WRITE_BLOCK 2 or VERIFY 3, its bank and sector. -/
structure StageCmd where
  op : Nat
  bank : Nat
  sector : Nat := 0
deriving DecidableEq, Repr

/-- A SEND in progress (R422): its item, the lanes that still owe the present frame, that frame's block (none: BLK_ANNOUNCE), whether a lane
has sent it, the blocks to come, and the blocks sent. -/
structure CampSend where
  item : Nat
  lanes : List Nat
  cur : Option Nat := none
  ok : Bool := false
  todo : List Nat
  sent : Nat := 0
deriving DecidableEq, Repr

/-- A campaign beyond its registers (R418 to R423); its missing-block bitmap lies in DRAM. -/
structure Camp where
  hash : List (BitVec 8) := []
  size : Nat := 0
  blk : Nat := 0
  version : Nat := 0
  /-- Image bytes written, by offset. -/
  data : Tab (BitVec 8) := []
  /-- LANES of the SEND under way, and of PREP_ACT. -/
  lanes : Nat := 0
  mask : Nat := 0
  gap : Nat := 0
  target : Nat := 0
  send : Option CampSend := none
deriving DecidableEq, Repr

/-- Updates beyond the registers. -/
structure UpdS where
  /-- The staging buffer (R427). -/
  buf : Tab (BitVec 8) := []
  cmd : Option StageCmd := none
  act : Option Act := none
  /-- A trial fault has been latched and its restore is due (R417). -/
  trialFault : Bool := false
  shadow : Option Tables := none
  camps : Tab Camp := []
deriving DecidableEq, Repr


/-! ### The Inkwell recorder (R456 to R462) -/

/-- Where a retained record is: in the buffer only, in the early area, or in NAND. -/
inductive InkPlace where
  | buffer | early | nand
deriving DecidableEq, Repr

/-- An Inkwell record (R456). -/
structure InkRec where
  seq : Nat
  typ : Nat
  tenant : Nat
  crit : Bool
  opsec : Nat
  pcyc : Nat
  body : List (BitVec 8)
  place : InkPlace := .buffer
deriving DecidableEq, Repr

/-- The recorder beyond its registers. Records are kept oldest first. -/
structure InkS where
  recs : List InkRec := []
  /-- Records still to be stored before the freeze takes effect (R461). -/
  post : Nat := 0
  firstOp : Nat := 0
  lastOp : Nat := 0
  /-- A drop is waiting for its GAP record with REASON 4 (R459). -/
  gapDue : Bool := false
  /-- A reset released a freeze; the GAP record with REASON 3 is due at the next BOOT (R461). -/
  resetGap : Bool := false
  /-- The read window of R467. -/
  window : List (BitVec 8) := []
deriving DecidableEq, Repr

/-! ### NAND, partitions, configuration memory (R428 to R455) -/

/-- A log block of a BLOCK partition (R443): its logical block, the sectors written to it in order, its physical block, the sector places
used, and the item that wrote it last. -/
structure LogBlk where
  logical : Nat
  sectors : List Nat := []
  phys : Nat := 0
  fill : Nat := 0
  item : Option Nat := none
deriving DecidableEq, Repr

/-- A partition's contents: written sectors (BLOCK), retained bytes from TAIL (APPEND); its log blocks, oldest write first, those being merged,
its data blocks with the sectors current in each, and an APPEND partition's blocks from TAIL on. -/
structure Part where
  sectors : Tab (Option (List (BitVec 8))) := []
  bytes : List (BitVec 8) := []
  logs : List LogBlk := []
  merging : List LogBlk := []
  map : Tab (Option (Nat × List Nat)) := []
  chain : List Nat := []
deriving DecidableEq, Repr

/-- A physical block, key die × 16,384 + block (R444): its state code, erase count, partition, pages given out, pages read back, largest
correction seen, and the block whose content it takes over, with the pages that makes and whether that block retires. -/
structure Phys where
  st : Nat := 0
  erases : Nat := 0
  owner : Option Nat := none
  pages : Nat := 0
  done : List Nat := []
  worst : Nat := 0
  from_ : Option (Nat × Nat × Bool) := none
deriving DecidableEq, Repr

/-- A flash work item in progress (R442, R448): its item, partition, sectors not yet placed, whether it has not begun because an
earlier item waits for a merge, the pages it waits for, and its result word. -/
structure FlashJob where
  item : Nat
  part : Nat
  todo : List Nat := []
  held : Bool := false
  pages : List (Nat × Nat) := []
  result : Nat := 0
deriving DecidableEq, Repr

/-- A HOLDUP image (R452). -/
structure HuImg where
  seq : Nat
  opsec : Nat
  pcyc : Nat
  journal : List (Nat × List JRec)
  ink : List InkRec
deriving DecidableEq, Repr

/-- NAND and configuration memory beyond the registers. -/
structure NandS where
  phys : Tab Phys := []
  jobs : List FlashJob := []
  /-- The running SYSTEM section (R435). -/
  sparePct : Nat := 0
  inkBlocks : Nat := 0
  blobLedgers : Nat := 0
  /-- A valid mapping checkpoint exists; the slot the next one takes (R448). -/
  mapped : Bool := false
  mapSlot : Nat := 0
  /-- Bytes programmed per partition that do not make a MiB. -/
  frac : Tab Nat := []
  /-- The HOLDUP areas, the sequence of the newest image, and of the last one consumed (R452, R453). -/
  hu : Tab (Option HuImg) := []
  huSeq : Nat := 0
  huUsed : Nat := 0
  /-- The flush of this HOLDUP has ended. -/
  flushed : Bool := false
  /-- Rated erase cycles of the parameter page; each die's total erases at the end of the last 7 days, newest first (R455). -/
  endur : Nat := 0
  hist : Tab (List Nat) := []
  /-- Configuration memory; a byte never programmed is 0xFF (log entry 30). -/
  qspi : Tab (BitVec 8) := []
  qbuf : Tab (BitVec 8) := []
deriving DecidableEq, Repr
/-! ### Ethernet ports (R468 to R472) -/

/-- A PRP node (R472): its MAC address, milliseconds since it was heard on LAN A and on LAN B, the sequence numbers accepted with their ages
in milliseconds. -/
structure PrpNode where
  mac : Nat
  ageA : Nat := 0
  ageB : Nat := 0
  seqs : List (Nat × Nat) := []
deriving DecidableEq, Repr

/-- The Ethernet ports beyond their registers: the forwarding table, the PRP nodes and SeqNr, supervision frames sent, the next PTP slot and its SEQ, and each port's next
PTP request sequence number. -/
structure EthS where
  fdb : HTab := {}
  nodes : List PrpNode := []
  prpSeq : Nat := 0
  supSeq : Nat := 0
  slot : Nat := 0
  ptpSeq : Nat := 0
  reqSeq : Tab Nat := []
deriving DecidableEq, Repr

/-! ### The safety channel (R493 to R506) -/

/-- The safety channel beyond its registers: how long the inputs of a pair have disagreed (µs, by even input), outputs held off by OUT_ON, faults
found since the last RESET (code, input or output), that the claim refresh has stopped, and seconds left on the DEG timer. -/
structure SafS where
  dis : Tab Nat := []
  heldOff : Nat := 0
  faults : List (Nat × Nat) := []
  noRefresh : Bool := false
  deg : Nat := 0
deriving DecidableEq, Repr

/-! ### Supplies, modes and start-up (R509 to R530) -/

/-- The power chain and the modes beyond their registers. At reset the chain is up and BOOT has not run. -/
structure PowS where
  /-- The HVIN controller runs; groups enabled, 0 to 5; failed starts in a row; a retry waits; the buck stage is stopped until HVIN falls (R511). -/
  hv : Bool := true
  group : Nat := 5
  fails : Nat := 0
  retry : Bool := false
  stopped : Bool := false
  /-- VSYS is at or above 4.5 V. -/
  vsys : Bool := true
  /-- The kind of the last reset: 0 power-on, 1 cold, 2 warm (R522). -/
  kind : Nat := 0
  /-- BOOT's steps have run; DRAM is ready; role entry, PROVISION or RESTRICTED was reached; a role was entered (R524, R475). -/
  booted : Bool := false
  dram : Bool := false
  entered : Bool := false
  /-- BOOT's outcome, if it is not role entry: 2 PROVISION or 3 RESTRICTED. -/
  boot : Option Nat := none
  /-- HOLDUP has a thermal cause; role entry waits for the temperature; HOLDUP is to end in a cold reset (R517, R520, R528). -/
  thermal : Bool := false
  hot : Bool := false
  cold : Bool := false
  /-- A reset held until the flush is complete: kind and cause (R523). -/
  held : Option (Nat × Nat) := none
  /-- A fault was latched during UPDATE or the restore failed; the DEGRADED timer ran out during UPDATE (R517, R518). -/
  updFault : Bool := false
  timer : Bool := false
  due : Bool := false
  /-- Seconds left on the DEGRADED timer; a capacitance test is deferred (R487). -/
  deg : Nat := 0
  testWait : Bool := false
  /-- The vault domain lost its contents while VSYS was off (R65). -/
  vbatGone : Bool := false
  /-- No bank passed at BOOT: BAR0 is limited to CHIP, RNG, KV, PWR, STO and UPD (R412). -/
  limited : Bool := false
  /-- The third failed start stopped the buck stage (R511). -/
  railStart : Bool := false
  /-- The supervisor role moved, and a warm reset kept it (R269). -/
  moved : Option Nat := none
deriving DecidableEq, Repr


/-! ### The whole state -/

/-- The machine's state. `pending` is the queue of waiting commands, first in first out. -/
structure State where
  pending : List Instr
  /-- Every register field that does not hold its reset value: field id, then instance. -/
  regs : Tab (Tab Nat)
  /-- DRAM bytes that are not 0 (R548). -/
  dram : List Host.Cell
  /-- Selector copies: 32 × block + host (R36). -/
  sels : Tab Nat
  ten : TenS
  rng : RngS
  tasks : Tab Task
  /-- Event pool: entries held per tenant, and the quotas (R218). -/
  poolUse : Tab Nat
  poolQ : Tab Nat
  ink : InkS
  /-- The scribes' data store, 1 MiB (R231). -/
  dstore : Tab (BitVec 8)
  pip : PipS
  ldg : LdgS
  /-- NAND partitions' contents. -/
  parts : Tab Part
  nand : NandS
  time : TimeS
  pair : PairS
  scb : ScbS
  prm : PrmS
  vault : VaultS
  bal : BalS
  plc : PlcS
  rfm : RfmS
  upd : UpdS
  eth : EthS
  saf : SafS
  pow : PowS
  /-- What the device has sent out. -/
  out : List Out
  /-- The model's own counter that free values are drawn from. -/
  freeCtr : Nat
deriving DecidableEq, Repr

/-- The protection bank at reset (R22, R23): tenant 0 has every scribe share. -/
def bankReset : Bank := { recs := [(12, 4096)] }

/-- The machine right after a power-on reset: every register field at its reset value (register map), no tenant but tenant 0, memory with nothing
listed, no command waiting. Tenant 0's journal quota of 64 (R169) is the one register instance that differs from its row's value; its key is
the field number of LDG_T_JBUF.QUOTA. The fields whose reset value the spec leaves open, MPT_OPSEC, MPT_PCYC and MPT_VAULT among them, are 0 (log
entry 26). -/
def State.reset : State where
  pending := []
  regs := [(235, [(0, 64)])]
  dram := []
  sels := []
  ten := { active := bankReset, pend := bankReset }
  rng := {}
  tasks := []
  poolUse := []
  poolQ := [(0, 65536)]
  ink := {}
  dstore := []
  pip := {}
  ldg := {}
  parts := []
  nand := {}
  time := {}
  pair := {}
  scb := {}
  prm := {}
  vault := {}
  bal := {}
  plc := {}
  rfm := {}
  upd := {}
  eth := {}
  saf := {}
  pow := {}
  out := []
  freeCtr := 0

end Sys2Proof.Machine
end

