-- ==== Sys2Proof/Machine/RegMap.lean ====
section
/-! DEFINITION. The register map: one `Fld` per field of the register tables of spec/01 to spec/16, with its block, offset,
bit place, access code (R7), reset value and stated range (R563). Generated from the spec's own tables. -/
namespace Sys2Proof.Machine.Reg
open Sys2Proof.Machine

def CHIP_ID.DEVICE : Fld := ⟨0, .chip, 0, 0x0, 1, 0, 31, 16, .ro, 17424, []⟩
def CHIP_ID.STEPPING : Fld := ⟨1, .chip, 0, 0x0, 1, 0, 15, 8, .ro, 160, []⟩
def CHIP_ID.FAMILY : Fld := ⟨2, .chip, 0, 0x0, 1, 0, 7, 0, .ro, 1, []⟩
def CHIP_MODE.PREV_MODE : Fld := ⟨3, .chip, 0, 0x8, 1, 0, 7, 4, .ro, 0, []⟩
def CHIP_MODE.MODE : Fld := ⟨4, .chip, 0, 0x8, 1, 0, 3, 0, .ro, 1, []⟩
def CHIP_ROLE.CENTRE : Fld := ⟨5, .chip, 0, 0xC, 1, 0, 0, 0, .ro, 0, []⟩
def CHIP_SUPV.HOST : Fld := ⟨6, .chip, 0, 0x10, 1, 0, 2, 0, .ro, 0, []⟩
def CHIP_HOST.HOST : Fld := ⟨7, .chip, 0, 0x14, 1, 0, 2, 0, .ro, 0, []⟩
def CHIP_LOCK.LOCK : Fld := ⟨8, .chip, 0, 0x18, 1, 0, 0, 0, .w1s, 0, []⟩
def CHIP_EPOCH.EPOCH : Fld := ⟨9, .chip, 0, 0x20, 1, 0, 15, 0, .ro, 0, []⟩
def CHIP_EPOCH_CMD.SWITCH : Fld := ⟨10, .chip, 0, 0x24, 1, 0, 0, 0, .wo, 0, []⟩
def CHIP_EPOCH_STAT.LAST_TIME : Fld := ⟨11, .chip, 0, 0x28, 1, 0, 31, 16, .ro, 0, []⟩
def CHIP_EPOCH_STAT.PENDING : Fld := ⟨12, .chip, 0, 0x28, 1, 0, 1, 1, .ro, 0, []⟩
def CHIP_EPOCH_STAT.BUSY : Fld := ⟨13, .chip, 0, 0x28, 1, 0, 0, 0, .ro, 0, []⟩
def CHIP_ERR.RWL_WRITE : Fld := ⟨14, .chip, 0, 0x40, 1, 0, 3, 3, .w1c, 0, []⟩
def CHIP_ERR.WINDOW_PROT : Fld := ⟨15, .chip, 0, 0x40, 1, 0, 2, 2, .w1c, 0, []⟩
def CHIP_ERR.NOT_SUPV : Fld := ⟨16, .chip, 0, 0x40, 1, 0, 1, 1, .w1c, 0, []⟩
def CHIP_ERR.SEL_RANGE : Fld := ⟨17, .chip, 0, 0x40, 1, 0, 0, 0, .w1c, 0, []⟩
def CHIP_ERR_INFO.HOST : Fld := ⟨18, .chip, 0, 0x44, 1, 0, 31, 29, .ro, 0, []⟩
def CHIP_ERR_INFO.OFFSET : Fld := ⟨19, .chip, 0, 0x44, 1, 0, 24, 0, .ro, 0, []⟩
def TEN_COUNT.COUNT : Fld := ⟨20, .ten, 0, 0x0, 1, 0, 10, 0, .ro, 1024, []⟩
def TEN_ERR.OVERLAP : Fld := ⟨21, .ten, 0, 0x4, 1, 0, 4, 4, .w1c, 0, []⟩
def TEN_ERR.TENANT0 : Fld := ⟨22, .ten, 0, 0x4, 1, 0, 3, 3, .w1c, 0, []⟩
def TEN_ERR.SHARE_SUM : Fld := ⟨23, .ten, 0, 0x4, 1, 0, 2, 2, .w1c, 0, []⟩
def TEN_ERR.SCRUBBING : Fld := ⟨24, .ten, 0, 0x4, 1, 0, 1, 1, .w1c, 0, []⟩
def TEN_ERR.OWNER_BUSY : Fld := ⟨25, .ten, 0, 0x4, 1, 0, 0, 0, .w1c, 0, []⟩
def TEN_ERR_ADDR.OFFSET : Fld := ⟨26, .ten, 0, 0x8, 1, 0, 19, 0, .ro, 0, []⟩
def TEN_SCRUB.ITEMS : Fld := ⟨27, .ten, 0, 0x10, 1, 0, 31, 16, .ro, 0, []⟩
def TEN_SCRUB.BUSY : Fld := ⟨28, .ten, 0, 0x10, 1, 0, 0, 0, .ro, 0, []⟩
def TEN_SHARE_SUM.SUM : Fld := ⟨29, .ten, 0, 0x14, 1, 0, 12, 0, .ro, 4096, []⟩
def TEN_SEL.TENANT : Fld := ⟨30, .ten, 0, 0x1000, 1, 0, 9, 0, .rw, 0, []⟩
def TEN_CTRL.ENABLE : Fld := ⟨31, .ten, 0, 0x1100, 1, 0, 0, 0, .rw, 0, []⟩
def TEN_STAT.GEN : Fld := ⟨32, .ten, 0, 0x1104, 1, 0, 15, 8, .ro, 0, []⟩
def TEN_STAT.ENABLE_LATCHED : Fld := ⟨33, .ten, 0, 0x1104, 1, 0, 2, 2, .ro, 0, []⟩
def TEN_STAT.STATE : Fld := ⟨34, .ten, 0, 0x1104, 1, 0, 1, 0, .ro, 0, []⟩
def TEN_TAGS.IN_FLIGHT : Fld := ⟨35, .ten, 0, 0x1108, 1, 0, 16, 0, .ro, 0, []⟩
def TEN_PROT_CNT.COUNT : Fld := ⟨36, .ten, 0, 0x110C, 1, 0, 31, 0, .ro, 0, []⟩
def MPT_NOW_LO.TIME_LO : Fld := ⟨37, .mpt, 0, 0x0, 1, 0, 31, 0, .ro, 0, []⟩
def MPT_NOW_HI.TIME_HI : Fld := ⟨38, .mpt, 9, 0x4, 1, 0, 31, 0, .ro, 0, []⟩
def MPT_SRC.LOADED : Fld := ⟨39, .mpt, 0, 0x8, 1, 0, 8, 8, .ro, 0, []⟩
def MPT_SRC.ROTATION : Fld := ⟨40, .mpt, 0, 0x8, 1, 0, 7, 7, .ro, 0, []⟩
def MPT_SRC.PH_C_OK : Fld := ⟨41, .mpt, 0, 0x8, 1, 0, 6, 6, .ro, 0, []⟩
def MPT_SRC.PH_B_OK : Fld := ⟨42, .mpt, 0, 0x8, 1, 0, 5, 5, .ro, 0, []⟩
def MPT_SRC.PH_A_OK : Fld := ⟨43, .mpt, 0, 0x8, 1, 0, 4, 4, .ro, 0, []⟩
def MPT_SRC.STATE : Fld := ⟨44, .mpt, 0, 0x8, 1, 0, 2, 0, .ro, 4, []⟩
def MPT_FREQ.FREQ : Fld := ⟨45, .mpt, 0, 0xC, 1, 0, 16, 0, .ro, 0, []⟩
def MPT_CFG.HOLD_CYCLES : Fld := ⟨46, .mpt, 0, 0x10, 1, 0, 31, 16, .rwl, 250, [(2, 65535)]⟩
def MPT_CFG.MAINS_MIN : Fld := ⟨47, .mpt, 0, 0x10, 1, 0, 15, 8, .rwl, 40, [(10, 90)]⟩
def MPT_CFG.NOMINAL_60 : Fld := ⟨48, .mpt, 0, 0x10, 1, 0, 0, 0, .rwl, 0, []⟩
def MPT_PH_B.OFFSET : Fld := ⟨49, .mpt, 0, 0x14, 1, 0, 15, 0, .ro, 0, []⟩
def MPT_PH_C.OFFSET : Fld := ⟨50, .mpt, 0, 0x18, 1, 0, 15, 0, .ro, 0, []⟩
def MPT_SLEW.MAX_PU : Fld := ⟨51, .mpt, 0, 0x1C, 1, 0, 10, 0, .rw, 1024, [(16, 1024)]⟩
def MPT_LOAD_LO.CYCLE_LO : Fld := ⟨52, .mpt, 0, 0x20, 1, 0, 31, 0, .wo, 0, []⟩
def MPT_LOAD_HI.CYCLE_HI : Fld := ⟨53, .mpt, 0, 0x24, 1, 0, 15, 0, .rw, 0, []⟩
def MPT_GRID_SEL.TOL_US : Fld := ⟨54, .mpt, 0, 0x30, 1, 0, 31, 16, .rw, 1000, []⟩
def MPT_GRID_SEL.DOMAIN : Fld := ⟨55, .mpt, 0, 0x30, 1, 0, 0, 0, .rw, 0, []⟩
def MPT_TIME_OK.REASON : Fld := ⟨56, .mpt, 0, 0x34, 1, 0, 2, 1, .ro, 1, []⟩
def MPT_TIME_OK.CAL_OK : Fld := ⟨57, .mpt, 0, 0x34, 1, 0, 0, 0, .ro, 0, []⟩
def MPT_OPSEC.SECONDS : Fld := ⟨58, .mpt, 0, 0x40, 1, 0, 31, 0, .ro, 0, []⟩
def MPT_PCYC.COUNT : Fld := ⟨59, .mpt, 0, 0x44, 1, 0, 23, 0, .ro, 0, []⟩
def MPT_VAULT.VBAT_LOST : Fld := ⟨60, .mpt, 0, 0x48, 1, 0, 2, 2, .ro, 0, []⟩
def MPT_VAULT.RAN : Fld := ⟨61, .mpt, 0, 0x48, 1, 0, 1, 1, .ro, 0, []⟩
def MPT_VAULT.VCLK_ON : Fld := ⟨62, .mpt, 0, 0x48, 1, 0, 0, 0, .ro, 0, []⟩
def MPT_VSECS.SECONDS : Fld := ⟨63, .mpt, 0, 0x4C, 1, 0, 31, 0, .ro, 4294967295, []⟩
def MPT_SNAP_CMD.TAKE : Fld := ⟨64, .mpt, 0, 0x50, 1, 0, 0, 0, .wo, 0, []⟩
def MPT_SNAP_MPT_LO.TIME_LO : Fld := ⟨65, .mpt, 9, 0x54, 1, 0, 31, 0, .ro, 0, []⟩
def MPT_SNAP_MPT_HI.TIME_HI : Fld := ⟨66, .mpt, 9, 0x58, 1, 0, 31, 0, .ro, 0, []⟩
def MPT_SNAP_GT_NS.NS : Fld := ⟨67, .mpt, 9, 0x5C, 1, 0, 29, 0, .ro, 0, []⟩
def MPT_SNAP_GT_SEC_LO.SEC_LO : Fld := ⟨68, .mpt, 9, 0x60, 1, 0, 31, 0, .ro, 0, []⟩
def MPT_SNAP_GT_SEC_HI.SEC_HI : Fld := ⟨69, .mpt, 9, 0x64, 1, 0, 15, 0, .ro, 0, []⟩
def MPT_SNAP_OPSEC.SECONDS : Fld := ⟨70, .mpt, 9, 0x68, 1, 0, 31, 0, .ro, 0, []⟩
def GT0_NS.NS : Fld := ⟨71, .mpt, 0, 0x80, 1, 0, 29, 0, .ro, 0, []⟩
def GT0_SEC_LO.SEC_LO : Fld := ⟨72, .mpt, 9, 0x84, 1, 0, 31, 0, .ro, 0, []⟩
def GT0_SEC_HI.SEC_HI : Fld := ⟨73, .mpt, 9, 0x88, 1, 0, 15, 0, .ro, 0, []⟩
def GT0_STAT.AGE : Fld := ⟨74, .mpt, 0, 0x8C, 1, 0, 31, 12, .ro, 0, []⟩
def GT0_STAT.STEP_USED : Fld := ⟨75, .mpt, 0, 0x8C, 1, 0, 3, 3, .ro, 0, []⟩
def GT0_STAT.STATE : Fld := ⟨76, .mpt, 0, 0x8C, 1, 0, 1, 0, .ro, 0, []⟩
def GT0_TRIM.TRIM : Fld := ⟨77, .mpt, 0, 0x90, 1, 0, 31, 0, .rw, 0, []⟩
def GT0_STEP_LO.OFS_LO : Fld := ⟨78, .mpt, 0, 0x94, 1, 0, 31, 0, .rw, 0, []⟩
def GT0_STEP_HI.OFS_HI : Fld := ⟨79, .mpt, 0, 0x98, 1, 0, 31, 0, .rw, 0, []⟩
def GT0_CMD.INVALIDATE : Fld := ⟨80, .mpt, 0, 0x9C, 1, 0, 2, 2, .wo, 0, []⟩
def GT0_CMD.CONFIRM : Fld := ⟨81, .mpt, 0, 0x9C, 1, 0, 1, 1, .wo, 0, []⟩
def GT0_CMD.STEP : Fld := ⟨82, .mpt, 0, 0x9C, 1, 0, 0, 0, .wo, 0, []⟩
def GT0_CONFIRM_OFS.OFS : Fld := ⟨83, .mpt, 0, 0xA0, 1, 0, 31, 0, .rw, 0, []⟩
def GT0_CFG.HOLD_LIMIT : Fld := ⟨84, .mpt, 0, 0xA4, 1, 0, 31, 12, .rwl, 14400, [(60, 1048575)]⟩
def GT0_CFG.CONFIRM_WIN : Fld := ⟨85, .mpt, 0, 0xA4, 1, 0, 11, 4, .rwl, 16, [(1, 255)]⟩
def GT0_TOL.TOL : Fld := ⟨86, .mpt, 0, 0xA8, 1, 0, 31, 0, .rwl, 1000000, []⟩
def GT0_CONF_REJ.COUNT : Fld := ⟨87, .mpt, 0, 0xAC, 1, 0, 31, 0, .ro, 0, []⟩
def MPT_ERR.CMP_BUSY : Fld := ⟨88, .mpt, 0, 0x100, 1, 0, 8, 8, .w1c, 0, []⟩
def MPT_ERR.DOMAIN_SW : Fld := ⟨89, .mpt, 0, 0x100, 1, 0, 7, 7, .w1c, 0, []⟩
def MPT_ERR.TRIG_CODE : Fld := ⟨90, .mpt, 0, 0x100, 1, 0, 6, 6, .w1c, 0, []⟩
def MPT_ERR.PERIOD : Fld := ⟨91, .mpt, 0, 0x100, 1, 0, 5, 5, .w1c, 0, []⟩
def MPT_ERR.HORIZON : Fld := ⟨92, .mpt, 0, 0x100, 1, 0, 4, 4, .w1c, 0, []⟩
def MPT_ERR.TRIM_RANGE : Fld := ⟨93, .mpt, 0, 0x100, 1, 0, 3, 3, .w1c, 0, []⟩
def MPT_ERR.STEP_USED : Fld := ⟨94, .mpt, 0, 0x100, 1, 0, 2, 2, .w1c, 0, []⟩
def MPT_ERR.LOAD_LATE : Fld := ⟨95, .mpt, 0, 0x100, 1, 0, 1, 1, .w1c, 0, []⟩
def MPT_ERR.ALIGN : Fld := ⟨96, .mpt, 0, 0x100, 1, 0, 0, 0, .w1c, 0, []⟩
def MPT_ERR_INFO.OFFSET : Fld := ⟨97, .mpt, 0, 0x104, 1, 0, 19, 0, .ro, 0, []⟩
def MPT_SEL.UNIT : Fld := ⟨98, .mpt, 0, 0x1000, 1, 0, 5, 0, .rw, 0, []⟩
def MPT_CMP_CTRL.ARG : Fld := ⟨99, .mpt, 0, 0x1100, 1, 0, 28, 16, .rw, 0, []⟩
def MPT_CMP_CTRL.TRIG : Fld := ⟨100, .mpt, 0, 0x1100, 1, 0, 15, 12, .rw, 0, []⟩
def MPT_CMP_CTRL.BASE : Fld := ⟨101, .mpt, 0, 0x1100, 1, 0, 9, 8, .rw, 0, []⟩
def MPT_CMP_CTRL.PERIODIC : Fld := ⟨102, .mpt, 0, 0x1100, 1, 0, 1, 1, .rw, 0, []⟩
def MPT_CMP_CTRL.ENABLE : Fld := ⟨103, .mpt, 0, 0x1100, 1, 0, 0, 0, .rw, 0, []⟩
def MPT_CMP_STAT.MISSED : Fld := ⟨104, .mpt, 0, 0x1104, 1, 0, 31, 24, .ro, 0, []⟩
def MPT_CMP_STAT.GEN : Fld := ⟨105, .mpt, 0, 0x1104, 1, 0, 23, 16, .ro, 0, []⟩
def MPT_CMP_STAT.FIRED : Fld := ⟨106, .mpt, 0, 0x1104, 1, 0, 15, 8, .ro, 0, []⟩
def MPT_CMP_STAT.LATE : Fld := ⟨107, .mpt, 0, 0x1104, 1, 0, 3, 3, .ro, 0, []⟩
def MPT_CMP_STAT.ENABLE_LATCHED : Fld := ⟨108, .mpt, 0, 0x1104, 1, 0, 2, 2, .ro, 0, []⟩
def MPT_CMP_STAT.STATE : Fld := ⟨109, .mpt, 0, 0x1104, 1, 0, 1, 0, .ro, 0, []⟩
def MPT_CMP_TGT_LO.TGT_LO : Fld := ⟨110, .mpt, 0, 0x1108, 1, 0, 31, 0, .rw, 0, []⟩
def MPT_CMP_TGT_HI.TGT_HI : Fld := ⟨111, .mpt, 0, 0x110C, 1, 0, 31, 0, .rw, 0, []⟩
def MPT_CMP_TGT_X.TGT_X : Fld := ⟨112, .mpt, 0, 0x1110, 1, 0, 15, 0, .rw, 0, []⟩
def MPT_CMP_PER_LO.PER_LO : Fld := ⟨113, .mpt, 0, 0x1114, 1, 0, 31, 0, .rw, 0, []⟩
def MPT_CMP_PER_HI.PER_HI : Fld := ⟨114, .mpt, 0, 0x1118, 1, 0, 15, 0, .rw, 0, []⟩
def PIP_CFG.RESERVE : Fld := ⟨115, .pip, 0, 0x0, 1, 0, 23, 16, .rwl, 8, [(0, 64)]⟩
def PIP_CFG.STAGE_VALID : Fld := ⟨116, .pip, 0, 0x0, 1, 0, 1, 1, .rwl, 0, []⟩
def PIP_CFG.SPILL : Fld := ⟨117, .pip, 0, 0x0, 1, 0, 0, 0, .rwl, 1, []⟩
def PIP_TMO.TMO : Fld := ⟨118, .pip, 0, 0x4, 1, 0, 16, 0, .rwl, 1000, [(10, 100000)]⟩
def PIP_RETRY_DMA.TRIES : Fld := ⟨119, .pip, 0, 0x8, 1, 0, 19, 16, .rwl, 3, [(1, 8)]⟩
def PIP_RETRY_DMA.TMO : Fld := ⟨120, .pip, 0, 0x8, 1, 0, 15, 0, .rwl, 50, [(1, 10000)]⟩
def PIP_RETRY_KEY.TRIES : Fld := ⟨121, .pip, 0, 0xC, 1, 0, 19, 16, .rwl, 4, [(1, 8)]⟩
def PIP_RETRY_KEY.TMO : Fld := ⟨122, .pip, 0, 0xC, 1, 0, 15, 0, .rwl, 10, [(1, 10000)]⟩
def PIP_RETRY_LDG.TRIES : Fld := ⟨123, .pip, 0, 0x10, 1, 0, 19, 16, .rwl, 2, [(1, 8)]⟩
def PIP_RETRY_LDG.TMO : Fld := ⟨124, .pip, 0, 0x10, 1, 0, 15, 0, .rwl, 5, [(1, 10000)]⟩
def PIP_BUDGET.SUM : Fld := ⟨125, .pip, 0, 0x14, 1, 0, 16, 0, .ro, 200, []⟩
def PIP_STAGE_LO.BASE_LO : Fld := ⟨126, .pip, 0, 0x18, 1, 0, 31, 12, .rwl, 0, []⟩
def PIP_STAGE_HI.BASE_HI : Fld := ⟨127, .pip, 0, 0x1C, 1, 0, 7, 0, .rwl, 0, []⟩
def PIP_HASH_LO.BASE_LO : Fld := ⟨128, .pip, 0, 0x20, 1, 0, 31, 26, .rwl, 0, []⟩
def PIP_HASH_HI.BASE_HI : Fld := ⟨129, .pip, 0, 0x24, 1, 0, 7, 0, .rwl, 0, []⟩
def PIP_HASH_STAT.REPAIR : Fld := ⟨130, .pip, 0, 0x28, 1, 0, 31, 31, .ro, 0, []⟩
def PIP_HASH_STAT.STASH : Fld := ⟨131, .pip, 0, 0x28, 1, 0, 30, 24, .ro, 0, []⟩
def PIP_HASH_STAT.ENTRIES : Fld := ⟨132, .pip, 0, 0x28, 1, 0, 21, 0, .ro, 0, []⟩
def PIP_HASH_PAR.BUCKET : Fld := ⟨133, .pip, 0, 0x2C, 1, 0, 19, 0, .ro, 0, []⟩
def PIP_TAGS.IN_FLIGHT : Fld := ⟨134, .pip, 0, 0x30, 1, 0, 16, 0, .ro, 0, []⟩
def PIP_STAGING.SPILLED : Fld := ⟨135, .pip, 0, 0x34, 1, 0, 31, 16, .ro, 0, []⟩
def PIP_STAGING.ONCHIP : Fld := ⟨136, .pip, 0, 0x34, 1, 0, 12, 0, .ro, 0, []⟩
def PIP_WITHHOLD.MODE : Fld := ⟨137, .pip, 0, 0x38, 1, 0, 1, 1, .ro, 1, []⟩
def PIP_WITHHOLD.ACTIVE : Fld := ⟨138, .pip, 0, 0x38, 1, 0, 0, 0, .ro, 0, []⟩
def PIP_LOST.COUNT : Fld := ⟨139, .pip, 0, 0x40, 1, 0, 31, 0, .ro, 0, []⟩
def PIP_LATE.COUNT : Fld := ⟨140, .pip, 0, 0x44, 1, 0, 31, 0, .ro, 0, []⟩
def PIP_ERR.ROUTE : Fld := ⟨141, .pip, 0, 0x100, 1, 0, 4, 4, .w1c, 0, []⟩
def PIP_ERR.STAGE : Fld := ⟨142, .pip, 0, 0x100, 1, 0, 3, 3, .w1c, 0, []⟩
def PIP_ERR.RETRY_LONG : Fld := ⟨143, .pip, 0, 0x100, 1, 0, 2, 2, .w1c, 0, []⟩
def PIP_ERR.TMO_SHORT : Fld := ⟨144, .pip, 0, 0x100, 1, 0, 1, 1, .w1c, 0, []⟩
def PIP_ERR.RANGE : Fld := ⟨145, .pip, 0, 0x100, 1, 0, 0, 0, .w1c, 0, []⟩
def PIP_ERR_INFO.OFFSET : Fld := ⟨146, .pip, 0, 0x104, 1, 0, 19, 0, .ro, 0, []⟩
def PIP_TAG_QUERY.INDEX : Fld := ⟨147, .pip, 9, 0x110, 1, 0, 15, 0, .rw, 0, []⟩
def PIP_TAG_INFO.STATE : Fld := ⟨148, .pip, 0, 0x114, 1, 0, 31, 30, .ro, 0, []⟩
def PIP_TAG_INFO.STAGE : Fld := ⟨149, .pip, 0, 0x114, 1, 0, 29, 26, .ro, 0, []⟩
def PIP_TAG_INFO.GEN : Fld := ⟨150, .pip, 0, 0x114, 1, 0, 25, 18, .ro, 0, []⟩
def PIP_TAG_INFO.TENANT : Fld := ⟨151, .pip, 0, 0x114, 1, 0, 17, 8, .ro, 0, []⟩
def PIP_TAG_INFO.STATUS : Fld := ⟨152, .pip, 0, 0x114, 1, 0, 7, 0, .ro, 0, []⟩
def PIP_TAG_LEDGER.LEDGER : Fld := ⟨153, .pip, 0, 0x118, 1, 0, 20, 0, .ro, 0, []⟩
def PIP_SEL.TENANT : Fld := ⟨154, .pip, 0, 0x1000, 1, 0, 9, 0, .rw, 0, []⟩
def PIP_T_OK.COUNT : Fld := ⟨155, .pip, 0, 0x1100, 1, 0, 31, 0, .ro, 0, []⟩
def PIP_T_AUTH.COUNT : Fld := ⟨156, .pip, 0, 0x1104, 1, 0, 31, 0, .ro, 0, []⟩
def PIP_T_REPLAY.COUNT : Fld := ⟨157, .pip, 0, 0x1108, 1, 0, 31, 0, .ro, 0, []⟩
def PIP_T_IMPL.COUNT : Fld := ⟨158, .pip, 0, 0x110C, 1, 0, 31, 0, .ro, 0, []⟩
def PIP_T_NOCRED.COUNT : Fld := ⟨159, .pip, 0, 0x1110, 1, 0, 31, 0, .ro, 0, []⟩
def PIP_T_TMO.COUNT : Fld := ⟨160, .pip, 0, 0x1114, 1, 0, 31, 0, .ro, 0, []⟩
def PIP_T_CANCEL.COUNT : Fld := ⟨161, .pip, 0, 0x1118, 1, 0, 31, 0, .ro, 0, []⟩
def PIP_T_OTHER.COUNT : Fld := ⟨162, .pip, 0, 0x111C, 1, 0, 31, 0, .ro, 0, []⟩
def PIP_T_KEYMISS.COUNT : Fld := ⟨163, .pip, 0, 0x1120, 1, 0, 31, 0, .ro, 0, []⟩
def PIP_T_UNSUPP.COUNT : Fld := ⟨164, .pip, 0, 0x1124, 1, 0, 31, 0, .ro, 0, []⟩
def PIP_T_FIELDDROP.COUNT : Fld := ⟨165, .pip, 0, 0x1128, 1, 0, 31, 0, .ro, 0, []⟩
def PIP_T_REPOST.COUNT : Fld := ⟨166, .pip, 0, 0x112C, 1, 0, 31, 0, .ro, 0, []⟩
def PIP_T_CLR.CLEAR : Fld := ⟨167, .pip, 0, 0x11FC, 1, 0, 0, 0, .wo, 0, []⟩
def LDG_CFG.CAL_VALID : Fld := ⟨168, .ldg, 0, 0x0, 1, 0, 2, 2, .rwl, 0, []⟩
def LDG_CFG.BLOB_VALID : Fld := ⟨169, .ldg, 0, 0x0, 1, 0, 1, 1, .rwl, 0, []⟩
def LDG_CFG.AREA_VALID : Fld := ⟨170, .ldg, 0, 0x0, 1, 0, 0, 0, .rwl, 0, []⟩
def LDG_COUNT.COUNT : Fld := ⟨171, .ldg, 0, 0x4, 1, 0, 21, 0, .rwl, 0, [(0, 2097152)]⟩
def LDG_BASE_LO.BASE_LO : Fld := ⟨172, .ldg, 0, 0x8, 1, 0, 31, 20, .rwl, 0, []⟩
def LDG_BASE_HI.BASE_HI : Fld := ⟨173, .ldg, 0, 0xC, 1, 0, 7, 0, .rwl, 0, []⟩
def LDG_BLOB_LO.BASE_LO : Fld := ⟨174, .ldg, 0, 0x10, 1, 0, 31, 20, .rwl, 0, []⟩
def LDG_BLOB_HI.BASE_HI : Fld := ⟨175, .ldg, 0, 0x14, 1, 0, 7, 0, .rwl, 0, []⟩
def LDG_CAL_LO.BASE_LO : Fld := ⟨176, .ldg, 0, 0x18, 1, 0, 31, 20, .rwl, 0, []⟩
def LDG_CAL_HI.BASE_HI : Fld := ⟨177, .ldg, 0, 0x1C, 1, 0, 7, 0, .rwl, 0, []⟩
def LDG_UTC.TAI_UTC : Fld := ⟨178, .ldg, 0, 0x20, 1, 0, 15, 0, .rw, 37, []⟩
def LDG_TXN_TMO.TMO : Fld := ⟨179, .ldg, 0, 0x24, 1, 0, 15, 0, .rwl, 1000, [(10, 65535)]⟩
def LDG_JBUF.QUOTA_SUM : Fld := ⟨180, .ldg, 0, 0x28, 1, 0, 27, 16, .ro, 0, []⟩
def LDG_JBUF.USED : Fld := ⟨181, .ldg, 0, 0x28, 1, 0, 11, 0, .ro, 0, []⟩
def LDG_CACHE_HIT.COUNT : Fld := ⟨182, .ldg, 0, 0x2C, 1, 0, 31, 0, .ro, 0, []⟩
def LDG_CACHE_MISS.COUNT : Fld := ⟨183, .ldg, 0, 0x30, 1, 0, 31, 0, .ro, 0, []⟩
def LDG_CACHE_WB.COUNT : Fld := ⟨184, .ldg, 0, 0x34, 1, 0, 31, 0, .ro, 0, []⟩
def LDG_CACHE_MOVE.COUNT : Fld := ⟨185, .ldg, 0, 0x38, 1, 0, 31, 0, .ro, 0, []⟩
def LDG_QUAR_STAT.FULL : Fld := ⟨186, .ldg, 0, 0x40, 1, 0, 31, 31, .ro, 0, []⟩
def LDG_QUAR_STAT.USED : Fld := ⟨187, .ldg, 0, 0x40, 1, 0, 10, 0, .ro, 0, []⟩
def LDG_QUAR_CMD.OP : Fld := ⟨188, .ldg, 0, 0x44, 1, 0, 25, 24, .wo, 0, []⟩
def LDG_QUAR_CMD.LEDGER : Fld := ⟨189, .ldg, 0, 0x44, 1, 0, 20, 0, .wo, 0, []⟩
def LDG_QUAR_RES.BUSY : Fld := ⟨190, .ldg, 0, 0x48, 1, 0, 31, 31, .ro, 0, []⟩
def LDG_QUAR_RES.STATUS : Fld := ⟨191, .ldg, 0, 0x48, 1, 0, 7, 0, .ro, 0, []⟩
def LDG_REBUILD.BUSY : Fld := ⟨192, .ldg, 0, 0x50, 1, 0, 31, 31, .ro, 0, []⟩
def LDG_REBUILD.TENANT : Fld := ⟨193, .ldg, 0, 0x50, 1, 0, 9, 0, .ro, 0, []⟩
def LDG_REBUILD_TIME.MS : Fld := ⟨194, .ldg, 0, 0x54, 1, 0, 31, 0, .ro, 0, []⟩
def LDG_PP_WATCH.FULL : Fld := ⟨195, .ldg, 0, 0x58, 1, 0, 31, 31, .ro, 0, []⟩
def LDG_PP_WATCH.USED : Fld := ⟨196, .ldg, 0, 0x58, 1, 0, 16, 0, .ro, 0, []⟩
def LDG_WATCH_LO.BASE_LO : Fld := ⟨197, .ldg, 0, 0x60, 1, 0, 31, 20, .rwl, 0, []⟩
def LDG_WATCH_HI.BASE_HI : Fld := ⟨198, .ldg, 0, 0x64, 1, 0, 7, 0, .rwl, 0, []⟩
def LDG_CAL_CMD.OP : Fld := ⟨199, .ldg, 0, 0x70, 1, 0, 17, 16, .wo, 0, []⟩
def LDG_CAL_CMD.CAL : Fld := ⟨200, .ldg, 0, 0x70, 1, 0, 12, 0, .wo, 0, []⟩
def LDG_CAL_RES.REASON : Fld := ⟨201, .ldg, 0, 0x74, 1, 0, 15, 8, .ro, 0, []⟩
def LDG_CAL_RES.STATUS : Fld := ⟨202, .ldg, 0, 0x74, 1, 0, 7, 0, .ro, 0, []⟩
def LDG_ERR.BUSY : Fld := ⟨203, .ldg, 0, 0x100, 1, 0, 6, 6, .w1c, 0, []⟩
def LDG_ERR.TRIG : Fld := ⟨204, .ldg, 0, 0x100, 1, 0, 5, 5, .w1c, 0, []⟩
def LDG_ERR.RECORD : Fld := ⟨205, .ldg, 0, 0x100, 1, 0, 4, 4, .w1c, 0, []⟩
def LDG_ERR.QUAR_FULL : Fld := ⟨206, .ldg, 0, 0x100, 1, 0, 3, 3, .w1c, 0, []⟩
def LDG_ERR.SINK_CFG : Fld := ⟨207, .ldg, 0, 0x100, 1, 0, 2, 2, .w1c, 0, []⟩
def LDG_ERR.AREA : Fld := ⟨208, .ldg, 0, 0x100, 1, 0, 1, 1, .w1c, 0, []⟩
def LDG_ERR.RANGE : Fld := ⟨209, .ldg, 0, 0x100, 1, 0, 0, 0, .w1c, 0, []⟩
def LDG_ERR_INFO.OFFSET : Fld := ⟨210, .ldg, 0, 0x104, 1, 0, 19, 0, .ro, 0, []⟩
def LDG_SEL.TENANT : Fld := ⟨211, .ldg, 0, 0x1000, 1, 0, 9, 0, .rw, 0, []⟩
def LDG_T_SINK.JPART : Fld := ⟨212, .ldg, 0, 0x1100, 1, 0, 15, 8, .rwl, 0, []⟩
def LDG_T_SINK.EN : Fld := ⟨213, .ldg, 0, 0x1100, 1, 0, 2, 0, .rwl, 0, []⟩
def LDG_T_HRING.VALID : Fld := ⟨214, .ldg, 0, 0x1104, 1, 0, 15, 15, .rwl, 0, []⟩
def LDG_T_HRING.RING : Fld := ⟨215, .ldg, 0, 0x1104, 1, 0, 11, 0, .rwl, 0, []⟩
def LDG_T_SINK_STAT.LOST : Fld := ⟨216, .ldg, 0, 0x1108, 1, 0, 6, 4, .ro, 0, []⟩
def LDG_T_SINK_STAT.UP : Fld := ⟨217, .ldg, 0, 0x1108, 1, 0, 2, 0, .ro, 0, []⟩
def LDG_T_CKPT.PERIOD : Fld := ⟨218, .ldg, 0, 0x110C, 1, 0, 31, 16, .rwl, 0, []⟩
def LDG_T_CKPT.VALID : Fld := ⟨219, .ldg, 0, 0x110C, 1, 0, 15, 15, .rwl, 0, []⟩
def LDG_T_CKPT.PART : Fld := ⟨220, .ldg, 0, 0x110C, 1, 0, 7, 0, .rwl, 0, []⟩
def LDG_T_CKPT_CMD.TAKE : Fld := ⟨221, .ldg, 0, 0x1110, 1, 0, 0, 0, .wo, 0, []⟩
def LDG_T_CKPT_STAT.BUSY : Fld := ⟨222, .ldg, 0, 0x1114, 1, 0, 31, 31, .ro, 0, []⟩
def LDG_T_CKPT_STAT.LAST_OK : Fld := ⟨223, .ldg, 0, 0x1114, 1, 0, 30, 30, .ro, 0, []⟩
def LDG_T_SEQ_LO.SEQ_LO : Fld := ⟨224, .ldg, 0, 0x1118, 1, 0, 31, 0, .ro, 1, []⟩
def LDG_T_SEQ_HI.SEQ_HI : Fld := ⟨225, .ldg, 0, 0x111C, 1, 0, 31, 0, .ro, 0, []⟩
def LDG_T_ACK_NAND_LO.SEQ_LO : Fld := ⟨226, .ldg, 0, 0x1120, 1, 0, 31, 0, .ro, 0, []⟩
def LDG_T_ACK_NAND_HI.SEQ_HI : Fld := ⟨227, .ldg, 0, 0x1124, 1, 0, 31, 0, .ro, 0, []⟩
def LDG_T_ACK_PTNR_LO.SEQ_LO : Fld := ⟨228, .ldg, 0, 0x1128, 1, 0, 31, 0, .ro, 0, []⟩
def LDG_T_ACK_PTNR_HI.SEQ_HI : Fld := ⟨229, .ldg, 0, 0x112C, 1, 0, 31, 0, .ro, 0, []⟩
def LDG_T_ACK_HOST_LO.SEQ_LO : Fld := ⟨230, .ldg, 0, 0x1130, 1, 0, 31, 0, .ro, 0, []⟩
def LDG_T_ACK_HOST_HI.SEQ_HI : Fld := ⟨231, .ldg, 0, 0x1134, 1, 0, 31, 0, .ro, 0, []⟩
def LDG_T_CKPT_SEQ_LO.S0_LO : Fld := ⟨232, .ldg, 0, 0x1138, 1, 0, 31, 0, .ro, 0, []⟩
def LDG_T_CKPT_SEQ_HI.S0_HI : Fld := ⟨233, .ldg, 0, 0x113C, 1, 0, 31, 0, .ro, 0, []⟩
def LDG_T_JBUF.USED : Fld := ⟨234, .ldg, 0, 0x1140, 1, 0, 27, 16, .ro, 0, []⟩
def LDG_T_JBUF.QUOTA : Fld := ⟨235, .ldg, 0, 0x1140, 1, 0, 11, 0, .rwl, 0, [(0, 2048)]⟩
def LDG_T_JACK_TMO.MS : Fld := ⟨236, .ldg, 0, 0x1144, 1, 0, 15, 0, .rwl, 50, [(1, 10000)]⟩
def LDG_T_NFLUSH.US : Fld := ⟨237, .ldg, 0, 0x1148, 1, 0, 15, 0, .rwl, 200, [(50, 10000)]⟩
def LDG_T_DEFAULT.COUNT : Fld := ⟨238, .ldg, 0, 0x114C, 1, 0, 31, 0, .ro, 0, []⟩
def LDG_T_STAT.QUAR_ALL : Fld := ⟨239, .ldg, 0, 0x1150, 1, 0, 2, 2, .ro, 0, []⟩
def LDG_T_STAT.REBUILD_WAIT : Fld := ⟨240, .ldg, 0, 0x1150, 1, 0, 1, 1, .ro, 0, []⟩
def LDG_T_STAT.REBUILD : Fld := ⟨241, .ldg, 0, 0x1150, 1, 0, 0, 0, .ro, 0, []⟩
def LDG_T_CMD.REBUILD_DONE : Fld := ⟨242, .ldg, 0, 0x1154, 1, 0, 3, 3, .wo, 0, []⟩
def LDG_T_CMD.RESYNC_HOST : Fld := ⟨243, .ldg, 0, 0x1154, 1, 0, 2, 2, .wo, 0, []⟩
def LDG_T_CMD.RESYNC_PTNR : Fld := ⟨244, .ldg, 0, 0x1154, 1, 0, 1, 1, .wo, 0, []⟩
def LDG_T_CMD.RESYNC_NAND : Fld := ⟨245, .ldg, 0, 0x1154, 1, 0, 0, 0, .wo, 0, []⟩
def BAL_CFG.MET_OWNER : Fld := ⟨246, .bal, 0, 0x0, 1, 0, 25, 16, .rwl, 0, []⟩
def BAL_CFG.MEMB_VALID : Fld := ⟨247, .bal, 0, 0x0, 1, 0, 1, 1, .rwl, 0, []⟩
def BAL_CFG.AREA_VALID : Fld := ⟨248, .bal, 0, 0x0, 1, 0, 0, 0, .rwl, 0, []⟩
def BAL_AREA_LO.BASE_LO : Fld := ⟨249, .bal, 0, 0x4, 1, 0, 31, 20, .rwl, 0, []⟩
def BAL_AREA_HI.BASE_HI : Fld := ⟨250, .bal, 0, 0x8, 1, 0, 7, 0, .rwl, 0, []⟩
def BAL_MEMB_LO.BASE_LO : Fld := ⟨251, .bal, 0, 0xC, 1, 0, 31, 20, .rwl, 0, []⟩
def BAL_MEMB_HI.BASE_HI : Fld := ⟨252, .bal, 0, 0x10, 1, 0, 7, 0, .rwl, 0, []⟩
def BAL_NOMV.VOLTS : Fld := ⟨253, .bal, 0, 0x14, 1, 0, 15, 0, .rwl, 2300, []⟩
def BAL_MISALIGN.MIS_PCT : Fld := ⟨254, .bal, 0, 0x18, 1, 0, 15, 8, .rw, 20, [(0, 100)]⟩
def BAL_MISALIGN.CLK : Fld := ⟨255, .bal, 0, 0x18, 1, 0, 7, 0, .rw, 20, []⟩
def BAL_MISS.MISS_UNC : Fld := ⟨256, .bal, 0, 0x1C, 1, 0, 15, 8, .rw, 50, [(0, 200)]⟩
def BAL_MISS.MISS_MAX : Fld := ⟨257, .bal, 0, 0x1C, 1, 0, 7, 0, .rw, 5, [(0, 100)]⟩
def BAL_ACC.HALF : Fld := ⟨258, .bal, 0, 0x20, 8, 4, 15, 0, .rw, 100, []⟩
def BAL_MET_CTRL.ENABLE : Fld := ⟨259, .bal, 0, 0x40, 1, 0, 0, 0, .rw, 0, []⟩
def BAL_MET_STAT.OVER : Fld := ⟨260, .bal, 0, 0x44, 1, 0, 31, 24, .w1c, 0, []⟩
def BAL_MET_STAT.GEN : Fld := ⟨261, .bal, 0, 0x44, 1, 0, 23, 16, .ro, 0, []⟩
def BAL_MET_STAT.COHERENT : Fld := ⟨262, .bal, 0, 0x44, 1, 0, 3, 3, .ro, 0, []⟩
def BAL_MET_STAT.ENABLE_LATCHED : Fld := ⟨263, .bal, 0, 0x44, 1, 0, 2, 2, .ro, 0, []⟩
def BAL_MET_STAT.STATE : Fld := ⟨264, .bal, 0, 0x44, 1, 0, 1, 0, .ro, 0, []⟩
def BAL_SKIP.COUNT : Fld := ⟨265, .bal, 0, 0x60, 1, 0, 31, 0, .ro, 0, []⟩
def BAL_DROP.COUNT : Fld := ⟨266, .bal, 0, 0x64, 1, 0, 31, 0, .ro, 0, []⟩
def BAL_INTERP.COUNT : Fld := ⟨267, .bal, 0, 0x68, 1, 0, 31, 0, .ro, 0, []⟩
def BAL_TH_DROP.COUNT : Fld := ⟨268, .bal, 0, 0x6C, 1, 0, 31, 0, .ro, 0, []⟩
def BAL_PH_AMBIG.COUNT : Fld := ⟨269, .bal, 0, 0x70, 1, 0, 31, 0, .ro, 0, []⟩
def BAL_ERR.CM : Fld := ⟨270, .bal, 0, 0x100, 1, 0, 7, 7, .w1c, 0, []⟩
def BAL_ERR.TRIG : Fld := ⟨271, .bal, 0, 0x100, 1, 0, 6, 6, .w1c, 0, []⟩
def BAL_ERR.TREE : Fld := ⟨272, .bal, 0, 0x100, 1, 0, 5, 5, .w1c, 0, []⟩
def BAL_ERR.ROLE : Fld := ⟨273, .bal, 0, 0x100, 1, 0, 4, 4, .w1c, 0, []⟩
def BAL_ERR.BUSY : Fld := ⟨274, .bal, 0, 0x100, 1, 0, 3, 3, .w1c, 0, []⟩
def BAL_ERR.AREA : Fld := ⟨275, .bal, 0, 0x100, 1, 0, 2, 2, .w1c, 0, []⟩
def BAL_ERR.MARK_WR : Fld := ⟨276, .bal, 0, 0x100, 1, 0, 1, 1, .w1c, 0, []⟩
def BAL_ERR.RANGE : Fld := ⟨277, .bal, 0, 0x100, 1, 0, 0, 0, .w1c, 0, []⟩
def BAL_ERR_INFO.OFFSET : Fld := ⟨278, .bal, 0, 0x104, 1, 0, 19, 0, .ro, 0, []⟩
def BAL_VRMS.MV : Fld := ⟨279, .bal, 0, 0x200, 3, 64, 31, 0, .ro, 0, []⟩
def BAL_IRMS.MA : Fld := ⟨280, .bal, 0, 0x204, 3, 64, 31, 0, .ro, 0, []⟩
def BAL_P.W : Fld := ⟨281, .bal, 0, 0x208, 3, 64, 31, 0, .ro, 0, []⟩
def BAL_Q.VAR : Fld := ⟨282, .bal, 0, 0x20C, 3, 64, 31, 0, .ro, 0, []⟩
def BAL_EAI.LO : Fld := ⟨283, .bal, 0, 0x210, 3, 64, 31, 0, .ro, 0, []⟩
def BAL_EAI.HI : Fld := ⟨284, .bal, 0, 0x214, 3, 64, 31, 0, .ro, 0, []⟩
def BAL_EAE.LO : Fld := ⟨285, .bal, 0, 0x218, 3, 64, 31, 0, .ro, 0, []⟩
def BAL_EAE.HI : Fld := ⟨286, .bal, 0, 0x21C, 3, 64, 31, 0, .ro, 0, []⟩
def BAL_ERI.LO : Fld := ⟨287, .bal, 0, 0x220, 3, 64, 31, 0, .ro, 0, []⟩
def BAL_ERI.HI : Fld := ⟨288, .bal, 0, 0x224, 3, 64, 31, 0, .ro, 0, []⟩
def BAL_ERE.LO : Fld := ⟨289, .bal, 0, 0x228, 3, 64, 31, 0, .ro, 0, []⟩
def BAL_ERE.HI : Fld := ⟨290, .bal, 0, 0x22C, 3, 64, 31, 0, .ro, 0, []⟩
def BAL_N_VRMS.MV : Fld := ⟨291, .bal, 0, 0x2C0, 1, 0, 31, 0, .ro, 0, []⟩
def BAL_N_IRMS.MA : Fld := ⟨292, .bal, 0, 0x2C4, 1, 0, 31, 0, .ro, 0, []⟩
def BAL_CAL_GAIN.GAIN : Fld := ⟨293, .bal, 0, 0x300, 8, 16, 23, 0, .rw, 4194304, []⟩
def BAL_CAL_OFS.OFS : Fld := ⟨294, .bal, 0, 0x304, 8, 16, 23, 0, .rw, 0, []⟩
def BAL_CAL_PH.INTEG : Fld := ⟨295, .bal, 0, 0x308, 8, 16, 23, 23, .rw, 0, []⟩
def BAL_CAL_PH.PGA : Fld := ⟨296, .bal, 0, 0x308, 8, 16, 22, 20, .rw, 0, [(0, 5)]⟩
def BAL_CAL_PH.PHASE : Fld := ⟨297, .bal, 0, 0x308, 8, 16, 15, 0, .rw, 0, []⟩
def BAL_CAL_FS.FS : Fld := ⟨298, .bal, 0, 0x30C, 8, 16, 31, 0, .rwl, 0, []⟩
def BAL_WS_CTRL.EN : Fld := ⟨299, .bal, 0, 0x400, 8, 32, 0, 0, .rw, 0, []⟩
def BAL_WS_LEN.CYCLES : Fld := ⟨300, .bal, 0, 0x404, 8, 32, 23, 0, .rw, 45000, []⟩
def BAL_WS_EVAL.S : Fld := ⟨301, .bal, 0, 0x408, 8, 32, 15, 0, .rw, 300, []⟩
def BAL_WS_SEQ.SEQ : Fld := ⟨302, .bal, 0, 0x40C, 8, 32, 31, 0, .ro, 0, []⟩
def BAL_WS_BCYC_LO.CYC_LO : Fld := ⟨303, .bal, 0, 0x410, 8, 32, 31, 0, .ro, 0, []⟩
def BAL_WS_BCYC_HI.CYC_HI : Fld := ⟨304, .bal, 0, 0x414, 8, 32, 15, 0, .ro, 0, []⟩
def BAL_WS_BUTC.SEC_LO : Fld := ⟨305, .bal, 0, 0x418, 8, 32, 31, 0, .ro, 0, []⟩
def BAL_WS_BFLAGS.MS : Fld := ⟨306, .bal, 0, 0x41C, 8, 32, 31, 16, .ro, 0, []⟩
def BAL_WS_BFLAGS.DEGRADED : Fld := ⟨307, .bal, 0, 0x41C, 8, 32, 1, 1, .ro, 0, []⟩
def BAL_WS_BFLAGS.LATE_BOUND : Fld := ⟨308, .bal, 0, 0x41C, 8, 32, 0, 0, .ro, 0, []⟩
def BAL_CM_CFG.PHASE_REQ : Fld := ⟨309, .bal, 0, 0x500, 1, 0, 15, 15, .rw, 0, []⟩
def BAL_CM_CFG.GAP : Fld := ⟨310, .bal, 0, 0x500, 1, 0, 7, 4, .rw, 2, [(1, 15)]⟩
def BAL_CM_CFG.EN : Fld := ⟨311, .bal, 0, 0x500, 1, 0, 3, 3, .rw, 0, []⟩
def BAL_CM_CFG.WS : Fld := ⟨312, .bal, 0, 0x500, 1, 0, 2, 0, .rw, 0, []⟩
def BAL_CM_STAT.SKIPPED : Fld := ⟨313, .bal, 0, 0x504, 1, 0, 31, 16, .ro, 0, []⟩
def BAL_CM_STAT.SENT : Fld := ⟨314, .bal, 0, 0x504, 1, 0, 15, 0, .ro, 0, []⟩
def BAL_TH_CFG.THOSA_ID : Fld := ⟨315, .bal, 0, 0x508, 1, 0, 7, 0, .rwl, 229, []⟩
def BAL_MARK_ID.ID : Fld := ⟨316, .bal, 0, 0x540, 4, 16, 31, 0, .rw, 0, []⟩
def BAL_MARK_CYC.CYC_HI : Fld := ⟨317, .bal, 0, 0x544, 4, 16, 15, 0, .rw, 0, []⟩
def BAL_MARK_UTC.SEC : Fld := ⟨318, .bal, 0, 0x548, 4, 16, 31, 0, .rw, 0, []⟩
def BAL_MARK_ST.UTC_HI : Fld := ⟨319, .bal, 0, 0x54C, 4, 16, 31, 16, .rw, 0, []⟩
def BAL_MARK_ST.WS : Fld := ⟨320, .bal, 0, 0x54C, 4, 16, 4, 2, .rw, 0, []⟩
def BAL_MARK_ST.STATE : Fld := ⟨321, .bal, 0, 0x54C, 4, 16, 1, 0, .rw, 0, []⟩
def BAL_PH_CFG.N_AGREE : Fld := ⟨322, .bal, 0, 0x580, 1, 0, 18, 16, .rw, 3, [(1, 7)]⟩
def BAL_PH_CFG.TOL : Fld := ⟨323, .bal, 0, 0x580, 1, 0, 15, 0, .rw, 2731, [(256, 5461)]⟩
def BAL_TAMP_CFG0.REV_CYC : Fld := ⟨324, .bal, 0, 0x600, 1, 0, 31, 20, .rw, 250, []⟩
def BAL_TAMP_CFG0.REV_MIN : Fld := ⟨325, .bal, 0, 0x600, 1, 0, 19, 3, .rw, 500, []⟩
def BAL_TAMP_CFG0.EXPORT_OK : Fld := ⟨326, .bal, 0, 0x600, 1, 0, 2, 0, .rw, 0, []⟩
def BAL_TAMP_CFG1.BYP_CYC : Fld := ⟨327, .bal, 0, 0x604, 1, 0, 31, 20, .rw, 250, []⟩
def BAL_TAMP_CFG1.BYP_MIN : Fld := ⟨328, .bal, 0, 0x604, 1, 0, 19, 0, .rw, 2000, []⟩
def BAL_TAMP_CFG2.NEU_CYC : Fld := ⟨329, .bal, 0, 0x608, 1, 0, 31, 20, .rw, 100, []⟩
def BAL_TAMP_CFG2.NEU_MAX : Fld := ⟨330, .bal, 0, 0x608, 1, 0, 19, 0, .rw, 300, []⟩
def BAL_TAMP_STAT.ACTIVE : Fld := ⟨331, .bal, 0, 0x60C, 1, 0, 4, 0, .ro, 0, []⟩
def BAL_TAMP_LATCH.SEEN : Fld := ⟨332, .bal, 0, 0x610, 1, 0, 4, 0, .w1c, 0, []⟩
def BAL_MEMB_IDX.LEDGER : Fld := ⟨333, .bal, 9, 0x700, 1, 0, 20, 0, .rw, 0, []⟩
def BAL_MEMB_VAL.STATE : Fld := ⟨334, .bal, 0, 0x704, 1, 0, 15, 8, .ro, 0, []⟩
def BAL_MEMB_VAL.FLAGS : Fld := ⟨335, .bal, 0, 0x704, 1, 0, 7, 0, .rw, 0, []⟩
def BAL_SEL.NODE : Fld := ⟨336, .bal, 0, 0x1000, 1, 0, 15, 0, .rw, 0, []⟩
def BAL_N_CTRL.ENABLE : Fld := ⟨337, .bal, 0, 0x1100, 1, 0, 0, 0, .rw, 0, []⟩
def BAL_N_STAT.ALARM : Fld := ⟨338, .bal, 0, 0x1104, 1, 0, 31, 24, .ro, 0, []⟩
def BAL_N_STAT.GEN : Fld := ⟨339, .bal, 0, 0x1104, 1, 0, 23, 16, .ro, 0, []⟩
def BAL_N_STAT.RES_LOST : Fld := ⟨340, .bal, 0, 0x1104, 1, 0, 3, 3, .w1c, 0, []⟩
def BAL_N_STAT.ENABLE_LATCHED : Fld := ⟨341, .bal, 0, 0x1104, 1, 0, 2, 2, .ro, 0, []⟩
def BAL_N_STAT.STATE : Fld := ⟨342, .bal, 0, 0x1104, 1, 0, 1, 0, .ro, 0, []⟩
def BAL_N_CFG.PARENT_VALID : Fld := ⟨343, .bal, 0, 0x1108, 1, 0, 31, 31, .rw, 0, []⟩
def BAL_N_CFG.WS : Fld := ⟨344, .bal, 0, 0x1108, 1, 0, 30, 28, .rw, 0, []⟩
def BAL_N_CFG.REF_TYPE : Fld := ⟨345, .bal, 0, 0x1108, 1, 0, 27, 26, .rw, 0, [(0, 2)]⟩
def BAL_N_CFG.REF_PHASE : Fld := ⟨346, .bal, 0, 0x1108, 1, 0, 25, 24, .rw, 0, []⟩
def BAL_N_CFG.PARENT : Fld := ⟨347, .bal, 0, 0x1108, 1, 0, 15, 0, .rw, 0, []⟩
def BAL_N_REF.LEDGER : Fld := ⟨348, .bal, 0, 0x110C, 1, 0, 20, 0, .rw, 0, []⟩
def BAL_N_TL_P0.TL_UNC : Fld := ⟨349, .bal, 0, 0x1110, 1, 0, 31, 24, .rw, 20, []⟩
def BAL_N_TL_P0.P0 : Fld := ⟨350, .bal, 0, 0x1110, 1, 0, 23, 0, .rw, 0, []⟩
def BAL_N_TL_PCU.PCU : Fld := ⟨351, .bal, 0, 0x1114, 1, 0, 23, 0, .rw, 0, []⟩
def BAL_N_TL_PR.PRATED : Fld := ⟨352, .bal, 0, 0x1118, 1, 0, 31, 0, .rw, 1, [(1, 4294967295)]⟩
def BAL_N_ALARM.REF_ACC : Fld := ⟨353, .bal, 0, 0x111C, 1, 0, 31, 16, .rw, 20, []⟩
def BAL_N_ALARM.N_CLR : Fld := ⟨354, .bal, 0, 0x111C, 1, 0, 15, 12, .rw, 3, [(1, 15)]⟩
def BAL_N_ALARM.N_WIN : Fld := ⟨355, .bal, 0, 0x111C, 1, 0, 11, 8, .rw, 3, [(1, 15)]⟩
def BAL_N_ALARM.K10 : Fld := ⟨356, .bal, 0, 0x111C, 1, 0, 7, 0, .rw, 30, [(10, 100)]⟩
def BAL_N_LOSSMIN.MIN : Fld := ⟨357, .bal, 0, 0x1120, 1, 0, 31, 0, .rw, 0, []⟩
def BAL_N_RING.VALID : Fld := ⟨358, .bal, 0, 0x1124, 1, 0, 15, 15, .rw, 0, []⟩
def BAL_N_RING.RING : Fld := ⟨359, .bal, 0, 0x1124, 1, 0, 11, 0, .rw, 0, []⟩
def BAL_N_MEMB.COUNT : Fld := ⟨360, .bal, 0, 0x1128, 4, 4, 21, 0, .ro, 0, []⟩
def BAL_N_RUN.RUNS : Fld := ⟨361, .bal, 0, 0x1138, 1, 0, 31, 0, .ro, 0, []⟩
def BAL_N_LATE_E.E : Fld := ⟨362, .bal, 0, 0x113C, 1, 0, 31, 0, .ro, 0, []⟩
def BAL_N_PL.L : Fld := ⟨363, .bal, 0, 0x1140, 3, 4, 31, 0, .ro, 0, []⟩
def BAL_N_PU.U : Fld := ⟨364, .bal, 0, 0x114C, 3, 4, 31, 0, .ro, 0, []⟩
def BAL_N_SEQ.SEQ : Fld := ⟨365, .bal, 0, 0x1158, 1, 0, 31, 0, .ro, 0, []⟩
def SCB_INFO.CLUSTERS : Fld := ⟨366, .scb, 0, 0x0, 1, 0, 31, 28, .ro, 8, []⟩
def SCB_INFO.CORES : Fld := ⟨367, .scb, 0, 0x0, 1, 0, 27, 24, .ro, 8, []⟩
def SCB_INFO.CONTEXTS : Fld := ⟨368, .scb, 0, 0x0, 1, 0, 23, 20, .ro, 8, []⟩
def SCB_INFO.TASKS : Fld := ⟨369, .scb, 0, 0x0, 1, 0, 12, 0, .ro, 4096, []⟩
def SCB_CFG.RUN_MAX : Fld := ⟨370, .scb, 0, 0x4, 1, 0, 31, 16, .rwl, 64, [(1, 65535)]⟩
def SCB_POOL.USED : Fld := ⟨371, .scb, 0, 0x8, 1, 0, 16, 0, .ro, 0, []⟩
def SCB_POOL_EXH.COUNT : Fld := ⟨372, .scb, 0, 0xC, 1, 0, 31, 0, .ro, 0, []⟩
def SCB_LOAD0.RUN : Fld := ⟨373, .scb, 0, 0x10, 1, 0, 31, 0, .ro, 0, []⟩
def SCB_LOAD1.RUN : Fld := ⟨374, .scb, 0, 0x14, 1, 0, 31, 0, .ro, 0, []⟩
def SCB_BANK_IDX.BANK : Fld := ⟨375, .scb, 9, 0x20, 1, 0, 7, 0, .rw, 0, []⟩
def SCB_BANK_CTRL.STATE : Fld := ⟨376, .scb, 0, 0x24, 1, 0, 31, 30, .ro, 0, []⟩
def SCB_BANK_CTRL.SHARED : Fld := ⟨377, .scb, 0, 0x24, 1, 0, 16, 16, .rw, 0, []⟩
def SCB_BANK_CTRL.OWNER : Fld := ⟨378, .scb, 0, 0x24, 1, 0, 9, 0, .rw, 0, []⟩
def SCB_BANK_BASE.BASE : Fld := ⟨379, .scb, 0, 0x28, 1, 0, 16, 0, .rw, 0, []⟩
def SCB_BANK_LEN.LEN : Fld := ⟨380, .scb, 0, 0x2C, 1, 0, 16, 0, .rw, 0, [(1, 65536)]⟩
def SCB_BANK_CHECK.CRC : Fld := ⟨381, .scb, 0, 0x30, 1, 0, 31, 0, .rw, 0, []⟩
def SCB_BANK_CMD.OP : Fld := ⟨382, .scb, 0, 0x34, 1, 0, 1, 0, .wo, 0, []⟩
def SCB_BANK_STAT.GEN : Fld := ⟨383, .scb, 0, 0x38, 1, 0, 31, 24, .ro, 0, []⟩
def SCB_BANK_STAT.USERS : Fld := ⟨384, .scb, 0, 0x38, 1, 0, 12, 0, .ro, 0, []⟩
def SCB_PAGE_IDX.PAGE : Fld := ⟨385, .scb, 9, 0x40, 1, 0, 7, 0, .rw, 0, []⟩
def SCB_ERR.BUSY : Fld := ⟨386, .scb, 0, 0x100, 1, 0, 7, 7, .w1c, 0, []⟩
def SCB_ERR.ENABLE : Fld := ⟨387, .scb, 0, 0x100, 1, 0, 6, 6, .w1c, 0, []⟩
def SCB_ERR.QUOTA : Fld := ⟨388, .scb, 0, 0x100, 1, 0, 5, 5, .w1c, 0, []⟩
def SCB_ERR.WINDOW : Fld := ⟨389, .scb, 0, 0x100, 1, 0, 4, 4, .w1c, 0, []⟩
def SCB_ERR.OVERLAP : Fld := ⟨390, .scb, 0, 0x100, 1, 0, 3, 3, .w1c, 0, []⟩
def SCB_ERR.CHECK : Fld := ⟨391, .scb, 0, 0x100, 1, 0, 2, 2, .w1c, 0, []⟩
def SCB_ERR.BANK_BUSY : Fld := ⟨392, .scb, 0, 0x100, 1, 0, 1, 1, .w1c, 0, []⟩
def SCB_ERR.RANGE : Fld := ⟨393, .scb, 0, 0x100, 1, 0, 0, 0, .w1c, 0, []⟩
def SCB_ERR_INFO.OFFSET : Fld := ⟨394, .scb, 0, 0x104, 1, 0, 19, 0, .ro, 0, []⟩
def SCB_SEL.TASK : Fld := ⟨395, .scb, 0, 0x1000, 1, 0, 11, 0, .rw, 0, []⟩
def TSK_CTRL.ENABLE : Fld := ⟨396, .scb, 0, 0x1100, 1, 0, 0, 0, .rw, 0, []⟩
def TSK_STAT.FAULT : Fld := ⟨397, .scb, 0, 0x1104, 1, 0, 31, 24, .ro, 0, []⟩
def TSK_STAT.GEN : Fld := ⟨398, .scb, 0, 0x1104, 1, 0, 23, 16, .ro, 0, []⟩
def TSK_STAT.RUNNING : Fld := ⟨399, .scb, 0, 0x1104, 1, 0, 15, 9, .ro, 0, []⟩
def TSK_STAT.READY : Fld := ⟨400, .scb, 0, 0x1104, 1, 0, 3, 3, .ro, 0, []⟩
def TSK_STAT.ENABLE_LATCHED : Fld := ⟨401, .scb, 0, 0x1104, 1, 0, 2, 2, .ro, 0, []⟩
def TSK_STAT.STATE : Fld := ⟨402, .scb, 0, 0x1104, 1, 0, 1, 0, .ro, 0, []⟩
def TSK_CFG.PRIO : Fld := ⟨403, .scb, 0, 0x1108, 1, 0, 31, 29, .rw, 4, []⟩
def TSK_CFG.CLUSTERS : Fld := ⟨404, .scb, 0, 0x1108, 1, 0, 23, 16, .rw, 255, []⟩
def TSK_CFG.BANK : Fld := ⟨405, .scb, 0, 0x1108, 1, 0, 15, 8, .rw, 0, []⟩
def TSK_CFG.MULTI : Fld := ⟨406, .scb, 0, 0x1108, 1, 0, 6, 0, .rw, 1, [(1, 64)]⟩
def TSK_DATA.PAGES : Fld := ⟨407, .scb, 0, 0x110C, 1, 0, 24, 16, .rw, 0, [(0, 256)]⟩
def TSK_DATA.BASE : Fld := ⟨408, .scb, 0, 0x110C, 1, 0, 7, 0, .rw, 0, []⟩
def TSK_XWIN_LO.BASE_LO : Fld := ⟨409, .scb, 0, 0x1110, 1, 0, 31, 12, .rw, 0, []⟩
def TSK_XWIN_HI.BASE_HI : Fld := ⟨410, .scb, 0, 0x1114, 1, 0, 7, 0, .rw, 0, []⟩
def TSK_XWIN_SIZE.PAGES : Fld := ⟨411, .scb, 0, 0x1118, 1, 0, 21, 0, .rw, 0, []⟩
def TSK_ENTRY.E0 : Fld := ⟨412, .scb, 0, 0x111C, 1, 0, 15, 0, .rw, 0, []⟩
def TSK_ENTRY.E1 : Fld := ⟨413, .scb, 0, 0x111C, 1, 0, 31, 16, .rw, 0, []⟩
def TSK_ENTRY.E2 : Fld := ⟨414, .scb, 0, 0x1120, 1, 0, 15, 0, .rw, 0, []⟩
def TSK_ENTRY.E3 : Fld := ⟨415, .scb, 0, 0x1120, 1, 0, 31, 16, .rw, 0, []⟩
def TSK_ENTRY.E4 : Fld := ⟨416, .scb, 0, 0x1124, 1, 0, 15, 0, .rw, 0, []⟩
def TSK_ENTRY.E5 : Fld := ⟨417, .scb, 0, 0x1124, 1, 0, 31, 16, .rw, 0, []⟩
def TSK_ENTRY.E6 : Fld := ⟨418, .scb, 0, 0x1128, 1, 0, 15, 0, .rw, 0, []⟩
def TSK_ENTRY.E7 : Fld := ⟨419, .scb, 0, 0x1128, 1, 0, 31, 16, .rw, 0, []⟩
def TSK_IN_CFG.MODE : Fld := ⟨420, .scb, 0, 0x112C, 1, 0, 15, 8, .rw, 0, [(0, 127)]⟩
def TSK_IN_CFG.EN : Fld := ⟨421, .scb, 0, 0x112C, 1, 0, 7, 0, .rw, 0, []⟩
def TSK_IN.OVERFLOW : Fld := ⟨422, .scb, 0, 0x1130, 8, 4, 31, 16, .ro, 0, []⟩
def TSK_IN.COUNT : Fld := ⟨423, .scb, 0, 0x1130, 8, 4, 15, 0, .ro, 0, []⟩
def TSK_DISCARD.COUNT : Fld := ⟨424, .scb, 0, 0x1150, 1, 0, 31, 0, .ro, 0, []⟩
def TSK_FAULT_PC.PC : Fld := ⟨425, .scb, 0, 0x1154, 1, 0, 15, 0, .ro, 0, []⟩
def TSK_CYC_LO.CYC_LO : Fld := ⟨426, .scb, 0, 0x1158, 1, 0, 31, 0, .ro, 0, []⟩
def TSK_CYC_HI.CYC_HI : Fld := ⟨427, .scb, 0, 0x115C, 1, 0, 31, 0, .ro, 0, []⟩
def TSK_CMD.CLR : Fld := ⟨428, .scb, 0, 0x1160, 1, 0, 0, 0, .wo, 0, []⟩
def PRM_INFO.LOCK_GROUPS : Fld := ⟨429, .prm, 0, 0x0, 1, 0, 31, 24, .ro, 128, []⟩
def PRM_INFO.TABLES : Fld := ⟨430, .prm, 0, 0x0, 1, 0, 23, 16, .ro, 32, []⟩
def PRM_INFO.QUEUES : Fld := ⟨431, .prm, 0, 0x0, 1, 0, 10, 0, .ro, 1024, []⟩
def PRM_QPOOL.USED : Fld := ⟨432, .prm, 0, 0x4, 1, 0, 16, 0, .ro, 0, []⟩
def PRM_TPOOL.USED : Fld := ⟨433, .prm, 0, 0x8, 1, 0, 14, 0, .ro, 0, []⟩
def PRM_LOCK_QUERY.LOCK : Fld := ⟨434, .prm, 9, 0x10, 1, 0, 12, 0, .rw, 0, []⟩
def PRM_LOCK_INFO.STATE : Fld := ⟨435, .prm, 0, 0x14, 1, 0, 31, 30, .ro, 0, []⟩
def PRM_LOCK_INFO.KIND : Fld := ⟨436, .prm, 0, 0x14, 1, 0, 29, 29, .ro, 0, []⟩
def PRM_LOCK_INFO.HOST : Fld := ⟨437, .prm, 0, 0x14, 1, 0, 28, 26, .ro, 0, []⟩
def PRM_LOCK_INFO.TENANT : Fld := ⟨438, .prm, 0, 0x14, 1, 0, 25, 16, .ro, 0, []⟩
def PRM_LOCK_INFO.WAITERS : Fld := ⟨439, .prm, 0, 0x14, 1, 0, 15, 8, .ro, 0, []⟩
def PRM_LOCK_OWNER.CONTEXT : Fld := ⟨440, .prm, 0, 0x18, 1, 0, 20, 12, .ro, 0, []⟩
def PRM_LOCK_OWNER.TASK : Fld := ⟨441, .prm, 0, 0x18, 1, 0, 11, 0, .ro, 0, []⟩
def PRM_ERR.POOL : Fld := ⟨442, .prm, 0, 0x100, 1, 0, 3, 3, .w1c, 0, []⟩
def PRM_ERR.OVERLAP : Fld := ⟨443, .prm, 0, 0x100, 1, 0, 2, 2, .w1c, 0, []⟩
def PRM_ERR.BUSY : Fld := ⟨444, .prm, 0, 0x100, 1, 0, 1, 1, .w1c, 0, []⟩
def PRM_ERR.RANGE : Fld := ⟨445, .prm, 0, 0x100, 1, 0, 0, 0, .w1c, 0, []⟩
def PRM_ERR_INFO.OFFSET : Fld := ⟨446, .prm, 0, 0x104, 1, 0, 19, 0, .ro, 0, []⟩
def PRM_SEL.KIND : Fld := ⟨447, .prm, 0, 0x1000, 1, 0, 13, 12, .rw, 0, []⟩
def PRM_SEL.INDEX : Fld := ⟨448, .prm, 0, 0x1000, 1, 0, 9, 0, .rw, 0, []⟩
def Q_CTRL.ENABLE : Fld := ⟨449, .prm, 0, 0x1100, 1, 0, 0, 0, .rw, 0, []⟩
def Q_STAT.GEN : Fld := ⟨450, .prm, 0, 0x1104, 1, 0, 23, 16, .ro, 0, []⟩
def Q_STAT.ENABLE_LATCHED : Fld := ⟨451, .prm, 0, 0x1104, 1, 0, 2, 2, .ro, 0, []⟩
def Q_STAT.STATE : Fld := ⟨452, .prm, 0, 0x1104, 1, 0, 1, 0, .ro, 0, []⟩
def Q_CFG.OWNER : Fld := ⟨453, .prm, 0, 0x1108, 1, 0, 25, 16, .rw, 0, []⟩
def Q_CFG.DEPTH_LOG2 : Fld := ⟨454, .prm, 0, 0x1108, 1, 0, 15, 12, .rw, 4, [(4, 14)]⟩
def Q_CFG.BATCH : Fld := ⟨455, .prm, 0, 0x1108, 1, 0, 11, 10, .rw, 0, [(0, 2)]⟩
def Q_BASE.BASE : Fld := ⟨456, .prm, 0, 0x110C, 1, 0, 15, 0, .rw, 0, []⟩
def Q_ENDP.CONS_KIND : Fld := ⟨457, .prm, 0, 0x1110, 1, 0, 31, 31, .rw, 0, []⟩
def Q_ENDP.CONS_PORT : Fld := ⟨458, .prm, 0, 0x1110, 1, 0, 23, 16, .rw, 0, []⟩
def Q_ENDP.PROD_KIND : Fld := ⟨459, .prm, 0, 0x1110, 1, 0, 15, 15, .rw, 0, []⟩
def Q_ENDP.PROD_PORT : Fld := ⟨460, .prm, 0, 0x1110, 1, 0, 7, 0, .rw, 0, []⟩
def Q_STRAND.NS : Fld := ⟨461, .prm, 0, 0x1114, 1, 0, 15, 0, .rw, 1000, [(50, 65535)]⟩
def Q_LEVEL.HIGH : Fld := ⟨462, .prm, 0, 0x1118, 1, 0, 31, 16, .ro, 0, []⟩
def Q_LEVEL.LEVEL : Fld := ⟨463, .prm, 0, 0x1118, 1, 0, 15, 0, .ro, 0, []⟩
def Q_PUSH_REF.COUNT : Fld := ⟨464, .prm, 0, 0x111C, 1, 0, 31, 0, .ro, 0, []⟩
def Q_CMD.CLR_HIGH : Fld := ⟨465, .prm, 0, 0x1120, 1, 0, 1, 1, .wo, 0, []⟩
def Q_CMD.FLUSH : Fld := ⟨466, .prm, 0, 0x1120, 1, 0, 0, 0, .wo, 0, []⟩
def T_CTRL.ENABLE : Fld := ⟨467, .prm, 1, 0x1100, 1, 0, 0, 0, .rw, 0, []⟩
def T_STAT.GEN : Fld := ⟨468, .prm, 1, 0x1104, 1, 0, 23, 16, .ro, 0, []⟩
def T_STAT.ENABLE_LATCHED : Fld := ⟨469, .prm, 1, 0x1104, 1, 0, 2, 2, .ro, 0, []⟩
def T_STAT.STATE : Fld := ⟨470, .prm, 1, 0x1104, 1, 0, 1, 0, .ro, 0, []⟩
def T_CFG.OWNER : Fld := ⟨471, .prm, 1, 0x1108, 1, 0, 25, 16, .rw, 0, []⟩
def T_CFG.KEY16 : Fld := ⟨472, .prm, 1, 0x1108, 1, 0, 15, 15, .rw, 0, []⟩
def T_CFG.OLDEST : Fld := ⟨473, .prm, 1, 0x1108, 1, 0, 14, 14, .rw, 0, []⟩
def T_CFG.SETS_LOG2 : Fld := ⟨474, .prm, 1, 0x1108, 1, 0, 3, 0, .rw, 4, [(4, 13)]⟩
def T_BASE.BASE : Fld := ⟨475, .prm, 1, 0x110C, 1, 0, 13, 0, .rw, 0, []⟩
def T_SWEEP.S : Fld := ⟨476, .prm, 1, 0x1110, 1, 0, 15, 0, .rw, 0, []⟩
def T_COUNT.STATIC : Fld := ⟨477, .prm, 1, 0x1114, 1, 0, 31, 16, .ro, 0, []⟩
def T_COUNT.VALID : Fld := ⟨478, .prm, 1, 0x1114, 1, 0, 15, 0, .ro, 0, []⟩
def T_EVICT.COUNT : Fld := ⟨479, .prm, 1, 0x1118, 1, 0, 31, 0, .ro, 0, []⟩
def T_AGED.COUNT : Fld := ⟨480, .prm, 1, 0x111C, 1, 0, 31, 0, .ro, 0, []⟩
def T_MOVES.COUNT : Fld := ⟨481, .prm, 1, 0x1120, 1, 0, 31, 0, .ro, 0, []⟩
def T_PARITY.COUNT : Fld := ⟨482, .prm, 1, 0x1124, 1, 0, 31, 0, .ro, 0, []⟩
def T_EVKEY.KEY : Fld := ⟨483, .prm, 1, 0x1128, 4, 4, 31, 0, .ro, 0, []⟩
def T_CMD.SWEEP_NOW : Fld := ⟨484, .prm, 1, 0x1138, 1, 0, 2, 2, .wo, 0, []⟩
def T_CMD.CLR : Fld := ⟨485, .prm, 1, 0x1138, 1, 0, 1, 1, .wo, 0, []⟩
def T_CMD.SCRUB_BAD : Fld := ⟨486, .prm, 1, 0x1138, 1, 0, 0, 0, .wo, 0, []⟩
def L_CTRL.ENABLE : Fld := ⟨487, .prm, 2, 0x1100, 1, 0, 0, 0, .rw, 0, []⟩
def L_STAT.GEN : Fld := ⟨488, .prm, 2, 0x1104, 1, 0, 23, 16, .ro, 0, []⟩
def L_STAT.HELD : Fld := ⟨489, .prm, 2, 0x1104, 1, 0, 14, 8, .ro, 0, []⟩
def L_STAT.ENABLE_LATCHED : Fld := ⟨490, .prm, 2, 0x1104, 1, 0, 2, 2, .ro, 0, []⟩
def L_STAT.STATE : Fld := ⟨491, .prm, 2, 0x1104, 1, 0, 1, 0, .ro, 0, []⟩
def L_CFG.OWNER : Fld := ⟨492, .prm, 2, 0x1108, 1, 0, 9, 0, .rw, 0, []⟩
def L_BROKEN.COUNT : Fld := ⟨493, .prm, 2, 0x110C, 1, 0, 31, 0, .ro, 0, []⟩
def DB_SQ_TAIL.TAIL : Fld := ⟨494, .db, 0, 0x0, 1, 0, 15, 0, .wo, 0, []⟩
def DB_HEAD.HEAD : Fld := ⟨495, .db, 0, 0x4, 1, 0, 15, 0, .wo, 0, []⟩
def DB_FETCH.HEAD : Fld := ⟨496, .db, 0, 0x8, 1, 0, 15, 0, .ro, 0, []⟩
def DB_STAT.GEN : Fld := ⟨497, .db, 0, 0xC, 1, 0, 23, 16, .ro, 0, []⟩
def DB_STAT.STATE : Fld := ⟨498, .db, 0, 0xC, 1, 0, 1, 0, .ro, 0, []⟩
def RNG_INFO.RINGS : Fld := ⟨499, .rng, 0, 0x0, 1, 0, 31, 16, .ro, 4096, []⟩
def RNG_INFO.BIFURCATED : Fld := ⟨500, .rng, 0, 0x0, 1, 0, 4, 4, .ro, 0, []⟩
def RNG_INFO.HOSTS : Fld := ⟨501, .rng, 0, 0x0, 1, 0, 3, 0, .ro, 8, []⟩
def RNG_SUPV.WAIT : Fld := ⟨502, .rng, 0, 0x4, 1, 0, 31, 16, .rwl, 30, [(1, 65535)]⟩
def RNG_SUPV.ALT_VALID : Fld := ⟨503, .rng, 0, 0x4, 1, 0, 8, 8, .ro, 0, []⟩
def RNG_SUPV.ALT : Fld := ⟨504, .rng, 0, 0x4, 1, 0, 6, 4, .ro, 0, []⟩
def RNG_SUPV.PRIMARY : Fld := ⟨505, .rng, 0, 0x4, 1, 0, 2, 0, .ro, 0, []⟩
def RNG_MRT.ETYPE : Fld := ⟨506, .rng, 0, 0x8, 1, 0, 31, 16, .rwl, 34997, []⟩
def RNG_MRT.MTU : Fld := ⟨507, .rng, 0, 0x8, 1, 0, 13, 0, .rwl, 9000, [(1500, 9216)]⟩
def RNG_MRT_TMO.KEEPALIVE : Fld := ⟨508, .rng, 0, 0xC, 1, 0, 31, 24, .rwl, 10, [(1, 255)]⟩
def RNG_MRT_TMO.RETRIES : Fld := ⟨509, .rng, 0, 0xC, 1, 0, 23, 20, .rwl, 8, [(1, 15)]⟩
def RNG_MRT_TMO.RTO : Fld := ⟨510, .rng, 0, 0xC, 1, 0, 15, 0, .rwl, 200, [(20, 65535)]⟩
def RNG_MRT_BUF_LO.BASE_LO : Fld := ⟨511, .rng, 0, 0x10, 1, 0, 31, 20, .rwl, 0, []⟩
def RNG_MRT_BUF_HI.BASE_HI : Fld := ⟨512, .rng, 0, 0x14, 1, 0, 7, 0, .rwl, 0, []⟩
def RNG_SHP_LO.BASE_LO : Fld := ⟨513, .rng, 0, 0x18, 1, 0, 31, 12, .rwl, 0, []⟩
def RNG_SHP_HI.BASE_HI : Fld := ⟨514, .rng, 0, 0x1C, 1, 0, 7, 0, .rwl, 0, []⟩
def RNG_SHP_SIZE.PAGES : Fld := ⟨515, .rng, 0, 0x20, 1, 0, 14, 0, .rwl, 0, [(0, 16384)]⟩
def RNG_SHP_CFG.QUAD : Fld := ⟨516, .rng, 0, 0x24, 1, 0, 16, 16, .rwl, 0, []⟩
def RNG_SHP_CFG.TMO : Fld := ⟨517, .rng, 0, 0x24, 1, 0, 15, 0, .rwl, 1000, [(10, 65535)]⟩
def RNG_ERR.FETCH : Fld := ⟨518, .rng, 0, 0x100, 1, 0, 6, 6, .w1c, 0, []⟩
def RNG_ERR.DB_PROT : Fld := ⟨519, .rng, 0, 0x100, 1, 0, 5, 5, .w1c, 0, []⟩
def RNG_ERR.DB_RANGE : Fld := ⟨520, .rng, 0, 0x100, 1, 0, 4, 4, .w1c, 0, []⟩
def RNG_ERR.HOST : Fld := ⟨521, .rng, 0, 0x100, 1, 0, 3, 3, .w1c, 0, []⟩
def RNG_ERR.ENABLE : Fld := ⟨522, .rng, 0, 0x100, 1, 0, 2, 2, .w1c, 0, []⟩
def RNG_ERR.BUSY : Fld := ⟨523, .rng, 0, 0x100, 1, 0, 1, 1, .w1c, 0, []⟩
def RNG_ERR.RANGE : Fld := ⟨524, .rng, 0, 0x100, 1, 0, 0, 0, .w1c, 0, []⟩
def RNG_ERR_INFO.HOST : Fld := ⟨525, .rng, 0, 0x104, 1, 0, 31, 29, .ro, 0, []⟩
def RNG_ERR_INFO.RING : Fld := ⟨526, .rng, 0, 0x104, 1, 0, 23, 12, .ro, 0, []⟩
def RNG_ERR_OFS.OFFSET : Fld := ⟨527, .rng, 0, 0x108, 1, 0, 19, 0, .ro, 0, []⟩
def RNG_SEL.KIND : Fld := ⟨528, .rng, 0, 0x1000, 1, 0, 15, 15, .rw, 0, []⟩
def RNG_SEL.INDEX : Fld := ⟨529, .rng, 0, 0x1000, 1, 0, 11, 0, .rw, 0, []⟩
def RNG_R_CTRL.ENABLE : Fld := ⟨530, .rng, 0, 0x1100, 1, 0, 0, 0, .rw, 0, []⟩
def RNG_R_STAT.GEN : Fld := ⟨531, .rng, 0, 0x1104, 1, 0, 23, 16, .ro, 0, []⟩
def RNG_R_STAT.PHASE : Fld := ⟨532, .rng, 0, 0x1104, 1, 0, 5, 5, .ro, 1, []⟩
def RNG_R_STAT.FETCH_ERR : Fld := ⟨533, .rng, 0, 0x1104, 1, 0, 4, 4, .ro, 0, []⟩
def RNG_R_STAT.WAIT_CQ : Fld := ⟨534, .rng, 0, 0x1104, 1, 0, 3, 3, .ro, 0, []⟩
def RNG_R_STAT.ENABLE_LATCHED : Fld := ⟨535, .rng, 0, 0x1104, 1, 0, 2, 2, .ro, 0, []⟩
def RNG_R_STAT.STATE : Fld := ⟨536, .rng, 0, 0x1104, 1, 0, 1, 0, .ro, 0, []⟩
def RNG_R_CFG.SIZE_LOG2 : Fld := ⟨537, .rng, 0, 0x1108, 1, 0, 20, 16, .rw, 8, [(4, 16)]⟩
def RNG_R_CFG.ESIZE_LOG2 : Fld := ⟨538, .rng, 0, 0x1108, 1, 0, 15, 12, .rw, 6, [(5, 11)]⟩
def RNG_R_CFG.HOST : Fld := ⟨539, .rng, 0, 0x1108, 1, 0, 10, 8, .rw, 0, []⟩
def RNG_R_CFG.PRIO : Fld := ⟨540, .rng, 0, 0x1108, 1, 0, 6, 4, .rw, 7, []⟩
def RNG_R_CFG.TYPE : Fld := ⟨541, .rng, 0, 0x1108, 1, 0, 0, 0, .rw, 0, []⟩
def RNG_R_BASE_LO.BASE_LO : Fld := ⟨542, .rng, 0, 0x110C, 1, 0, 31, 12, .rw, 0, []⟩
def RNG_R_BASE_HI.BASE_HI : Fld := ⟨543, .rng, 0, 0x1110, 1, 0, 31, 0, .rw, 0, []⟩
def RNG_R_CQ_LO.CQ_LO : Fld := ⟨544, .rng, 0, 0x1114, 1, 0, 31, 12, .rw, 0, []⟩
def RNG_R_CQ_HI.CQ_HI : Fld := ⟨545, .rng, 0, 0x1118, 1, 0, 31, 0, .rw, 0, []⟩
def RNG_R_TASK.VALID : Fld := ⟨546, .rng, 0, 0x111C, 1, 0, 31, 31, .rw, 0, []⟩
def RNG_R_TASK.CMDA_LOG2 : Fld := ⟨547, .rng, 0, 0x111C, 1, 0, 30, 28, .rw, 0, [(0, 6)]⟩
def RNG_R_TASK.CMDA : Fld := ⟨548, .rng, 0, 0x111C, 1, 0, 27, 14, .rw, 0, []⟩
def RNG_R_TASK.TASK : Fld := ⟨549, .rng, 0, 0x111C, 1, 0, 11, 0, .rw, 0, []⟩
def RNG_R_IRQ.EN : Fld := ⟨550, .rng, 0, 0x1120, 1, 0, 31, 31, .rw, 0, []⟩
def RNG_R_IRQ.COAL_US : Fld := ⟨551, .rng, 0, 0x1120, 1, 0, 30, 24, .rw, 0, []⟩
def RNG_R_IRQ.COAL_N : Fld := ⟨552, .rng, 0, 0x1120, 1, 0, 23, 16, .rw, 1, [(1, 255)]⟩
def RNG_R_IRQ.VECTOR : Fld := ⟨553, .rng, 0, 0x1120, 1, 0, 10, 0, .rw, 0, []⟩
def RNG_R_SQ.TAIL : Fld := ⟨554, .rng, 0, 0x1124, 1, 0, 31, 16, .ro, 0, []⟩
def RNG_R_SQ.HEAD : Fld := ⟨555, .rng, 0, 0x1124, 1, 0, 15, 0, .ro, 0, []⟩
def RNG_R_CQ.HEAD : Fld := ⟨556, .rng, 0, 0x1128, 1, 0, 31, 16, .ro, 0, []⟩
def RNG_R_CQ.TAIL : Fld := ⟨557, .rng, 0, 0x1128, 1, 0, 15, 0, .ro, 0, []⟩
def RNG_R_OUT.COUNT : Fld := ⟨558, .rng, 0, 0x112C, 1, 0, 16, 0, .ro, 0, []⟩
def RNG_R_DONE.COUNT : Fld := ⟨559, .rng, 0, 0x1130, 1, 0, 31, 0, .ro, 0, []⟩
def RNG_R_DROP.COUNT : Fld := ⟨560, .rng, 0, 0x1134, 1, 0, 31, 0, .ro, 0, []⟩
def RNG_R_CMD.CLR : Fld := ⟨561, .rng, 0, 0x1138, 1, 0, 0, 0, .wo, 0, []⟩
def RNG_H_CTRL.ALLOW : Fld := ⟨562, .rng, 1, 0x1100, 1, 0, 0, 0, .rwl, 0, []⟩
def RNG_H_STAT.DOWNS : Fld := ⟨563, .rng, 1, 0x1104, 1, 0, 31, 24, .ro, 0, []⟩
def RNG_H_STAT.TYPE : Fld := ⟨564, .rng, 1, 0x1104, 1, 0, 7, 4, .ro, 0, []⟩
def RNG_H_STAT.SUPV : Fld := ⟨565, .rng, 1, 0x1104, 1, 0, 1, 1, .ro, 0, []⟩
def RNG_H_STAT.UP : Fld := ⟨566, .rng, 1, 0x1104, 1, 0, 0, 0, .ro, 0, []⟩
def RNG_H_WT0.WT2 : Fld := ⟨567, .rng, 1, 0x1108, 1, 0, 7, 0, .rw, 32, []⟩
def RNG_H_WT0.WT3 : Fld := ⟨568, .rng, 1, 0x1108, 1, 0, 15, 8, .rw, 16, []⟩
def RNG_H_WT0.WT4 : Fld := ⟨569, .rng, 1, 0x1108, 1, 0, 23, 16, .rw, 8, []⟩
def RNG_H_WT0.WT5 : Fld := ⟨570, .rng, 1, 0x1108, 1, 0, 31, 24, .rw, 4, []⟩
def RNG_H_WT1.WT6 : Fld := ⟨571, .rng, 1, 0x110C, 1, 0, 7, 0, .rw, 2, []⟩
def RNG_H_WT1.WT7 : Fld := ⟨572, .rng, 1, 0x110C, 1, 0, 15, 8, .rw, 1, []⟩
def RNG_H_FETCHED.COUNT : Fld := ⟨573, .rng, 1, 0x1110, 1, 0, 31, 0, .ro, 0, []⟩
def RNG_H_LOSTCPL.COUNT : Fld := ⟨574, .rng, 1, 0x1114, 1, 0, 31, 0, .ro, 0, []⟩
def RNG_H_DBPROT.COUNT : Fld := ⟨575, .rng, 1, 0x1118, 1, 0, 31, 0, .ro, 0, []⟩
def RNG_H_MRT_CFG.VLAN : Fld := ⟨576, .rng, 1, 0x1120, 1, 0, 30, 19, .rwl, 0, []⟩
def RNG_H_MRT_CFG.VLAN_EN : Fld := ⟨577, .rng, 1, 0x1120, 1, 0, 18, 18, .rwl, 0, []⟩
def RNG_H_MRT_CFG.PORTS : Fld := ⟨578, .rng, 1, 0x1120, 1, 0, 17, 16, .rwl, 3, []⟩
def RNG_H_MRT_CFG.KEY_SLOT : Fld := ⟨579, .rng, 1, 0x1120, 1, 0, 11, 0, .rwl, 0, []⟩
def RNG_H_MAC_LO.MAC_LO : Fld := ⟨580, .rng, 1, 0x1124, 1, 0, 31, 0, .rwl, 0, []⟩
def RNG_H_MAC_HI.MAC_HI : Fld := ⟨581, .rng, 1, 0x1128, 1, 0, 15, 0, .rwl, 0, []⟩
def RNG_H_SESSION.SESSION : Fld := ⟨582, .rng, 1, 0x112C, 1, 0, 31, 0, .ro, 0, []⟩
def RNG_H_RX_DUP.COUNT : Fld := ⟨583, .rng, 1, 0x1130, 1, 0, 31, 0, .ro, 0, []⟩
def RNG_H_RX_OOW.COUNT : Fld := ⟨584, .rng, 1, 0x1134, 1, 0, 31, 0, .ro, 0, []⟩
def RNG_H_RX_AUTH.COUNT : Fld := ⟨585, .rng, 1, 0x1138, 1, 0, 31, 0, .ro, 0, []⟩
def RNG_H_TX_RETX.COUNT : Fld := ⟨586, .rng, 1, 0x113C, 1, 0, 31, 0, .ro, 0, []⟩
def RNG_H_RX_HELD.FRAMES : Fld := ⟨587, .rng, 1, 0x1140, 1, 0, 6, 0, .ro, 0, []⟩
def EVT_INFO.SOURCES : Fld := ⟨588, .evt, 0, 0x0, 1, 0, 11, 0, .ro, 2048, []⟩
def EVT_NOOWN.COUNT : Fld := ⟨589, .evt, 0, 0x4, 1, 0, 31, 0, .ro, 0, []⟩
def EVT_NOROUTE.COUNT : Fld := ⟨590, .evt, 0, 0x8, 1, 0, 31, 0, .ro, 0, []⟩
def EVT_ERR.ROUTE : Fld := ⟨591, .evt, 0, 0x100, 1, 0, 1, 1, .w1c, 0, []⟩
def EVT_ERR.RANGE : Fld := ⟨592, .evt, 0, 0x100, 1, 0, 0, 0, .w1c, 0, []⟩
def EVT_ERR_INFO.SOURCE : Fld := ⟨593, .evt, 0, 0x104, 1, 0, 10, 0, .ro, 0, []⟩
def EVT_SEL.SOURCE : Fld := ⟨594, .evt, 0, 0x1000, 1, 0, 10, 0, .rw, 0, []⟩
def EVT_S_CNT.COUNT : Fld := ⟨595, .evt, 0, 0x1100, 1, 0, 31, 0, .ro, 0, []⟩
def EVT_S_DROP.COUNT : Fld := ⟨596, .evt, 0, 0x1104, 1, 0, 31, 0, .ro, 0, []⟩
def EVT_S_CMD.CLR : Fld := ⟨597, .evt, 0, 0x1108, 1, 0, 0, 0, .wo, 0, []⟩
def PLC_INFO.NODES : Fld := ⟨598, .plc, 0, 0x0, 1, 0, 31, 16, .ro, 32768, []⟩
def PLC_INFO.LANES : Fld := ⟨599, .plc, 0, 0x0, 1, 0, 3, 0, .ro, 4, []⟩
def PLC_PAN.SHORT : Fld := ⟨600, .plc, 0, 0x4, 1, 0, 31, 16, .rwl, 0, []⟩
def PLC_PAN.PAN_ID : Fld := ⟨601, .plc, 0, 0x4, 1, 0, 15, 0, .rwl, 65535, []⟩
def PLC_COMB.WIN : Fld := ⟨602, .plc, 0, 0x8, 1, 0, 23, 16, .rw, 20, [(0, 100)]⟩
def PLC_COMB.MASK : Fld := ⟨603, .plc, 0, 0x8, 1, 0, 3, 0, .rw, 0, []⟩
def PLC_KEY0.VALID : Fld := ⟨604, .plc, 0, 0xC, 1, 0, 31, 31, .rwl, 0, []⟩
def PLC_KEY0.TX_SLOT : Fld := ⟨605, .plc, 0, 0xC, 1, 0, 27, 16, .rwl, 0, []⟩
def PLC_KEY0.RX_SLOT : Fld := ⟨606, .plc, 0, 0xC, 1, 0, 11, 0, .rwl, 0, []⟩
def PLC_KEY1.VALID : Fld := ⟨607, .plc, 0, 0x10, 1, 0, 31, 31, .rwl, 0, []⟩
def PLC_KEY1.TX_SLOT : Fld := ⟨608, .plc, 0, 0x10, 1, 0, 27, 16, .rwl, 0, []⟩
def PLC_KEY1.RX_SLOT : Fld := ⟨609, .plc, 0, 0x10, 1, 0, 11, 0, .rwl, 0, []⟩
def PLC_KEY_TX.IDX : Fld := ⟨610, .plc, 0, 0x14, 1, 0, 0, 0, .rw, 0, []⟩
def PLC_FP.PORT : Fld := ⟨611, .plc, 0, 0x18, 1, 0, 15, 0, .rwl, 4059, []⟩
def PLC_SLOW_LO.BASE_LO : Fld := ⟨612, .plc, 0, 0x1C, 1, 0, 31, 21, .rwl, 0, []⟩
def PLC_SLOW_HI.BASE_HI : Fld := ⟨613, .plc, 0, 0x20, 1, 0, 7, 0, .rwl, 0, []⟩
def PLC_CHIP_BUDGET.DEPTH : Fld := ⟨614, .plc, 0, 0x24, 1, 0, 31, 16, .rw, 2000, []⟩
def PLC_CHIP_BUDGET.RATE : Fld := ⟨615, .plc, 0, 0x24, 1, 0, 15, 0, .rw, 4000, []⟩
def PLC_CHIP_TOKENS.UJ : Fld := ⟨616, .plc, 0, 0x28, 1, 0, 31, 0, .ro, 0, []⟩
def PLC_CHIP_EJ.MJ : Fld := ⟨617, .plc, 0, 0x2C, 1, 0, 31, 0, .ro, 0, []⟩
def PLC_NT_STAT.REPAIR : Fld := ⟨618, .plc, 0, 0x30, 1, 0, 31, 31, .ro, 0, []⟩
def PLC_NT_STAT.VALID : Fld := ⟨619, .plc, 0, 0x30, 1, 0, 15, 0, .ro, 0, []⟩
def PLC_NODE_IDX.NODE : Fld := ⟨620, .plc, 9, 0x40, 1, 0, 14, 0, .rw, 0, []⟩
def PLC_NODE_D.DATA : Fld := ⟨621, .plc, 9, 0x44, 8, 4, 31, 0, .rw, 0, []⟩
def PLC_NODE_RX0.FRAME_CNT : Fld := ⟨622, .plc, 9, 0x64, 1, 0, 31, 0, .ro, 0, []⟩
def PLC_NODE_RX1.DUP_AGE : Fld := ⟨623, .plc, 9, 0x68, 1, 0, 31, 16, .ro, 0, []⟩
def PLC_NODE_RX1.DSN1 : Fld := ⟨624, .plc, 9, 0x68, 1, 0, 15, 8, .ro, 0, []⟩
def PLC_NODE_RX1.DSN0 : Fld := ⟨625, .plc, 9, 0x68, 1, 0, 7, 0, .ro, 0, []⟩
def PLC_NODE_CMD.OP : Fld := ⟨626, .plc, 0, 0x6C, 1, 0, 1, 0, .wo, 0, []⟩
def PLC_NODE_RES.STATUS : Fld := ⟨627, .plc, 9, 0x70, 1, 0, 7, 0, .ro, 0, []⟩
def PLC_ERR.KEY : Fld := ⟨628, .plc, 0, 0x100, 1, 0, 5, 5, .w1c, 0, []⟩
def PLC_ERR.NODE : Fld := ⟨629, .plc, 0, 0x100, 1, 0, 4, 4, .w1c, 0, []⟩
def PLC_ERR.COMB : Fld := ⟨630, .plc, 0, 0x100, 1, 0, 3, 3, .w1c, 0, []⟩
def PLC_ERR.ROLE : Fld := ⟨631, .plc, 0, 0x100, 1, 0, 2, 2, .w1c, 0, []⟩
def PLC_ERR.BUSY : Fld := ⟨632, .plc, 0, 0x100, 1, 0, 1, 1, .w1c, 0, []⟩
def PLC_ERR.RANGE : Fld := ⟨633, .plc, 0, 0x100, 1, 0, 0, 0, .w1c, 0, []⟩
def PLC_ERR_INFO.OFFSET : Fld := ⟨634, .plc, 0, 0x104, 1, 0, 19, 0, .ro, 0, []⟩
def LANE_SEL.LANE : Fld := ⟨635, .plc, 0, 0x1000, 1, 0, 1, 0, .rw, 0, []⟩
def PLC_L_CTRL.ENABLE : Fld := ⟨636, .plc, 0, 0x1100, 1, 0, 0, 0, .rw, 0, []⟩
def PLC_L_STAT.GEN : Fld := ⟨637, .plc, 0, 0x1104, 1, 0, 23, 16, .ro, 0, []⟩
def PLC_L_STAT.RXSTATE : Fld := ⟨638, .plc, 0, 0x1104, 1, 0, 10, 8, .ro, 0, []⟩
def PLC_L_STAT.TX_ON : Fld := ⟨639, .plc, 0, 0x1104, 1, 0, 4, 4, .ro, 0, []⟩
def PLC_L_STAT.COMBINED : Fld := ⟨640, .plc, 0, 0x1104, 1, 0, 3, 3, .ro, 0, []⟩
def PLC_L_STAT.ENABLE_LATCHED : Fld := ⟨641, .plc, 0, 0x1104, 1, 0, 2, 2, .ro, 0, []⟩
def PLC_L_STAT.STATE : Fld := ⟨642, .plc, 0, 0x1104, 1, 0, 1, 0, .ro, 0, []⟩
def PLC_L_CFG.MUTE : Fld := ⟨643, .plc, 0, 0x1108, 1, 0, 31, 28, .rw, 0, []⟩
def PLC_L_CFG.BAND : Fld := ⟨644, .plc, 0, 0x1108, 1, 0, 0, 0, .rw, 0, []⟩
def PLC_L_TMASK0.MASK : Fld := ⟨645, .plc, 0, 0x110C, 1, 0, 31, 0, .rw, 0, []⟩
def PLC_L_TMASK1.MASK : Fld := ⟨646, .plc, 0, 0x1110, 1, 0, 31, 0, .rw, 0, []⟩
def PLC_L_TMASK2.MASK : Fld := ⟨647, .plc, 0, 0x1114, 1, 0, 7, 0, .rw, 0, []⟩
def PLC_L_AFE.AGC : Fld := ⟨648, .plc, 0, 0x1118, 1, 0, 15, 15, .rw, 1, []⟩
def PLC_L_AFE.PGA : Fld := ⟨649, .plc, 0, 0x1118, 1, 0, 2, 0, .rw, 0, []⟩
def PLC_L_BLANK.K : Fld := ⟨650, .plc, 0, 0x111C, 1, 0, 31, 24, .rw, 32, [(8, 255)]⟩
def PLC_L_BLANK.GUARD : Fld := ⟨651, .plc, 0, 0x111C, 1, 0, 23, 16, .rw, 8, [(0, 63)]⟩
def PLC_L_BLANK.MAX : Fld := ⟨652, .plc, 0, 0x111C, 1, 0, 15, 8, .rw, 50, [(1, 100)]⟩
def PLC_L_BLANK.EN : Fld := ⟨653, .plc, 0, 0x111C, 1, 0, 0, 0, .rw, 1, []⟩
def PLC_L_CAP.MARGIN : Fld := ⟨654, .plc, 0, 0x1120, 1, 0, 4, 0, .rw, 6, [(3, 15)]⟩
def PLC_L_TM.TTL : Fld := ⟨655, .plc, 0, 0x1124, 1, 0, 31, 16, .rw, 240, []⟩
def PLC_L_TM.REFRESH : Fld := ⟨656, .plc, 0, 0x1124, 1, 0, 15, 0, .rw, 120, []⟩
def PLC_L_MODE.DUAL_GAP : Fld := ⟨657, .plc, 0, 0x1128, 1, 0, 27, 24, .rw, 2, [(1, 15)]⟩
def PLC_L_MODE.PAIR_WAIT : Fld := ⟨658, .plc, 0, 0x1128, 1, 0, 23, 20, .rw, 15, [(1, 15)]⟩
def PLC_L_MODE.BCAST : Fld := ⟨659, .plc, 0, 0x1128, 1, 0, 17, 16, .rw, 1, [(1, 2)]⟩
def PLC_L_MODE.FAIL_SROBO : Fld := ⟨660, .plc, 0, 0x1128, 1, 0, 7, 4, .rw, 2, []⟩
def PLC_L_MODE.FAIL_ROBO : Fld := ⟨661, .plc, 0, 0x1128, 1, 0, 3, 0, .rw, 3, [(1, 7)]⟩
def PLC_L_TMSNR.D8PSK : Fld := ⟨662, .plc, 0, 0x112C, 1, 0, 31, 24, .rw, 52, []⟩
def PLC_L_TMSNR.DQPSK : Fld := ⟨663, .plc, 0, 0x112C, 1, 0, 23, 16, .rw, 28, []⟩
def PLC_L_TMSNR.DBPSK : Fld := ⟨664, .plc, 0, 0x112C, 1, 0, 15, 8, .rw, 16, []⟩
def PLC_L_TMSNR.MARGIN : Fld := ⟨665, .plc, 0, 0x112C, 1, 0, 7, 4, .rw, 2, []⟩
def PLC_L_TMSNR.MIN_GROUPS : Fld := ⟨666, .plc, 0, 0x112C, 1, 0, 3, 0, .rw, 2, []⟩
def PLC_L_MAC.ACK_TMO : Fld := ⟨667, .plc, 0, 0x1130, 1, 0, 31, 24, .rw, 20, [(5, 255)]⟩
def PLC_L_MAC.MAX_ATT : Fld := ⟨668, .plc, 0, 0x1130, 1, 0, 23, 20, .rw, 5, [(1, 8)]⟩
def PLC_L_MAC.BE_MIN : Fld := ⟨669, .plc, 0, 0x1130, 1, 0, 19, 16, .rw, 3, [(0, 8)]⟩
def PLC_L_MAC.BE_MAX : Fld := ⟨670, .plc, 0, 0x1130, 1, 0, 15, 12, .rw, 8, [(0, 8)]⟩
def PLC_L_MAC.TMR_DELAY : Fld := ⟨671, .plc, 0, 0x1130, 1, 0, 7, 0, .rw, 30, []⟩
def PLC_L_DUPWIN.WIN : Fld := ⟨672, .plc, 0, 0x1134, 1, 0, 15, 0, .rw, 5000, []⟩
def PLC_L_BCN.PHASE : Fld := ⟨673, .plc, 0, 0x1138, 1, 0, 31, 16, .rw, 10923, []⟩
def PLC_L_BCN.JITTER : Fld := ⟨674, .plc, 0, 0x1138, 1, 0, 15, 8, .rw, 16, []⟩
def PLC_L_BCN.WIN : Fld := ⟨675, .plc, 0, 0x1138, 1, 0, 7, 0, .rw, 64, []⟩
def PLC_L_LEVEL.MAX : Fld := ⟨676, .plc, 0, 0x113C, 1, 0, 31, 16, .rw, 1200, []⟩
def PLC_L_LEVEL.CPL_LOSS : Fld := ⟨677, .plc, 0, 0x113C, 1, 0, 15, 8, .rw, 0, []⟩
def PLC_L_LEVEL.TRIM : Fld := ⟨678, .plc, 0, 0x113C, 1, 0, 7, 4, .ro, 0, []⟩
def PLC_L_PWR0.MW : Fld := ⟨679, .plc, 0, 0x1140, 1, 0, 15, 0, .rw, 1000, []⟩
def PLC_L_BUDGET.DEPTH : Fld := ⟨680, .plc, 0, 0x1144, 1, 0, 31, 16, .rw, 500, []⟩
def PLC_L_BUDGET.RATE : Fld := ⟨681, .plc, 0, 0x1144, 1, 0, 15, 0, .rw, 1000, []⟩
def PLC_L_TOKENS.UJ : Fld := ⟨682, .plc, 0, 0x1148, 1, 0, 31, 0, .ro, 0, []⟩
def PLC_L_BWAIT.MS : Fld := ⟨683, .plc, 0, 0x114C, 1, 0, 15, 0, .rw, 1000, []⟩
def PLC_L_EJ.MJ : Fld := ⟨684, .plc, 0, 0x1150, 1, 0, 31, 0, .ro, 0, []⟩
def PLC_L_RXOK.COUNT : Fld := ⟨685, .plc, 0, 0x1160, 1, 0, 31, 0, .ro, 0, []⟩
def PLC_L_SINGLE.COUNT : Fld := ⟨686, .plc, 0, 0x1164, 1, 0, 31, 0, .ro, 0, []⟩
def PLC_L_CRCERR.COUNT : Fld := ⟨687, .plc, 0, 0x1168, 1, 0, 31, 0, .ro, 0, []⟩
def PLC_L_DUP.COUNT : Fld := ⟨688, .plc, 0, 0x116C, 1, 0, 31, 0, .ro, 0, []⟩
def PLC_L_CAPLOST.COUNT : Fld := ⟨689, .plc, 0, 0x1170, 1, 0, 31, 0, .ro, 0, []⟩
def PLC_L_CAPIGN.COUNT : Fld := ⟨690, .plc, 0, 0x1174, 1, 0, 31, 0, .ro, 0, []⟩
def PLC_L_ERASED.COUNT : Fld := ⟨691, .plc, 0, 0x1178, 1, 0, 31, 0, .ro, 0, []⟩
def PLC_L_SECFAIL.COUNT : Fld := ⟨692, .plc, 0, 0x117C, 1, 0, 31, 0, .ro, 0, []⟩
def PLC_L_RXPREEMPT.COUNT : Fld := ⟨693, .plc, 0, 0x1180, 1, 0, 31, 0, .ro, 0, []⟩
def PLC_L_TXOK.COUNT : Fld := ⟨694, .plc, 0, 0x1184, 1, 0, 31, 0, .ro, 0, []⟩
def PLC_L_TXFAIL.COUNT : Fld := ⟨695, .plc, 0, 0x1188, 1, 0, 31, 0, .ro, 0, []⟩
def PLC_L_CM1.COUNT : Fld := ⟨696, .plc, 0, 0x118C, 1, 0, 31, 0, .ro, 0, []⟩
def PLC_L_CM2.COUNT : Fld := ⟨697, .plc, 0, 0x1190, 1, 0, 31, 0, .ro, 0, []⟩
def PLC_L_CMMISS.COUNT : Fld := ⟨698, .plc, 0, 0x1194, 1, 0, 31, 0, .ro, 0, []⟩
def PLC_L_BCNSENT.COUNT : Fld := ⟨699, .plc, 0, 0x1198, 1, 0, 31, 0, .ro, 0, []⟩
def PLC_L_BCNMISS.COUNT : Fld := ⟨700, .plc, 0, 0x119C, 1, 0, 31, 0, .ro, 0, []⟩
def PLC_L_LVLTRIP.COUNT : Fld := ⟨701, .plc, 0, 0x11A0, 1, 0, 31, 0, .ro, 0, []⟩
def PLC_L_DRAINDROP.COUNT : Fld := ⟨702, .plc, 0, 0x11A4, 1, 0, 31, 0, .ro, 0, []⟩
def PLC_L_ERR.CFG : Fld := ⟨703, .plc, 0, 0x11C0, 1, 0, 2, 2, .w1c, 0, []⟩
def PLC_L_ERR.LEVEL : Fld := ⟨704, .plc, 0, 0x11C0, 1, 0, 1, 1, .w1c, 0, []⟩
def PLC_L_ERR.TRIG : Fld := ⟨705, .plc, 0, 0x11C0, 1, 0, 0, 0, .w1c, 0, []⟩
def PLC_L_CMD.CLR_TRIM : Fld := ⟨706, .plc, 0, 0x11C4, 1, 0, 1, 1, .wo, 0, []⟩
def PLC_L_CMD.CLR : Fld := ⟨707, .plc, 0, 0x11C4, 1, 0, 0, 0, .wo, 0, []⟩
def RFM_INFO.CONNS : Fld := ⟨708, .rfm, 0, 0x0, 1, 0, 31, 16, .ro, 4096, []⟩
def RFM_INFO.RADIOS : Fld := ⟨709, .rfm, 0, 0x0, 1, 0, 3, 0, .ro, 2, []⟩
def RFM_PAN.SHORT : Fld := ⟨710, .rfm, 0, 0x4, 1, 0, 31, 16, .rwl, 0, []⟩
def RFM_PAN.PAN_ID : Fld := ⟨711, .rfm, 0, 0x4, 1, 0, 15, 0, .rwl, 65535, []⟩
def RFM_KEY0.VALID : Fld := ⟨712, .rfm, 0, 0x8, 1, 0, 31, 31, .rwl, 0, []⟩
def RFM_KEY0.TX_SLOT : Fld := ⟨713, .rfm, 0, 0x8, 1, 0, 27, 16, .rwl, 0, []⟩
def RFM_KEY0.RX_SLOT : Fld := ⟨714, .rfm, 0, 0x8, 1, 0, 11, 0, .rwl, 0, []⟩
def RFM_KEY1.VALID : Fld := ⟨715, .rfm, 0, 0xC, 1, 0, 31, 31, .rwl, 0, []⟩
def RFM_KEY1.TX_SLOT : Fld := ⟨716, .rfm, 0, 0xC, 1, 0, 27, 16, .rwl, 0, []⟩
def RFM_KEY1.RX_SLOT : Fld := ⟨717, .rfm, 0, 0xC, 1, 0, 11, 0, .rwl, 0, []⟩
def RFM_KEY_TX.IDX : Fld := ⟨718, .rfm, 0, 0x10, 1, 0, 0, 0, .rw, 0, []⟩
def RFM_FP.CI : Fld := ⟨719, .rfm, 0, 0x14, 1, 0, 23, 16, .rwl, 160, []⟩
def RFM_FP.PORT : Fld := ⟨720, .rfm, 0, 0x14, 1, 0, 15, 0, .rwl, 4059, []⟩
def RFM_SLOW_LO.BASE_LO : Fld := ⟨721, .rfm, 0, 0x18, 1, 0, 31, 22, .rwl, 0, []⟩
def RFM_SLOW_HI.BASE_HI : Fld := ⟨722, .rfm, 0, 0x1C, 1, 0, 7, 0, .rwl, 0, []⟩
def RFM_CONN_LO.BASE_LO : Fld := ⟨723, .rfm, 0, 0x20, 1, 0, 31, 18, .rwl, 0, []⟩
def RFM_CONN_HI.BASE_HI : Fld := ⟨724, .rfm, 0, 0x24, 1, 0, 7, 0, .rwl, 0, []⟩
def RFM_RPL_LO.BASE_LO : Fld := ⟨725, .rfm, 0, 0x28, 1, 0, 31, 19, .rwl, 0, []⟩
def RFM_RPL_HI.BASE_HI : Fld := ⟨726, .rfm, 0, 0x2C, 1, 0, 7, 0, .rwl, 0, []⟩
def RFM_CSM_AA.AA : Fld := ⟨727, .rfm, 0, 0x30, 1, 0, 31, 0, .rwl, 1513920225, []⟩
def RFM_CONN_IDX.CONN : Fld := ⟨728, .rfm, 9, 0x40, 1, 0, 11, 0, .rw, 0, []⟩
def RFM_CONN_INFO.STATE : Fld := ⟨729, .rfm, 0, 0x44, 1, 0, 31, 30, .ro, 0, []⟩
def RFM_CONN_INFO.RADIO : Fld := ⟨730, .rfm, 0, 0x44, 1, 0, 29, 29, .ro, 0, []⟩
def RFM_CONN_INFO.LEARNED : Fld := ⟨731, .rfm, 0, 0x44, 1, 0, 28, 28, .ro, 0, []⟩
def RFM_CONN_INFO.NODE : Fld := ⟨732, .rfm, 0, 0x44, 1, 0, 14, 0, .ro, 0, []⟩
def RFM_CONN_EVT.MISSED : Fld := ⟨733, .rfm, 0, 0x48, 1, 0, 31, 16, .ro, 0, []⟩
def RFM_CONN_EVT.EVENT : Fld := ⟨734, .rfm, 0, 0x48, 1, 0, 15, 0, .ro, 0, []⟩
def RFM_CONN_DRIFT.D : Fld := ⟨735, .rfm, 0, 0x4C, 1, 0, 31, 0, .ro, 0, []⟩
def RFM_ERR.KEY : Fld := ⟨736, .rfm, 0, 0x100, 1, 0, 4, 4, .w1c, 0, []⟩
def RFM_ERR.AREA : Fld := ⟨737, .rfm, 0, 0x100, 1, 0, 3, 3, .w1c, 0, []⟩
def RFM_ERR.ROLE : Fld := ⟨738, .rfm, 0, 0x100, 1, 0, 2, 2, .w1c, 0, []⟩
def RFM_ERR.BUSY : Fld := ⟨739, .rfm, 0, 0x100, 1, 0, 1, 1, .w1c, 0, []⟩
def RFM_ERR.RANGE : Fld := ⟨740, .rfm, 0, 0x100, 1, 0, 0, 0, .w1c, 0, []⟩
def RFM_ERR_INFO.OFFSET : Fld := ⟨741, .rfm, 0, 0x104, 1, 0, 19, 0, .ro, 0, []⟩
def RFM_SEL.RADIO : Fld := ⟨742, .rfm, 0, 0x1000, 1, 0, 0, 0, .rw, 0, []⟩
def RFM_R_CTRL.ENABLE : Fld := ⟨743, .rfm, 0, 0x1100, 1, 0, 0, 0, .rw, 0, []⟩
def RFM_R_STAT.GEN : Fld := ⟨744, .rfm, 0, 0x1104, 1, 0, 23, 16, .ro, 0, []⟩
def RFM_R_STAT.RXSTATE : Fld := ⟨745, .rfm, 0, 0x1104, 1, 0, 10, 8, .ro, 0, []⟩
def RFM_R_STAT.TX_ON : Fld := ⟨746, .rfm, 0, 0x1104, 1, 0, 4, 4, .ro, 0, []⟩
def RFM_R_STAT.ENABLE_LATCHED : Fld := ⟨747, .rfm, 0, 0x1104, 1, 0, 2, 2, .ro, 0, []⟩
def RFM_R_STAT.STATE : Fld := ⟨748, .rfm, 0, 0x1104, 1, 0, 1, 0, .ro, 0, []⟩
def RFM_R_CFG.CSM_EN : Fld := ⟨749, .rfm, 0, 0x1108, 1, 0, 31, 31, .rw, 0, []⟩
def RFM_R_CFG.PERS : Fld := ⟨750, .rfm, 0, 0x1108, 1, 0, 27, 24, .rw, 0, [(0, 3)]⟩
def RFM_R_CFG.RATE : Fld := ⟨751, .rfm, 0, 0x1108, 1, 0, 21, 20, .rw, 1, []⟩
def RFM_R_CFG.OPT : Fld := ⟨752, .rfm, 0, 0x1108, 1, 0, 19, 17, .rw, 2, [(2, 4)]⟩
def RFM_R_CFG.MCS : Fld := ⟨753, .rfm, 0, 0x1108, 1, 0, 16, 14, .rw, 2, []⟩
def RFM_R_CFG.FEC : Fld := ⟨754, .rfm, 0, 0x1108, 1, 0, 13, 13, .rw, 0, []⟩
def RFM_R_CFG.FCS4 : Fld := ⟨755, .rfm, 0, 0x1108, 1, 0, 12, 12, .rw, 0, []⟩
def RFM_R_CFG.EXT_PA : Fld := ⟨756, .rfm, 0, 0x1108, 1, 0, 11, 11, .rw, 0, []⟩
def RFM_R_CFG.ANT : Fld := ⟨757, .rfm, 0, 0x1108, 1, 0, 10, 10, .rw, 0, []⟩
def RFM_R_CH0.HZ : Fld := ⟨758, .rfm, 0, 0x110C, 1, 0, 29, 0, .rw, 863100000, []⟩
def RFM_R_CHSP.NCH : Fld := ⟨759, .rfm, 0, 0x1110, 1, 0, 31, 24, .rw, 35, [(1, 64)]⟩
def RFM_R_CHSP.HZ : Fld := ⟨760, .rfm, 0, 0x1110, 1, 0, 23, 0, .rw, 200000, [(12500, 2000000)]⟩
def RFM_R_LISTEN.ADV2 : Fld := ⟨761, .rfm, 0, 0x1114, 1, 0, 29, 24, .rw, 2, []⟩
def RFM_R_LISTEN.ADV1 : Fld := ⟨762, .rfm, 0, 0x1114, 1, 0, 21, 16, .rw, 1, []⟩
def RFM_R_LISTEN.ADV0 : Fld := ⟨763, .rfm, 0, 0x1114, 1, 0, 13, 8, .rw, 0, []⟩
def RFM_R_LISTEN.CH : Fld := ⟨764, .rfm, 0, 0x1114, 1, 0, 5, 0, .rw, 0, []⟩
def RFM_R_PA.LEAD : Fld := ⟨765, .rfm, 0, 0x1118, 1, 0, 31, 24, .rw, 20, []⟩
def RFM_R_PA.LAG : Fld := ⟨766, .rfm, 0, 0x1118, 1, 0, 23, 16, .rw, 10, []⟩
def RFM_R_PA.GAIN : Fld := ⟨767, .rfm, 0, 0x1118, 1, 0, 15, 8, .rw, 0, []⟩
def RFM_R_TXPWR.MAX : Fld := ⟨768, .rfm, 0, 0x111C, 1, 0, 7, 0, .rw, 14, []⟩
def RFM_R_CAP.MARGIN : Fld := ⟨769, .rfm, 0, 0x1120, 1, 0, 4, 0, .rw, 6, [(3, 15)]⟩
def RFM_R_MAC.ACK_TMO : Fld := ⟨770, .rfm, 0, 0x1124, 1, 0, 31, 24, .rw, 10, [(2, 255)]⟩
def RFM_R_MAC.MAX_ATT : Fld := ⟨771, .rfm, 0, 0x1124, 1, 0, 23, 20, .rw, 4, [(1, 8)]⟩
def RFM_R_MAC.BE_MIN : Fld := ⟨772, .rfm, 0, 0x1124, 1, 0, 19, 16, .rw, 3, [(0, 8)]⟩
def RFM_R_MAC.BE_MAX : Fld := ⟨773, .rfm, 0, 0x1124, 1, 0, 15, 12, .rw, 5, [(0, 8)]⟩
def RFM_R_DUPWIN.WIN : Fld := ⟨774, .rfm, 0, 0x1128, 1, 0, 15, 0, .rw, 5000, []⟩
def RFM_R_WMB.HOLD : Fld := ⟨775, .rfm, 0, 0x112C, 1, 0, 31, 16, .rw, 900, []⟩
def RFM_R_WMB.RESP_DELAY : Fld := ⟨776, .rfm, 0, 0x112C, 1, 0, 15, 0, .rw, 2000, []⟩
def RFM_R_CSM.T_IFS : Fld := ⟨777, .rfm, 0, 0x1130, 1, 0, 31, 16, .rw, 500, [(150, 10000)]⟩
def RFM_R_CSM.CE_MAX : Fld := ⟨778, .rfm, 0, 0x1130, 1, 0, 15, 0, .rw, 20000, []⟩
def RFM_R_DRIFT.LOCAL_PPM : Fld := ⟨779, .rfm, 0, 0x1134, 1, 0, 31, 24, .rw, 10, []⟩
def RFM_R_DRIFT.DRIFT_RES : Fld := ⟨780, .rfm, 0, 0x1134, 1, 0, 23, 16, .rw, 4, [(1, 50)]⟩
def RFM_R_DRIFT.DRIFT_MAX : Fld := ⟨781, .rfm, 0, 0x1134, 1, 0, 15, 8, .rw, 100, []⟩
def RFM_R_DRIFT.LEARN_N : Fld := ⟨782, .rfm, 0, 0x1134, 1, 0, 7, 4, .rw, 2, [(1, 15)]⟩
def RFM_R_DRIFT.LEARN_SHIFT : Fld := ⟨783, .rfm, 0, 0x1134, 1, 0, 3, 0, .rw, 2, [(0, 8)]⟩
def RFM_R_WIN.JIT : Fld := ⟨784, .rfm, 0, 0x1138, 1, 0, 31, 16, .rw, 250, []⟩
def RFM_R_WIN.T_SET : Fld := ⟨785, .rfm, 0, 0x1138, 1, 0, 15, 8, .rw, 40, []⟩
def RFM_R_WIN.OCC_MAX : Fld := ⟨786, .rfm, 0, 0x1138, 1, 0, 7, 0, .rw, 75, [(1, 95)]⟩
def RFM_R_OCC.CONNS : Fld := ⟨787, .rfm, 0, 0x113C, 1, 0, 27, 16, .ro, 0, []⟩
def RFM_R_OCC.OCC : Fld := ⟨788, .rfm, 0, 0x113C, 1, 0, 9, 0, .ro, 0, []⟩
def RFM_R_PWR0.MW : Fld := ⟨789, .rfm, 0, 0x1140, 1, 0, 15, 0, .rw, 400, []⟩
def RFM_R_BUDGET.DEPTH : Fld := ⟨790, .rfm, 0, 0x1144, 1, 0, 31, 16, .rw, 200, []⟩
def RFM_R_BUDGET.RATE : Fld := ⟨791, .rfm, 0, 0x1144, 1, 0, 15, 0, .rw, 50, []⟩
def RFM_R_TOKENS.UJ : Fld := ⟨792, .rfm, 0, 0x1148, 1, 0, 31, 0, .ro, 0, []⟩
def RFM_R_DUTY.DUTY : Fld := ⟨793, .rfm, 0, 0x114C, 1, 0, 9, 0, .rw, 100, [(1, 1000)]⟩
def RFM_R_AIRTOK.US : Fld := ⟨794, .rfm, 0, 0x1150, 1, 0, 31, 0, .ro, 0, []⟩
def RFM_R_BWAIT.MS : Fld := ⟨795, .rfm, 0, 0x1154, 1, 0, 15, 0, .rw, 1000, []⟩
def RFM_R_EJ.MJ : Fld := ⟨796, .rfm, 0, 0x1158, 1, 0, 31, 0, .ro, 0, []⟩
def RFM_R_RXOK.COUNT : Fld := ⟨797, .rfm, 0, 0x1160, 1, 0, 31, 0, .ro, 0, []⟩
def RFM_R_CRCERR.COUNT : Fld := ⟨798, .rfm, 0, 0x1164, 1, 0, 31, 0, .ro, 0, []⟩
def RFM_R_DUP.COUNT : Fld := ⟨799, .rfm, 0, 0x1168, 1, 0, 31, 0, .ro, 0, []⟩
def RFM_R_REPLAY.COUNT : Fld := ⟨800, .rfm, 0, 0x116C, 1, 0, 31, 0, .ro, 0, []⟩
def RFM_R_CAPLOST.COUNT : Fld := ⟨801, .rfm, 0, 0x1170, 1, 0, 31, 0, .ro, 0, []⟩
def RFM_R_CAPIGN.COUNT : Fld := ⟨802, .rfm, 0, 0x1174, 1, 0, 31, 0, .ro, 0, []⟩
def RFM_R_SECFAIL.COUNT : Fld := ⟨803, .rfm, 0, 0x1178, 1, 0, 31, 0, .ro, 0, []⟩
def RFM_R_TXOK.COUNT : Fld := ⟨804, .rfm, 0, 0x117C, 1, 0, 31, 0, .ro, 0, []⟩
def RFM_R_TXFAIL.COUNT : Fld := ⟨805, .rfm, 0, 0x1180, 1, 0, 31, 0, .ro, 0, []⟩
def RFM_R_WINOK.COUNT : Fld := ⟨806, .rfm, 0, 0x1184, 1, 0, 31, 0, .ro, 0, []⟩
def RFM_R_WINMISS.COUNT : Fld := ⟨807, .rfm, 0, 0x1188, 1, 0, 31, 0, .ro, 0, []⟩
def RFM_R_WINCONF.COUNT : Fld := ⟨808, .rfm, 0, 0x118C, 1, 0, 31, 0, .ro, 0, []⟩
def RFM_R_CONNLOST.COUNT : Fld := ⟨809, .rfm, 0, 0x1190, 1, 0, 31, 0, .ro, 0, []⟩
def RFM_R_DRAINDROP.COUNT : Fld := ⟨810, .rfm, 0, 0x1194, 1, 0, 31, 0, .ro, 0, []⟩
def RFM_R_ERR.CFG : Fld := ⟨811, .rfm, 0, 0x11C0, 1, 0, 1, 1, .w1c, 0, []⟩
def RFM_R_ERR.CONN : Fld := ⟨812, .rfm, 0, 0x11C0, 1, 0, 0, 0, .w1c, 0, []⟩
def RFM_R_CMD.CLR : Fld := ⟨813, .rfm, 0, 0x11C4, 1, 0, 0, 0, .wo, 0, []⟩
def KV_INFO.CACHE : Fld := ⟨814, .kv, 0, 0x0, 1, 0, 31, 16, .ro, 16384, []⟩
def KV_INFO.SLOTS : Fld := ⟨815, .kv, 0, 0x0, 1, 0, 12, 0, .ro, 4096, []⟩
def KV_STAT.ROLLBACK_UNCHECKED : Fld := ⟨816, .kv, 0, 0x4, 1, 0, 6, 6, .ro, 0, []⟩
def KV_STAT.ROLLBACK : Fld := ⟨817, .kv, 0, 0x4, 1, 0, 5, 5, .ro, 0, []⟩
def KV_STAT.KILLED : Fld := ⟨818, .kv, 0, 0x4, 1, 0, 4, 4, .ro, 0, []⟩
def KV_STAT.TRNG_OK : Fld := ⟨819, .kv, 0, 0x4, 1, 0, 3, 3, .ro, 0, []⟩
def KV_STAT.LOCKED : Fld := ⟨820, .kv, 0, 0x4, 1, 0, 2, 2, .ro, 0, []⟩
def KV_STAT.BLOCKED : Fld := ⟨821, .kv, 0, 0x4, 1, 0, 1, 1, .ro, 0, []⟩
def KV_STAT.READY : Fld := ⟨822, .kv, 0, 0x4, 1, 0, 0, 0, .ro, 0, []⟩
def KV_DEV_ID_LO.ID_LO : Fld := ⟨823, .kv, 0, 0x8, 1, 0, 31, 0, .ro, 0, []⟩
def KV_DEV_ID_HI.ID_HI : Fld := ⟨824, .kv, 0, 0xC, 1, 0, 31, 0, .ro, 0, []⟩
def KV_ZCOUNT.COUNT : Fld := ⟨825, .kv, 0, 0x10, 1, 0, 5, 0, .ro, 0, []⟩
def KV_ZEROIZE.CONFIRM : Fld := ⟨826, .kv, 0, 0x14, 1, 0, 31, 0, .wo, 0, []⟩
def KV_ECDH_CNT_LO.CNT_LO : Fld := ⟨827, .kv, 0, 0x18, 1, 0, 31, 0, .ro, 0, []⟩
def KV_ECDH_CNT_HI.CNT_HI : Fld := ⟨828, .kv, 0, 0x1C, 1, 0, 31, 0, .ro, 0, []⟩
def KV_POOL.OLDGEN : Fld := ⟨829, .kv, 0, 0x20, 1, 0, 24, 16, .ro, 0, []⟩
def KV_POOL.PINS : Fld := ⟨830, .kv, 0, 0x20, 1, 0, 15, 0, .ro, 0, []⟩
def KV_SEAL.SEQ : Fld := ⟨831, .kv, 0, 0x24, 1, 0, 31, 0, .ro, 0, []⟩
def KV_TRNG.FAILS : Fld := ⟨832, .kv, 0, 0x28, 1, 0, 31, 16, .ro, 0, []⟩
def KV_TRNG.APT : Fld := ⟨833, .kv, 0, 0x28, 1, 0, 1, 1, .w1c, 0, []⟩
def KV_TRNG.RCT : Fld := ⟨834, .kv, 0, 0x28, 1, 0, 0, 0, .w1c, 0, []⟩
def KV_DEV_PUB.BYTES : Fld := ⟨835, .kv, 0, 0x40, 16, 4, 31, 0, .ro, 0, []⟩
def KV_FUSE_STAT.CLEAN : Fld := ⟨836, .kv, 0, 0x80, 1, 0, 31, 31, .ro, 0, []⟩
def KV_FUSE_STAT.RESTRICT : Fld := ⟨837, .kv, 0, 0x80, 1, 0, 30, 30, .ro, 0, []⟩
def KV_FUSE_STAT.BAND : Fld := ⟨838, .kv, 0, 0x80, 1, 0, 18, 16, .ro, 0, []⟩
def KV_FUSE_STAT.DOUBT_CNT : Fld := ⟨839, .kv, 0, 0x80, 1, 0, 15, 0, .ro, 0, []⟩
def KV_FUSE_AGE.S : Fld := ⟨840, .kv, 0, 0x84, 1, 0, 15, 0, .ro, 0, []⟩
def KV_FUSE_ADDR.WORD : Fld := ⟨841, .kv, 9, 0x88, 1, 0, 8, 0, .rw, 0, []⟩
def KV_FUSE_DATA.DATA : Fld := ⟨842, .kv, 9, 0x8C, 1, 0, 31, 0, .rw, 0, []⟩
def KV_FUSE_WSTAT.DOUBT : Fld := ⟨843, .kv, 0, 0x90, 1, 0, 31, 31, .ro, 0, []⟩
def KV_FUSE_WSTAT.AGREE : Fld := ⟨844, .kv, 0, 0x90, 1, 0, 5, 0, .ro, 0, []⟩
def KV_FUSE_CMD.CONFIRM : Fld := ⟨845, .kv, 0, 0x94, 1, 0, 31, 16, .wo, 0, []⟩
def KV_FUSE_CMD.OP : Fld := ⟨846, .kv, 0, 0x94, 1, 0, 1, 0, .wo, 0, []⟩
def KV_FUSE_RES.BUSY : Fld := ⟨847, .kv, 0, 0x98, 1, 0, 31, 31, .ro, 0, []⟩
def KV_FUSE_RES.STATUS : Fld := ⟨848, .kv, 0, 0x98, 1, 0, 7, 0, .ro, 0, []⟩
def KV_PROV_STAT.LOCKED : Fld := ⟨849, .kv, 0, 0xA0, 1, 0, 2, 2, .ro, 0, []⟩
def KV_PROV_STAT.ROOT_READY : Fld := ⟨850, .kv, 0, 0xA0, 1, 0, 1, 1, .ro, 0, []⟩
def KV_PROV_STAT.ACTIVE : Fld := ⟨851, .kv, 0, 0xA0, 1, 0, 0, 0, .ro, 0, []⟩
def KV_PROV_CMD.CONFIRM : Fld := ⟨852, .kv, 0, 0xA4, 1, 0, 31, 16, .wo, 0, []⟩
def KV_PROV_CMD.LOCK : Fld := ⟨853, .kv, 0, 0xA4, 1, 0, 0, 0, .wo, 0, []⟩
def KV_ERR.SEAL : Fld := ⟨854, .kv, 0, 0x100, 1, 0, 5, 5, .w1c, 0, []⟩
def KV_ERR.TRNG : Fld := ⟨855, .kv, 0, 0x100, 1, 0, 4, 4, .w1c, 0, []⟩
def KV_ERR.FUSE : Fld := ⟨856, .kv, 0, 0x100, 1, 0, 3, 3, .w1c, 0, []⟩
def KV_ERR.CMD : Fld := ⟨857, .kv, 0, 0x100, 1, 0, 2, 2, .w1c, 0, []⟩
def KV_ERR.MODE : Fld := ⟨858, .kv, 0, 0x100, 1, 0, 1, 1, .w1c, 0, []⟩
def KV_ERR.RANGE : Fld := ⟨859, .kv, 0, 0x100, 1, 0, 0, 0, .w1c, 0, []⟩
def KV_ERR_INFO.OFFSET : Fld := ⟨860, .kv, 0, 0x104, 1, 0, 19, 0, .ro, 0, []⟩
def SLOT_SEL.SLOT : Fld := ⟨861, .kv, 0, 0x1000, 1, 0, 11, 0, .rw, 0, []⟩
def KV_S_INFO.GEN : Fld := ⟨862, .kv, 0, 0x1100, 1, 0, 31, 24, .ro, 0, []⟩
def KV_S_INFO.PINS : Fld := ⟨863, .kv, 0, 0x1100, 1, 0, 23, 16, .ro, 0, []⟩
def KV_S_INFO.TYPE : Fld := ⟨864, .kv, 0, 0x1100, 1, 0, 11, 8, .ro, 0, []⟩
def KV_S_INFO.ATTR : Fld := ⟨865, .kv, 0, 0x1100, 1, 0, 5, 4, .ro, 0, []⟩
def KV_S_INFO.AK_LEN : Fld := ⟨866, .kv, 0, 0x1100, 1, 0, 3, 2, .ro, 0, []⟩
def KV_S_INFO.STATE : Fld := ⟨867, .kv, 0, 0x1100, 1, 0, 1, 0, .ro, 0, []⟩
def KV_S_CNT_LO.CNT_LO : Fld := ⟨868, .kv, 0, 0x1104, 1, 0, 31, 0, .ro, 0, []⟩
def KV_S_CNT_HI.CNT_HI : Fld := ⟨869, .kv, 0, 0x1108, 1, 0, 31, 0, .ro, 0, []⟩
def KV_S_KCV.KCV : Fld := ⟨870, .kv, 0, 0x110C, 1, 0, 23, 0, .ro, 0, []⟩
def KV_S_OLD.GENS : Fld := ⟨871, .kv, 0, 0x1110, 1, 0, 15, 8, .ro, 0, []⟩
def KV_S_OLD.PINS : Fld := ⟨872, .kv, 0, 0x1110, 1, 0, 7, 0, .ro, 0, []⟩
def KV_S_CMD.ERASE : Fld := ⟨873, .kv, 0, 0x1114, 1, 0, 0, 0, .wo, 0, []⟩
def KV_S_RES.BUSY : Fld := ⟨874, .kv, 0, 0x1118, 1, 0, 31, 31, .ro, 0, []⟩
def KV_S_RES.STATUS : Fld := ⟨875, .kv, 0, 0x1118, 1, 0, 7, 0, .ro, 0, []⟩
def UPD_INFO.BANK_KIB : Fld := ⟨876, .upd, 0, 0x0, 1, 0, 31, 16, .ro, 6144, []⟩
def UPD_INFO.CAMPAIGNS : Fld := ⟨877, .upd, 0, 0x0, 1, 0, 4, 0, .ro, 16, []⟩
def UPD_BANK_A.BOOT_TRIES : Fld := ⟨878, .upd, 0, 0x4, 1, 0, 15, 8, .ro, 0, []⟩
def UPD_BANK_A.STATE : Fld := ⟨879, .upd, 0, 0x4, 1, 0, 2, 0, .ro, 0, []⟩
def UPD_BANK_B.BOOT_TRIES : Fld := ⟨880, .upd, 0, 0x8, 1, 0, 15, 8, .ro, 0, []⟩
def UPD_BANK_B.STATE : Fld := ⟨881, .upd, 0, 0x8, 1, 0, 2, 0, .ro, 0, []⟩
def UPD_RUN.BANK : Fld := ⟨882, .upd, 0, 0xC, 1, 0, 0, 0, .ro, 0, []⟩
def UPD_SET_VER.VER : Fld := ⟨883, .upd, 0, 0x10, 1, 0, 31, 0, .ro, 0, []⟩
def UPD_SET_ID_LO.ID_LO : Fld := ⟨884, .upd, 0, 0x14, 1, 0, 31, 0, .ro, 0, []⟩
def UPD_SET_ID_HI.ID_HI : Fld := ⟨885, .upd, 0, 0x18, 1, 0, 31, 0, .ro, 0, []⟩
def UPD_LEDGER_ABI.ABI : Fld := ⟨886, .upd, 0, 0x1C, 1, 0, 31, 0, .ro, 0, []⟩
def UPD_SEC_FLOOR.FLOOR : Fld := ⟨887, .upd, 0, 0x20, 1, 0, 11, 0, .ro, 0, []⟩
def UPD_CFG.CONFIRM_S : Fld := ⟨888, .upd, 0, 0x24, 1, 0, 31, 16, .rwl, 3600, [(0, 0), (60, 65535)]⟩
def UPD_CFG.ACT_TMO : Fld := ⟨889, .upd, 0, 0x24, 1, 0, 15, 0, .rwl, 500, [(20, 10000)]⟩
def UPD_STAGE_CMD.CONFIRM : Fld := ⟨890, .upd, 0, 0x28, 1, 0, 31, 16, .wo, 0, []⟩
def UPD_STAGE_CMD.BANK : Fld := ⟨891, .upd, 0, 0x28, 1, 0, 8, 8, .wo, 0, []⟩
def UPD_STAGE_CMD.OP : Fld := ⟨892, .upd, 0, 0x28, 1, 0, 3, 0, .wo, 0, []⟩
def UPD_STAGE_OFS.SECTOR : Fld := ⟨893, .upd, 9, 0x2C, 1, 0, 6, 0, .rw, 0, [(0, 95)]⟩
def UPD_STAGE_RES.BUSY : Fld := ⟨894, .upd, 0, 0x30, 1, 0, 31, 31, .ro, 0, []⟩
def UPD_STAGE_RES.BLOCK : Fld := ⟨895, .upd, 0, 0x30, 1, 0, 30, 24, .ro, 0, []⟩
def UPD_STAGE_RES.REASON : Fld := ⟨896, .upd, 0, 0x30, 1, 0, 15, 8, .ro, 0, []⟩
def UPD_STAGE_RES.STATUS : Fld := ⟨897, .upd, 0, 0x30, 1, 0, 7, 0, .ro, 0, []⟩
def UPD_STAGE_CRC.CRC : Fld := ⟨898, .upd, 0, 0x34, 1, 0, 31, 0, .ro, 0, []⟩
def UPD_ACT_PROG.DONE : Fld := ⟨899, .upd, 0, 0x38, 1, 0, 15, 8, .ro, 0, []⟩
def UPD_ACT_PROG.TOTAL : Fld := ⟨900, .upd, 0, 0x38, 1, 0, 7, 0, .ro, 0, []⟩
def UPD_TRIAL_S.S : Fld := ⟨901, .upd, 0, 0x3C, 1, 0, 31, 0, .ro, 0, []⟩
def UPD_MAP_LO.BASE_LO : Fld := ⟨902, .upd, 0, 0x40, 1, 0, 31, 17, .rwl, 0, []⟩
def UPD_MAP_HI.BASE_HI : Fld := ⟨903, .upd, 0, 0x44, 1, 0, 7, 0, .rwl, 0, []⟩
def UPD_ERR.TRIG : Fld := ⟨904, .upd, 0, 0x100, 1, 0, 4, 4, .w1c, 0, []⟩
def UPD_ERR.MODE : Fld := ⟨905, .upd, 0, 0x100, 1, 0, 3, 3, .w1c, 0, []⟩
def UPD_ERR.BUSY : Fld := ⟨906, .upd, 0, 0x100, 1, 0, 2, 2, .w1c, 0, []⟩
def UPD_ERR.CMD : Fld := ⟨907, .upd, 0, 0x100, 1, 0, 1, 1, .w1c, 0, []⟩
def UPD_ERR.RANGE : Fld := ⟨908, .upd, 0, 0x100, 1, 0, 0, 0, .w1c, 0, []⟩
def UPD_ERR_INFO.OFFSET : Fld := ⟨909, .upd, 0, 0x104, 1, 0, 19, 0, .ro, 0, []⟩
def UPD_SEL.CAMP : Fld := ⟨910, .upd, 0, 0x1000, 1, 0, 3, 0, .rw, 0, []⟩
def UPD_C_STAT.TENANT : Fld := ⟨911, .upd, 0, 0x1100, 1, 0, 25, 16, .ro, 0, []⟩
def UPD_C_STAT.PART : Fld := ⟨912, .upd, 0, 0x1100, 1, 0, 15, 8, .ro, 0, []⟩
def UPD_C_STAT.STATE : Fld := ⟨913, .upd, 0, 0x1100, 1, 0, 2, 0, .ro, 0, []⟩
def UPD_C_IMAGE.ID : Fld := ⟨914, .upd, 0, 0x1104, 1, 0, 31, 0, .ro, 0, []⟩
def UPD_C_BLOCKS.MISSING : Fld := ⟨915, .upd, 0, 0x1108, 1, 0, 31, 16, .ro, 0, []⟩
def UPD_C_BLOCKS.COUNT : Fld := ⟨916, .upd, 0, 0x1108, 1, 0, 15, 0, .ro, 0, []⟩
def UPD_C_SENT.COUNT : Fld := ⟨917, .upd, 0, 0x110C, 1, 0, 31, 0, .ro, 0, []⟩
def UPD_C_TGT_LO.CYC_LO : Fld := ⟨918, .upd, 0, 0x1110, 1, 0, 31, 0, .ro, 0, []⟩
def UPD_C_TGT_HI.CYC_HI : Fld := ⟨919, .upd, 0, 0x1114, 1, 0, 15, 0, .ro, 0, []⟩
def STO_INFO.DIES : Fld := ⟨920, .sto, 0, 0x0, 1, 0, 27, 24, .ro, 0, []⟩
def STO_INFO.PARTITIONS : Fld := ⟨921, .sto, 0, 0x0, 1, 0, 15, 0, .ro, 256, []⟩
def STO_QSPI.MBIT : Fld := ⟨922, .sto, 0, 0x4, 1, 0, 31, 16, .ro, 0, []⟩
def STO_QSPI.SUSPEND : Fld := ⟨923, .sto, 0, 0x4, 1, 0, 8, 8, .ro, 0, []⟩
def STO_QSPI.MODE : Fld := ⟨924, .sto, 0, 0x4, 1, 0, 2, 0, .ro, 0, []⟩
def STO_QCMD.CONFIRM : Fld := ⟨925, .sto, 0, 0x8, 1, 0, 31, 16, .wo, 0, []⟩
def STO_QCMD.OP : Fld := ⟨926, .sto, 0, 0x8, 1, 0, 3, 0, .wo, 0, []⟩
def STO_QADDR.ADDR : Fld := ⟨927, .sto, 9, 0xC, 1, 0, 24, 0, .rw, 0, []⟩
def STO_QLEN.LEN : Fld := ⟨928, .sto, 9, 0x10, 1, 0, 12, 0, .rw, 0, [(1, 4096)]⟩
def STO_QRES.BUSY : Fld := ⟨929, .sto, 0, 0x14, 1, 0, 31, 31, .ro, 0, []⟩
def STO_QRES.STATUS : Fld := ⟨930, .sto, 0, 0x14, 1, 0, 7, 0, .ro, 0, []⟩
def STO_CFG_STAT.LOADED : Fld := ⟨931, .sto, 0, 0x18, 1, 0, 31, 31, .ro, 0, []⟩
def STO_CFG_STAT.REFUSED : Fld := ⟨932, .sto, 0, 0x18, 1, 0, 30, 16, .ro, 0, []⟩
def STO_CFG_STAT.FIRST : Fld := ⟨933, .sto, 0, 0x18, 1, 0, 15, 0, .ro, 0, []⟩
def STO_NAND_GEOM.PAGE : Fld := ⟨934, .sto, 0, 0x20, 1, 0, 29, 28, .ro, 0, []⟩
def STO_NAND_GEOM.PPB : Fld := ⟨935, .sto, 0, 0x20, 1, 0, 26, 16, .ro, 0, []⟩
def STO_NAND_GEOM.BPD : Fld := ⟨936, .sto, 0, 0x20, 1, 0, 14, 0, .ro, 0, []⟩
def STO_NAND_STAT.STATE : Fld := ⟨937, .sto, 0, 0x24, 1, 0, 31, 29, .ro, 0, []⟩
def STO_NAND_STAT.SPARE_LOW : Fld := ⟨938, .sto, 0, 0x24, 1, 0, 28, 28, .ro, 0, []⟩
def STO_NAND_STAT.SPARE : Fld := ⟨939, .sto, 0, 0x24, 1, 0, 15, 0, .ro, 0, []⟩
def STO_NAND_CMD.CONFIRM : Fld := ⟨940, .sto, 0, 0x28, 1, 0, 31, 16, .wo, 0, []⟩
def STO_NAND_CMD.FORMAT : Fld := ⟨941, .sto, 0, 0x28, 1, 0, 0, 0, .wo, 0, []⟩
def STO_NAND_CFG.REFRESH_T : Fld := ⟨942, .sto, 0, 0x2C, 1, 0, 31, 24, .rwl, 30, [(8, 72)]⟩
def STO_NAND_CFG.MAP_CK : Fld := ⟨943, .sto, 0, 0x2C, 1, 0, 23, 16, .rwl, 10, [(1, 255)]⟩
def STO_NAND_CFG.WL_DELTA : Fld := ⟨944, .sto, 0, 0x2C, 1, 0, 15, 8, .rwl, 10, [(1, 255)]⟩
def STO_NAND_CFG.TSENS : Fld := ⟨945, .sto, 0, 0x2C, 1, 0, 7, 4, .rwl, 0, [(0, 8)]⟩
def STO_NAND_CFG.PSLC : Fld := ⟨946, .sto, 0, 0x2C, 1, 0, 1, 1, .ro, 0, []⟩
def STO_NAND_CFG.ECC_T : Fld := ⟨947, .sto, 0, 0x2C, 1, 0, 0, 0, .ro, 0, []⟩
def STO_NAND_ENDUR.CYCLES : Fld := ⟨948, .sto, 0, 0x30, 1, 0, 31, 0, .rwl, 0, []⟩
def STO_HU_TIME.US : Fld := ⟨949, .sto, 0, 0x34, 1, 0, 31, 0, .ro, 0, []⟩
def STO_HU_TPROG.US : Fld := ⟨950, .sto, 0, 0x38, 1, 0, 15, 0, .ro, 0, []⟩
def STO_HU_STAT.FOUND : Fld := ⟨951, .sto, 0, 0x3C, 1, 0, 31, 31, .ro, 0, []⟩
def STO_HU_STAT.PARTIAL : Fld := ⟨952, .sto, 0, 0x3C, 1, 0, 30, 30, .ro, 0, []⟩
def STO_HU_STAT.AREA : Fld := ⟨953, .sto, 0, 0x3C, 1, 0, 0, 0, .ro, 0, []⟩
def STO_MAP_TIME.MS : Fld := ⟨954, .sto, 0, 0x40, 1, 0, 15, 0, .ro, 0, []⟩
def INK_CFG.FREEZE_MAX : Fld := ⟨955, .sto, 0, 0x80, 1, 0, 31, 16, .rwl, 600, [(1, 65535)]⟩
def INK_CFG.FLUSH_PCT : Fld := ⟨956, .sto, 0, 0x80, 1, 0, 15, 8, .rwl, 25, [(1, 90)]⟩
def INK_CFG.FLUSH_S : Fld := ⟨957, .sto, 0, 0x80, 1, 0, 7, 0, .rwl, 5, [(1, 255)]⟩
def INK_STAT.FREEZE : Fld := ⟨958, .sto, 0, 0x84, 1, 0, 31, 30, .ro, 0, []⟩
def INK_STAT.USED : Fld := ⟨959, .sto, 0, 0x84, 1, 0, 9, 0, .ro, 0, []⟩
def INK_SEQ.SEQ : Fld := ⟨960, .sto, 0, 0x88, 1, 0, 31, 0, .ro, 0, []⟩
def INK_DROP.COUNT : Fld := ⟨961, .sto, 0, 0x8C, 1, 0, 31, 0, .ro, 0, []⟩
def INK_SUPP.COUNT : Fld := ⟨962, .sto, 0, 0x90, 1, 0, 31, 0, .ro, 0, []⟩
def INK_CMD.POST : Fld := ⟨963, .sto, 0, 0x94, 1, 0, 28, 16, .wo, 0, []⟩
def INK_CMD.RELEASE : Fld := ⟨964, .sto, 0, 0x94, 1, 0, 1, 1, .wo, 0, []⟩
def INK_CMD.FREEZE : Fld := ⟨965, .sto, 0, 0x94, 1, 0, 0, 0, .wo, 0, []⟩
def INK_SNAP_CMD.TAKE : Fld := ⟨966, .sto, 0, 0x98, 1, 0, 0, 0, .wo, 0, []⟩
def INK_SNAP_OLD.SEQ : Fld := ⟨967, .sto, 9, 0x9C, 1, 0, 31, 0, .ro, 0, []⟩
def INK_SNAP_NEW.SEQ : Fld := ⟨968, .sto, 9, 0xA0, 1, 0, 31, 0, .ro, 0, []⟩
def INK_RD_SEQ.SEQ : Fld := ⟨969, .sto, 9, 0xA4, 1, 0, 31, 0, .rw, 0, []⟩
def INK_RD_RES.BUSY : Fld := ⟨970, .sto, 9, 0xA8, 1, 0, 31, 31, .ro, 0, []⟩
def INK_RD_RES.STATUS : Fld := ⟨971, .sto, 9, 0xA8, 1, 0, 7, 0, .ro, 0, []⟩
def STO_ERR.QSPI : Fld := ⟨972, .sto, 0, 0x100, 1, 0, 3, 3, .w1c, 0, []⟩
def STO_ERR.CMD : Fld := ⟨973, .sto, 0, 0x100, 1, 0, 2, 2, .w1c, 0, []⟩
def STO_ERR.BUSY : Fld := ⟨974, .sto, 0, 0x100, 1, 0, 1, 1, .w1c, 0, []⟩
def STO_ERR.RANGE : Fld := ⟨975, .sto, 0, 0x100, 1, 0, 0, 0, .w1c, 0, []⟩
def STO_ERR_INFO.OFFSET : Fld := ⟨976, .sto, 0, 0x104, 1, 0, 19, 0, .ro, 0, []⟩
def STO_SEL.KIND : Fld := ⟨977, .sto, 0, 0x1000, 1, 0, 8, 8, .rw, 0, []⟩
def STO_SEL.INDEX : Fld := ⟨978, .sto, 0, 0x1000, 1, 0, 7, 0, .rw, 0, []⟩
def P_CFG.VALID : Fld := ⟨979, .sto, 0, 0x1100, 1, 0, 31, 31, .ro, 0, []⟩
def P_CFG.KIND : Fld := ⟨980, .sto, 0, 0x1100, 1, 0, 30, 30, .ro, 0, []⟩
def P_CFG.WRAP : Fld := ⟨981, .sto, 0, 0x1100, 1, 0, 29, 29, .ro, 0, []⟩
def P_CFG.LOG : Fld := ⟨982, .sto, 0, 0x1100, 1, 0, 27, 24, .ro, 0, []⟩
def P_CFG.DIES : Fld := ⟨983, .sto, 0, 0x1100, 1, 0, 7, 0, .ro, 0, []⟩
def P_SIZE.BLOCKS : Fld := ⟨984, .sto, 0, 0x1104, 1, 0, 16, 0, .ro, 0, []⟩
def P_USED.BLOCKS : Fld := ⟨985, .sto, 0, 0x1108, 1, 0, 16, 0, .ro, 0, []⟩
def P_STAT.SCRUB : Fld := ⟨986, .sto, 0, 0x110C, 1, 0, 31, 31, .ro, 0, []⟩
def P_STAT.FULL : Fld := ⟨987, .sto, 0, 0x110C, 1, 0, 30, 30, .ro, 0, []⟩
def P_HEAD_LO.POS_LO : Fld := ⟨988, .sto, 0, 0x1110, 1, 0, 31, 0, .ro, 0, []⟩
def P_HEAD_HI.POS_HI : Fld := ⟨989, .sto, 0, 0x1114, 1, 0, 31, 0, .ro, 0, []⟩
def P_TAIL_LO.POS_LO : Fld := ⟨990, .sto, 0, 0x1118, 1, 0, 31, 0, .ro, 0, []⟩
def P_TAIL_HI.POS_HI : Fld := ⟨991, .sto, 0, 0x111C, 1, 0, 31, 0, .ro, 0, []⟩
def P_MERGES.COUNT : Fld := ⟨992, .sto, 0, 0x1120, 1, 0, 31, 0, .ro, 0, []⟩
def P_WRITTEN.MIB : Fld := ⟨993, .sto, 0, 0x1124, 1, 0, 31, 0, .ro, 0, []⟩
def D_BLOCKS.RETIRED : Fld := ⟨994, .sto, 1, 0x1100, 1, 0, 31, 16, .ro, 0, []⟩
def D_BLOCKS.FACTORY_BAD : Fld := ⟨995, .sto, 1, 0x1100, 1, 0, 15, 0, .ro, 0, []⟩
def D_SPARE.RESERVE : Fld := ⟨996, .sto, 1, 0x1104, 1, 0, 31, 16, .ro, 0, []⟩
def D_SPARE.FREE : Fld := ⟨997, .sto, 1, 0x1104, 1, 0, 15, 0, .ro, 0, []⟩
def D_ERASE.MAX : Fld := ⟨998, .sto, 1, 0x1108, 1, 0, 31, 16, .ro, 0, []⟩
def D_ERASE.MEAN : Fld := ⟨999, .sto, 1, 0x1108, 1, 0, 15, 0, .ro, 0, []⟩
def D_ECC.MAX_BITS : Fld := ⟨1000, .sto, 1, 0x110C, 1, 0, 7, 0, .ro, 0, []⟩
def D_UNCORR.COUNT : Fld := ⟨1001, .sto, 1, 0x1110, 1, 0, 31, 0, .ro, 0, []⟩
def D_FAIL.PROGRAM : Fld := ⟨1002, .sto, 1, 0x1114, 1, 0, 31, 16, .ro, 0, []⟩
def D_FAIL.ERASE : Fld := ⟨1003, .sto, 1, 0x1114, 1, 0, 15, 0, .ro, 0, []⟩
def D_PROJ.DAYS : Fld := ⟨1004, .sto, 1, 0x1118, 1, 0, 15, 0, .ro, 65535, []⟩
def D_TEMP.S : Fld := ⟨1005, .sto, 1, 0x1140, 16, 4, 31, 0, .ro, 0, []⟩
def RES_PAIR_CFG.HB_MISS : Fld := ⟨1006, .res, 0, 0x0, 1, 0, 31, 28, .rwl, 3, [(2, 15)]⟩
def RES_PAIR_CFG.LISTEN_MS : Fld := ⟨1007, .res, 0, 0x0, 1, 0, 23, 16, .rwl, 5, [(1, 255)]⟩
def RES_PAIR_CFG.UNIT : Fld := ⟨1008, .res, 0, 0x0, 1, 0, 1, 1, .rwl, 0, []⟩
def RES_PAIR_CFG.EN : Fld := ⟨1009, .res, 0, 0x0, 1, 0, 0, 0, .rwl, 0, []⟩
def RES_PAIR_KEY.SLOT : Fld := ⟨1010, .res, 0, 0x4, 1, 0, 11, 0, .rwl, 0, []⟩
def RES_PAIR_STAT.TAKEOVERS : Fld := ⟨1011, .res, 0, 0x8, 1, 0, 31, 24, .ro, 0, []⟩
def RES_PAIR_STAT.PARTNER_STATE : Fld := ⟨1012, .res, 0, 0x8, 1, 0, 22, 20, .ro, 0, []⟩
def RES_PAIR_STAT.PARTNER_MODE : Fld := ⟨1013, .res, 0, 0x8, 1, 0, 19, 16, .ro, 0, []⟩
def RES_PAIR_STAT.CLAIM_IN : Fld := ⟨1014, .res, 0, 0x8, 1, 0, 6, 6, .ro, 0, []⟩
def RES_PAIR_STAT.CLAIM_OUT : Fld := ⟨1015, .res, 0, 0x8, 1, 0, 5, 5, .ro, 0, []⟩
def RES_PAIR_STAT.GRANT : Fld := ⟨1016, .res, 0, 0x8, 1, 0, 4, 4, .ro, 0, []⟩
def RES_PAIR_STAT.LINK : Fld := ⟨1017, .res, 0, 0x8, 1, 0, 3, 3, .ro, 0, []⟩
def RES_PAIR_STAT.STATE : Fld := ⟨1018, .res, 0, 0x8, 1, 0, 2, 0, .ro, 0, []⟩
def RES_CLAIM_CMD.CONFIRM : Fld := ⟨1019, .res, 0, 0xC, 1, 0, 31, 16, .wo, 0, []⟩
def RES_CLAIM_CMD.TAKE : Fld := ⟨1020, .res, 0, 0xC, 1, 0, 1, 1, .wo, 0, []⟩
def RES_CLAIM_CMD.RELEASE : Fld := ⟨1021, .res, 0, 0xC, 1, 0, 0, 0, .wo, 0, []⟩
def RES_SYNC.STATE : Fld := ⟨1022, .res, 0, 0x10, 1, 0, 31, 30, .ro, 0, []⟩
def RES_SYNC.TENANT : Fld := ⟨1023, .res, 0, 0x10, 1, 0, 25, 16, .ro, 0, []⟩
def RES_SYNC.SYNCED : Fld := ⟨1024, .res, 0, 0x10, 1, 0, 10, 0, .ro, 0, []⟩
def RES_SYNC_MIB.MIB : Fld := ⟨1025, .res, 0, 0x14, 1, 0, 31, 0, .ro, 0, []⟩
def RES_HU_CFG.EN : Fld := ⟨1026, .res, 0, 0x40, 1, 0, 31, 31, .rwl, 0, []⟩
def RES_HU_CFG.V_PF : Fld := ⟨1027, .res, 0, 0x40, 1, 0, 23, 12, .rwl, 480, []⟩
def RES_HU_CFG.V_MIN : Fld := ⟨1028, .res, 0, 0x40, 1, 0, 11, 0, .rwl, 100, []⟩
def RES_HU_CAP.C_NOM : Fld := ⟨1029, .res, 0, 0x44, 1, 0, 31, 16, .rwl, 220, []⟩
def RES_HU_CAP.DERATE : Fld := ⟨1030, .res, 0, 0x44, 1, 0, 15, 8, .rwl, 10, [(0, 50)]⟩
def RES_HU_CAP.C_MIN_PCT : Fld := ⟨1031, .res, 0, 0x44, 1, 0, 7, 0, .rwl, 70, []⟩
def RES_HU_PWR.P_HU : Fld := ⟨1032, .res, 0, 0x48, 1, 0, 31, 16, .rwl, 900, [(900, 11500)]⟩
def RES_HU_PWR.ETA : Fld := ⟨1033, .res, 0, 0x48, 1, 0, 15, 8, .rwl, 85, [(50, 100)]⟩
def RES_HU_PWR.T_ENTRY : Fld := ⟨1034, .res, 0, 0x48, 1, 0, 7, 0, .rwl, 20, [(10, 100)]⟩
def RES_HU_GUARD.GUARD : Fld := ⟨1035, .res, 0, 0x4C, 1, 0, 31, 16, .rwl, 2000, []⟩
def RES_HU_GUARD.HYST : Fld := ⟨1036, .res, 0, 0x4C, 1, 0, 15, 0, .rwl, 1000, []⟩
def RES_HU_TEST.PERIOD_H : Fld := ⟨1037, .res, 0, 0x50, 1, 0, 31, 24, .rwl, 24, []⟩
def RES_HU_TEST.DV : Fld := ⟨1038, .res, 0, 0x50, 1, 0, 23, 16, .rwl, 20, [(5, 100)]⟩
def RES_HU_TEST.T_MAX : Fld := ⟨1039, .res, 0, 0x50, 1, 0, 15, 8, .rwl, 50, [(10, 200)]⟩
def RES_HU_CMD.TEST : Fld := ⟨1040, .res, 0, 0x54, 1, 0, 0, 0, .wo, 0, []⟩
def RES_V_NOW.V : Fld := ⟨1041, .res, 0, 0x58, 1, 0, 15, 0, .ro, 0, []⟩
def RES_P_NOW.MW : Fld := ⟨1042, .res, 0, 0x5C, 1, 0, 15, 0, .ro, 0, []⟩
def RES_C_MEAS.VALID : Fld := ⟨1043, .res, 0, 0x60, 1, 0, 31, 31, .ro, 0, []⟩
def RES_C_MEAS.C : Fld := ⟨1044, .res, 0, 0x60, 1, 0, 19, 0, .ro, 0, []⟩
def RES_E_AVAIL.UJ : Fld := ⟨1045, .res, 0, 0x64, 1, 0, 31, 0, .ro, 0, []⟩
def RES_E_COST.UJ : Fld := ⟨1046, .res, 0, 0x68, 1, 0, 31, 0, .ro, 0, []⟩
def RES_HU_BYTES.BYTES : Fld := ⟨1047, .res, 0, 0x6C, 1, 0, 31, 0, .ro, 0, []⟩
def RES_HU_STAT.COUNT : Fld := ⟨1048, .res, 0, 0x70, 1, 0, 31, 16, .ro, 0, []⟩
def RES_HU_STAT.EARLY : Fld := ⟨1049, .res, 0, 0x70, 1, 0, 4, 4, .ro, 0, []⟩
def RES_HU_STAT.TESTING : Fld := ⟨1050, .res, 0, 0x70, 1, 0, 3, 3, .ro, 0, []⟩
def RES_HU_STAT.UNCOVERED : Fld := ⟨1051, .res, 0, 0x70, 1, 0, 2, 2, .ro, 1, []⟩
def RES_HU_STAT.WITHHOLD : Fld := ⟨1052, .res, 0, 0x70, 1, 0, 0, 0, .ro, 0, []⟩
def RES_ERR.ABI : Fld := ⟨1053, .res, 0, 0x100, 1, 0, 6, 6, .w1c, 0, []⟩
def RES_ERR.CONFLICT : Fld := ⟨1054, .res, 0, 0x100, 1, 0, 5, 5, .w1c, 0, []⟩
def RES_ERR.UNSYNCED : Fld := ⟨1055, .res, 0, 0x100, 1, 0, 4, 4, .w1c, 0, []⟩
def RES_ERR.CAP : Fld := ⟨1056, .res, 0, 0x100, 1, 0, 3, 3, .w1c, 0, []⟩
def RES_ERR.KEY : Fld := ⟨1057, .res, 0, 0x100, 1, 0, 2, 2, .w1c, 0, []⟩
def RES_ERR.CMD : Fld := ⟨1058, .res, 0, 0x100, 1, 0, 1, 1, .w1c, 0, []⟩
def RES_ERR.RANGE : Fld := ⟨1059, .res, 0, 0x100, 1, 0, 0, 0, .w1c, 0, []⟩
def RES_ERR_INFO.OFFSET : Fld := ⟨1060, .res, 0, 0x104, 1, 0, 19, 0, .ro, 0, []⟩
def ETH_INFO.PORTS : Fld := ⟨1061, .eth, 0, 0x0, 1, 0, 3, 0, .ro, 3, []⟩
def ETH_CFG.MODE : Fld := ⟨1062, .eth, 0, 0x4, 1, 0, 1, 0, .rwl, 0, [(0, 2)]⟩
def ETH_MAC_LO.MAC_LO : Fld := ⟨1063, .eth, 0, 0x8, 1, 0, 31, 0, .rwl, 0, []⟩
def ETH_MAC_HI.MAC_HI : Fld := ⟨1064, .eth, 0, 0xC, 1, 0, 15, 0, .rwl, 0, []⟩
def ETH_PTP_CFG.DOMAIN : Fld := ⟨1065, .eth, 0, 0x10, 1, 0, 31, 24, .rwl, 0, []⟩
def ETH_PTP_CFG.LOG_REQ : Fld := ⟨1066, .eth, 0, 0x10, 1, 0, 19, 16, .rwl, 0, [(0, 4), (12, 15)]⟩
def ETH_PTP_CFG.PROFILE : Fld := ⟨1067, .eth, 0, 0x10, 1, 0, 9, 8, .rwl, 0, [(0, 2)]⟩
def ETH_PTP_CFG.TC_EN : Fld := ⟨1068, .eth, 0, 0x10, 1, 0, 0, 0, .rwl, 1, []⟩
def ETH_PTP_LO.BASE_LO : Fld := ⟨1069, .eth, 0, 0x14, 1, 0, 31, 16, .rwl, 0, []⟩
def ETH_PTP_HI.BASE_HI : Fld := ⟨1070, .eth, 0, 0x18, 1, 0, 7, 0, .rwl, 0, []⟩
def ETH_PRP_CFG.LIFE_MS : Fld := ⟨1071, .eth, 0, 0x20, 1, 0, 31, 16, .rwl, 2000, []⟩
def ETH_PRP_CFG.ENTRY_MS : Fld := ⟨1072, .eth, 0, 0x20, 1, 0, 15, 0, .rwl, 400, []⟩
def ETH_PRP_NODE.FORGET_S : Fld := ⟨1073, .eth, 0, 0x24, 1, 0, 31, 16, .rwl, 60, []⟩
def ETH_PRP_NODE.NODES : Fld := ⟨1074, .eth, 0, 0x24, 1, 0, 10, 0, .ro, 0, []⟩
def ETH_PRP_DUP.COUNT : Fld := ⟨1075, .eth, 0, 0x28, 1, 0, 31, 0, .ro, 0, []⟩
def ETH_PRP_WRONG.COUNT : Fld := ⟨1076, .eth, 0, 0x2C, 1, 0, 31, 0, .ro, 0, []⟩
def ETH_PRP_NOROOM.COUNT : Fld := ⟨1077, .eth, 0, 0x30, 1, 0, 31, 0, .ro, 0, []⟩
def ETH_FDB_CFG.SWEEP_S : Fld := ⟨1078, .eth, 0, 0x40, 1, 0, 31, 16, .rwl, 100, []⟩
def ETH_FDB_CFG.ENTRIES : Fld := ⟨1079, .eth, 0, 0x40, 1, 0, 12, 0, .ro, 0, []⟩
def ETH_FDB_KEY_LO.MAC_LO : Fld := ⟨1080, .eth, 9, 0x44, 1, 0, 31, 0, .rw, 0, []⟩
def ETH_FDB_KEY_HI.VLAN : Fld := ⟨1081, .eth, 9, 0x48, 1, 0, 27, 16, .rw, 0, []⟩
def ETH_FDB_KEY_HI.MAC_HI : Fld := ⟨1082, .eth, 9, 0x48, 1, 0, 15, 0, .rw, 0, []⟩
def ETH_FDB_VAL.PORTS : Fld := ⟨1083, .eth, 9, 0x4C, 1, 0, 2, 0, .rw, 0, []⟩
def ETH_FDB_CMD.OP : Fld := ⟨1084, .eth, 0, 0x50, 1, 0, 2, 0, .wo, 0, []⟩
def ETH_FDB_RES.STATIC : Fld := ⟨1085, .eth, 0, 0x54, 1, 0, 9, 9, .ro, 0, []⟩
def ETH_FDB_RES.HIT : Fld := ⟨1086, .eth, 0, 0x54, 1, 0, 8, 8, .ro, 0, []⟩
def ETH_FDB_RES.STATUS : Fld := ⟨1087, .eth, 0, 0x54, 1, 0, 7, 0, .ro, 0, []⟩
def ETH_ERR.FDB : Fld := ⟨1088, .eth, 0, 0x100, 1, 0, 3, 3, .w1c, 0, []⟩
def ETH_ERR.MODE : Fld := ⟨1089, .eth, 0, 0x100, 1, 0, 2, 2, .w1c, 0, []⟩
def ETH_ERR.BUSY : Fld := ⟨1090, .eth, 0, 0x100, 1, 0, 1, 1, .w1c, 0, []⟩
def ETH_ERR.RANGE : Fld := ⟨1091, .eth, 0, 0x100, 1, 0, 0, 0, .w1c, 0, []⟩
def ETH_ERR_INFO.OFFSET : Fld := ⟨1092, .eth, 0, 0x104, 1, 0, 19, 0, .ro, 0, []⟩
def ETH_SEL.PORT : Fld := ⟨1093, .eth, 0, 0x1000, 1, 0, 1, 0, .rw, 0, []⟩
def ETH_P_CTRL.ENABLE : Fld := ⟨1094, .eth, 0, 0x1100, 1, 0, 0, 0, .rw, 0, []⟩
def ETH_P_STAT.GEN : Fld := ⟨1095, .eth, 0, 0x1104, 1, 0, 23, 16, .ro, 0, []⟩
def ETH_P_STAT.SPEED_NOW : Fld := ⟨1096, .eth, 0, 0x1104, 1, 0, 10, 8, .ro, 0, []⟩
def ETH_P_STAT.LINK : Fld := ⟨1097, .eth, 0, 0x1104, 1, 0, 4, 4, .ro, 0, []⟩
def ETH_P_STAT.ENABLE_LATCHED : Fld := ⟨1098, .eth, 0, 0x1104, 1, 0, 2, 2, .ro, 0, []⟩
def ETH_P_STAT.STATE : Fld := ⟨1099, .eth, 0, 0x1104, 1, 0, 1, 0, .ro, 0, []⟩
def ETH_P_CFG.SPEED : Fld := ⟨1100, .eth, 0, 0x1108, 1, 0, 10, 8, .rw, 0, [(0, 3)]⟩
def ETH_P_CFG.AN : Fld := ⟨1101, .eth, 0, 0x1108, 1, 0, 4, 4, .rw, 1, []⟩
def ETH_P_CFG.GT : Fld := ⟨1102, .eth, 0, 0x1108, 1, 0, 2, 2, .rw, 0, []⟩
def ETH_P_CFG.PTP_EN : Fld := ⟨1103, .eth, 0, 0x1108, 1, 0, 1, 1, .rw, 0, []⟩
def ETH_P_LAT.RX : Fld := ⟨1104, .eth, 0, 0x110C, 1, 0, 31, 16, .rw, 0, []⟩
def ETH_P_LAT.TX : Fld := ⟨1105, .eth, 0, 0x110C, 1, 0, 15, 0, .rw, 0, []⟩
def ETH_P_RXOK.COUNT : Fld := ⟨1106, .eth, 0, 0x1110, 1, 0, 31, 0, .ro, 0, []⟩
def ETH_P_RXERR.COUNT : Fld := ⟨1107, .eth, 0, 0x1114, 1, 0, 31, 0, .ro, 0, []⟩
def ETH_P_RXDROP.COUNT : Fld := ⟨1108, .eth, 0, 0x1118, 1, 0, 31, 0, .ro, 0, []⟩
def ETH_P_TXOK.COUNT : Fld := ⟨1109, .eth, 0, 0x111C, 1, 0, 31, 0, .ro, 0, []⟩
def ETH_P_PAUSE.COUNT : Fld := ⟨1110, .eth, 0, 0x1120, 1, 0, 31, 0, .ro, 0, []⟩
def ETH_P_PTP.COUNT : Fld := ⟨1111, .eth, 0, 0x1124, 1, 0, 31, 0, .ro, 0, []⟩
def ETH_P_CMD.CLR : Fld := ⟨1112, .eth, 0, 0x1128, 1, 0, 0, 0, .wo, 0, []⟩
def SAF_INFO.FUNCS : Fld := ⟨1113, .saf, 0, 0x0, 1, 0, 11, 8, .ro, 8, []⟩
def SAF_INFO.OUTPUTS : Fld := ⟨1114, .saf, 0, 0x0, 1, 0, 7, 4, .ro, 4, []⟩
def SAF_INFO.INPUTS : Fld := ⟨1115, .saf, 0, 0x0, 1, 0, 3, 0, .ro, 8, []⟩
def SAF_CMD.CONFIRM : Fld := ⟨1116, .saf, 0, 0x4, 1, 0, 31, 16, .wo, 0, []⟩
def SAF_CMD.RESTART : Fld := ⟨1117, .saf, 0, 0x4, 1, 0, 15, 8, .wo, 0, []⟩
def SAF_CMD.RESET : Fld := ⟨1118, .saf, 0, 0x4, 1, 0, 1, 1, .wo, 0, []⟩
def SAF_CMD.ARM : Fld := ⟨1119, .saf, 0, 0x4, 1, 0, 0, 0, .wo, 0, []⟩
def SAF_STAT.DEMAND : Fld := ⟨1120, .saf, 0, 0x8, 1, 0, 31, 24, .ro, 0, []⟩
def SAF_STAT.LATCHED : Fld := ⟨1121, .saf, 0, 0x8, 1, 0, 23, 16, .ro, 0, []⟩
def SAF_STAT.FAULT : Fld := ⟨1122, .saf, 0, 0x8, 1, 0, 15, 8, .ro, 0, []⟩
def SAF_STAT.KILL : Fld := ⟨1123, .saf, 0, 0x8, 1, 0, 4, 4, .ro, 0, []⟩
def SAF_STAT.STATE : Fld := ⟨1124, .saf, 0, 0x8, 1, 0, 1, 0, .ro, 0, []⟩
def SAF_CFG_CRC.CRC : Fld := ⟨1125, .saf, 0, 0xC, 1, 0, 31, 0, .rw, 0, []⟩
def SAF_TIMING.FILTER : Fld := ⟨1126, .saf, 0, 0x10, 1, 0, 31, 16, .rw, 400, [(400, 10000)]⟩
def SAF_TIMING.TP_WIDTH : Fld := ⟨1127, .saf, 0, 0x10, 1, 0, 15, 0, .rw, 200, [(100, 300)]⟩
def SAF_DEG.LEFT : Fld := ⟨1128, .saf, 0, 0x14, 1, 0, 31, 16, .ro, 0, []⟩
def SAF_DEG.DEG_MAX : Fld := ⟨1129, .saf, 0, 0x14, 1, 0, 4, 0, .rw, 8, [(1, 24)]⟩
def SAF_IN_CFG.DISC : Fld := ⟨1130, .saf, 0, 0x40, 8, 4, 15, 8, .rw, 20, [(1, 255)]⟩
def SAF_IN_CFG.MODE : Fld := ⟨1131, .saf, 0, 0x40, 8, 4, 4, 4, .rw, 0, []⟩
def SAF_IN_CFG.TPSRC : Fld := ⟨1132, .saf, 0, 0x40, 8, 4, 3, 1, .rw, 0, [(0, 4)]⟩
def SAF_IN_CFG.EN : Fld := ⟨1133, .saf, 0, 0x40, 8, 4, 0, 0, .rw, 0, []⟩
def SAF_OUT_CFG.OP_PERIOD : Fld := ⟨1134, .saf, 0, 0x60, 4, 4, 31, 16, .rw, 100, [(10, 1000)]⟩
def SAF_OUT_CFG.OP_WIDTH : Fld := ⟨1135, .saf, 0, 0x60, 4, 4, 15, 1, .rw, 200, [(50, 500)]⟩
def SAF_OUT_CFG.EN : Fld := ⟨1136, .saf, 0, 0x60, 4, 4, 0, 0, .rw, 0, []⟩
def SAF_FN.RESTART : Fld := ⟨1137, .saf, 0, 0x80, 8, 4, 16, 16, .rw, 1, []⟩
def SAF_FN.OUT : Fld := ⟨1138, .saf, 0, 0x80, 8, 4, 15, 12, .rw, 0, []⟩
def SAF_FN.IN : Fld := ⟨1139, .saf, 0, 0x80, 8, 4, 11, 4, .rw, 0, []⟩
def SAF_FN.EN : Fld := ⟨1140, .saf, 0, 0x80, 8, 4, 0, 0, .rw, 0, []⟩
def SAF_OUT_REQ.REQ : Fld := ⟨1141, .saf, 0, 0xC0, 1, 0, 3, 0, .rw, 0, []⟩
def SAF_IO_STAT.RB : Fld := ⟨1142, .saf, 0, 0xC4, 1, 0, 27, 24, .ro, 0, []⟩
def SAF_IO_STAT.OUT : Fld := ⟨1143, .saf, 0, 0xC4, 1, 0, 19, 16, .ro, 0, []⟩
def SAF_IO_STAT.FORCED : Fld := ⟨1144, .saf, 0, 0xC4, 1, 0, 15, 8, .ro, 0, []⟩
def SAF_IO_STAT.DEMAND : Fld := ⟨1145, .saf, 0, 0xC4, 1, 0, 7, 0, .ro, 0, []⟩
def SAF_RESP.US : Fld := ⟨1146, .saf, 0, 0xC8, 1, 0, 15, 0, .ro, 0, []⟩
def SAF_TAMP_CFG.MESH : Fld := ⟨1147, .saf, 0, 0xD0, 1, 0, 4, 4, .w1s, 0, []⟩
def SAF_TAMP_CFG.LOOP : Fld := ⟨1148, .saf, 0, 0xD0, 1, 0, 3, 0, .w1s, 0, []⟩
def SAF_TAMP_STAT.CAUSE : Fld := ⟨1149, .saf, 0, 0xD4, 1, 0, 4, 0, .w1c, 0, []⟩
def SAF_ERR.CRC : Fld := ⟨1150, .saf, 0, 0x100, 1, 0, 3, 3, .w1c, 0, []⟩
def SAF_ERR.CMD : Fld := ⟨1151, .saf, 0, 0x100, 1, 0, 2, 2, .w1c, 0, []⟩
def SAF_ERR.BUSY : Fld := ⟨1152, .saf, 0, 0x100, 1, 0, 1, 1, .w1c, 0, []⟩
def SAF_ERR.RANGE : Fld := ⟨1153, .saf, 0, 0x100, 1, 0, 0, 0, .w1c, 0, []⟩
def SAF_ERR_INFO.OFFSET : Fld := ⟨1154, .saf, 0, 0x104, 1, 0, 19, 0, .ro, 0, []⟩
def PWR_MODE_REQ.CONFIRM : Fld := ⟨1155, .pwr, 0, 0x0, 1, 0, 31, 16, .wo, 0, []⟩
def PWR_MODE_REQ.OP : Fld := ⟨1156, .pwr, 0, 0x0, 1, 0, 3, 0, .wo, 0, []⟩
def PWR_MODE_STAT.CHANGES : Fld := ⟨1157, .pwr, 0, 0x4, 1, 0, 31, 24, .ro, 0, []⟩
def PWR_MODE_STAT.RETURN : Fld := ⟨1158, .pwr, 0, 0x4, 1, 0, 3, 0, .ro, 0, []⟩
def PWR_FAULT.CAUSE : Fld := ⟨1159, .pwr, 0, 0x8, 1, 0, 6, 0, .ro, 0, []⟩
def PWR_DEG.LEFT : Fld := ⟨1160, .pwr, 0, 0xC, 1, 0, 31, 16, .ro, 0, []⟩
def PWR_DEG.DEG_MAX : Fld := ⟨1161, .pwr, 0, 0xC, 1, 0, 10, 0, .rwl, 60, [(1, 1440)]⟩
def PWR_ISL.EN : Fld := ⟨1162, .pwr, 0, 0x10, 1, 0, 31, 31, .rwl, 0, []⟩
def PWR_ISL.HOSTS : Fld := ⟨1163, .pwr, 0, 0x10, 1, 0, 23, 16, .rwl, 0, []⟩
def PWR_ISL.DELAY_S : Fld := ⟨1164, .pwr, 0, 0x10, 1, 0, 15, 0, .rwl, 30, [(1, 65535)]⟩
def PWR_RESET.CONFIRM : Fld := ⟨1165, .pwr, 0, 0x14, 1, 0, 31, 16, .wo, 0, []⟩
def PWR_RESET.OP : Fld := ⟨1166, .pwr, 0, 0x14, 1, 0, 1, 0, .wo, 0, []⟩
def PWR_RST_CAUSE.BOOT_FAILS : Fld := ⟨1167, .pwr, 0, 0x18, 1, 0, 15, 8, .ro, 0, []⟩
def PWR_RST_CAUSE.CAUSE : Fld := ⟨1168, .pwr, 0, 0x18, 1, 0, 3, 0, .ro, 0, []⟩
def PWR_BOOT.TMO_S : Fld := ⟨1169, .pwr, 0, 0x1C, 1, 0, 31, 16, .rwl, 10, [(2, 60)]⟩
def PWR_BOOT.LAST_MS : Fld := ⟨1170, .pwr, 0, 0x1C, 1, 0, 15, 0, .ro, 0, []⟩
def PWR_RAIL_STAT.WARN : Fld := ⟨1171, .pwr, 0, 0x20, 1, 0, 23, 16, .w1c, 0, []⟩
def PWR_RAIL_STAT.GOOD : Fld := ⟨1172, .pwr, 0, 0x20, 1, 0, 7, 0, .ro, 0, []⟩
def PWR_VSYS.MV : Fld := ⟨1173, .pwr, 0, 0x24, 1, 0, 15, 0, .ro, 0, []⟩
def PWR_HVIN.V : Fld := ⟨1174, .pwr, 0, 0x28, 1, 0, 15, 0, .ro, 0, []⟩
def PWR_VBAT.LOW : Fld := ⟨1175, .pwr, 0, 0x2C, 1, 0, 16, 16, .ro, 0, []⟩
def PWR_VBAT.MV : Fld := ⟨1176, .pwr, 0, 0x2C, 1, 0, 15, 0, .ro, 0, []⟩
def PWR_ILIM.COUNT : Fld := ⟨1177, .pwr, 0, 0x30, 1, 0, 31, 0, .ro, 0, []⟩
def PWR_TEMP.T : Fld := ⟨1178, .pwr, 0, 0x40, 9, 4, 15, 0, .ro, 0, []⟩
def PWR_TJMAX.SENSOR : Fld := ⟨1179, .pwr, 0, 0x64, 1, 0, 19, 16, .ro, 0, []⟩
def PWR_TJMAX.T : Fld := ⟨1180, .pwr, 0, 0x64, 1, 0, 15, 0, .ro, 0, []⟩
def PWR_TBAND.CROSSINGS : Fld := ⟨1181, .pwr, 0, 0x68, 1, 0, 15, 8, .ro, 0, []⟩
def PWR_TBAND.BAND : Fld := ⟨1182, .pwr, 0, 0x68, 1, 0, 2, 0, .ro, 0, []⟩
def PWR_THR_A.TH2 : Fld := ⟨1183, .pwr, 0, 0x70, 1, 0, 23, 16, .rwl, 70, []⟩
def PWR_THR_A.TH1 : Fld := ⟨1184, .pwr, 0, 0x70, 1, 0, 15, 8, .rwl, 25, []⟩
def PWR_THR_A.TH0 : Fld := ⟨1185, .pwr, 0, 0x70, 1, 0, 7, 0, .rwl, 236, []⟩
def PWR_THR_B.TH5 : Fld := ⟨1186, .pwr, 0, 0x74, 1, 0, 23, 16, .rwl, 125, []⟩
def PWR_THR_B.TH4 : Fld := ⟨1187, .pwr, 0, 0x74, 1, 0, 15, 8, .rwl, 115, []⟩
def PWR_THR_B.TH3 : Fld := ⟨1188, .pwr, 0, 0x74, 1, 0, 7, 0, .rwl, 100, []⟩
def PWR_THERM_CFG.THROTTLE_EN : Fld := ⟨1189, .pwr, 0, 0x78, 1, 0, 16, 16, .rwl, 1, []⟩
def PWR_THERM_CFG.RESTART_S : Fld := ⟨1190, .pwr, 0, 0x78, 1, 0, 15, 0, .rwl, 60, [(10, 3600)]⟩
def PWR_THROTTLE.ACTIVE : Fld := ⟨1191, .pwr, 0, 0x7C, 1, 0, 0, 0, .ro, 0, []⟩
def PWR_ERR.RESUME : Fld := ⟨1192, .pwr, 0, 0x100, 1, 0, 3, 3, .w1c, 0, []⟩
def PWR_ERR.MODE : Fld := ⟨1193, .pwr, 0, 0x100, 1, 0, 2, 2, .w1c, 0, []⟩
def PWR_ERR.CMD : Fld := ⟨1194, .pwr, 0, 0x100, 1, 0, 1, 1, .w1c, 0, []⟩
def PWR_ERR.RANGE : Fld := ⟨1195, .pwr, 0, 0x100, 1, 0, 0, 0, .w1c, 0, []⟩
def PWR_ERR_INFO.OFFSET : Fld := ⟨1196, .pwr, 0, 0x104, 1, 0, 19, 0, .ro, 0, []⟩
def PAD_INFO.GP : Fld := ⟨1197, .pad, 0, 0x0, 1, 0, 20, 16, .ro, 16, []⟩
def PAD_BANK_STAT.G_LEVEL : Fld := ⟨1198, .pad, 0, 0x4, 1, 0, 19, 18, .ro, 0, []⟩
def PAD_BANK_STAT.Q_LEVEL : Fld := ⟨1199, .pad, 0, 0x4, 1, 0, 17, 16, .ro, 0, []⟩
def PAD_BANK_STAT.GOOD : Fld := ⟨1200, .pad, 0, 0x4, 1, 0, 6, 0, .ro, 0, []⟩
def PAD_DRV.N_ZO : Fld := ⟨1201, .pad, 0, 0x8, 1, 0, 9, 8, .rw, 1, [(0, 2)]⟩
def PAD_DRV.M_DRV : Fld := ⟨1202, .pad, 0, 0x8, 1, 0, 5, 4, .rw, 1, []⟩
def PAD_DRV.G_DRV : Fld := ⟨1203, .pad, 0, 0x8, 1, 0, 3, 2, .rw, 1, []⟩
def PAD_DRV.Q_DRV : Fld := ⟨1204, .pad, 0, 0x8, 1, 0, 1, 0, .rw, 2, []⟩
def PAD_QSPI.RXDLY : Fld := ⟨1205, .pad, 0, 0xC, 1, 0, 4, 0, .rw, 8, []⟩
def PAD_GP_IN.IN : Fld := ⟨1206, .pad, 0, 0x10, 1, 0, 15, 0, .ro, 0, []⟩
def PAD_GP_OUT.OUT : Fld := ⟨1207, .pad, 0, 0x14, 1, 0, 15, 0, .rws, 0, []⟩
def PAD_GP_OE.OE : Fld := ⟨1208, .pad, 0, 0x18, 1, 0, 15, 0, .rws, 0, []⟩
def PAD_PPS.WIDTH : Fld := ⟨1209, .pad, 0, 0x1C, 1, 0, 9, 0, .rw, 100, [(1, 999)]⟩
def PAD_ERR.FUNC : Fld := ⟨1210, .pad, 0, 0x100, 1, 0, 1, 1, .w1c, 0, []⟩
def PAD_ERR.RANGE : Fld := ⟨1211, .pad, 0, 0x100, 1, 0, 0, 0, .w1c, 0, []⟩
def PAD_ERR_INFO.OFFSET : Fld := ⟨1212, .pad, 0, 0x104, 1, 0, 19, 0, .ro, 0, []⟩
def PAD_SEL.GP : Fld := ⟨1213, .pad, 0, 0x1000, 1, 0, 3, 0, .rw, 0, []⟩
def PAD_G_CFG.PULL : Fld := ⟨1214, .pad, 0, 0x1100, 1, 0, 5, 4, .rws, 2, [(0, 2)]⟩
def PAD_G_CFG.FUNC : Fld := ⟨1215, .pad, 0, 0x1100, 1, 0, 0, 0, .rws, 0, []⟩
def PAD_G_STAT.DRIVEN : Fld := ⟨1216, .pad, 0, 0x1104, 1, 0, 1, 1, .ro, 0, []⟩
def PAD_G_STAT.IN : Fld := ⟨1217, .pad, 0, 0x1104, 1, 0, 0, 0, .ro, 0, []⟩
def GT1_NS.NS : Fld := ⟨1218, .mpt, 0, 0xC0, 1, 0, 29, 0, .ro, 0, []⟩
def GT1_SEC_LO.SEC_LO : Fld := ⟨1219, .mpt, 9, 0xC4, 1, 0, 31, 0, .ro, 0, []⟩
def GT1_SEC_HI.SEC_HI : Fld := ⟨1220, .mpt, 9, 0xC8, 1, 0, 15, 0, .ro, 0, []⟩
def GT1_STAT.AGE : Fld := ⟨1221, .mpt, 0, 0xCC, 1, 0, 31, 12, .ro, 0, []⟩
def GT1_STAT.STEP_USED : Fld := ⟨1222, .mpt, 0, 0xCC, 1, 0, 3, 3, .ro, 0, []⟩
def GT1_STAT.STATE : Fld := ⟨1223, .mpt, 0, 0xCC, 1, 0, 1, 0, .ro, 0, []⟩
def GT1_TRIM.TRIM : Fld := ⟨1224, .mpt, 0, 0xD0, 1, 0, 31, 0, .rw, 0, []⟩
def GT1_STEP_LO.OFS_LO : Fld := ⟨1225, .mpt, 0, 0xD4, 1, 0, 31, 0, .rw, 0, []⟩
def GT1_STEP_HI.OFS_HI : Fld := ⟨1226, .mpt, 0, 0xD8, 1, 0, 31, 0, .rw, 0, []⟩
def GT1_CMD.INVALIDATE : Fld := ⟨1227, .mpt, 0, 0xDC, 1, 0, 2, 2, .wo, 0, []⟩
def GT1_CMD.CONFIRM : Fld := ⟨1228, .mpt, 0, 0xDC, 1, 0, 1, 1, .wo, 0, []⟩
def GT1_CMD.STEP : Fld := ⟨1229, .mpt, 0, 0xDC, 1, 0, 0, 0, .wo, 0, []⟩
def GT1_CONFIRM_OFS.OFS : Fld := ⟨1230, .mpt, 0, 0xE0, 1, 0, 31, 0, .rw, 0, []⟩
def GT1_CFG.HOLD_LIMIT : Fld := ⟨1231, .mpt, 0, 0xE4, 1, 0, 31, 12, .rwl, 14400, [(60, 1048575)]⟩
def GT1_CFG.CONFIRM_WIN : Fld := ⟨1232, .mpt, 0, 0xE4, 1, 0, 11, 4, .rwl, 16, [(1, 255)]⟩
def GT1_TOL.TOL : Fld := ⟨1233, .mpt, 0, 0xE8, 1, 0, 31, 0, .rwl, 1000000, []⟩
def GT1_CONF_REJ.COUNT : Fld := ⟨1234, .mpt, 0, 0xEC, 1, 0, 31, 0, .ro, 0, []⟩

def tab_chip_0 : List Fld := [CHIP_ID.DEVICE, CHIP_ID.STEPPING, CHIP_ID.FAMILY, CHIP_MODE.PREV_MODE, CHIP_MODE.MODE, CHIP_ROLE.CENTRE, CHIP_SUPV.HOST, CHIP_HOST.HOST, CHIP_LOCK.LOCK, CHIP_EPOCH.EPOCH, CHIP_EPOCH_CMD.SWITCH, CHIP_EPOCH_STAT.LAST_TIME, CHIP_EPOCH_STAT.PENDING, CHIP_EPOCH_STAT.BUSY, CHIP_ERR.RWL_WRITE, CHIP_ERR.WINDOW_PROT, CHIP_ERR.NOT_SUPV, CHIP_ERR.SEL_RANGE, CHIP_ERR_INFO.HOST, CHIP_ERR_INFO.OFFSET]
/-- The fields of block CHIP in table order. -/
def tab_chip : List Fld := tab_chip_0
def tab_ten_0 : List Fld := [TEN_COUNT.COUNT, TEN_ERR.OVERLAP, TEN_ERR.TENANT0, TEN_ERR.SHARE_SUM, TEN_ERR.SCRUBBING, TEN_ERR.OWNER_BUSY, TEN_ERR_ADDR.OFFSET, TEN_SCRUB.ITEMS, TEN_SCRUB.BUSY, TEN_SHARE_SUM.SUM, TEN_SEL.TENANT, TEN_CTRL.ENABLE, TEN_STAT.GEN, TEN_STAT.ENABLE_LATCHED, TEN_STAT.STATE, TEN_TAGS.IN_FLIGHT, TEN_PROT_CNT.COUNT]
/-- The fields of block TEN in table order. -/
def tab_ten : List Fld := tab_ten_0
def tab_mpt_0 : List Fld := [MPT_NOW_LO.TIME_LO, MPT_NOW_HI.TIME_HI, MPT_SRC.LOADED, MPT_SRC.ROTATION, MPT_SRC.PH_C_OK, MPT_SRC.PH_B_OK, MPT_SRC.PH_A_OK, MPT_SRC.STATE, MPT_FREQ.FREQ, MPT_CFG.HOLD_CYCLES, MPT_CFG.MAINS_MIN, MPT_CFG.NOMINAL_60, MPT_PH_B.OFFSET, MPT_PH_C.OFFSET, MPT_SLEW.MAX_PU, MPT_LOAD_LO.CYCLE_LO, MPT_LOAD_HI.CYCLE_HI, MPT_GRID_SEL.TOL_US, MPT_GRID_SEL.DOMAIN, MPT_TIME_OK.REASON, MPT_TIME_OK.CAL_OK, MPT_OPSEC.SECONDS, MPT_PCYC.COUNT, MPT_VAULT.VBAT_LOST, MPT_VAULT.RAN, MPT_VAULT.VCLK_ON, MPT_VSECS.SECONDS, MPT_SNAP_CMD.TAKE, MPT_SNAP_MPT_LO.TIME_LO, MPT_SNAP_MPT_HI.TIME_HI, MPT_SNAP_GT_NS.NS, MPT_SNAP_GT_SEC_LO.SEC_LO, MPT_SNAP_GT_SEC_HI.SEC_HI, MPT_SNAP_OPSEC.SECONDS, GT0_NS.NS, GT0_SEC_LO.SEC_LO, GT0_SEC_HI.SEC_HI, GT0_STAT.AGE, GT0_STAT.STEP_USED, GT0_STAT.STATE]
def tab_mpt_1 : List Fld := [GT0_TRIM.TRIM, GT0_STEP_LO.OFS_LO, GT0_STEP_HI.OFS_HI, GT0_CMD.INVALIDATE, GT0_CMD.CONFIRM, GT0_CMD.STEP, GT0_CONFIRM_OFS.OFS, GT0_CFG.HOLD_LIMIT, GT0_CFG.CONFIRM_WIN, GT0_TOL.TOL, GT0_CONF_REJ.COUNT, MPT_ERR.CMP_BUSY, MPT_ERR.DOMAIN_SW, MPT_ERR.TRIG_CODE, MPT_ERR.PERIOD, MPT_ERR.HORIZON, MPT_ERR.TRIM_RANGE, MPT_ERR.STEP_USED, MPT_ERR.LOAD_LATE, MPT_ERR.ALIGN, MPT_ERR_INFO.OFFSET, MPT_SEL.UNIT, MPT_CMP_CTRL.ARG, MPT_CMP_CTRL.TRIG, MPT_CMP_CTRL.BASE, MPT_CMP_CTRL.PERIODIC, MPT_CMP_CTRL.ENABLE, MPT_CMP_STAT.MISSED, MPT_CMP_STAT.GEN, MPT_CMP_STAT.FIRED, MPT_CMP_STAT.LATE, MPT_CMP_STAT.ENABLE_LATCHED, MPT_CMP_STAT.STATE, MPT_CMP_TGT_LO.TGT_LO, MPT_CMP_TGT_HI.TGT_HI, MPT_CMP_TGT_X.TGT_X, MPT_CMP_PER_LO.PER_LO, MPT_CMP_PER_HI.PER_HI, GT1_NS.NS, GT1_SEC_LO.SEC_LO]
def tab_mpt_2 : List Fld := [GT1_SEC_HI.SEC_HI, GT1_STAT.AGE, GT1_STAT.STEP_USED, GT1_STAT.STATE, GT1_TRIM.TRIM, GT1_STEP_LO.OFS_LO, GT1_STEP_HI.OFS_HI, GT1_CMD.INVALIDATE, GT1_CMD.CONFIRM, GT1_CMD.STEP, GT1_CONFIRM_OFS.OFS, GT1_CFG.HOLD_LIMIT, GT1_CFG.CONFIRM_WIN, GT1_TOL.TOL, GT1_CONF_REJ.COUNT]
/-- The fields of block MPT in table order. -/
def tab_mpt : List Fld := tab_mpt_0 ++ tab_mpt_1 ++ tab_mpt_2
def tab_pip_0 : List Fld := [PIP_CFG.RESERVE, PIP_CFG.STAGE_VALID, PIP_CFG.SPILL, PIP_TMO.TMO, PIP_RETRY_DMA.TRIES, PIP_RETRY_DMA.TMO, PIP_RETRY_KEY.TRIES, PIP_RETRY_KEY.TMO, PIP_RETRY_LDG.TRIES, PIP_RETRY_LDG.TMO, PIP_BUDGET.SUM, PIP_STAGE_LO.BASE_LO, PIP_STAGE_HI.BASE_HI, PIP_HASH_LO.BASE_LO, PIP_HASH_HI.BASE_HI, PIP_HASH_STAT.REPAIR, PIP_HASH_STAT.STASH, PIP_HASH_STAT.ENTRIES, PIP_HASH_PAR.BUCKET, PIP_TAGS.IN_FLIGHT, PIP_STAGING.SPILLED, PIP_STAGING.ONCHIP, PIP_WITHHOLD.MODE, PIP_WITHHOLD.ACTIVE, PIP_LOST.COUNT, PIP_LATE.COUNT, PIP_ERR.ROUTE, PIP_ERR.STAGE, PIP_ERR.RETRY_LONG, PIP_ERR.TMO_SHORT, PIP_ERR.RANGE, PIP_ERR_INFO.OFFSET, PIP_TAG_QUERY.INDEX, PIP_TAG_INFO.STATE, PIP_TAG_INFO.STAGE, PIP_TAG_INFO.GEN, PIP_TAG_INFO.TENANT, PIP_TAG_INFO.STATUS, PIP_TAG_LEDGER.LEDGER, PIP_SEL.TENANT]
def tab_pip_1 : List Fld := [PIP_T_OK.COUNT, PIP_T_AUTH.COUNT, PIP_T_REPLAY.COUNT, PIP_T_IMPL.COUNT, PIP_T_NOCRED.COUNT, PIP_T_TMO.COUNT, PIP_T_CANCEL.COUNT, PIP_T_OTHER.COUNT, PIP_T_KEYMISS.COUNT, PIP_T_UNSUPP.COUNT, PIP_T_FIELDDROP.COUNT, PIP_T_REPOST.COUNT, PIP_T_CLR.CLEAR]
/-- The fields of block PIP in table order. -/
def tab_pip : List Fld := tab_pip_0 ++ tab_pip_1
def tab_ldg_0 : List Fld := [LDG_CFG.CAL_VALID, LDG_CFG.BLOB_VALID, LDG_CFG.AREA_VALID, LDG_COUNT.COUNT, LDG_BASE_LO.BASE_LO, LDG_BASE_HI.BASE_HI, LDG_BLOB_LO.BASE_LO, LDG_BLOB_HI.BASE_HI, LDG_CAL_LO.BASE_LO, LDG_CAL_HI.BASE_HI, LDG_UTC.TAI_UTC, LDG_TXN_TMO.TMO, LDG_JBUF.QUOTA_SUM, LDG_JBUF.USED, LDG_CACHE_HIT.COUNT, LDG_CACHE_MISS.COUNT, LDG_CACHE_WB.COUNT, LDG_CACHE_MOVE.COUNT, LDG_QUAR_STAT.FULL, LDG_QUAR_STAT.USED, LDG_QUAR_CMD.OP, LDG_QUAR_CMD.LEDGER, LDG_QUAR_RES.BUSY, LDG_QUAR_RES.STATUS, LDG_REBUILD.BUSY, LDG_REBUILD.TENANT, LDG_REBUILD_TIME.MS, LDG_PP_WATCH.FULL, LDG_PP_WATCH.USED, LDG_WATCH_LO.BASE_LO, LDG_WATCH_HI.BASE_HI, LDG_CAL_CMD.OP, LDG_CAL_CMD.CAL, LDG_CAL_RES.REASON, LDG_CAL_RES.STATUS, LDG_ERR.BUSY, LDG_ERR.TRIG, LDG_ERR.RECORD, LDG_ERR.QUAR_FULL, LDG_ERR.SINK_CFG]
def tab_ldg_1 : List Fld := [LDG_ERR.AREA, LDG_ERR.RANGE, LDG_ERR_INFO.OFFSET, LDG_SEL.TENANT, LDG_T_SINK.JPART, LDG_T_SINK.EN, LDG_T_HRING.VALID, LDG_T_HRING.RING, LDG_T_SINK_STAT.LOST, LDG_T_SINK_STAT.UP, LDG_T_CKPT.PERIOD, LDG_T_CKPT.VALID, LDG_T_CKPT.PART, LDG_T_CKPT_CMD.TAKE, LDG_T_CKPT_STAT.BUSY, LDG_T_CKPT_STAT.LAST_OK, LDG_T_SEQ_LO.SEQ_LO, LDG_T_SEQ_HI.SEQ_HI, LDG_T_ACK_NAND_LO.SEQ_LO, LDG_T_ACK_NAND_HI.SEQ_HI, LDG_T_ACK_PTNR_LO.SEQ_LO, LDG_T_ACK_PTNR_HI.SEQ_HI, LDG_T_ACK_HOST_LO.SEQ_LO, LDG_T_ACK_HOST_HI.SEQ_HI, LDG_T_CKPT_SEQ_LO.S0_LO, LDG_T_CKPT_SEQ_HI.S0_HI, LDG_T_JBUF.USED, LDG_T_JBUF.QUOTA, LDG_T_JACK_TMO.MS, LDG_T_NFLUSH.US, LDG_T_DEFAULT.COUNT, LDG_T_STAT.QUAR_ALL, LDG_T_STAT.REBUILD_WAIT, LDG_T_STAT.REBUILD, LDG_T_CMD.REBUILD_DONE, LDG_T_CMD.RESYNC_HOST, LDG_T_CMD.RESYNC_PTNR, LDG_T_CMD.RESYNC_NAND]
/-- The fields of block LDG in table order. -/
def tab_ldg : List Fld := tab_ldg_0 ++ tab_ldg_1
def tab_bal_0 : List Fld := [BAL_CFG.MET_OWNER, BAL_CFG.MEMB_VALID, BAL_CFG.AREA_VALID, BAL_AREA_LO.BASE_LO, BAL_AREA_HI.BASE_HI, BAL_MEMB_LO.BASE_LO, BAL_MEMB_HI.BASE_HI, BAL_NOMV.VOLTS, BAL_MISALIGN.MIS_PCT, BAL_MISALIGN.CLK, BAL_MISS.MISS_UNC, BAL_MISS.MISS_MAX, BAL_ACC.HALF, BAL_MET_CTRL.ENABLE, BAL_MET_STAT.OVER, BAL_MET_STAT.GEN, BAL_MET_STAT.COHERENT, BAL_MET_STAT.ENABLE_LATCHED, BAL_MET_STAT.STATE, BAL_SKIP.COUNT, BAL_DROP.COUNT, BAL_INTERP.COUNT, BAL_TH_DROP.COUNT, BAL_PH_AMBIG.COUNT, BAL_ERR.CM, BAL_ERR.TRIG, BAL_ERR.TREE, BAL_ERR.ROLE, BAL_ERR.BUSY, BAL_ERR.AREA, BAL_ERR.MARK_WR, BAL_ERR.RANGE, BAL_ERR_INFO.OFFSET, BAL_VRMS.MV, BAL_IRMS.MA, BAL_P.W, BAL_Q.VAR, BAL_EAI.LO, BAL_EAI.HI, BAL_EAE.LO]
def tab_bal_1 : List Fld := [BAL_EAE.HI, BAL_ERI.LO, BAL_ERI.HI, BAL_ERE.LO, BAL_ERE.HI, BAL_N_VRMS.MV, BAL_N_IRMS.MA, BAL_CAL_GAIN.GAIN, BAL_CAL_OFS.OFS, BAL_CAL_PH.INTEG, BAL_CAL_PH.PGA, BAL_CAL_PH.PHASE, BAL_CAL_FS.FS, BAL_WS_CTRL.EN, BAL_WS_LEN.CYCLES, BAL_WS_EVAL.S, BAL_WS_SEQ.SEQ, BAL_WS_BCYC_LO.CYC_LO, BAL_WS_BCYC_HI.CYC_HI, BAL_WS_BUTC.SEC_LO, BAL_WS_BFLAGS.MS, BAL_WS_BFLAGS.DEGRADED, BAL_WS_BFLAGS.LATE_BOUND, BAL_CM_CFG.PHASE_REQ, BAL_CM_CFG.GAP, BAL_CM_CFG.EN, BAL_CM_CFG.WS, BAL_CM_STAT.SKIPPED, BAL_CM_STAT.SENT, BAL_TH_CFG.THOSA_ID, BAL_MARK_ID.ID, BAL_MARK_CYC.CYC_HI, BAL_MARK_UTC.SEC, BAL_MARK_ST.UTC_HI, BAL_MARK_ST.WS, BAL_MARK_ST.STATE, BAL_PH_CFG.N_AGREE, BAL_PH_CFG.TOL, BAL_TAMP_CFG0.REV_CYC, BAL_TAMP_CFG0.REV_MIN]
def tab_bal_2 : List Fld := [BAL_TAMP_CFG0.EXPORT_OK, BAL_TAMP_CFG1.BYP_CYC, BAL_TAMP_CFG1.BYP_MIN, BAL_TAMP_CFG2.NEU_CYC, BAL_TAMP_CFG2.NEU_MAX, BAL_TAMP_STAT.ACTIVE, BAL_TAMP_LATCH.SEEN, BAL_MEMB_IDX.LEDGER, BAL_MEMB_VAL.STATE, BAL_MEMB_VAL.FLAGS, BAL_SEL.NODE, BAL_N_CTRL.ENABLE, BAL_N_STAT.ALARM, BAL_N_STAT.GEN, BAL_N_STAT.RES_LOST, BAL_N_STAT.ENABLE_LATCHED, BAL_N_STAT.STATE, BAL_N_CFG.PARENT_VALID, BAL_N_CFG.WS, BAL_N_CFG.REF_TYPE, BAL_N_CFG.REF_PHASE, BAL_N_CFG.PARENT, BAL_N_REF.LEDGER, BAL_N_TL_P0.TL_UNC, BAL_N_TL_P0.P0, BAL_N_TL_PCU.PCU, BAL_N_TL_PR.PRATED, BAL_N_ALARM.REF_ACC, BAL_N_ALARM.N_CLR, BAL_N_ALARM.N_WIN, BAL_N_ALARM.K10, BAL_N_LOSSMIN.MIN, BAL_N_RING.VALID, BAL_N_RING.RING, BAL_N_MEMB.COUNT, BAL_N_RUN.RUNS, BAL_N_LATE_E.E, BAL_N_PL.L, BAL_N_PU.U, BAL_N_SEQ.SEQ]
/-- The fields of block BAL in table order. -/
def tab_bal : List Fld := tab_bal_0 ++ tab_bal_1 ++ tab_bal_2
def tab_scb_0 : List Fld := [SCB_INFO.CLUSTERS, SCB_INFO.CORES, SCB_INFO.CONTEXTS, SCB_INFO.TASKS, SCB_CFG.RUN_MAX, SCB_POOL.USED, SCB_POOL_EXH.COUNT, SCB_LOAD0.RUN, SCB_LOAD1.RUN, SCB_BANK_IDX.BANK, SCB_BANK_CTRL.STATE, SCB_BANK_CTRL.SHARED, SCB_BANK_CTRL.OWNER, SCB_BANK_BASE.BASE, SCB_BANK_LEN.LEN, SCB_BANK_CHECK.CRC, SCB_BANK_CMD.OP, SCB_BANK_STAT.GEN, SCB_BANK_STAT.USERS, SCB_PAGE_IDX.PAGE, SCB_ERR.BUSY, SCB_ERR.ENABLE, SCB_ERR.QUOTA, SCB_ERR.WINDOW, SCB_ERR.OVERLAP, SCB_ERR.CHECK, SCB_ERR.BANK_BUSY, SCB_ERR.RANGE, SCB_ERR_INFO.OFFSET, SCB_SEL.TASK, TSK_CTRL.ENABLE, TSK_STAT.FAULT, TSK_STAT.GEN, TSK_STAT.RUNNING, TSK_STAT.READY, TSK_STAT.ENABLE_LATCHED, TSK_STAT.STATE, TSK_CFG.PRIO, TSK_CFG.CLUSTERS, TSK_CFG.BANK]
def tab_scb_1 : List Fld := [TSK_CFG.MULTI, TSK_DATA.PAGES, TSK_DATA.BASE, TSK_XWIN_LO.BASE_LO, TSK_XWIN_HI.BASE_HI, TSK_XWIN_SIZE.PAGES, TSK_ENTRY.E0, TSK_ENTRY.E1, TSK_ENTRY.E2, TSK_ENTRY.E3, TSK_ENTRY.E4, TSK_ENTRY.E5, TSK_ENTRY.E6, TSK_ENTRY.E7, TSK_IN_CFG.MODE, TSK_IN_CFG.EN, TSK_IN.OVERFLOW, TSK_IN.COUNT, TSK_DISCARD.COUNT, TSK_FAULT_PC.PC, TSK_CYC_LO.CYC_LO, TSK_CYC_HI.CYC_HI, TSK_CMD.CLR]
/-- The fields of block SCB in table order. -/
def tab_scb : List Fld := tab_scb_0 ++ tab_scb_1
def tab_prm_0 : List Fld := [PRM_INFO.LOCK_GROUPS, PRM_INFO.TABLES, PRM_INFO.QUEUES, PRM_QPOOL.USED, PRM_TPOOL.USED, PRM_LOCK_QUERY.LOCK, PRM_LOCK_INFO.STATE, PRM_LOCK_INFO.KIND, PRM_LOCK_INFO.HOST, PRM_LOCK_INFO.TENANT, PRM_LOCK_INFO.WAITERS, PRM_LOCK_OWNER.CONTEXT, PRM_LOCK_OWNER.TASK, PRM_ERR.POOL, PRM_ERR.OVERLAP, PRM_ERR.BUSY, PRM_ERR.RANGE, PRM_ERR_INFO.OFFSET, PRM_SEL.KIND, PRM_SEL.INDEX, Q_CTRL.ENABLE, Q_STAT.GEN, Q_STAT.ENABLE_LATCHED, Q_STAT.STATE, Q_CFG.OWNER, Q_CFG.DEPTH_LOG2, Q_CFG.BATCH, Q_BASE.BASE, Q_ENDP.CONS_KIND, Q_ENDP.CONS_PORT, Q_ENDP.PROD_KIND, Q_ENDP.PROD_PORT, Q_STRAND.NS, Q_LEVEL.HIGH, Q_LEVEL.LEVEL, Q_PUSH_REF.COUNT, Q_CMD.CLR_HIGH, Q_CMD.FLUSH, T_CTRL.ENABLE, T_STAT.GEN]
def tab_prm_1 : List Fld := [T_STAT.ENABLE_LATCHED, T_STAT.STATE, T_CFG.OWNER, T_CFG.KEY16, T_CFG.OLDEST, T_CFG.SETS_LOG2, T_BASE.BASE, T_SWEEP.S, T_COUNT.STATIC, T_COUNT.VALID, T_EVICT.COUNT, T_AGED.COUNT, T_MOVES.COUNT, T_PARITY.COUNT, T_EVKEY.KEY, T_CMD.SWEEP_NOW, T_CMD.CLR, T_CMD.SCRUB_BAD, L_CTRL.ENABLE, L_STAT.GEN, L_STAT.HELD, L_STAT.ENABLE_LATCHED, L_STAT.STATE, L_CFG.OWNER, L_BROKEN.COUNT]
/-- The fields of block PRM in table order. -/
def tab_prm : List Fld := tab_prm_0 ++ tab_prm_1
def tab_db_0 : List Fld := [DB_SQ_TAIL.TAIL, DB_HEAD.HEAD, DB_FETCH.HEAD, DB_STAT.GEN, DB_STAT.STATE]
/-- The fields of block DB in table order. -/
def tab_db : List Fld := tab_db_0
def tab_rng_0 : List Fld := [RNG_INFO.RINGS, RNG_INFO.BIFURCATED, RNG_INFO.HOSTS, RNG_SUPV.WAIT, RNG_SUPV.ALT_VALID, RNG_SUPV.ALT, RNG_SUPV.PRIMARY, RNG_MRT.ETYPE, RNG_MRT.MTU, RNG_MRT_TMO.KEEPALIVE, RNG_MRT_TMO.RETRIES, RNG_MRT_TMO.RTO, RNG_MRT_BUF_LO.BASE_LO, RNG_MRT_BUF_HI.BASE_HI, RNG_SHP_LO.BASE_LO, RNG_SHP_HI.BASE_HI, RNG_SHP_SIZE.PAGES, RNG_SHP_CFG.QUAD, RNG_SHP_CFG.TMO, RNG_ERR.FETCH, RNG_ERR.DB_PROT, RNG_ERR.DB_RANGE, RNG_ERR.HOST, RNG_ERR.ENABLE, RNG_ERR.BUSY, RNG_ERR.RANGE, RNG_ERR_INFO.HOST, RNG_ERR_INFO.RING, RNG_ERR_OFS.OFFSET, RNG_SEL.KIND, RNG_SEL.INDEX, RNG_R_CTRL.ENABLE, RNG_R_STAT.GEN, RNG_R_STAT.PHASE, RNG_R_STAT.FETCH_ERR, RNG_R_STAT.WAIT_CQ, RNG_R_STAT.ENABLE_LATCHED, RNG_R_STAT.STATE, RNG_R_CFG.SIZE_LOG2, RNG_R_CFG.ESIZE_LOG2]
def tab_rng_1 : List Fld := [RNG_R_CFG.HOST, RNG_R_CFG.PRIO, RNG_R_CFG.TYPE, RNG_R_BASE_LO.BASE_LO, RNG_R_BASE_HI.BASE_HI, RNG_R_CQ_LO.CQ_LO, RNG_R_CQ_HI.CQ_HI, RNG_R_TASK.VALID, RNG_R_TASK.CMDA_LOG2, RNG_R_TASK.CMDA, RNG_R_TASK.TASK, RNG_R_IRQ.EN, RNG_R_IRQ.COAL_US, RNG_R_IRQ.COAL_N, RNG_R_IRQ.VECTOR, RNG_R_SQ.TAIL, RNG_R_SQ.HEAD, RNG_R_CQ.HEAD, RNG_R_CQ.TAIL, RNG_R_OUT.COUNT, RNG_R_DONE.COUNT, RNG_R_DROP.COUNT, RNG_R_CMD.CLR, RNG_H_CTRL.ALLOW, RNG_H_STAT.DOWNS, RNG_H_STAT.TYPE, RNG_H_STAT.SUPV, RNG_H_STAT.UP, RNG_H_WT0.WT2, RNG_H_WT0.WT3, RNG_H_WT0.WT4, RNG_H_WT0.WT5, RNG_H_WT1.WT6, RNG_H_WT1.WT7, RNG_H_FETCHED.COUNT, RNG_H_LOSTCPL.COUNT, RNG_H_DBPROT.COUNT, RNG_H_MRT_CFG.VLAN, RNG_H_MRT_CFG.VLAN_EN, RNG_H_MRT_CFG.PORTS]
def tab_rng_2 : List Fld := [RNG_H_MRT_CFG.KEY_SLOT, RNG_H_MAC_LO.MAC_LO, RNG_H_MAC_HI.MAC_HI, RNG_H_SESSION.SESSION, RNG_H_RX_DUP.COUNT, RNG_H_RX_OOW.COUNT, RNG_H_RX_AUTH.COUNT, RNG_H_TX_RETX.COUNT, RNG_H_RX_HELD.FRAMES]
/-- The fields of block RNG in table order. -/
def tab_rng : List Fld := tab_rng_0 ++ tab_rng_1 ++ tab_rng_2
def tab_evt_0 : List Fld := [EVT_INFO.SOURCES, EVT_NOOWN.COUNT, EVT_NOROUTE.COUNT, EVT_ERR.ROUTE, EVT_ERR.RANGE, EVT_ERR_INFO.SOURCE, EVT_SEL.SOURCE, EVT_S_CNT.COUNT, EVT_S_DROP.COUNT, EVT_S_CMD.CLR]
/-- The fields of block EVT in table order. -/
def tab_evt : List Fld := tab_evt_0
def tab_plc_0 : List Fld := [PLC_INFO.NODES, PLC_INFO.LANES, PLC_PAN.SHORT, PLC_PAN.PAN_ID, PLC_COMB.WIN, PLC_COMB.MASK, PLC_KEY0.VALID, PLC_KEY0.TX_SLOT, PLC_KEY0.RX_SLOT, PLC_KEY1.VALID, PLC_KEY1.TX_SLOT, PLC_KEY1.RX_SLOT, PLC_KEY_TX.IDX, PLC_FP.PORT, PLC_SLOW_LO.BASE_LO, PLC_SLOW_HI.BASE_HI, PLC_CHIP_BUDGET.DEPTH, PLC_CHIP_BUDGET.RATE, PLC_CHIP_TOKENS.UJ, PLC_CHIP_EJ.MJ, PLC_NT_STAT.REPAIR, PLC_NT_STAT.VALID, PLC_NODE_IDX.NODE, PLC_NODE_D.DATA, PLC_NODE_RX0.FRAME_CNT, PLC_NODE_RX1.DUP_AGE, PLC_NODE_RX1.DSN1, PLC_NODE_RX1.DSN0, PLC_NODE_CMD.OP, PLC_NODE_RES.STATUS, PLC_ERR.KEY, PLC_ERR.NODE, PLC_ERR.COMB, PLC_ERR.ROLE, PLC_ERR.BUSY, PLC_ERR.RANGE, PLC_ERR_INFO.OFFSET, LANE_SEL.LANE, PLC_L_CTRL.ENABLE, PLC_L_STAT.GEN]
def tab_plc_1 : List Fld := [PLC_L_STAT.RXSTATE, PLC_L_STAT.TX_ON, PLC_L_STAT.COMBINED, PLC_L_STAT.ENABLE_LATCHED, PLC_L_STAT.STATE, PLC_L_CFG.MUTE, PLC_L_CFG.BAND, PLC_L_TMASK0.MASK, PLC_L_TMASK1.MASK, PLC_L_TMASK2.MASK, PLC_L_AFE.AGC, PLC_L_AFE.PGA, PLC_L_BLANK.K, PLC_L_BLANK.GUARD, PLC_L_BLANK.MAX, PLC_L_BLANK.EN, PLC_L_CAP.MARGIN, PLC_L_TM.TTL, PLC_L_TM.REFRESH, PLC_L_MODE.DUAL_GAP, PLC_L_MODE.PAIR_WAIT, PLC_L_MODE.BCAST, PLC_L_MODE.FAIL_SROBO, PLC_L_MODE.FAIL_ROBO, PLC_L_TMSNR.D8PSK, PLC_L_TMSNR.DQPSK, PLC_L_TMSNR.DBPSK, PLC_L_TMSNR.MARGIN, PLC_L_TMSNR.MIN_GROUPS, PLC_L_MAC.ACK_TMO, PLC_L_MAC.MAX_ATT, PLC_L_MAC.BE_MIN, PLC_L_MAC.BE_MAX, PLC_L_MAC.TMR_DELAY, PLC_L_DUPWIN.WIN, PLC_L_BCN.PHASE, PLC_L_BCN.JITTER, PLC_L_BCN.WIN, PLC_L_LEVEL.MAX, PLC_L_LEVEL.CPL_LOSS]
def tab_plc_2 : List Fld := [PLC_L_LEVEL.TRIM, PLC_L_PWR0.MW, PLC_L_BUDGET.DEPTH, PLC_L_BUDGET.RATE, PLC_L_TOKENS.UJ, PLC_L_BWAIT.MS, PLC_L_EJ.MJ, PLC_L_RXOK.COUNT, PLC_L_SINGLE.COUNT, PLC_L_CRCERR.COUNT, PLC_L_DUP.COUNT, PLC_L_CAPLOST.COUNT, PLC_L_CAPIGN.COUNT, PLC_L_ERASED.COUNT, PLC_L_SECFAIL.COUNT, PLC_L_RXPREEMPT.COUNT, PLC_L_TXOK.COUNT, PLC_L_TXFAIL.COUNT, PLC_L_CM1.COUNT, PLC_L_CM2.COUNT, PLC_L_CMMISS.COUNT, PLC_L_BCNSENT.COUNT, PLC_L_BCNMISS.COUNT, PLC_L_LVLTRIP.COUNT, PLC_L_DRAINDROP.COUNT, PLC_L_ERR.CFG, PLC_L_ERR.LEVEL, PLC_L_ERR.TRIG, PLC_L_CMD.CLR_TRIM, PLC_L_CMD.CLR]
/-- The fields of block PLC in table order. -/
def tab_plc : List Fld := tab_plc_0 ++ tab_plc_1 ++ tab_plc_2
def tab_rfm_0 : List Fld := [RFM_INFO.CONNS, RFM_INFO.RADIOS, RFM_PAN.SHORT, RFM_PAN.PAN_ID, RFM_KEY0.VALID, RFM_KEY0.TX_SLOT, RFM_KEY0.RX_SLOT, RFM_KEY1.VALID, RFM_KEY1.TX_SLOT, RFM_KEY1.RX_SLOT, RFM_KEY_TX.IDX, RFM_FP.CI, RFM_FP.PORT, RFM_SLOW_LO.BASE_LO, RFM_SLOW_HI.BASE_HI, RFM_CONN_LO.BASE_LO, RFM_CONN_HI.BASE_HI, RFM_RPL_LO.BASE_LO, RFM_RPL_HI.BASE_HI, RFM_CSM_AA.AA, RFM_CONN_IDX.CONN, RFM_CONN_INFO.STATE, RFM_CONN_INFO.RADIO, RFM_CONN_INFO.LEARNED, RFM_CONN_INFO.NODE, RFM_CONN_EVT.MISSED, RFM_CONN_EVT.EVENT, RFM_CONN_DRIFT.D, RFM_ERR.KEY, RFM_ERR.AREA, RFM_ERR.ROLE, RFM_ERR.BUSY, RFM_ERR.RANGE, RFM_ERR_INFO.OFFSET, RFM_SEL.RADIO, RFM_R_CTRL.ENABLE, RFM_R_STAT.GEN, RFM_R_STAT.RXSTATE, RFM_R_STAT.TX_ON, RFM_R_STAT.ENABLE_LATCHED]
def tab_rfm_1 : List Fld := [RFM_R_STAT.STATE, RFM_R_CFG.CSM_EN, RFM_R_CFG.PERS, RFM_R_CFG.RATE, RFM_R_CFG.OPT, RFM_R_CFG.MCS, RFM_R_CFG.FEC, RFM_R_CFG.FCS4, RFM_R_CFG.EXT_PA, RFM_R_CFG.ANT, RFM_R_CH0.HZ, RFM_R_CHSP.NCH, RFM_R_CHSP.HZ, RFM_R_LISTEN.ADV2, RFM_R_LISTEN.ADV1, RFM_R_LISTEN.ADV0, RFM_R_LISTEN.CH, RFM_R_PA.LEAD, RFM_R_PA.LAG, RFM_R_PA.GAIN, RFM_R_TXPWR.MAX, RFM_R_CAP.MARGIN, RFM_R_MAC.ACK_TMO, RFM_R_MAC.MAX_ATT, RFM_R_MAC.BE_MIN, RFM_R_MAC.BE_MAX, RFM_R_DUPWIN.WIN, RFM_R_WMB.HOLD, RFM_R_WMB.RESP_DELAY, RFM_R_CSM.T_IFS, RFM_R_CSM.CE_MAX, RFM_R_DRIFT.LOCAL_PPM, RFM_R_DRIFT.DRIFT_RES, RFM_R_DRIFT.DRIFT_MAX, RFM_R_DRIFT.LEARN_N, RFM_R_DRIFT.LEARN_SHIFT, RFM_R_WIN.JIT, RFM_R_WIN.T_SET, RFM_R_WIN.OCC_MAX, RFM_R_OCC.CONNS]
def tab_rfm_2 : List Fld := [RFM_R_OCC.OCC, RFM_R_PWR0.MW, RFM_R_BUDGET.DEPTH, RFM_R_BUDGET.RATE, RFM_R_TOKENS.UJ, RFM_R_DUTY.DUTY, RFM_R_AIRTOK.US, RFM_R_BWAIT.MS, RFM_R_EJ.MJ, RFM_R_RXOK.COUNT, RFM_R_CRCERR.COUNT, RFM_R_DUP.COUNT, RFM_R_REPLAY.COUNT, RFM_R_CAPLOST.COUNT, RFM_R_CAPIGN.COUNT, RFM_R_SECFAIL.COUNT, RFM_R_TXOK.COUNT, RFM_R_TXFAIL.COUNT, RFM_R_WINOK.COUNT, RFM_R_WINMISS.COUNT, RFM_R_WINCONF.COUNT, RFM_R_CONNLOST.COUNT, RFM_R_DRAINDROP.COUNT, RFM_R_ERR.CFG, RFM_R_ERR.CONN, RFM_R_CMD.CLR]
/-- The fields of block RFM in table order. -/
def tab_rfm : List Fld := tab_rfm_0 ++ tab_rfm_1 ++ tab_rfm_2
def tab_kv_0 : List Fld := [KV_INFO.CACHE, KV_INFO.SLOTS, KV_STAT.ROLLBACK_UNCHECKED, KV_STAT.ROLLBACK, KV_STAT.KILLED, KV_STAT.TRNG_OK, KV_STAT.LOCKED, KV_STAT.BLOCKED, KV_STAT.READY, KV_DEV_ID_LO.ID_LO, KV_DEV_ID_HI.ID_HI, KV_ZCOUNT.COUNT, KV_ZEROIZE.CONFIRM, KV_ECDH_CNT_LO.CNT_LO, KV_ECDH_CNT_HI.CNT_HI, KV_POOL.OLDGEN, KV_POOL.PINS, KV_SEAL.SEQ, KV_TRNG.FAILS, KV_TRNG.APT, KV_TRNG.RCT, KV_DEV_PUB.BYTES, KV_FUSE_STAT.CLEAN, KV_FUSE_STAT.RESTRICT, KV_FUSE_STAT.BAND, KV_FUSE_STAT.DOUBT_CNT, KV_FUSE_AGE.S, KV_FUSE_ADDR.WORD, KV_FUSE_DATA.DATA, KV_FUSE_WSTAT.DOUBT, KV_FUSE_WSTAT.AGREE, KV_FUSE_CMD.CONFIRM, KV_FUSE_CMD.OP, KV_FUSE_RES.BUSY, KV_FUSE_RES.STATUS, KV_PROV_STAT.LOCKED, KV_PROV_STAT.ROOT_READY, KV_PROV_STAT.ACTIVE, KV_PROV_CMD.CONFIRM, KV_PROV_CMD.LOCK]
def tab_kv_1 : List Fld := [KV_ERR.SEAL, KV_ERR.TRNG, KV_ERR.FUSE, KV_ERR.CMD, KV_ERR.MODE, KV_ERR.RANGE, KV_ERR_INFO.OFFSET, SLOT_SEL.SLOT, KV_S_INFO.GEN, KV_S_INFO.PINS, KV_S_INFO.TYPE, KV_S_INFO.ATTR, KV_S_INFO.AK_LEN, KV_S_INFO.STATE, KV_S_CNT_LO.CNT_LO, KV_S_CNT_HI.CNT_HI, KV_S_KCV.KCV, KV_S_OLD.GENS, KV_S_OLD.PINS, KV_S_CMD.ERASE, KV_S_RES.BUSY, KV_S_RES.STATUS]
/-- The fields of block KV in table order. -/
def tab_kv : List Fld := tab_kv_0 ++ tab_kv_1
def tab_upd_0 : List Fld := [UPD_INFO.BANK_KIB, UPD_INFO.CAMPAIGNS, UPD_BANK_A.BOOT_TRIES, UPD_BANK_A.STATE, UPD_BANK_B.BOOT_TRIES, UPD_BANK_B.STATE, UPD_RUN.BANK, UPD_SET_VER.VER, UPD_SET_ID_LO.ID_LO, UPD_SET_ID_HI.ID_HI, UPD_LEDGER_ABI.ABI, UPD_SEC_FLOOR.FLOOR, UPD_CFG.CONFIRM_S, UPD_CFG.ACT_TMO, UPD_STAGE_CMD.CONFIRM, UPD_STAGE_CMD.BANK, UPD_STAGE_CMD.OP, UPD_STAGE_OFS.SECTOR, UPD_STAGE_RES.BUSY, UPD_STAGE_RES.BLOCK, UPD_STAGE_RES.REASON, UPD_STAGE_RES.STATUS, UPD_STAGE_CRC.CRC, UPD_ACT_PROG.DONE, UPD_ACT_PROG.TOTAL, UPD_TRIAL_S.S, UPD_MAP_LO.BASE_LO, UPD_MAP_HI.BASE_HI, UPD_ERR.TRIG, UPD_ERR.MODE, UPD_ERR.BUSY, UPD_ERR.CMD, UPD_ERR.RANGE, UPD_ERR_INFO.OFFSET, UPD_SEL.CAMP, UPD_C_STAT.TENANT, UPD_C_STAT.PART, UPD_C_STAT.STATE, UPD_C_IMAGE.ID, UPD_C_BLOCKS.MISSING]
def tab_upd_1 : List Fld := [UPD_C_BLOCKS.COUNT, UPD_C_SENT.COUNT, UPD_C_TGT_LO.CYC_LO, UPD_C_TGT_HI.CYC_HI]
/-- The fields of block UPD in table order. -/
def tab_upd : List Fld := tab_upd_0 ++ tab_upd_1
def tab_sto_0 : List Fld := [STO_INFO.DIES, STO_INFO.PARTITIONS, STO_QSPI.MBIT, STO_QSPI.SUSPEND, STO_QSPI.MODE, STO_QCMD.CONFIRM, STO_QCMD.OP, STO_QADDR.ADDR, STO_QLEN.LEN, STO_QRES.BUSY, STO_QRES.STATUS, STO_CFG_STAT.LOADED, STO_CFG_STAT.REFUSED, STO_CFG_STAT.FIRST, STO_NAND_GEOM.PAGE, STO_NAND_GEOM.PPB, STO_NAND_GEOM.BPD, STO_NAND_STAT.STATE, STO_NAND_STAT.SPARE_LOW, STO_NAND_STAT.SPARE, STO_NAND_CMD.CONFIRM, STO_NAND_CMD.FORMAT, STO_NAND_CFG.REFRESH_T, STO_NAND_CFG.MAP_CK, STO_NAND_CFG.WL_DELTA, STO_NAND_CFG.TSENS, STO_NAND_CFG.PSLC, STO_NAND_CFG.ECC_T, STO_NAND_ENDUR.CYCLES, STO_HU_TIME.US, STO_HU_TPROG.US, STO_HU_STAT.FOUND, STO_HU_STAT.PARTIAL, STO_HU_STAT.AREA, STO_MAP_TIME.MS, INK_CFG.FREEZE_MAX, INK_CFG.FLUSH_PCT, INK_CFG.FLUSH_S, INK_STAT.FREEZE, INK_STAT.USED]
def tab_sto_1 : List Fld := [INK_SEQ.SEQ, INK_DROP.COUNT, INK_SUPP.COUNT, INK_CMD.POST, INK_CMD.RELEASE, INK_CMD.FREEZE, INK_SNAP_CMD.TAKE, INK_SNAP_OLD.SEQ, INK_SNAP_NEW.SEQ, INK_RD_SEQ.SEQ, INK_RD_RES.BUSY, INK_RD_RES.STATUS, STO_ERR.QSPI, STO_ERR.CMD, STO_ERR.BUSY, STO_ERR.RANGE, STO_ERR_INFO.OFFSET, STO_SEL.KIND, STO_SEL.INDEX, P_CFG.VALID, P_CFG.KIND, P_CFG.WRAP, P_CFG.LOG, P_CFG.DIES, P_SIZE.BLOCKS, P_USED.BLOCKS, P_STAT.SCRUB, P_STAT.FULL, P_HEAD_LO.POS_LO, P_HEAD_HI.POS_HI, P_TAIL_LO.POS_LO, P_TAIL_HI.POS_HI, P_MERGES.COUNT, P_WRITTEN.MIB, D_BLOCKS.RETIRED, D_BLOCKS.FACTORY_BAD, D_SPARE.RESERVE, D_SPARE.FREE, D_ERASE.MAX, D_ERASE.MEAN]
def tab_sto_2 : List Fld := [D_ECC.MAX_BITS, D_UNCORR.COUNT, D_FAIL.PROGRAM, D_FAIL.ERASE, D_PROJ.DAYS, D_TEMP.S]
/-- The fields of block STO in table order. -/
def tab_sto : List Fld := tab_sto_0 ++ tab_sto_1 ++ tab_sto_2
def tab_res_0 : List Fld := [RES_PAIR_CFG.HB_MISS, RES_PAIR_CFG.LISTEN_MS, RES_PAIR_CFG.UNIT, RES_PAIR_CFG.EN, RES_PAIR_KEY.SLOT, RES_PAIR_STAT.TAKEOVERS, RES_PAIR_STAT.PARTNER_STATE, RES_PAIR_STAT.PARTNER_MODE, RES_PAIR_STAT.CLAIM_IN, RES_PAIR_STAT.CLAIM_OUT, RES_PAIR_STAT.GRANT, RES_PAIR_STAT.LINK, RES_PAIR_STAT.STATE, RES_CLAIM_CMD.CONFIRM, RES_CLAIM_CMD.TAKE, RES_CLAIM_CMD.RELEASE, RES_SYNC.STATE, RES_SYNC.TENANT, RES_SYNC.SYNCED, RES_SYNC_MIB.MIB, RES_HU_CFG.EN, RES_HU_CFG.V_PF, RES_HU_CFG.V_MIN, RES_HU_CAP.C_NOM, RES_HU_CAP.DERATE, RES_HU_CAP.C_MIN_PCT, RES_HU_PWR.P_HU, RES_HU_PWR.ETA, RES_HU_PWR.T_ENTRY, RES_HU_GUARD.GUARD, RES_HU_GUARD.HYST, RES_HU_TEST.PERIOD_H, RES_HU_TEST.DV, RES_HU_TEST.T_MAX, RES_HU_CMD.TEST, RES_V_NOW.V, RES_P_NOW.MW, RES_C_MEAS.VALID, RES_C_MEAS.C, RES_E_AVAIL.UJ]
def tab_res_1 : List Fld := [RES_E_COST.UJ, RES_HU_BYTES.BYTES, RES_HU_STAT.COUNT, RES_HU_STAT.EARLY, RES_HU_STAT.TESTING, RES_HU_STAT.UNCOVERED, RES_HU_STAT.WITHHOLD, RES_ERR.ABI, RES_ERR.CONFLICT, RES_ERR.UNSYNCED, RES_ERR.CAP, RES_ERR.KEY, RES_ERR.CMD, RES_ERR.RANGE, RES_ERR_INFO.OFFSET]
/-- The fields of block RES in table order. -/
def tab_res : List Fld := tab_res_0 ++ tab_res_1
def tab_eth_0 : List Fld := [ETH_INFO.PORTS, ETH_CFG.MODE, ETH_MAC_LO.MAC_LO, ETH_MAC_HI.MAC_HI, ETH_PTP_CFG.DOMAIN, ETH_PTP_CFG.LOG_REQ, ETH_PTP_CFG.PROFILE, ETH_PTP_CFG.TC_EN, ETH_PTP_LO.BASE_LO, ETH_PTP_HI.BASE_HI, ETH_PRP_CFG.LIFE_MS, ETH_PRP_CFG.ENTRY_MS, ETH_PRP_NODE.FORGET_S, ETH_PRP_NODE.NODES, ETH_PRP_DUP.COUNT, ETH_PRP_WRONG.COUNT, ETH_PRP_NOROOM.COUNT, ETH_FDB_CFG.SWEEP_S, ETH_FDB_CFG.ENTRIES, ETH_FDB_KEY_LO.MAC_LO, ETH_FDB_KEY_HI.VLAN, ETH_FDB_KEY_HI.MAC_HI, ETH_FDB_VAL.PORTS, ETH_FDB_CMD.OP, ETH_FDB_RES.STATIC, ETH_FDB_RES.HIT, ETH_FDB_RES.STATUS, ETH_ERR.FDB, ETH_ERR.MODE, ETH_ERR.BUSY, ETH_ERR.RANGE, ETH_ERR_INFO.OFFSET, ETH_SEL.PORT, ETH_P_CTRL.ENABLE, ETH_P_STAT.GEN, ETH_P_STAT.SPEED_NOW, ETH_P_STAT.LINK, ETH_P_STAT.ENABLE_LATCHED, ETH_P_STAT.STATE, ETH_P_CFG.SPEED]
def tab_eth_1 : List Fld := [ETH_P_CFG.AN, ETH_P_CFG.GT, ETH_P_CFG.PTP_EN, ETH_P_LAT.RX, ETH_P_LAT.TX, ETH_P_RXOK.COUNT, ETH_P_RXERR.COUNT, ETH_P_RXDROP.COUNT, ETH_P_TXOK.COUNT, ETH_P_PAUSE.COUNT, ETH_P_PTP.COUNT, ETH_P_CMD.CLR]
/-- The fields of block ETH in table order. -/
def tab_eth : List Fld := tab_eth_0 ++ tab_eth_1
def tab_saf_0 : List Fld := [SAF_INFO.FUNCS, SAF_INFO.OUTPUTS, SAF_INFO.INPUTS, SAF_CMD.CONFIRM, SAF_CMD.RESTART, SAF_CMD.RESET, SAF_CMD.ARM, SAF_STAT.DEMAND, SAF_STAT.LATCHED, SAF_STAT.FAULT, SAF_STAT.KILL, SAF_STAT.STATE, SAF_CFG_CRC.CRC, SAF_TIMING.FILTER, SAF_TIMING.TP_WIDTH, SAF_DEG.LEFT, SAF_DEG.DEG_MAX, SAF_IN_CFG.DISC, SAF_IN_CFG.MODE, SAF_IN_CFG.TPSRC, SAF_IN_CFG.EN, SAF_OUT_CFG.OP_PERIOD, SAF_OUT_CFG.OP_WIDTH, SAF_OUT_CFG.EN, SAF_FN.RESTART, SAF_FN.OUT, SAF_FN.IN, SAF_FN.EN, SAF_OUT_REQ.REQ, SAF_IO_STAT.RB, SAF_IO_STAT.OUT, SAF_IO_STAT.FORCED, SAF_IO_STAT.DEMAND, SAF_RESP.US, SAF_TAMP_CFG.MESH, SAF_TAMP_CFG.LOOP, SAF_TAMP_STAT.CAUSE, SAF_ERR.CRC, SAF_ERR.CMD, SAF_ERR.BUSY]
def tab_saf_1 : List Fld := [SAF_ERR.RANGE, SAF_ERR_INFO.OFFSET]
/-- The fields of block SAF in table order. -/
def tab_saf : List Fld := tab_saf_0 ++ tab_saf_1
def tab_pwr_0 : List Fld := [PWR_MODE_REQ.CONFIRM, PWR_MODE_REQ.OP, PWR_MODE_STAT.CHANGES, PWR_MODE_STAT.RETURN, PWR_FAULT.CAUSE, PWR_DEG.LEFT, PWR_DEG.DEG_MAX, PWR_ISL.EN, PWR_ISL.HOSTS, PWR_ISL.DELAY_S, PWR_RESET.CONFIRM, PWR_RESET.OP, PWR_RST_CAUSE.BOOT_FAILS, PWR_RST_CAUSE.CAUSE, PWR_BOOT.TMO_S, PWR_BOOT.LAST_MS, PWR_RAIL_STAT.WARN, PWR_RAIL_STAT.GOOD, PWR_VSYS.MV, PWR_HVIN.V, PWR_VBAT.LOW, PWR_VBAT.MV, PWR_ILIM.COUNT, PWR_TEMP.T, PWR_TJMAX.SENSOR, PWR_TJMAX.T, PWR_TBAND.CROSSINGS, PWR_TBAND.BAND, PWR_THR_A.TH2, PWR_THR_A.TH1, PWR_THR_A.TH0, PWR_THR_B.TH5, PWR_THR_B.TH4, PWR_THR_B.TH3, PWR_THERM_CFG.THROTTLE_EN, PWR_THERM_CFG.RESTART_S, PWR_THROTTLE.ACTIVE, PWR_ERR.RESUME, PWR_ERR.MODE, PWR_ERR.CMD]
def tab_pwr_1 : List Fld := [PWR_ERR.RANGE, PWR_ERR_INFO.OFFSET]
/-- The fields of block PWR in table order. -/
def tab_pwr : List Fld := tab_pwr_0 ++ tab_pwr_1
def tab_pad_0 : List Fld := [PAD_INFO.GP, PAD_BANK_STAT.G_LEVEL, PAD_BANK_STAT.Q_LEVEL, PAD_BANK_STAT.GOOD, PAD_DRV.N_ZO, PAD_DRV.M_DRV, PAD_DRV.G_DRV, PAD_DRV.Q_DRV, PAD_QSPI.RXDLY, PAD_GP_IN.IN, PAD_GP_OUT.OUT, PAD_GP_OE.OE, PAD_PPS.WIDTH, PAD_ERR.FUNC, PAD_ERR.RANGE, PAD_ERR_INFO.OFFSET, PAD_SEL.GP, PAD_G_CFG.PULL, PAD_G_CFG.FUNC, PAD_G_STAT.DRIVEN, PAD_G_STAT.IN]
/-- The fields of block PAD in table order. -/
def tab_pad : List Fld := tab_pad_0

/-- The fields of a block. -/
def tabOf : Blk → List Fld
  | .chip => tab_chip
  | .ten => tab_ten
  | .mpt => tab_mpt
  | .pip => tab_pip
  | .ldg => tab_ldg
  | .bal => tab_bal
  | .scb => tab_scb
  | .prm => tab_prm
  | .db => tab_db
  | .rng => tab_rng
  | .evt => tab_evt
  | .plc => tab_plc
  | .rfm => tab_rfm
  | .kv => tab_kv
  | .upd => tab_upd
  | .sto => tab_sto
  | .res => tab_res
  | .eth => tab_eth
  | .saf => tab_saf
  | .pwr => tab_pwr
  | .pad => tab_pad
end Sys2Proof.Machine.Reg
end

