-- ==== Sys2Proof/Machine/Ops.lean ====
section
/-! DEFINITION. The named operations every meaning is written over: sparse tables, register fields, bytes, DRAM, the
protection table, rings and hosts. -/
namespace Sys2Proof.Machine
open Reg

/-! ### Sparse tables -/

/-- The entry of key `i`, or the table's default. -/
def tget {α : Type} (d : α) : Tab α → Nat → α
  | [], _ => d
  | (k, v) :: t, i => if k = i then v else tget d t i

/-- Insert at the key's place. -/
def tins {α : Type} : Tab α → Nat → α → Tab α
  | [], i, v => [(i, v)]
  | (k, w) :: t, i, v => if i < k then (i, v) :: (k, w) :: t else if i = k then (i, v) :: t else (k, w) :: tins t i v

/-- Set an entry, keeping the canonical form: an entry equal to the default is not listed. -/
def tput {α : Type} [DecidableEq α] (d : α) (t : Tab α) (i : Nat) (v : α) : Tab α :=
  if v = d then t.filter (fun p => p.1 != i) else tins t i v

/-- The canonical form: keys strictly rising, no entry equal to the default. -/
def tabWf {α : Type} [DecidableEq α] (d : α) : Tab α → Bool
  | [] => true
  | [(_, v)] => v != d
  | (k, v) :: (k', v') :: t => v != d && decide (k < k') && tabWf d ((k', v') :: t)

/-! ### Register fields -/

/-- How many values a field can hold. -/
def Fld.span (f : Fld) : Nat := 2 ^ (f.msb + 1 - f.lsb)

/-- A field of instance `i` (tenant, ring, lane, …; a direct register has instance 0, a per-host register its host). -/
def State.fget (s : State) (f : Fld) (i : Nat := 0) : Nat := tget f.rst (tget [] s.regs f.id) i

/-- Store a field, cut to its width. -/
def State.fset (s : State) (f : Fld) (i : Nat) (v : Nat) : State :=
  { s with regs := tput [] s.regs f.id (tput f.rst (tget [] s.regs f.id) i (v % f.span)) }

/-- Add to a counter that wraps at its width. -/
def State.fadd (s : State) (f : Fld) (i : Nat) (n : Nat := 1) : State := s.fset f i (s.fget f i + n)

/-- Add to a counter that saturates at its width. -/
def State.fsat (s : State) (f : Fld) (i : Nat) (n : Nat := 1) : State := s.fset f i (min (s.fget f i + n) (f.span - 1))

/-- Subtract, not below 0. -/
def State.fsub (s : State) (f : Fld) (i : Nat) (n : Nat := 1) : State := s.fset f i (s.fget f i - n)

/-- A single-bit field as a truth value. -/
def State.fbit (s : State) (f : Fld) (i : Nat := 0) : Bool := s.fget f i != 0

/-- A base of two registers. -/
def State.base (s : State) (lo : Fld) (sh : Nat) (hi : Fld) : Nat := s.fget lo * 2 ^ sh + s.fget hi * 2 ^ 32

/-- A truth value as a bit. -/
def b2n (b : Bool) : Nat := if b then 1 else 0

/-- Bit `n` of a number. -/
def nbit (v n : Nat) : Bool := v / 2 ^ n % 2 == 1

/-- Set or clear bit `n` of a number. -/
def nsetBit (v n : Nat) (b : Bool) : Nat := if nbit v n == b then v else if b then v + 2 ^ n else v - 2 ^ n

/-- The bits msb:lsb of a number. -/
def nbits (v msb lsb : Nat) : Nat := v / 2 ^ lsb % 2 ^ (msb + 1 - lsb)

/-- The signed value of the low `w` bits. -/
def sval (w v : Nat) : Int := if v % 2 ^ w < 2 ^ (w - 1) then (v % 2 ^ w : Nat) else ((v % 2 ^ w : Nat) : Int) - (2 ^ w : Nat)

/-- The two's-complement form of a signed value in `w` bits. -/
def uval (w : Nat) (v : Int) : Nat := (v % ((2 ^ w : Nat) : Int)).toNat

/-- Signed 32-bit serial comparison: `a` is newer than `b` (R295, R458). -/
def newer32 (a b : Nat) : Bool := (a + 2 ^ 32 - b % 2 ^ 32) % 2 ^ 32 != 0 && (a + 2 ^ 32 - b % 2 ^ 32) % 2 ^ 32 < 2 ^ 31

/-- The word a register shows, from its fields; reserved bits are 0 (R8). -/
def State.word (s : State) (b : Blk) (kind off i : Nat) : Nat :=
  (tabOf b).foldl (fun a f => if f.kind = kind ∧ f.off = off then a + s.fget f i * 2 ^ f.lsb else a) 0

/-! ### Bytes -/

/-- `n` little-endian bytes of a value (R6). -/
def leB : Nat → Nat → List Byte
  | 0, _ => []
  | n + 1, v => BitVec.ofNat 8 v :: leB n (v / 256)

/-- `n` big-endian bytes of a value. -/
def beB (n v : Nat) : List Byte := (leB n v).reverse

/-- The value of little-endian bytes. -/
def ofLe : List Byte → Nat
  | [] => 0
  | b :: t => b.toNat + 256 * ofLe t

/-- The value of big-endian bytes. -/
def ofBe (l : List Byte) : Nat := ofLe l.reverse

/-- `n` bytes at an offset, padded with zeros. -/
def slice (l : List Byte) (off n : Nat) : List Byte := ((l.drop off).take n) ++ List.replicate (n - ((l.drop off).take n).length) 0

/-- The little-endian field of `n` bytes at an offset. -/
def leAt (l : List Byte) (off n : Nat) : Nat := ofLe (slice l off n)

/-- Pad with zeros to exactly `n` bytes. -/
def fit (n : Nat) (l : List Byte) : List Byte := slice l 0 n

/-- Replace `v.length` bytes at an offset. -/
def splice (l : List Byte) (off : Nat) (v : List Byte) : List Byte := fit off (l.take off) ++ v ++ l.drop (off + v.length)

/-! ### DRAM (R548): sparse bytes, an unlisted byte reads 0 (log entry 5) -/

/-- The DRAM's canonical form. -/
def Memory.wf (m : List Host.Cell) : Bool := tabWf (0 : Byte) m

/-- One byte of DRAM. -/
def State.mget (s : State) (a : Nat) : Byte := tget (0 : Byte) s.dram a

/-- Store one byte of DRAM. -/
def State.mput (s : State) (a : Nat) (v : Byte) : State := { s with dram := tput (0 : Byte) s.dram a v }

/-- `n` bytes of DRAM from an address. -/
def State.mread (s : State) (a : Nat) : Nat → List Byte
  | 0 => []
  | n + 1 => s.mget a :: s.mread (a + 1) n

/-- Store bytes to DRAM from an address. -/
def State.mwrite (s : State) (a : Nat) : List Byte → State
  | [] => s
  | b :: t => (s.mput a b).mwrite (a + 1) t

/-! ### Free values -/

/-- Draw `n` free bytes and advance the counter (log entry 4). -/
def State.draw (s : State) (n : Nat) : List Byte × State :=
  ((List.range n).map (Config.freeByte s.freeCtr), { s with freeCtr := s.freeCtr + 1 })

/-- Draw one free number below `m` (`m` above 0) and advance the counter (log entry 4). -/
def State.drawNat (s : State) (m : Nat) : Nat × State :=
  (Config.freeNat s.freeCtr % m, { s with freeCtr := s.freeCtr + 1 })

/-- The codes of R10. -/
def statusCodes : List Nat := [0x00, 0x01, 0x02, 0x10, 0x11, 0x12, 0x13, 0x14, 0x15, 0x20, 0x21, 0x22, 0x23, 0x24, 0x30, 0x31, 0x32, 0x40, 0x41, 0x42, 0xFF]

/-- The codes that say an operation did not come to its end. -/
def failCodes : List Nat := statusCodes.filter (fun c => decide (c ≥ 0x10) && c != 0x30)

/-- Draw a failure status that the spec leaves open: free among the codes of R10 (log entry 38). -/
def State.drawFail (s : State) : Nat × State :=
  let (k, s) := s.drawNat failCodes.length
  (failCodes.getD k 0xFF, s)

/-- Append to the record of outputs. -/
def State.emit (s : State) (o : Out) : State := { s with out := s.out ++ [o] }

/-! ### The protection table (R17 to R48) -/

/-- Word `w` of a tenant record (R23). -/
def Bank.recWord (b : Bank) (t w : Nat) : Nat := tget 0 b.recs (16 * t + w)

/-- Ledger range `r` of a tenant: base and count. -/
def Bank.ldgRange (b : Bank) (t r : Nat) : Nat × Nat := (nbits (b.recWord t (2 * r)) 20 0, nbits (b.recWord t (2 * r + 1)) 21 0)

/-- Node range `r` of a tenant: base and count. -/
def Bank.nodeRange (b : Bank) (t r : Nat) : Nat × Nat := (nbits (b.recWord t (8 + r)) 14 0, nbits (b.recWord t (8 + r)) 31 16)

/-- The balance range of a tenant. -/
def Bank.balRange (b : Bank) (t : Nat) : Nat × Nat := (nbits (b.recWord t 10) 15 0, nbits (b.recWord t 11) 16 0)

/-- SCRIBE_SHARE. -/
def Bank.share (b : Bank) (t : Nat) : Nat := nbits (b.recWord t 12) 12 0

/-- TAG_QUOTA, in units of 64 tags. -/
def Bank.tagQuota (b : Bank) (t : Nat) : Nat := nbits (b.recWord t 12) 26 16

/-- HOST_MASK of a tenant. -/
def Bank.hostMask (b : Bank) (t : Nat) : Nat := nbits (b.recWord t 13) 7 0

/-- PRIO_MIN. -/
def Bank.prioMin (b : Bank) (t : Nat) : Nat := nbits (b.recWord t 14) 2 0

/-- Index `i` lies in a half-open range. -/
def inRange (r : Nat × Nat) (i : Nat) : Bool := decide (r.1 ≤ i ∧ i < r.1 + r.2)

/-- The tenant owns ledger `l`. -/
def Bank.ownsLedger (b : Bank) (t l : Nat) : Bool := (List.range 4).any (fun r => inRange (b.ldgRange t r) l)

/-- The tenant owns node-table entry `n`. -/
def Bank.ownsNode (b : Bank) (t n : Nat) : Bool := (List.range 2).any (fun r => inRange (b.nodeRange t r) n)

/-- The tenant owns balance node `n`. -/
def Bank.ownsBal (b : Bank) (t n : Nat) : Bool := inRange (b.balRange t) n

/-- The owner a 16-bit owner-map entry names, if VALID. -/
def ownerOf (m : Tab Nat) (i : Nat) : Option Nat := let e := tget 0 m i; if nbit e 15 then some (nbits e 9 0) else none

/-- The owner a ring entry names, if VALID. -/
def Bank.ringOwner (b : Bank) (r : Nat) : Option Nat := let e := tget 0 b.ring r; if nbit e 31 then some (nbits e 9 0) else none

/-- HOST_MASK of a ring entry. -/
def Bank.ringMask (b : Bank) (r : Nat) : Nat := nbits (tget 0 b.ring r) 23 16

/-- STATE of a tenant; tenant 0 is always ON (R18). -/
def State.tenState (s : State) (t : Nat) : Nat := if t = 0 then 2 else s.fget TEN_STAT.STATE t

/-- The tenant is ON. -/
def State.tenOn (s : State) (t : Nat) : Bool := s.tenState t == 2

/-- Two half-open ranges meet. -/
def rangesMeet (a b : Nat × Nat) : Bool := decide (a.2 ≠ 0 ∧ b.2 ≠ 0 ∧ a.1 < b.1 + b.2 ∧ b.1 < a.1 + a.2)

/-- A resource is still being scrubbed (R19). -/
def State.scrubbing (s : State) (k : ScrubKind) (base count : Nat) : Bool :=
  s.ten.scrubs.any (fun x => x.kind == k && rangesMeet (x.base, x.count) (base, count))

/-- A tenant owns a ledger: its record's ranges hold it, and it is not still being scrubbed after leaving another tenant (R19). -/
def State.ownsLedger (s : State) (t l : Nat) : Bool := s.ten.active.ownsLedger t l && !s.scrubbing .ledgers l 1

/-- The tenant whose ledger range holds a ledger, in the active bank. -/
def State.ledgerOwner (s : State) (l : Nat) : Option Nat := (List.range 1024).find? (fun t => s.ownsLedger t l)

/-- The owner of a resource of a 16-bit map; unassigned while it is still being scrubbed (R19). -/
def State.mapOwner (s : State) (k : ScrubKind) (m : Tab Nat) (i : Nat) : Option Nat := if s.scrubbing k i 1 then none else ownerOf m i

/-- The owner of a NAND partition. -/
def State.partOwner (s : State) (p : Nat) : Option Nat := s.mapOwner .partition s.ten.active.part p

/-- The tenant whose node range holds a node-table entry. -/
def State.nodeOwner (s : State) (n : Nat) : Option Nat := (List.range 1024).find? (fun t => s.ten.active.ownsNode t n)

/-- The tenant whose balance range holds a balance node. -/
def State.balOwner (s : State) (n : Nat) : Option Nat := (List.range 1024).find? (fun t => s.ten.active.ownsBal t n)

/-- The supervisor host (R269). -/
def State.supv (s : State) : Nat := s.fget CHIP_SUPV.HOST

/-- The current mode (R3). -/
def State.mode (s : State) : Nat := s.fget CHIP_MODE.MODE

/-- Field role (0) or centre role (1) (R1). -/
def State.centre (s : State) : Bool := s.fbit CHIP_ROLE.CENTRE

/-- Count a request completed with PROTECTION (R47). -/
def State.protCount (s : State) (t : Nat) : State := s.fsat TEN_PROT_CNT.COUNT t

/-! ### Rings and hosts -/

/-- A ring's record. -/
def State.ring (s : State) (r : Nat) : Ring := tget {} s.rng.rings r

/-- Store a ring's record. -/
def State.setRing (s : State) (r : Nat) (v : Ring) : State := { s with rng := { s.rng with rings := tput {} s.rng.rings r v } }

/-- A host attachment's record. -/
def State.host (s : State) (h : Nat) : HostA := tget {} s.rng.hosts h

/-- Store a host attachment's record. -/
def State.setHost (s : State) (h : Nat) (v : HostA) : State := { s with rng := { s.rng with hosts := tput {} s.rng.hosts h v } }

/-- Slots of a ring. -/
def State.ringSize (s : State) (r : Nat) : Nat := 2 ^ s.fget RNG_R_CFG.SIZE_LOG2 r

/-- The host a ring is attached to. -/
def State.ringHost (s : State) (r : Nat) : Nat := s.fget RNG_R_CFG.HOST r

end Sys2Proof.Machine
end

