-- ==== Sys2Proof/Machine/Cipher.lean ====
section
/-! DEFINITION. The cryptographic functions the spec names by their standards : CRC-32, AES with GCM, CTR,
CCM*, CMAC and key wrap, SHA-2, HMAC, the KDF of R379, ECDSA and ECDH over P-256 and P-384, and RFC 6979 nonces. Their
inner arithmetic is the standards', not this spec's (PRESUMED, log entry 6). -/
namespace Sys2Proof.Machine

/-! ### CRC-32 (IEEE 802.3) -/

/-- `n` bit steps of the reflected CRC-32. -/
def crcBits : Nat → BitVec 32 → BitVec 32
  | 0, c => c
  | n + 1, c => crcBits n (if c.getLsbD 0 then (c >>> 1) ^^^ 0xEDB88320#32 else c >>> 1)

/-- CRC-32 of bytes. -/
def crc32 (l : List Byte) : Nat :=
  (l.foldl (fun c b => crcBits 8 (c ^^^ b.setWidth 32)) 0xFFFFFFFF#32 ^^^ 0xFFFFFFFF#32).toNat

/-! ### AES -/

/-- Doubling in the AES field. -/
def xtime (b : Byte) : Byte := if b.getLsbD 7 then (b <<< 1) ^^^ 0x1B#8 else b <<< 1

/-- Product in the AES field, over `n` bits of the second factor. -/
def gmulN : Nat → Byte → Byte → Byte
  | 0, _, _ => 0
  | n + 1, a, b => (if b.getLsbD 0 then a else 0) ^^^ gmulN n (xtime a) (b >>> 1)

/-- Product in the AES field. -/
def gmul (a b : Byte) : Byte := gmulN 8 a b

/-- The 254th power: the inverse, with 0 to 0. -/
def ginv (a : Byte) : Byte :=
  let a2 := gmul a a
  let a3 := gmul a2 a
  let a6 := gmul a3 a3
  let a12 := gmul a6 a6
  let a15 := gmul a12 a3
  let a30 := gmul a15 a15
  let a60 := gmul a30 a30
  let a120 := gmul a60 a60
  let a126 := gmul a120 a6
  let a127 := gmul a126 a
  gmul a127 a127

/-- The AES S-box. -/
def sbox (b : Byte) : Byte :=
  let i := ginv b
  i ^^^ i.rotateLeft 1 ^^^ i.rotateLeft 2 ^^^ i.rotateLeft 3 ^^^ i.rotateLeft 4 ^^^ 0x63#8

/-- The inverse S-box. -/
def sboxInv (b : Byte) : Byte := ginv (b.rotateLeft 1 ^^^ b.rotateLeft 3 ^^^ b.rotateLeft 6 ^^^ 0x05#8)

/-- Bytewise exclusive or, as long as the shorter list. -/
def xorB (a b : List Byte) : List Byte := List.zipWith (· ^^^ ·) a b

/-- Key-schedule words after the first `nk`, newest first; `i` is the index of the next word. -/
def aesExpand (nk : Nat) : Nat → Nat → Byte → List (List Byte) → List (List Byte)
  | 0, _, _, ws => ws
  | n + 1, i, rc, ws =>
    let prev := ws.headD []
    let old := (ws.drop (nk - 1)).headD []
    let t := if i % nk = 0 then
        match prev.map sbox with
        | [a, b, c, d] => [b ^^^ rc, c, d, a]
        | l => l
      else if nk = 8 ∧ i % 8 = 4 then prev.map sbox else prev
    aesExpand nk n (i + 1) (if i % nk = 0 then xtime rc else rc) (xorB t old :: ws)

/-- Cut a list into pieces of `k`, at most `n` of them. -/
def chunksN {α : Type} (k : Nat) : Nat → List α → List (List α)
  | 0, _ => []
  | n + 1, l => if l.isEmpty then [] else l.take k :: chunksN k n (l.drop k)

/-- Cut a list into pieces of `k`. -/
def chunks {α : Type} (k : Nat) (l : List α) : List (List α) := chunksN k l.length l

/-- The round keys of a 16- or 32-byte key. -/
def aesKeys (key : List Byte) : List (List Byte) :=
  let nk := key.length / 4
  let ws := aesExpand nk (4 * (nk + 7) - nk) nk 1 ((chunks 4 key).reverse)
  (chunks 4 ws.reverse).map List.flatten

/-- Byte `i` of a block. -/
def byteAt (l : List Byte) (i : Nat) : Byte := l.getD i 0

/-- MixColumns with given coefficients, on one column. -/
def mixCol (m : List Byte) (c : List Byte) : List Byte :=
  (List.range 4).map (fun r => (List.range 4).foldl (fun a k => a ^^^ gmul (byteAt m ((k + 4 - r) % 4)) (byteAt c k)) 0)

/-- One AES block encryption. -/
def aesEnc (key blk : List Byte) : List Byte :=
  let ks := aesKeys key
  let nr := ks.length - 1
  let st := xorB (fit 16 blk) (ks.headD [])
  (List.range nr).foldl (fun st r =>
    let st := (List.range 16).map (fun i => sbox (byteAt st (i * 5 % 16)))
    let st := if r + 1 = nr then st else ((chunks 4 st).map (mixCol [2, 3, 1, 1])).flatten
    xorB st (ks.getD (r + 1) [])) st

/-- One AES block decryption. -/
def aesDec (key blk : List Byte) : List Byte :=
  let ks := aesKeys key
  let nr := ks.length - 1
  let st := xorB (fit 16 blk) (ks.getD nr [])
  (List.range nr).foldl (fun st r =>
    let st := (List.range 16).map (fun i => sboxInv (byteAt st (i * 13 % 16)))
    let st := xorB st (ks.getD (nr - 1 - r) [])
    if r + 1 = nr then st else ((chunks 4 st).map (mixCol [14, 11, 13, 9])).flatten) st

/-- Counter-mode key stream over successive counter blocks, `step` giving the next block. -/
def ctrStream (key : List Byte) (step : List Byte → List Byte) : Nat → List Byte → List Byte
  | 0, _ => []
  | n + 1, c => aesEnc key c ++ ctrStream key step n (step c)

/-- Increment of a whole 128-bit block, big-endian (R396 CTR). -/
def inc128 (c : List Byte) : List Byte := beB 16 (ofBe c + 1)

/-- Increment of the last 32 bits of a block (GCM). -/
def inc32 (c : List Byte) : List Byte := c.take 12 ++ beB 4 (ofBe (c.drop 12) + 1)

/-- CTR over data from an initial counter block. -/
def aesCtr (key ctr data : List Byte) : List Byte := xorB data (ctrStream key inc128 ((data.length + 15) / 16) ctr)

/-- The GHASH product, over `n` bits of `x` from its most significant. -/
def ghMulN : Nat → BitVec 128 → BitVec 128 → BitVec 128
  | 0, _, _ => 0
  | n + 1, x, v =>
    (if x.getLsbD 127 then v else 0) ^^^
      ghMulN n (x <<< 1) (if v.getLsbD 0 then (v >>> 1) ^^^ (0xE1#128 <<< 120) else v >>> 1)

/-- GHASH of whole blocks. -/
def ghash (h : BitVec 128) (data : List Byte) : BitVec 128 :=
  (chunks 16 data).foldl (fun y b => ghMulN 128 (y ^^^ BitVec.ofNat 128 (ofBe (fit 16 b))) h) 0

/-- Zero padding to a whole number of 16-byte blocks. -/
def pad16 (l : List Byte) : List Byte := fit ((l.length + 15) / 16 * 16) l

/-- The GCM tag of ciphertext and additional data, 16 bytes, with a 12-byte nonce. -/
def gcmTag (key nonce aad ct : List Byte) : List Byte :=
  let h := BitVec.ofNat 128 (ofBe (aesEnc key (List.replicate 16 0)))
  let s := ghash h (pad16 aad ++ pad16 ct ++ beB 8 (8 * aad.length) ++ beB 8 (8 * ct.length))
  xorB (beB 16 s.toNat) (aesEnc key (fit 12 nonce ++ [0, 0, 0, 1]))

/-- GCM encryption or decryption of the data alone. -/
def gcmCrypt (key nonce data : List Byte) : List Byte :=
  xorB data (ctrStream key inc32 ((data.length + 15) / 16) (fit 12 nonce ++ [0, 0, 0, 2]))

/-- CBC-MAC of whole blocks. -/
def cbcMac (key : List Byte) (data : List Byte) : List Byte :=
  (chunks 16 data).foldl (fun y b => aesEnc key (xorB y (fit 16 b))) (List.replicate 16 0)

/-- The CCM* tag before encryption, for a tag of `t` bytes (0, 4, 8, 16 and the other even lengths). -/
def ccmMac (key nonce aad data : List Byte) (t : Nat) : List Byte :=
  let q := 15 - nonce.length
  let fl := (if aad.isEmpty then 0 else 64) + (if t = 0 then 0 else (t - 2) / 2 * 8) + (q - 1)
  let b0 := BitVec.ofNat 8 fl :: (nonce ++ beB q data.length)
  let a := if aad.isEmpty then [] else pad16 (beB 2 aad.length ++ aad)
  (cbcMac key (b0 ++ a ++ pad16 data)).take t

/-- CCM* key stream block 0 (for the tag) and the crypt of the data from block 1. -/
def ccmCtr (nonce : List Byte) : List Byte := BitVec.ofNat 8 (14 - nonce.length) :: (nonce ++ beB (15 - nonce.length) 0)

/-- CCM* encryption or decryption of the data alone. -/
def ccmCrypt (key nonce data : List Byte) : List Byte := aesCtr key (inc128 (ccmCtr nonce)) data

/-- The CCM* tag as transmitted. -/
def ccmTag (key nonce aad data : List Byte) (t : Nat) : List Byte :=
  xorB (ccmMac key nonce aad data t) (aesEnc key (ccmCtr nonce))

/-- Doubling for CMAC subkeys. -/
def cmacDbl (l : List Byte) : List Byte :=
  let v := ofBe l
  beB 16 ((2 * v % 2 ^ 128) ^^^ (if v ≥ 2 ^ 127 then 0x87 else 0))

/-- AES-CMAC, 16 bytes. -/
def cmac (key data : List Byte) : List Byte :=
  let k1 := cmacDbl (aesEnc key (List.replicate 16 0))
  let n := if data.isEmpty then 1 else (data.length + 15) / 16
  let last := data.drop (16 * (n - 1))
  let m := if last.length = 16 then xorB last k1 else xorB (fit 16 (last ++ [0x80])) (cmacDbl k1)
  cbcMac key (data.take (16 * (n - 1)) ++ m)

/-- The RFC 3394 wrap rounds, `n` semiblocks, step counter upward. -/
def kwRound (key : List Byte) : List Nat → List Byte → List (List Byte) → List Byte × List (List Byte)
  | [], a, rs => (a, rs)
  | t :: ts, a, rs =>
    let n := rs.length
    let i := (t - 1) % n
    let b := aesEnc key (a ++ rs.getD i [])
    kwRound key ts (xorB (b.take 8) (beB 8 t)) (rs.set i (b.drop 8))

/-- RFC 3394 key wrap with an initial value. -/
def keyWrap (key iv data : List Byte) : List Byte :=
  let rs := chunks 8 data
  let r := kwRound key ((List.range (6 * rs.length)).map (· + 1)) iv rs
  r.1 ++ r.2.flatten

/-- The RFC 3394 unwrap rounds, step counter downward. -/
def kuRound (key : List Byte) : List Nat → List Byte → List (List Byte) → List Byte × List (List Byte)
  | [], a, rs => (a, rs)
  | t :: ts, a, rs =>
    let i := (t - 1) % rs.length
    let b := aesDec key (xorB a (beB 8 t) ++ rs.getD i [])
    kuRound key ts (b.take 8) (rs.set i (b.drop 8))

/-- RFC 3394 key unwrap; none when the integrity value differs. -/
def keyUnwrap (key iv data : List Byte) : Option (List Byte) :=
  let rs := chunks 8 (data.drop 8)
  let r := kuRound key (((List.range (6 * rs.length)).map (· + 1)).reverse) (data.take 8) rs
  if r.1 = iv then some r.2.flatten else none

/-! ### SHA-2 -/

/-- The first 80 primes. -/
def primes80 : List Nat :=
  [2, 3, 5, 7, 11, 13, 17, 19, 23, 29, 31, 37, 41, 43, 47, 53, 59, 61, 67, 71, 73, 79, 83, 89, 97, 101, 103, 107, 109, 113,
   127, 131, 137, 139, 149, 151, 157, 163, 167, 173] ++
  [179, 181, 191, 193, 197, 199, 211, 223, 227, 229, 233, 239, 241, 251, 257, 263, 269, 271, 277, 281, 283, 293, 307, 311,
   313, 317, 331, 337, 347, 349, 353, 359, 367, 373, 379, 383, 389, 397, 401, 409]

/-- The greatest `r` below 2^n, built from `acc`, whose `k`-th power does not exceed `v`. -/
def rootN (k v : Nat) : Nat → Nat → Nat
  | 0, acc => acc
  | n + 1, acc => rootN k v n (if (acc + 2 ^ n) ^ k ≤ v then acc + 2 ^ n else acc)

/-- The first 64 fractional bits of a prime's square root. -/
def fracSqrt (p : Nat) : Nat := rootN 2 (p * 2 ^ 128) 70 0 % 2 ^ 64

/-- The first 64 fractional bits of a prime's cube root. -/
def fracCbrt (p : Nat) : Nat := rootN 3 (p * 2 ^ 192) 70 0 % 2 ^ 64

/-- The six functions' rotations of a SHA-2 word size. -/
structure ShaPar (w : Nat) where
  s0 : BitVec w → BitVec w
  s1 : BitVec w → BitVec w
  t0 : BitVec w → BitVec w
  t1 : BitVec w → BitVec w
  ks : List (BitVec w)
  rounds : Nat

/-- SHA-256's parameters. -/
def sha256Par : ShaPar 32 where
  s0 x := x.rotateRight 2 ^^^ x.rotateRight 13 ^^^ x.rotateRight 22
  s1 x := x.rotateRight 6 ^^^ x.rotateRight 11 ^^^ x.rotateRight 25
  t0 x := x.rotateRight 7 ^^^ x.rotateRight 18 ^^^ (x >>> 3)
  t1 x := x.rotateRight 17 ^^^ x.rotateRight 19 ^^^ (x >>> 10)
  ks := (primes80.take 64).map (fun p => BitVec.ofNat 32 (fracCbrt p / 2 ^ 32))
  rounds := 64

/-- SHA-512's and SHA-384's parameters. -/
def sha512Par : ShaPar 64 where
  s0 x := x.rotateRight 28 ^^^ x.rotateRight 34 ^^^ x.rotateRight 39
  s1 x := x.rotateRight 14 ^^^ x.rotateRight 18 ^^^ x.rotateRight 41
  t0 x := x.rotateRight 1 ^^^ x.rotateRight 8 ^^^ (x >>> 7)
  t1 x := x.rotateRight 19 ^^^ x.rotateRight 61 ^^^ (x >>> 6)
  ks := primes80.map (fun p => BitVec.ofNat 64 (fracCbrt p))
  rounds := 80

/-- Further message-schedule words, newest first. -/
def shaSched {w : Nat} (p : ShaPar w) : Nat → List (BitVec w) → List (BitVec w)
  | 0, ws => ws
  | n + 1, ws => shaSched p n ((p.t1 (ws.getD 1 0) + ws.getD 6 0 + p.t0 (ws.getD 14 0) + ws.getD 15 0) :: ws)

/-- One round on the eight working words. -/
def shaRound {w : Nat} (p : ShaPar w) (st : List (BitVec w)) (kw : BitVec w × BitVec w) : List (BitVec w) :=
  match st with
  | [a, b, c, d, e, f, g, h] =>
    let t1 := h + p.s1 e + ((e &&& f) ^^^ (~~~e &&& g)) + kw.1 + kw.2
    let t2 := p.s0 a + ((a &&& b) ^^^ (a &&& c) ^^^ (b &&& c))
    [t1 + t2, a, b, c, d + t1, e, f, g]
  | l => l

/-- One block. -/
def shaBlock {w : Nat} (p : ShaPar w) (st : List (BitVec w)) (blk : List Byte) : List (BitVec w) :=
  let ws := ((chunks (w / 8) blk).map (fun b => BitVec.ofNat w (ofBe b))).reverse
  let ws := (shaSched p (p.rounds - 16) ws).reverse
  List.zipWith (· + ·) st ((p.ks.zip ws).foldl (shaRound p) st)

/-- A SHA-2 hash from its initial words, all state bytes. -/
def sha2 {w : Nat} (p : ShaPar w) (iv : List (BitVec w)) (m : List Byte) : List Byte :=
  let bs := w * 2
  let lenB := w / 4
  let z := (bs - (m.length + 1 + lenB) % bs) % bs
  let m := m ++ [0x80] ++ List.replicate z 0 ++ beB lenB (8 * m.length)
  ((chunks bs m).foldl (shaBlock p) iv).flatMap (fun x => beB (w / 8) x.toNat)

/-- SHA-256. -/
def sha256 (m : List Byte) : List Byte := sha2 sha256Par ((primes80.take 8).map (fun p => BitVec.ofNat 32 (fracSqrt p / 2 ^ 32))) m

/-- SHA-512. -/
def sha512 (m : List Byte) : List Byte := sha2 sha512Par ((primes80.take 8).map (fun p => BitVec.ofNat 64 (fracSqrt p))) m

/-- SHA-384. -/
def sha384 (m : List Byte) : List Byte :=
  (sha2 sha512Par (((primes80.drop 8).take 8).map (fun p => BitVec.ofNat 64 (fracSqrt p))) m).take 48

/-- HMAC over a hash of block size `bs`. -/
def hmacWith (h : List Byte → List Byte) (bs : Nat) (key m : List Byte) : List Byte :=
  let k := fit bs (if key.length > bs then h key else key)
  h (k.map (· ^^^ 0x5C#8) ++ h (k.map (· ^^^ 0x36#8) ++ m))

/-- HMAC-SHA-256. -/
def hmac256 (key m : List Byte) : List Byte := hmacWith sha256 64 key m

/-- The KDF of R379: `bits` output bits from a key, a label and a context. -/
def kdf (key label context : List Byte) (bits : Nat) : List Byte :=
  ((List.range ((bits + 255) / 256)).flatMap (fun i =>
    hmac256 key (beB 1 (i + 1) ++ label ++ [0] ++ context ++ beB 2 bits))).take (bits / 8)

/-- An ASCII label as bytes. -/
def ascii (s : String) : List Byte := s.toList.map (fun c => BitVec.ofNat 8 c.toNat)

/-! ### P-256 and P-384 -/

/-- A prime curve y² = x³ − 3x + b. -/
structure Curve where
  bytes : Nat
  p : Nat
  n : Nat
  b : Nat
  gx : Nat
  gy : Nat

/-- P-256. -/
def p256 : Curve where
  bytes := 32
  p := 2 ^ 256 - 2 ^ 224 + 2 ^ 192 + 2 ^ 96 - 1
  n := 0xffffffff00000000ffffffffffffffffbce6faada7179e84f3b9cac2fc632551
  b := 0x5ac635d8aa3a93e7b3ebbd55769886bc651d06b0cc53b0f63bce3c3e27d2604b
  gx := 0x6b17d1f2e12c4247f8bce6e563a440f277037d812deb33a0f4a13945d898c296
  gy := 0x4fe342e2fe1a7f9b8ee7eb4a7c0f9e162bce33576b315ececbb6406837bf51f5

/-- P-384. -/
def p384 : Curve where
  bytes := 48
  p := 2 ^ 384 - 2 ^ 128 - 2 ^ 96 + 2 ^ 32 - 1
  n := 0xffffffffffffffffffffffffffffffffffffffffffffffffc7634d81f4372ddf581a0db248b0a77aecec196accc52973
  b := 0xb3312fa7e23ee7e4988e056be3f82d19181d9c6efe8141120314088f5013875ac656398d8a2ed19d2a85c8edd3ec2aef
  gx := 0xaa87ca22be8b05378eb1c71ef320ad746e1d3b628ba79b9859f741e082542a385502f25dbf55296c3a545e3872760ab7
  gy := 0x3617de4a96262c6f5d9e98bf9292dc29f8f41dbd289a147ce9da3113b5f0b8c00a60b1ce1d7e819d7a431d7c90ea0e5f

/-- Power modulo `m`, over `k` bits of the exponent. -/
def powModN (m : Nat) : Nat → Nat → Nat → Nat
  | 0, _, _ => 1 % m
  | k + 1, b, e => (if e % 2 = 1 then b else 1) * powModN m k (b * b % m) (e / 2) % m

/-- The inverse modulo a prime of at most 384 bits. -/
def invMod (m a : Nat) : Nat := powModN m 384 (a % m) (m - 2)

/-- A point, or none for the point at infinity. -/
abbrev Point := Option (Nat × Nat)

/-- Point addition. -/
def Curve.add (c : Curve) : Point → Point → Point
  | none, q => q
  | p, none => p
  | some (x1, y1), some (x2, y2) =>
    if x1 = x2 ∧ (y1 + y2) % c.p = 0 then none
    else
      let l := if x1 = x2 then (3 * x1 * x1 + (c.p - 3)) * invMod c.p (2 * y1) % c.p
        else (y2 + c.p - y1) * invMod c.p (x2 + c.p - x1) % c.p
      let x3 := (l * l + 2 * c.p - x1 - x2) % c.p
      some (x3, (l * (x1 + c.p - x3) + c.p - y1) % c.p)

/-- Scalar multiple, over `k` bits of the scalar. -/
def Curve.mulN (c : Curve) : Nat → Nat → Point → Point
  | 0, _, _ => none
  | k + 1, e, q => c.add (if e % 2 = 1 then q else none) (c.mulN k (e / 2) (c.add q q))

/-- Scalar multiple. -/
def Curve.mul (c : Curve) (e : Nat) (q : Point) : Point := c.mulN 384 e q

/-- The point is on the curve and not at infinity. -/
def Curve.valid (c : Curve) (x y : Nat) : Bool :=
  decide (x < c.p ∧ y < c.p) && y * y % c.p == (x * x * x + (c.p - 3) * x + c.b) % c.p

/-- The public point of a private scalar, X ‖ Y. -/
def Curve.pub (c : Curve) (d : Nat) : List Byte :=
  match c.mul d (some (c.gx, c.gy)) with
  | some (x, y) => beB c.bytes x ++ beB c.bytes y
  | none => []

/-- The leftmost bits of a digest as an integer, at most as long as the order. -/
def Curve.digestInt (c : Curve) (h : List Byte) : Nat := ofBe (h.take c.bytes)

/-- ECDSA verification of r ‖ s over a digest with public key X ‖ Y. -/
def Curve.verify (c : Curve) (pub sig h : List Byte) : Bool :=
  let x := ofBe (pub.take c.bytes)
  let y := ofBe (pub.drop c.bytes)
  let r := ofBe (sig.take c.bytes)
  let s := ofBe (sig.drop c.bytes)
  if c.valid x y = false ∨ r = 0 ∨ s = 0 ∨ r ≥ c.n ∨ s ≥ c.n then false
  else
    let w := invMod c.n s
    match c.add (c.mul (c.digestInt h * w % c.n) (some (c.gx, c.gy))) (c.mul (r * w % c.n) (some (x, y))) with
    | some (px, _) => px % c.n == r
    | none => false

/-- ECDSA signature with a given nonce, r ‖ s. -/
def Curve.signWith (c : Curve) (d k : Nat) (h : List Byte) : List Byte :=
  match c.mul k (some (c.gx, c.gy)) with
  | none => []
  | some (x, _) =>
    let r := x % c.n
    beB c.bytes r ++ beB c.bytes (invMod c.n k * (c.digestInt h + r * d) % c.n)

/-- The RFC 6979 search for a nonce in range: at most `n` candidates. -/
def rfcLoop (c : Curve) (hm : List Byte → List Byte → List Byte) : Nat → List Byte → List Byte → Nat
  | 0, _, _ => 1
  | n + 1, k, v =>
    let v := hm k v
    let t := ofBe (v.take c.bytes)
    if t ≠ 0 ∧ t < c.n then t
    else
      let k := hm k (v ++ [0])
      rfcLoop c hm n k (hm k v)

/-- The RFC 6979 nonce: HMAC over SHA-256 for P-256, over SHA-384 for P-384. -/
def Curve.nonce (c : Curve) (d : Nat) (h : List Byte) : Nat :=
  let hm := if c.bytes = 32 then hmacWith sha256 64 else hmacWith sha384 128
  let x := beB c.bytes d ++ beB c.bytes (c.digestInt h % c.n)
  let v := List.replicate c.bytes (0x01 : Byte)
  let k := hm (List.replicate c.bytes 0) (v ++ [0] ++ x)
  let v := hm k v
  let k := hm k (v ++ [1] ++ x)
  rfcLoop c hm 64 k (hm k v)

/-- ECDSA signature with the nonce of RFC 6979, r ‖ s. -/
def Curve.sign (c : Curve) (d : Nat) (h : List Byte) : List Byte := c.signWith d (c.nonce d h) h

/-- The x-coordinate of the shared point, or none for a bad peer key. -/
def Curve.ecdh (c : Curve) (d : Nat) (pub : List Byte) : Option (List Byte) :=
  let x := ofBe (pub.take c.bytes)
  let y := ofBe (pub.drop c.bytes)
  if c.valid x y then (c.mul d (some (x, y))).map (fun q => beB c.bytes q.1) else none

end Sys2Proof.Machine
end

