-- ==== Sys2Proof/Machine/Send.lean ====
section
/-! DEFINITION. Frames out of the device: MRT frames to a host or to the pair's partner, and the Ethernet ports they leave on (R292 to R298,
R469, R472). -/
namespace Sys2Proof.Machine
open Reg

/-! ### MRT frames to a host -/

/-- The 32-byte header of an MRT frame (R292); the body is always encrypted (log entry 7). -/
def mrtHeader (typ host dir session seq ack txc len count credit : Nat) : List Byte :=
  leB 1 1 ++ leB 1 typ ++ leB 1 host ++ leB 1 (1 + 2 * dir) ++ leB 4 session ++ leB 4 seq ++ leB 4 ack ++ leB 8 txc ++ leB 2 len
    ++ leB 1 count ++ leB 1 0 ++ leB 4 credit

/-- The frame nonce of R293: SESSION, DIR, the low 56 bits of TXC. -/
def mrtNonce (session dir txc : Nat) : List Byte := leB 4 session ++ leB 1 dir ++ leB 7 txc

/-- The MRT key of a slot secret (R380): label SVX-MRT over HOST, SESSION and the nonces. -/
def mrtKey (secret : List Byte) (host session : Nat) (hn dn : List Byte) : List Byte :=
  kdf secret (ascii "SVX-MRT") (leB 1 host ++ leB 4 session ++ fit 16 hn ++ fit 16 dn) 128

/-- The attachment that stands for the pair link (R476). -/
def pairHost : Nat := 8

/-- Session number of an attachment, or of the pair link. -/
def State.mrtSession (s : State) (h : Nat) : Nat := if h = pairHost then (s.host h).mrt.psess else s.fget RNG_H_SESSION.SESSION h

/-- Bytes of an MRT host's receive buffer in use: 64 + LEN per DESC, rounded up to 64, until its completion is sent (R298). -/
def State.mrtUsed (s : State) (h : Nat) : Nat :=
  s.rng.rings.foldl (fun a e => if s.ringHost e.1 = h then a + e.2.stored.foldl (fun b x => b + ((x.2.getD []).length + 63) / 64 * 64) 0 else a) 0

/-! ### Ethernet frames out (R469, R472) -/

/-- Send a frame (destination address first, no FCS) on a port that is ON with its link up. -/
def State.ethTx (s : State) (p : Nat) (f : List Byte) : State :=
  if s.fget ETH_P_STAT.STATE p = 2 ∧ s.fbit ETH_P_STAT.LINK p then (s.fsat ETH_P_TXOK.COUNT p).emit (.frame 0 p f) else s

/-- The offset of a frame's payload: 14, or 18 with an IEEE 802.1Q tag. -/
def ethOff (f : List Byte) : Nat := if slice f 12 2 = [0x81, 0x00] then 18 else 14

/-- A frame's EtherType. -/
def ethType (f : List Byte) : Nat := ofBe (slice f (ethOff f - 2) 2)

/-- A frame padded to the shortest length, with the redundancy control trailer of a LAN: SeqNr, LanId, LSDU size (the trailer included), suffix. -/
def prpTrailer (f : List Byte) (seq lan : Nat) : List Byte :=
  let g := f ++ List.replicate (60 - f.length) 0
  g ++ beB 2 seq ++ beB 2 (lan * 4096 + (g.length + 6 - ethOff g) % 4096) ++ [0x88, 0xFB]

/-- Send a frame of the device's own that is not PTP: in PRP mode on both ports under one SeqNr, otherwise on the port given. -/
def State.ethSend (s : State) (p : Nat) (f : List Byte) : State :=
  if s.fget ETH_CFG.MODE = 2 then
    let q := s.eth.prpSeq
    let s : State := { s with eth := { s.eth with prpSeq := (q + 1) % 65536 } }
    (s.ethTx 0 (prpTrailer f q 10)).ethTx 1 (prpTrailer f q 11)
  else s.ethTx p f

/-- The device's own MAC address in frame order. -/
def State.ownMac (s : State) : List Byte := leB 4 (s.fget ETH_MAC_LO.MAC_LO) ++ leB 2 (s.fget ETH_MAC_HI.MAC_HI)

/-- Send one frame, with the next TXC: on the port of the attachment's last valid frame (R469), or on the pair link, where HOST is 0 and the unit that
sends HELLO, unit 0, has the direction of a host (R476); the address of the partner's port is free (log entry 11). -/
def State.mrtOut (s : State) (h typ session seq count : Nat) (key body : List Byte) : State :=
  let a := s.host h
  let m := a.mrt
  if h = pairHost then
    let dir := s.fget RES_PAIR_CFG.UNIT
    let hdr := mrtHeader typ 0 dir session seq m.rxExp m.txc body.length count 0
    let nonce := mrtNonce session dir m.txc
    let ct := gcmCrypt key nonce body
    let s := s.setHost h { a with mrt := { m with txc := m.txc + 1 } }
    let (dst, s) := s.draw 6
    s.ethTx 2 (dst ++ s.ownMac ++ beB 2 (s.fget RNG_MRT.ETYPE) ++ hdr ++ ct ++ gcmTag key nonce hdr ct)
  else
    let hdr := mrtHeader typ h 1 session seq m.rxExp m.txc body.length count ((8388608 - s.mrtUsed h) / 64)
    let nonce := mrtNonce session 1 m.txc
    let ct := gcmCrypt key nonce body
    let eth := leB 4 (s.fget RNG_H_MAC_LO.MAC_LO h) ++ leB 2 (s.fget RNG_H_MAC_HI.MAC_HI h)
      ++ s.ownMac
      ++ (if s.fbit RNG_H_MRT_CFG.VLAN_EN h then [0x81, 0x00] ++ beB 2 (s.fget RNG_H_MRT_CFG.VLAN h) else [])
      ++ beB 2 (s.fget RNG_MRT.ETYPE)
    (s.setHost h { a with mrt := { m with txc := m.txc + 1 } }).ethSend a.port (eth ++ hdr ++ ct ++ gcmTag key nonce hdr ct)

/-- Send a DATA body, or queue it while 64 frames are unacknowledged (R296). -/
def State.mrtData (s : State) (h : Nat) (body : List Byte) : State :=
  let a := s.host h
  let m := a.mrt
  if m.isOpen = false then s
  else if m.unacked.length ≥ 64 then s.setHost h { a with mrt := { m with queued := m.queued ++ [body] } }
  else
    let s := s.setHost h { a with mrt := { m with txSeq := (m.txSeq + 1) % 2 ^ 32, unacked := m.unacked ++ [⟨m.txSeq, body⟩] } }
    s.mrtOut h 0x10 (s.mrtSession h) m.txSeq 1 m.key body

/-- An item of a DATA body (R297): header, then data padded to a multiple of 8. -/
def mrtItem (kind ring slot : Nat) (data : List Byte) : List Byte :=
  leB 1 kind ++ leB 1 0 ++ leB 2 ring ++ leB 2 slot ++ leB 2 data.length ++ fit ((data.length + 7) / 8 * 8) data

/-- A ring's item goes to its MRT host only while the ring is ON (R296); otherwise it is dropped and counted (log entry 8). -/
def State.mrtItemOut (s : State) (kind r slot : Nat) (data : List Byte) : State :=
  if s.fget RNG_R_STAT.STATE r = 2 then s.mrtData (s.ringHost r) (mrtItem kind r slot data) else s.fsat RNG_R_DROP.COUNT r

end Sys2Proof.Machine
end

