-- ==== Sys2Proof/Machine/Signal.lean ====
section
/-! DEFINITION. What any block may cause beside its own effect: events to task inputs and rings, interrupts, error registers, Inkwell
records. -/
namespace Sys2Proof.Machine
open Reg

/-! ### Tasks' event inputs (R216 to R220) -/

/-- A task's record. -/
def State.task (s : State) (t : Nat) : Task := tget {} s.tasks t

/-- Store a task's record. -/
def State.setTask (s : State) (t : Nat) (r : Task) : State := { s with tasks := tput {} s.tasks t r }

/-- The tenant that owns a task in the active bank. -/
def State.taskOwner (s : State) (t : Nat) : Option Nat := ownerOf s.ten.active.task t

/-- Pool entries a tenant holds: its queued payloads and the entries its ISSUEs reserved (R218, R239). -/
def State.poolHeld (s : State) (tenant : Nat) : Nat := tget 0 s.poolUse tenant

/-- The pool quota of a tenant (R218). -/
def State.poolQuota (s : State) (tenant : Nat) : Nat := tget 0 s.poolQ tenant

/-- Allow something at most once per powered second: `key` names it. Answers whether it may happen now, and the state that remembers it. -/
def State.oncePerSec (s : State) (key : Nat) : Bool × State :=
  let now := s.fget MPT_OPSEC.SECONDS + 1
  if tget 0 s.rng.lastSec key = now then (false, s)
  else (true, { s with rng := { s.rng with lastSec := tput 0 s.rng.lastSec key now } })

/-- One more event of `src` reaches input `i` of task `t`: counted, queued, dropped or discarded (R216, R218, R220); `sg` signals
sources 17 and 19 (R257). A `reserved` payload of an engine completion uses the entry its ISSUE reserved. -/
def State.deliverRaw (sg : State → Nat → List Byte → State) (s : State) (t i src : Nat) (pay : List Byte) (reserved : Bool) : State :=
  let k := 8 * t + i
  let full := fun (s : State) =>
    let s := s.fsat TSK_IN.OVERFLOW k
    match s.oncePerSec (1000 + t) with
    | (true, s) => sg s 17 (leB 2 t ++ leB 1 i)
    | (false, s) => s
  if s.fget TSK_STAT.STATE t ≠ 2 ∨ nbit (s.fget TSK_IN_CFG.EN t) i = false then s.fsat TSK_DISCARD.COUNT t
  else if nbit (s.fget TSK_IN_CFG.MODE t) i then
    if s.fget TSK_IN.COUNT k = 65535 then full s else s.fadd TSK_IN.COUNT k
  else
    let tn := (s.taskOwner t).getD 0
    if s.fget TSK_IN.COUNT k ≥ 16 ∧ reserved = false then full s
    else if reserved = false ∧ (s.poolHeld tn ≥ s.poolQuota tn ∨ s.fget SCB_POOL.USED ≥ 65536) then
      full (s.fsat SCB_POOL_EXH.COUNT 0)
    else
      let r := s.task t
      let s := s.setTask t { r with queues := tput [] r.queues i (tget [] r.queues i ++ [⟨src, pay.take 12⟩]) }
      let s := s.fadd TSK_IN.COUNT k
      if reserved then s
      else
        let s := ({ s with poolUse := tput 0 s.poolUse tn (s.poolHeld tn + 1) } : State).fadd SCB_POOL.USED 0
        if s.fget SCB_POOL.USED = 57345 then sg s 19 (leB 4 8191) else s

/-- READY of R221: ON, some enabled input has COUNT above 0, and fewer than MULTI general contexts run the task. -/
def State.readyTask (s : State) (t : Nat) : Bool :=
  s.fget TSK_STAT.STATE t == 2 && (List.range 8).any (fun i => nbit (s.fget TSK_IN_CFG.EN t) i && s.fget TSK_IN.COUNT (8 * t + i) != 0)
    && decide (s.fget TSK_STAT.RUNNING t < s.fget TSK_CFG.MULTI t)

/-- Note the moment a task becomes READY (R227): `was` is whether it was before. -/
def State.markReady (s : State) (t : Nat) (was : Bool) : State :=
  if was = false ∧ s.readyTask t then
    ({ s with scb := { s.scb with stamp := s.scb.stamp + 1 } } : State).setTask t { s.task t with readyAt := s.scb.stamp }
  else s

/-- An event reaches a task input, which may make the task READY. -/
def State.deliverWith (sg : State → Nat → List Byte → State) (s : State) (t i src : Nat) (pay : List Byte) (reserved : Bool) : State :=
  (s.deliverRaw sg t i src pay reserved).markReady t (s.readyTask t)

/-! ### Produced records (R282, R283) and interrupts (R288) -/

/-- Raise an interrupt vector of a host: MSI-X for PCIe, the pending bit for the serial port, nothing for MRT (R288, R268). -/
def State.irq (s : State) (h v : Nat) : State :=
  if h ≥ 3 then s
  else
    let a := s.host h
    let masked := nbit (tget 0 a.mask (v / 32)) (v % 32)
    let w := nsetBit (tget 0 a.pend (v / 32)) (v % 32) true
    if h = 2 then
      let s := s.setHost h { a with pend := tput 0 a.pend (v / 32) w }
      if masked then s else s.emit (.pin 5 0 0)
    else if masked then s.setHost h { a with pend := tput 0 a.pend (v / 32) w } else s.emit (.irq h v)

/-- A completion or record that counts towards the ring's interrupt became valid (R288). -/
def State.coalesce (s : State) (r : Nat) (noIrq : Bool) : State :=
  if noIrq ∨ s.fbit RNG_R_IRQ.EN r = false then s
  else
    let g := s.ring r
    if s.fget RNG_R_IRQ.COAL_US r = 0 ∨ g.coal + 1 ≥ s.fget RNG_R_IRQ.COAL_N r then
      (s.setRing r { g with coal := 0 }).irq (s.ringHost r) (s.fget RNG_R_IRQ.VECTOR r)
    else s.setRing r { g with coal := g.coal + 1 }

/-- Entries a produced record of `len` body bytes takes (R282). -/
def State.prodUnits (s : State) (r len : Nat) : Nat :=
  let es := 2 ^ s.fget RNG_R_CFG.ESIZE_LOG2 r
  (8 + len + es - 1) / es

/-- Unconsumed entries of a PRODUCE ring (R283). -/
def State.prodUsed (s : State) (r : Nat) : Nat :=
  let z := s.ringSize r
  (s.fget RNG_R_CQ.TAIL r + z - s.fget RNG_R_CQ.HEAD r) % z

/-- The ring is ON and a record of `len` body bytes has room. -/
def State.prodRoom (s : State) (r len : Nat) : Bool :=
  decide (s.fget RNG_R_STAT.STATE r = 2 ∧ s.prodUsed r + s.prodUnits r len ≤ s.ringSize r - 1)

/-- The bytes of a produced record (R282): header, body. -/
def Prod.bytes (p : Prod) : List Byte := leB 1 p.phase ++ leB 1 p.kind ++ leB 2 p.units ++ leB 2 p.body.length ++ leB 2 0 ++ p.body

/-- Write a record to a PRODUCE ring that has room; a record due for a DOWN host is discarded and counted (R265, R282). An MRT host gets it in a
PROD item that names its first entry (R297). -/
def State.produce (s : State) (r kind : Nat) (body : List Byte) : State :=
  let h := s.ringHost r
  if s.fbit RNG_H_STAT.UP h = false then (s.fsat RNG_R_DROP.COUNT r).fsat RNG_H_LOSTCPL.COUNT h
  else
    let z := s.ringSize r
    let u := s.prodUnits r body.length
    let tail := s.fget RNG_R_CQ.TAIL r
    let ph := s.fget RNG_R_STAT.PHASE r
    let g := s.ring r
    let p : Prod := ⟨ph, kind, u, body⟩
    let s := s.setRing r { g with prods := tput none (g.prods.filter (fun e => !decide ((e.1 + z - tail) % z < u))) tail (some p) }
    let s := if 3 ≤ h ∧ h < 8 then s.mrtItemOut 3 r tail p.bytes else s
    let s := s.fset RNG_R_CQ.TAIL r ((tail + u) % z)
    let s := if tail + u ≥ z then s.fset RNG_R_STAT.PHASE r (1 - ph) else s
    let s := s.fset RNG_R_OUT.COUNT r (s.prodUsed r)
    let s := s.fsat RNG_R_DONE.COUNT r
    s.coalesce r false

/-! ### Event signalling (R289 to R291) -/

/-- The body of an event record (R291). -/
def evtBody (src seq mpt : Nat) (pay : List Byte) : List Byte :=
  leB 2 src ++ leB 1 (min pay.length 12) ++ [0] ++ leB 4 seq ++ leB 8 mpt ++ fit 12 pay ++ leB 4 0

/-- One signal of a source: counted, then delivered to its routed task input and its ring (R291). `dl` delivers to a task. The answer
says whether the ring dropped the record. -/
def State.signalOnce (dl : State → Nat → Nat → Nat → List Byte → State) (s : State) (src : Nat) (pay : List Byte) : Bool × State :=
  let s := s.fadd EVT_S_CNT.COUNT src
  let rt := tget 0 s.rng.routes src
  let s := if nbit rt 15 = false ∧ nbit rt 28 = false then s.fsat EVT_NOROUTE.COUNT 0 else s
  match ownerOf s.ten.active.event src with
  | none => (false, s.fsat EVT_NOOWN.COUNT 0)
  | some _ =>
    if nbit rt 15 = false ∧ nbit rt 28 = false then (false, s)
    else
      let s := if nbit rt 15 then dl s (nbits rt 11 0) (nbits rt 14 12) src pay else s
      if nbit rt 28 = false then (false, s)
      else
        let r := nbits rt 27 16
        if s.prodRoom r 32 then (false, s.produce r 1 (evtBody src (s.fget EVT_S_CNT.COUNT src) s.time.mpt pay))
        else (true, (s.fsat EVT_S_DROP.COUNT src).fsat RNG_R_DROP.COUNT r)

/-- A source signals; a dropped record signals source 29 at most once per second, whose own drop is not followed by another. -/
def State.signalWith (dl : State → Nat → Nat → Nat → List Byte → State) (s : State) (src : Nat) (pay : List Byte) : State :=
  match s.signalOnce dl src pay with
  | (false, s) => s
  | (true, s) =>
    match s.oncePerSec 29 with
    | (false, s) => s
    | (true, s) => (s.signalOnce dl 29 (leB 2 (nbits (tget 0 s.rng.routes src) 27 16))).2

/-- Signals that follow from deliveries of signals, at most `n` deep (log entry 13). -/
def State.signalN : Nat → State → Nat → List Byte → State
  | 0, s, _, _ => s
  | n + 1, s, src, pay => s.signalWith (fun s t i src pay => s.deliverWith (State.signalN n) t i src pay false) src pay

/-- A source signals (R291). -/
def State.signal (s : State) (src : Nat) (pay : List Byte) : State := s.signalN 4 src pay

/-- An event reaches a task input (R216). -/
def State.deliver (s : State) (t i src : Nat) (pay : List Byte) (reserved : Bool := false) : State :=
  s.deliverWith State.signal t i src pay reserved

/-! ### Error registers (R563, R564) -/

/-- The event source that signals a set bit in a block's error register (R564); TEN and PAD signal none. -/
def errSource : Blk → Option Nat
  | .chip => some 5 | .pwr => some 8 | .scb => some 18 | .prm => some 22 | .rng => some 27 | .evt => some 28
  | .res => some 43 | .saf => some 70 | .sto => some 138 | .kv => some 263 | .upd => some 279 | .mpt => some 453
  | .eth => some 460 | .plc => some 575 | .rfm => some 895 | .bal => some 904 | .pip => some 1026 | .ldg => some 1160
  | .ten => none | .pad => none | .db => none

/-- Offset of a block's error register. -/
def errOff : Blk → Nat
  | .chip => 0x40
  | .ten => 0x4
  | _ => 0x100

/-- Signal that bits of a block's error register were set in one access (R564). -/
def State.errSignal (s : State) (b : Blk) : State :=
  match errSource b with
  | none => s
  | some src => s.signal src (leB 4 (s.word b 0 (errOff b) 0) ++ leB 4 (s.word b 0 (errOff b + 4) 0))

/-- Set error bits of one block in one access; `info` writes the block's error-information register first. -/
def State.errSet (s : State) (fs : List Fld) (info : State → State) : State :=
  match fs with
  | [] => s
  | f :: _ => (fs.foldl (fun s g => s.fset g 0 1) (info s)).errSignal f.blk

/-- The error-information field that records a refused write's offset. -/
def infoFld : Blk → Fld
  | .ten => TEN_ERR_ADDR.OFFSET | .scb => SCB_ERR_INFO.OFFSET | .prm => PRM_ERR_INFO.OFFSET | .pip => PIP_ERR_INFO.OFFSET
  | .ldg => LDG_ERR_INFO.OFFSET | .bal => BAL_ERR_INFO.OFFSET | .mpt => MPT_ERR_INFO.OFFSET | .plc => PLC_ERR_INFO.OFFSET
  | .rfm => RFM_ERR_INFO.OFFSET | .kv => KV_ERR_INFO.OFFSET | .upd => UPD_ERR_INFO.OFFSET | .sto => STO_ERR_INFO.OFFSET
  | .res => RES_ERR_INFO.OFFSET | .eth => ETH_ERR_INFO.OFFSET | .saf => SAF_ERR_INFO.OFFSET | .pwr => PWR_ERR_INFO.OFFSET
  | .pad => PAD_ERR_INFO.OFFSET | .rng => RNG_ERR_OFS.OFFSET | .evt => EVT_ERR_INFO.SOURCE | .chip => CHIP_ERR_INFO.OFFSET
  | .db => RNG_ERR_OFS.OFFSET

/-- An error of a block recorded with the offset of the write that caused it. -/
def State.errAt (s : State) (f : Fld) (off : Nat) : State := s.errSet [f] (fun s => s.fset (infoFld f.blk) 0 off)

/-- An error recorded in CHIP_ERR, with the host and the BAR0 offset of the access (R46). -/
def State.chipErr (s : State) (f : Fld) (host addr : Nat) : State :=
  s.errSet [f] (fun s => (s.fset CHIP_ERR_INFO.HOST 0 host).fset CHIP_ERR_INFO.OFFSET 0 addr)

/-- An error recorded in RNG_ERR by a write to the RNG block: host, ring and offset (R300). -/
def State.rngErr (s : State) (f : Fld) (host ring : Nat) (off : Option Nat) : State :=
  s.errSet [f] (fun s =>
    let s := (s.fset RNG_ERR_INFO.HOST 0 host).fset RNG_ERR_INFO.RING 0 ring
    match off with
    | some o => s.fset RNG_ERR_OFS.OFFSET 0 o
    | none => s)

/-! ### Inkwell records (R456 to R461) -/

/-- The record types whose CRIT is 1 (R457). -/
def inkCrit (typ : Nat) : Bool := typ ∈ [1, 2, 3, 4, 0x10, 0x11, 0x20, 0x21, 0x22, 0x40, 0x51]

/-- Bytes of a record: a 16-byte header and the body padded to a multiple of 8 (R456). -/
def InkRec.size (r : InkRec) : Nat := 16 + (r.body.length + 7) / 8 * 8

/-- Bytes of records not yet flushed out of the buffer. -/
def State.inkUnflushed (s : State) : Nat := s.ink.recs.foldl (fun a r => if r.place = .buffer then a + r.size else a) 0

/-- The bytes of a record as R456 lays them out. -/
def InkRec.bytes (r : InkRec) : List Byte :=
  leB 4 (r.size / 8 + r.tenant * 2 ^ 8 + b2n r.crit * 2 ^ 18 + r.typ * 2 ^ 19) ++ leB 4 r.seq ++ leB 4 r.opsec ++ leB 4 r.pcyc
    ++ fit (r.size - 16) r.body

/-- Store one record under the next sequence number, space having been found. -/
def State.inkPut (s : State) (typ tenant : Nat) (body : List Byte) : State :=
  let seq := s.fget INK_SEQ.SEQ
  let r : InkRec := { seq := seq, typ := typ, tenant := tenant, crit := inkCrit typ, opsec := s.fget MPT_OPSEC.SECONDS,
                      pcyc := s.fget MPT_PCYC.COUNT, body := fit ((body.length + 7) / 8 * 8) body }
  let s := { s with ink := { s.ink with recs := s.ink.recs ++ [r] } }
  let s := s.fset INK_SEQ.SEQ 0 (seq + 1)
  s.fset INK_STAT.USED 0 (s.inkUnflushed / 1024)

/-- The body of a GAP record (R461). -/
def gapBody (supp first last reason : Nat) : List Byte := leB 4 supp ++ leB 4 first ++ leB 4 last ++ leB 1 reason ++ [0, 0, 0]

/-- A record reaches the recorder: suppressed while frozen, dropped when no space is left, else stored (R458, R459, R461). -/
def State.inkRec (s : State) (typ tenant : Nat) (body : List Byte) : State :=
  let crit := inkCrit typ
  let op := s.fget MPT_OPSEC.SECONDS
  if s.fget INK_STAT.FREEZE = 2 ∧ crit = false then
    let s := { s with ink := { s.ink with firstOp := if s.fget INK_SUPP.COUNT = 0 then op else s.ink.firstOp, lastOp := op } }
    s.fsat INK_SUPP.COUNT 0
  else
    let room := (if crit then 524288 else 524288 - 16384) - s.inkUnflushed
    let need := 16 + (body.length + 7) / 8 * 8 + (if s.ink.gapDue then 32 else 0)
    if room < need then
      let s := { s with ink := { s.ink with gapDue := true } }
      let s := s.fsat INK_DROP.COUNT 0
      match s.oncePerSec 136 with
      | (true, s) => s.signal 136 []
      | (false, s) => s
    else
      let s := if s.ink.gapDue then
          ({ s with ink := { s.ink with gapDue := false } } : State).inkPut 1 0 (gapBody 0 0 0 4)
        else s
      let s := s.inkPut typ tenant body
      if s.fget INK_STAT.FREEZE = 1 then
        if s.ink.post ≤ 1 then (({ s with ink := { s.ink with post := 0 } } : State).fset INK_STAT.FREEZE 0 2).signal 135 [0]
        else { s with ink := { s.ink with post := s.ink.post - 1 } }
      else s

end Sys2Proof.Machine
end

