-- ==== Sys2Proof/Machine/Access.lean ====
section
/-! DEFINITION. How a host's BAR0 access is judged: the supervisor check, selectors and windows, the lock, ranges and access codes
(R7 to R9, R35 to R38, R563). -/
namespace Sys2Proof.Machine
open Reg

/-- The outcome of a command whose effect is a next state. -/
abbrev Res := Host.Outcome State Fault Refusal

/-- The block's number: its BAR0 offset is this times 1 MiB (R34). -/
def Blk.code : Blk → Nat
  | .chip => 0 | .ten => 1 | .rng => 2 | .evt => 3 | .scb => 4 | .prm => 5 | .pip => 6 | .ldg => 7 | .bal => 8 | .mpt => 9
  | .plc => 10 | .rfm => 11 | .kv => 12 | .upd => 13 | .sto => 14 | .res => 15 | .eth => 16 | .saf => 17 | .pwr => 18 | .pad => 19
  | .db => 20

/-- The BAR0 address of a block offset. -/
def Blk.addr (b : Blk) (off : Nat) : Nat := b.code * 0x100000 + off

/-- The block at a BAR0 address, if one lies there. -/
def blkAt (addr : Nat) : Option Blk :=
  [Blk.chip, .ten, .rng, .evt, .scb, .prm, .pip, .ldg, .bal, .mpt, .plc, .rfm, .kv, .upd, .sto, .res, .eth, .saf, .pwr, .pad][addr / 0x100000]?

/-! ### Selectors (R35 to R37) -/

/-- Bits a block's selector stores; 0 where the block has no selector. -/
def Blk.selMask : Blk → Nat
  | .ten => 0x3FF | .mpt => 0x3F | .pip => 0x3FF | .ldg => 0x3FF | .bal => 0xFFFF | .scb => 0xFFF | .prm => 0x33FF | .rng => 0x8FFF
  | .evt => 0x7FF | .plc => 3 | .rfm => 1 | .kv => 0xFFF | .upd => 0xF | .sto => 0x1FF | .eth => 3 | .pad => 0xF
  | .chip => 0 | .res => 0 | .saf => 0 | .pwr => 0 | .db => 0

/-- A host's copy of a block's selector. -/
def State.sel (s : State) (b : Blk) (host : Nat) : Nat := tget 0 s.sels (32 * b.code + host)

/-- Store a host's copy of a selector; any value its bits can hold (R563). -/
def State.setSel (s : State) (b : Blk) (host v : Nat) : State :=
  { s with sels := tput 0 s.sels (32 * b.code + host) (Nat.land v b.selMask) }

/-- The kind of instance a selector value names. -/
def Blk.selKind (b : Blk) (v : Nat) : Nat :=
  match b with
  | .rng => nbits v 15 15
  | .prm => nbits v 13 12
  | .sto => nbits v 8 8
  | _ => 0

/-- The index a selector value names. -/
def Blk.selIndex (b : Blk) (v : Nat) : Nat :=
  match b with
  | .rng => nbits v 11 0
  | .prm => nbits v 9 0
  | .sto => nbits v 7 0
  | _ => v

/-- Instances of a kind. -/
def Blk.count (b : Blk) (kind : Nat) : Nat :=
  match b with
  | .ten => 1024 | .mpt => 64 | .pip => 1024 | .ldg => 1024 | .bal => 65536 | .scb => 4096
  | .prm => if kind = 0 then 1024 else if kind = 1 then 32 else if kind = 2 then 128 else 0
  | .rng => if kind = 0 then 4096 else 8
  | .evt => 2048 | .plc => 4 | .rfm => 2 | .kv => 4096 | .upd => 16
  | .sto => if kind = 0 then 256 else 8
  | .eth => 3 | .pad => 16
  | .chip => 0 | .res => 0 | .saf => 0 | .pwr => 0 | .db => 0

/-- The instance the host's selector names, if it is below the count (R37). -/
def State.instOf (s : State) (b : Blk) (host : Nat) : Option (Nat × Nat) :=
  let v := s.sel b host
  let k := b.selKind v
  if b.selIndex v < b.count k then some (k, b.selIndex v) else none

/-! ### The gates of a write -/

/-- A block's BAR0 offsets do not answer: in VAULT none does, and after a BOOT that found no set only six blocks do (R412). -/
def State.silent (s : State) (b : Blk) : Bool :=
  s.mode == 0 || (s.pow.limited && !([Blk.chip, .rng, .kv, .pwr, .sto, .upd].contains b))

/-- A BAR0 write of a register that is no selector: only the supervisor host's takes effect (R38). A silent block ignores it. -/
def State.gate (s : State) (host : Nat) (b : Blk) (off : Nat) (body : State → State) : State :=
  if s.silent b then s else if host = s.supv then body s else s.chipErr CHIP_ERR.NOT_SUPV host (b.addr off)

/-- A write in the window of an instance of `kind`: the supervisor check, then the selector's range (R37, R38). A selector that
names another kind makes the offset another register's, so nothing happens here (log entry 2). -/
def State.gateW (s : State) (host : Nat) (b : Blk) (kind off : Nat) (body : Nat → State → State) : State :=
  s.gate host b off (fun s =>
    match s.instOf b host with
    | none => s.chipErr CHIP_ERR.SEL_RANGE host (b.addr off)
    | some (k, i) => if k = kind then body i s else s)

/-- CHIP_LOCK is set. -/
def State.locked (s : State) : Bool := s.fbit CHIP_LOCK.LOCK

/-! ### Field by field (R7, R8, R563) -/

/-- The block's RANGE error bit; MPT has none and sets ALIGN instead. -/
def rangeErr : Blk → Option Fld
  | .scb => some SCB_ERR.RANGE | .prm => some PRM_ERR.RANGE | .pip => some PIP_ERR.RANGE | .ldg => some LDG_ERR.RANGE
  | .bal => some BAL_ERR.RANGE | .mpt => some MPT_ERR.ALIGN | .plc => some PLC_ERR.RANGE | .rfm => some RFM_ERR.RANGE
  | .kv => some KV_ERR.RANGE | .upd => some UPD_ERR.RANGE | .sto => some STO_ERR.RANGE | .res => some RES_ERR.RANGE
  | .eth => some ETH_ERR.RANGE | .saf => some SAF_ERR.RANGE | .pwr => some PWR_ERR.RANGE | .pad => some PAD_ERR.RANGE
  | .rng => some RNG_ERR.RANGE
  | .chip => none | .ten => none | .evt => none | .db => none

/-- Record an out-of-range write of a block (R563). RNG records the host and the ring selected as well (R300). -/
def State.rangeFault (s : State) (b : Blk) (host off : Nat) : State :=
  match b with
  | .rng => s.rngErr RNG_ERR.RANGE host (b.selIndex (s.sel b host)) (some off)
  | _ =>
    match rangeErr b with
    | some f => s.errAt f off
    | none => s

/-- A value lies in a field's stated range. -/
def Fld.inRange (f : Fld) (v : Nat) : Bool := f.ranges.isEmpty || f.ranges.any (fun r => decide (r.1 ≤ v ∧ v ≤ r.2))

/-- The field's value in a written word. -/
def Fld.of (f : Fld) (w : Nat) : Nat := w / 2 ^ f.lsb % f.span

/-- A write stores this field. -/
def Fld.stored (f : Fld) (locked : Bool) : Bool :=
  match f.acc with
  | .rw => true | .rws => true | .rwl => !locked | _ => false

/-- What a write does to one field. -/
def State.writeFld (s : State) (f : Fld) (i w : Nat) : State :=
  match f.acc with
  | .rw => s.fset f i (f.of w)
  | .rws => s.fset f i (f.of w)
  | .rwl => if s.locked then s else s.fset f i (f.of w)
  | .w1c => s.fset f i (s.fget f i - Nat.land (s.fget f i) (f.of w))
  | .w1s => s.fset f i (Nat.lor (s.fget f i) (f.of w))
  | .ro => s
  | .wo => s

/-- Fields of a register: the block's fields of a kind whose row of equal registers reaches the offset; with the row's index. -/
def fieldsAt (b : Blk) (kind off : Nat) : List (Fld × Nat) :=
  (tabOf b).filterMap (fun f =>
    if f.kind = kind ∧ f.off ≤ off ∧ (off = f.off ∨ (f.stride ≠ 0 ∧ (off - f.off) % f.stride = 0 ∧ (off - f.off) / f.stride < f.cnt))
    then some (f, if f.stride = 0 then 0 else (off - f.off) / f.stride) else none)

/-- A locked RWL field would change (R7). -/
def State.rwlClash (s : State) (fs : List (Fld × Nat)) (inst w : Nat) : Bool :=
  s.locked && fs.any (fun f => f.1.acc == .rwl && s.fget f.1 (inst * f.1.cnt + f.2) != f.1.of w)

/-- Report a write that would change a locked RWL field (R7). -/
def State.rwlReport (s : State) (host : Nat) (b : Blk) (kind off inst w : Nat) : State :=
  if s.rwlClash (fieldsAt b kind off) inst w then s.chipErr CHIP_ERR.RWL_WRITE host (b.addr off) else s

/-- Write one register: report a locked change, discard the whole write on a value out of range, else act field by field. The
answer says whether the write was carried out. -/
def State.writeReg (s : State) (host : Nat) (b : Blk) (kind off inst w : Nat) : Bool × State :=
  let fs := fieldsAt b kind off
  let s := s.rwlReport host b kind off inst w
  if fs.all (fun f => !f.1.stored s.locked || f.1.inRange (f.1.of w)) then
    (true, fs.foldl (fun s f => s.writeFld f.1 (inst * f.1.cnt + f.2) w) s)
  else (false, s.rangeFault b host off)

end Sys2Proof.Machine
end

