-- ==== Sys2Proof/Machine/Lifecycle.lean ====
section
/-! DEFINITION. The lifecycle of every enable-able unit (R29 to R33). -/
namespace Sys2Proof.Machine
open Reg

/-- A unit's ENABLE, STATE, ENABLE_LATCHED and GEN fields. -/
structure Life where
  en : Fld
  st : Fld
  lat : Fld
  gen : Fld
deriving DecidableEq, Repr

def lifeTen : Life := ⟨TEN_CTRL.ENABLE, TEN_STAT.STATE, TEN_STAT.ENABLE_LATCHED, TEN_STAT.GEN⟩
def lifeRing : Life := ⟨RNG_R_CTRL.ENABLE, RNG_R_STAT.STATE, RNG_R_STAT.ENABLE_LATCHED, RNG_R_STAT.GEN⟩
def lifeTask : Life := ⟨TSK_CTRL.ENABLE, TSK_STAT.STATE, TSK_STAT.ENABLE_LATCHED, TSK_STAT.GEN⟩
def lifeQueue : Life := ⟨Q_CTRL.ENABLE, Q_STAT.STATE, Q_STAT.ENABLE_LATCHED, Q_STAT.GEN⟩
def lifeTable : Life := ⟨T_CTRL.ENABLE, T_STAT.STATE, T_STAT.ENABLE_LATCHED, T_STAT.GEN⟩
def lifeLock : Life := ⟨L_CTRL.ENABLE, L_STAT.STATE, L_STAT.ENABLE_LATCHED, L_STAT.GEN⟩
def lifeLane : Life := ⟨PLC_L_CTRL.ENABLE, PLC_L_STAT.STATE, PLC_L_STAT.ENABLE_LATCHED, PLC_L_STAT.GEN⟩
def lifeRadio : Life := ⟨RFM_R_CTRL.ENABLE, RFM_R_STAT.STATE, RFM_R_STAT.ENABLE_LATCHED, RFM_R_STAT.GEN⟩
def lifeMet : Life := ⟨BAL_MET_CTRL.ENABLE, BAL_MET_STAT.STATE, BAL_MET_STAT.ENABLE_LATCHED, BAL_MET_STAT.GEN⟩
def lifeNode : Life := ⟨BAL_N_CTRL.ENABLE, BAL_N_STAT.STATE, BAL_N_STAT.ENABLE_LATCHED, BAL_N_STAT.GEN⟩
def lifePort : Life := ⟨ETH_P_CTRL.ENABLE, ETH_P_STAT.STATE, ETH_P_STAT.ENABLE_LATCHED, ETH_P_STAT.GEN⟩
def lifeCmp : Life := ⟨MPT_CMP_CTRL.ENABLE, MPT_CMP_STAT.STATE, MPT_CMP_STAT.ENABLE_LATCHED, MPT_CMP_STAT.GEN⟩

/-- OFF to ON, or DRAINING to ON: GEN increments (R29). -/
def State.turnOn (s : State) (u : Life) (i : Nat) : State :=
  (((s.fset u.en i 1).fset u.st i 2).fset u.lat i 0).fadd u.gen i

/-- To OFF. -/
def State.turnOff (s : State) (u : Life) (i : Nat) : State := ((s.fset u.en i 0).fset u.st i 0).fset u.lat i 0

/-- A write of ENABLE (R29): `start` turns the unit ON if its own conditions hold, `drain` resolves what is in flight. -/
def State.enableWrite (s : State) (u : Life) (i : Nat) (v : Bool) (start drain : State → State) : State :=
  match s.fget u.st i with
  | 0 => if v then start s else s.fset u.en i 0
  | 2 => if v then s.fset u.en i 1 else drain ((s.fset u.en i 0).fset u.st i 1)
  | _ => (s.fset u.en i (b2n v)).fset u.lat i (b2n v)

/-- The last old-generation completion is delivered (R29). -/
def State.drainDone (s : State) (u : Life) (i : Nat) (start : State → State) : State :=
  if s.fget u.st i ≠ 1 then s
  else
    let again := s.fbit u.lat i
    let s := s.turnOff u i
    if again then start s else s

/-! ### Trial faults (R417) -/

/-- The bank whose state has a code; 2 if none. -/
def State.bankIn (s : State) (c : Nat) : Nat :=
  if s.fget UPD_BANK_A.STATE = c then 0 else if s.fget UPD_BANK_B.STATE = c then 1 else 2

/-- A trial fault is latched while a bank is TRIAL; its restore is carried out next (R417; log entry 37). -/
def State.trialFault (s : State) : State := if s.bankIn 4 = 2 then s else { s with upd := { s.upd with trialFault := true } }

end Sys2Proof.Machine
end

