-- ==== Sys2Proof/Machine/Complete.lean ====
section
/-! DEFINITION. What every engine uses to answer a ring: completion entries, and the start of a descriptor that has passed its check
(R274 to R281). -/
namespace Sys2Proof.Machine
open Reg

/-! ### Completion entries -/

/-- The 32 bytes of a completion entry (R279). -/
def Cpl.bytes (c : Cpl) : List Byte :=
  leB 8 c.user ++ leB 2 c.slot ++ leB 1 c.status ++ leB 1 c.opcode ++ leB 1 c.gen ++ [0, 0] ++ leB 1 c.phase ++ fit 16 c.result

/-- Completion slots reserved and not yet consumed (R281). -/
def State.cqUsed (s : State) (r : Nat) : Nat :=
  let z := s.ringSize r
  (s.fget RNG_R_CQ.TAIL r + z - s.fget RNG_R_CQ.HEAD r) % z

/-- The descriptor outstanding in a slot. -/
def State.desc (s : State) (r slot : Nat) : Option Desc := tget none (s.ring r).descs slot

/-- Store a descriptor's progress. -/
def State.setDesc (s : State) (r slot : Nat) (d : Option Desc) : State :=
  let g := s.ring r
  s.setRing r { g with descs := tput none g.descs slot d }

/-- Reserve the next completion slot for a descriptor; none when every one is reserved (R280, R281). -/
def State.reserveCq (s : State) (r slot : Nat) : Option State :=
  match s.desc r slot with
  | none => none
  | some d =>
    if d.cqSlot.isSome then some s
    else
      let z := s.ringSize r
      if s.cqUsed r ≥ z - 1 then none
      else
        let tail := s.fget RNG_R_CQ.TAIL r
        let ph := s.fget RNG_R_STAT.PHASE r
        let s := s.setDesc r slot (some { d with cqSlot := some (tail, ph) })
        let s := s.fset RNG_R_CQ.TAIL r ((tail + 1) % z)
        some (if tail + 1 ≥ z then s.fset RNG_R_STAT.PHASE r (1 - ph) else s)

/-- RNG_R_STAT.WAIT_CQ (R281): a completion waits for a slot, or an INGEST at its commit does while none is free. -/
def State.waitsCq (s : State) (r : Nat) : Bool :=
  let full := decide (s.cqUsed r ≥ s.ringSize r - 1)
  (s.ring r).order.any (fun x => match s.desc r x with
    | some d => (match d.st with | .waitCq _ _ => true | _ => full && d.cqSlot.isNone && s.pip.tags.any (fun e => e.2.st == 1 && e.2.stage == 8 && e.2.origin == .ring r x d.gen))
    | none => false)

/-- Forget a descriptor: its slot may be fetched again. Its MRT buffer space is free again (R298). -/
def State.dropDesc (s : State) (r slot : Nat) : State :=
  let g := s.ring r
  let s := s.setRing r { g with descs := tput none g.descs slot none, order := g.order.filter (· != slot), stored := tput none g.stored slot none }
  s.fset RNG_R_OUT.COUNT r (s.ring r).order.length

/-- Write a completion entry to its slot (R279); an MRT host gets it in a CPL item (R297). -/
def State.putCpl (s : State) (r q : Nat) (c : Cpl) : State :=
  let h := s.ringHost r
  let g := s.ring r
  let s := s.setRing r { g with cpls := tput none g.cpls q (some c) }
  if h ≥ 3 then s.mrtItemOut 2 r q c.bytes else s

/-- Post a descriptor's completion: discarded and counted for a DOWN host (R265), held for want of a slot (R281), else written. -/
def State.postCpl (s : State) (r slot status : Nat) (result : List Byte) : State :=
  match s.desc r slot with
  | none => s
  | some d =>
    let h := s.ringHost r
    if s.fbit RNG_H_STAT.UP h = false then
      ((s.dropDesc r slot).fsat RNG_R_DROP.COUNT r).fsat RNG_H_LOSTCPL.COUNT h
    else
      match s.reserveCq r slot with
      | none => s.setDesc r slot (some { d with st := .waitCq status result })
      | some s =>
        let (q, ph) := ((s.desc r slot).bind (·.cqSlot)).getD (0, 0)
        let c : Cpl := ⟨d.user, slot, status, d.opcode, d.gen, ph, fit 16 result⟩
        let s := s.putCpl r q c
        let s := (s.dropDesc r slot).fsat RNG_R_DONE.COUNT r
        s.coalesce r (nbit d.flags 0)

/-- The tenant that owns a ring in the active bank (tenant 0 where the entry is not VALID). -/
def State.ringTenant (s : State) (r : Nat) : Nat := (s.ten.active.ringOwner r).getD 0

/-- Complete a descriptor with a status; PROTECTION is counted for its tenant (R47). -/
def State.completeDesc (s : State) (r slot status : Nat) (result : List Byte := []) : State :=
  let s := if status = 0x23 then s.protCount (((s.desc r slot).map (·.tenant)).getD (s.ringTenant r)) else s
  s.postCpl r slot status result

/-! ### Starting a descriptor -/

/-- The reading an INGEST descriptor starts (R80): its operand area is bytes 0x10 to 0x3F, so offset 0 here is 0x10. -/
def ingestReading (r slot : Nat) (d : Desc) : Reading :=
  let area := d.area
  let fl := leAt area 0x0A 1
  { st := 0, stage := 0, tenant := d.tenant, origin := .ring r slot d.gen, prio := d.prio, host := d.host, epoch := d.epoch
    bufAddr := leAt area 0 8
    len := leAt area 8 2
    hint := if nbit fl 0 then some (nbits (leAt area 0x0C 4) 20 0) else none
    alt := nbit (leAt area 0x0B 1) 7
    title := slice area 0x10 8
    rxTime := if nbit fl 2 then some (leAt area 0x18 6, leAt area 0x1E 2) else none
    digest := if nbit fl 1 then some (slice area 0x20 8) else none }

/-- Selected grid time: seconds and nanoseconds of the domain MPT_GRID_SEL names (R62). -/
def State.gridNow (s : State) : Nat × Nat :=
  if s.fget MPT_GRID_SEL.DOMAIN = 0 then s.time.gt0.now else s.time.gt1.now

/-- Start an INGEST: the reading waits for its APDU; on an MRT ring the APDU came with the descriptor (R80). A reading without
a receipt time takes the selected grid time at fetch. -/
def State.startIngest (s : State) (r slot : Nat) (d : Desc) : State :=
  let rd := ingestReading r slot d
  let rd := match rd.rxTime with
    | some _ => rd
    | none => { rd with rxTime := if s.fbit MPT_TIME_OK.CAL_OK then some (s.gridNow.1, s.gridNow.2 / 1000000) else none }
  let inline := match tget none (s.ring r).stored slot with
    | some b => if s.ringHost r ≥ 3 then some ((b.drop 64).take rd.len) else none
    | none => none
  let rd := if rd.len = 0 ∨ rd.len > 4096 then { rd with stage := 1 }
    else match inline with
      | some b => { rd with apdu := b, stage := 1 }
      | none => { rd with tries := 1 }
  let s := s.setDesc r slot (some { d with st := .running })
  { s with pip := { s.pip with pre := tput {} s.pip.pre (r * 65536 + slot) rd } }

/-- Window offset of a ring's command-area entry for a slot (R276). -/
def State.cmdEntry (s : State) (r slot : Nat) : Nat :=
  s.fget RNG_R_TASK.CMDA r * 64 + 64 * (slot % 2 ^ s.fget RNG_R_TASK.CMDA_LOG2 r)

/-- Data-store address of a task's window offset (R231). -/
def State.winAddr (s : State) (task off : Nat) : Nat := s.fget TSK_DATA.BASE task * 4096 + off

/-- Store bytes in the data store. -/
def State.dwrite (s : State) (a : Nat) : List Byte → State
  | [] => s
  | b :: t => ({ s with dstore := tput 0 s.dstore a b } : State).dwrite (a + 1) t

/-- `n` bytes of the data store. -/
def State.dread (s : State) (a : Nat) : Nat → List Byte
  | 0 => []
  | n + 1 => tget 0 s.dstore a :: s.dread (a + 1) n

/-- The 64 bytes of a descriptor, as copied to the command area. -/
def Desc.bytes (d : Desc) : List Byte := leB 1 d.opcode ++ leB 1 d.flags ++ fit 6 d.resv ++ leB 8 d.user ++ fit 48 d.area

/-- The 12-byte payload of a delivered TASK_CMD (R276). -/
def State.cmdPayload (s : State) (r slot : Nat) (d : Desc) : List Byte :=
  leB 2 r ++ leB 2 slot ++ leB 2 (s.cmdEntry r slot / 64) ++ leB 1 d.gen ++ leB 1 (s.ringHost r) ++ slice d.area 0 4

/-- The command-area entry of a slot holds no uncompleted delivered command. -/
def State.entryFree (s : State) (r slot : Nat) : Bool :=
  let n := 2 ^ s.fget RNG_R_TASK.CMDA_LOG2 r
  (s.ring r).order.all (fun x => x == slot || x % n != slot % n ||
    match s.desc r x with
    | some d => d.opcode != 2 || (d.st != .running && d.st != .waitPrio0)
    | none => true)

/-- Deliver a TASK_CMD if its entry, input 5 and the pool quota allow; otherwise it waits (R276). One whose task is no longer its tenant's ends with
PROTECTION (R17). A priority-0 command joins the
priority-0 queue instead (R223). -/
def State.deliverCmd (s : State) (r slot : Nat) : State :=
  match s.desc r slot with
  | none => s
  | some d =>
    let t := s.fget RNG_R_TASK.TASK r
    let tn := (s.taskOwner t).getD 0
    if s.taskOwner t ≠ some d.tenant then s.completeDesc r slot 0x23
    else if s.entryFree r slot = false then s.setDesc r slot (some { d with st := .waitDeliver })
    else if d.prio = 0 then
      let s := s.dwrite (s.winAddr t (s.cmdEntry r slot)) d.bytes
      let s := s.setDesc r slot (some { d with st := .waitPrio0 })
      { s with rng := { s.rng with prio0 := s.rng.prio0 ++ [(t, r, slot)] } }
    else if s.fget TSK_IN.COUNT (8 * t + 5) ≥ 16 ∨ s.poolHeld tn ≥ s.poolQuota tn ∨ s.fget SCB_POOL.USED ≥ 65536 then
      s.setDesc r slot (some { d with st := .waitDeliver })
    else if nbit (s.fget TSK_IN_CFG.EN t) 5 = false then (s.fsat TSK_DISCARD.COUNT t).completeDesc r slot 0x21
    else
      let s := s.dwrite (s.winAddr t (s.cmdEntry r slot)) d.bytes
      let s := s.setDesc r slot (some { d with st := .running })
      s.deliver t 5 2051 (s.cmdPayload r slot d)

/-- Start a descriptor whose check has passed and whose fence is open, by its opcode (R274). -/
def State.startDesc (s : State) (r slot : Nat) : State :=
  match s.desc r slot with
  | none => s
  | some d =>
    if d.opcode = 0 then s.completeDesc r slot 0
    else if d.opcode = 1 then s.startIngest r slot d
    else if d.opcode = 2 then
      if s.taskOwner (s.fget RNG_R_TASK.TASK r) = some d.tenant ∧ s.fget TSK_STAT.STATE (s.fget RNG_R_TASK.TASK r) ≠ 2 then s.completeDesc r slot 0x21
      else s.deliverCmd r slot
    else s.completeDesc r slot 0x23

/-- Let a ring go on after a completion or a consumed slot: post the completions that waited for a slot, and start the fenced
descriptor that is now the oldest, at most `n` times. -/
def State.ringAdvance (s : State) (r : Nat) : Nat → State
  | 0 => s
  | n + 1 =>
    let g := s.ring r
    match g.order.find? (fun x => match s.desc r x with | some d => (match d.st with | .waitCq _ _ => true | _ => false) | none => false) with
    | some x =>
      match s.desc r x with
      | some d =>
        match d.st with
        | .waitCq st res =>
          if s.cqUsed r ≥ s.ringSize r - 1 ∧ d.cqSlot.isNone then s
          else (s.postCpl r x st res).ringAdvance r n
        | _ => s
      | none => s
    | none =>
      match g.order with
      | x :: _ =>
        match s.desc r x with
        | some d => if d.st = .fenced then (s.startDesc r x).ringAdvance r n else s
        | none => s
      | [] => s

/-- Complete a descriptor and let its ring go on. -/
def State.finishDesc (s : State) (r slot status : Nat) (result : List Byte := []) : State :=
  let s := s.completeDesc r slot status result
  s.ringAdvance r ((s.ring r).order.length + 1)

end Sys2Proof.Machine
end

