-- ==== Sys2Proof/Machine/Readings.lean ====
section
/-! DEFINITION. Transaction tags and the end of a reading: allocation, the ENDING state, result areas, completions and
notifications (R83, R89 to R94, R105, R114, R115, R126, R128). -/
namespace Sys2Proof.Machine
open Reg

/-- A tag's record. -/
def State.tag (s : State) (i : Nat) : Reading := tget {} s.pip.tags i

/-- Store a tag's record. -/
def State.setTag (s : State) (i : Nat) (r : Reading) : State := { s with pip := { s.pip with tags := tput {} s.pip.tags i r } }

/-- A 64-bit register pair. -/
def State.get64 (s : State) (lo hi : Fld) (i : Nat := 0) : Nat := s.fget lo i + s.fget hi i * 2 ^ 32

/-- Store a 64-bit register pair. -/
def State.set64 (s : State) (lo hi : Fld) (i v : Nat) : State := (s.fset lo i (v % 2 ^ 32)).fset hi i (v / 2 ^ 32)

/-! ### Route entries (R128) -/

/-- Byte field of a tenant's route entry. -/
def State.route (s : State) (t off n : Nat) : Nat :=
  tget 0 s.pip.routes (8 * t + off / 4) / 2 ^ (8 * (off % 4)) % 2 ^ (8 * n)

/-- A task field of the route entry (0 parse, 2 plausibility, 4 notify), if VALID. -/
def State.routeTask (s : State) (t off : Nat) : Option Nat :=
  let w := s.route t off 2
  if nbit w 15 then some (nbits w 11 0) else none

/-- A bit of POLICY: 0 AUTH_ONLY, 1 RAW_OK, 2 PLAIN_OK, 3 DEV_ADD. -/
def State.policy (s : State) (t b : Nat) : Bool := nbit (s.route t 0x0C 1) b

/-! ### Staging (R83) -/

/-- Give up a reading's staging slot. -/
def State.unstage (s : State) (r : Reading) : State := if r.onchip then s.fsub PIP_STAGING.ONCHIP 0 else s

/-! ### Results -/

/-- The result area of R115; the tag is 0 for a reading that got none. -/
def resultArea (r : Reading) (stage reason retry tagIdx tagGen : Nat) : List Byte :=
  leB 4 (r.ledger.getD 0 + stage * 2 ^ 24) ++ leB 4 r.ic ++ leB 2 r.flags
    ++ leB 1 reason ++ leB 1 retry ++ leB 4 (tagIdx + tagGen * 2 ^ 16)

/-- Count a reading's end for its tenant (R126). -/
def State.countEnd (s : State) (t status : Nat) : State :=
  match status with
  | 0x00 => s.fsat PIP_T_OK.COUNT t
  | 0x01 => s.fsat PIP_T_OK.COUNT t
  | 0x02 => s.fsat PIP_T_OK.COUNT t
  | 0x30 => s.fsat PIP_T_OK.COUNT t
  | 0x10 => s.fsat PIP_T_AUTH.COUNT t
  | 0x11 => s.fsat PIP_T_REPLAY.COUNT t
  | 0x12 => s.fsat PIP_T_IMPL.COUNT t
  | 0x24 => s.fsat PIP_T_NOCRED.COUNT t
  | 0x20 => s.fsat PIP_T_TMO.COUNT t
  | 0x21 => s.fsat PIP_T_CANCEL.COUNT t
  | _ => s.fsat PIP_T_OTHER.COUNT t

/-- RETRY_AFTER of a NO_CREDIT completion: 0, which gives no estimate (R115; log entry 9). -/
def retryAfter : Nat := 0

/-- End a ring reading that has no tag: completion, counters, record dropped. -/
def State.endPre (s : State) (key status reason : Nat) : State :=
  let r := tget {} s.pip.pre key
  let s := { s with pip := { s.pip with pre := tput {} s.pip.pre key {} } }
  let s := s.countEnd r.tenant status
  s.finishDesc (key / 65536) (key % 65536) status (resultArea r r.stage reason (if status = 0x24 then retryAfter else 0) 0 0)

/-- Queued lock requests of a tag's commit are purged (R90). -/
def State.purgePipe (s : State) (i : Nat) : State :=
  { s with ldg := { s.ldg with locks := (s.ldg.locks.map (fun (e : Nat × LLock) => (e.1, { e.2 with waiters := e.2.waiters.filter (fun w => w.who != .pipe i) }))).filter (fun e => e.2 != {}) } }

/-- A task's queued events that carry a full tag are purged (R90): those the pipeline queued to its inputs 1 and 2. -/
def State.purgeTask (s : State) (t full : Nat) : State :=
  [1, 2].foldl (fun (s : State) i =>
    let q := tget [] (s.task t).queues i
    let q' := q.filter (fun e => !(e.src == 2048 && leAt e.pay 0 4 == full))
    let n := q.length - q'.length
    let tn := (s.taskOwner t).getD 0
    if n = 0 then s
    else
      let s := s.setTask t { s.task t with queues := tput [] (s.task t).queues i q' }
      let s := s.fsub TSK_IN.COUNT (8 * t + i) n
      ({ s with poolUse := tput 0 s.poolUse tn (s.poolHeld tn - n) } : State).fsub SCB_POOL.USED 0 n) s

/-- Queued work of a tag's generation is purged when it gets a new one (R90, R93): lock requests, task events, and the key fill it alone waits for,
which is no longer retried and whose answer is discarded (R118). -/
def State.purgeTag (s : State) (i : Nat) : State :=
  let r := s.tag i
  let full := i + r.gen * 2 ^ 16
  let s := s.purgePipe i
  let s := [0, 2].foldl (fun (s : State) off => match s.routeTask r.tenant off with | some t => s.purgeTask t full | none => s) s
  if r.waitFill = false ∨ s.pip.tags.any (fun e => e.1 != i && e.2.st == 1 && e.2.waitFill && e.2.ledger == r.ledger) then s
  else { s with pip := { s.pip with fills := s.pip.fills.map (fun f => if some f.ledger = r.ledger then { f with dead := true } else f) } }

/-- Move an ACTIVE tag to ENDING with a status (R90). `newGen` on a timeout or a cancellation, which purges queued work. -/
def State.endTag (s : State) (i status reason : Nat) (newGen : Bool := false) : State :=
  let r := s.tag i
  if r.st ≠ 1 then s
  else
    let s := (if newGen then s.purgeTag i else s).unstage r
    s.setTag i { r with st := 3, status := status, reason := reason, endGen := r.gen, onchip := false, waitFill := false
                        gen := if newGen then (r.gen + 1) % 256 else r.gen }

/-- Source 1024 is signalled once each time the free tags fall below RESERVE × 64 + 1,024 (R124). -/
def State.lowCheck (s : State) : State :=
  let low := decide (65536 - s.fget PIP_TAGS.IN_FLIGHT < s.fget PIP_CFG.RESERVE * 64 + 1024)
  let was := s.pip.lowSignalled
  let s := { s with pip := { s.pip with lowSignalled := low } }
  if low ∧ was = false then s.signal 1024 [] else s

/-- Free a tag: GEN increments, the tenant's count falls (R90). -/
def State.freeTag (s : State) (i : Nat) : State :=
  let r := s.tag i
  let s := s.setTag i { gen := (r.gen + 1) % 256 }
  let s := { s with pip := { s.pip with freed := s.pip.freed ++ [i] } }
  ((s.fsub TEN_TAGS.IN_FLIGHT r.tenant).fsub PIP_TAGS.IN_FLIGHT 0).lowCheck

/-- Post a reading's completion, or deliver its notification, and free its tag (R90, R114). `gen` is the generation under which
the reading was issued. A field reading that ends before its commit has no COMMIT_SEQ to notify: it is counted only (log entry 15). -/
def State.postReading (s : State) (i : Nat) (gen status : Nat) : State :=
  let r := s.tag i
  let s := s.countEnd r.tenant status
  let s := { s with ldg := { s.ldg with ten := tput {} s.ldg.ten r.tenant (let j := tget ({} : TenJ) s.ldg.ten r.tenant; { j with tags := tput 0 j.tags r.commitSeq 0 }) } }
  let s := match r.origin with
    | .ring q slot _ => s.finishDesc q slot status (resultArea r r.stage r.reason 0 i gen)
    | _ =>
      if r.st ≠ 2 then s
      else match s.routeTask r.tenant 4 with
      | some t => if s.fget TSK_STAT.STATE t = 2 then s.deliver t 3 2048 (leB 4 (i + gen * 2 ^ 16) ++ leB 8 r.commitSeq)
                  else s.fsat PIP_T_OTHER.COUNT r.tenant
      | none => s.fsat PIP_T_OTHER.COUNT r.tenant
  s.freeTag i

/-- The final status of a committed reading (R12): LOCK_BROKEN, else OK_INTERPOLATED, else OK_SINGLE_COPY, else OK. -/
def Reading.finalStatus (r : Reading) : Nat :=
  if r.lockBroken then 0x30 else if nbit r.flags 7 then 0x02 else if nbit r.flags 2 then 0x01 else 0x00

/-- Cancel every ACTIVE tag that a condition picks (R90: an owner enters DRAINING). -/
def State.cancelTags (s : State) (p : Reading → Bool) : State :=
  s.pip.tags.foldl (fun s e => if e.2.st = 1 ∧ p e.2 then s.endTag e.1 0x21 0 true else s) s

/-- Cancel every ring reading without a tag that a condition picks. -/
def State.cancelPre (s : State) (p : Nat → Reading → Bool) : State :=
  s.pip.pre.foldl (fun s e => if p e.1 e.2 then s.endPre e.1 0x21 0 else s) s

end Sys2Proof.Machine
end

