-- ==== Sys2Proof/Machine/Flash.lean ====
section
/-! DEFINITION. NAND blocks and the append log of a partition (R442, R444), used by the journal, the archive, the recorder and flash work items. -/
namespace Sys2Proof.Machine
open Reg

/-- Bytes of a NAND page (R464 STO_NAND_GEOM.PAGE). -/
def State.pageBytes (s : State) : Nat := 4096 * 2 ^ s.fget STO_NAND_GEOM.PAGE

/-- Bytes of a NAND block. -/
def State.blockBytes (s : State) : Nat := s.pageBytes * s.fget STO_NAND_GEOM.PPB

/-- A partition's contents. -/
def State.part (s : State) (p : Nat) : Part := tget {} s.parts p

/-- Store a partition's contents. -/
def State.setPart (s : State) (p : Nat) (v : Part) : State := { s with parts := tput {} s.parts p v }

/-- HEAD and TAIL of an APPEND partition. -/
def State.partHead (s : State) (p : Nat) : Nat := s.fget P_HEAD_LO.POS_LO p + s.fget P_HEAD_HI.POS_HI p * 2 ^ 32

/-- TAIL of an APPEND partition. -/
def State.partTail (s : State) (p : Nat) : Nat := s.fget P_TAIL_LO.POS_LO p + s.fget P_TAIL_HI.POS_HI p * 2 ^ 32

/-- Store HEAD. -/
def State.setHead (s : State) (p v : Nat) : State := (s.fset P_HEAD_LO.POS_LO p (v % 2 ^ 32)).fset P_HEAD_HI.POS_HI p (v / 2 ^ 32)

/-- Store TAIL. -/
def State.setTail (s : State) (p v : Nat) : State := (s.fset P_TAIL_LO.POS_LO p (v % 2 ^ 32)).fset P_TAIL_HI.POS_HI p (v / 2 ^ 32)

/-- The largest HEAD − TAIL: (SIZE − 1) × block size (R442). -/
def State.partCap (s : State) (p : Nat) : Nat := (s.fget P_SIZE.BLOCKS p - 1) * s.blockBytes

/-- NAND takes writes: STATE is READY. -/
def State.nandReady (s : State) : Bool := s.fget STO_NAND_STAT.STATE == 4

/-- A partition is laid out as an APPEND partition. -/
def State.isAppend (s : State) (p : Nat) : Bool := s.fbit P_CFG.VALID p && s.fbit P_CFG.KIND p

/-! ### Physical blocks (R444) -/

/-- A physical block's record. -/
def State.phys (s : State) (b : Nat) : Phys := tget {} s.nand.phys b

/-- Store a physical block's record. -/
def State.setPhys (s : State) (b : Nat) (v : Phys) : State := { s with nand := { s.nand with phys := tput {} s.nand.phys b v } }

/-- The die of a block, and its number on the die. -/
def dieOf (b : Nat) : Nat := b / 16384

/-- Of two blocks the one with fewer erases, the first on a tie. -/
def State.lesserWorn (s : State) (a : Option Nat) (b : Nat) : Option Nat :=
  match a with
  | none => some b
  | some x => if (s.phys b).erases < (s.phys x).erases then some b else some x

/-- The FREE block of a die with the lowest erase count (R444). -/
def State.freeOf (s : State) (die : Nat) : Option Nat :=
  (List.range (s.fget STO_NAND_GEOM.BPD)).foldl (fun a k => if (s.phys (die * 16384 + k)).st = 0 then s.lesserWorn a (die * 16384 + k) else a) none

/-- Take a block for writing among a mask of dies: OPEN. Among the dies' candidates the least worn is taken (log entry 31). -/
def State.takeBlk (s : State) (mask : Nat) (owner : Option Nat) : Option (Nat × State) :=
  match (List.range 8).foldl (fun a d => if nbit mask d then (match s.freeOf d with | some b => s.lesserWorn a b | none => a) else a) none with
  | none => none
  | some b => some (b, s.setPhys b { st := 1, erases := (s.phys b).erases, owner := owner })

/-- A block whose content is wanted no more becomes STALE; one on its way to RETIRED keeps that way (R444). -/
def State.stale (s : State) (b : Nat) : State :=
  let v := s.phys b
  if v.st = 1 ∨ v.st = 2 ∨ v.st = 3 then s.setPhys b { v with st := 5, owner := none, from_ := none } else s

/-- P_USED follows the blocks that hold current data (R465). -/
def State.partUsed (s : State) (p : Nat) : State :=
  let v := s.part p
  s.fset P_USED.BLOCKS p (if s.fbit P_CFG.KIND p then v.chain.length else v.map.length + v.logs.length + v.merging.length)

/-! ### APPEND partitions (R442) -/

/-- Blocks of an APPEND partition, from the one that holds TAIL to the one that holds the last byte. -/
def State.chainFit (s : State) (p : Nat) : Nat → State
  | 0 => s
  | n + 1 =>
    let v := s.part p
    let bs := s.blockBytes
    if bs = 0 ∨ v.chain.length ≥ (s.partHead p + bs - 1) / bs - s.partTail p / bs then s
    else match s.takeBlk (s.fget P_CFG.DIES p) (some p) with
      | none => s
      | some (b, s) => (s.setPart p { v with chain := v.chain ++ [b] }).chainFit p n

/-- TAIL moves to a position: the bytes before it go, and every block it has passed becomes STALE. -/
def State.moveTail (s : State) (p pos : Nat) : State :=
  let v := s.part p
  let t := s.partTail p
  let bs := s.blockBytes
  let n := if bs = 0 then 0 else pos / bs - t / bs
  let s := (v.chain.take n).foldl (fun s b => s.stale b) s
  ((s.setPart p { v with bytes := v.bytes.drop (pos - t), chain := v.chain.drop n }).setTail p pos).partUsed p

/-- The pages, as block and page, that a range of positions of an APPEND partition touches. -/
def State.appendPages (s : State) (p from_ len : Nat) : List (Nat × Nat) :=
  let pg := s.pageBytes
  let bs := s.blockBytes
  if len = 0 ∨ bs = 0 then []
  else (List.range ((from_ + len - 1) / pg + 1 - from_ / pg)).filterMap (fun k =>
    let a := (from_ / pg + k) * pg
    match (s.part p).chain[a / bs - s.partTail p / bs]? with
    | some b => some (b, a % bs / pg)
    | none => none)

/-- Append bytes at HEAD (R442): with WRAP, TAIL advances by whole blocks until they fit; without it a full partition refuses
them with NO_CREDIT and signals source 131. Answers the status. -/
def State.appendPart (s : State) (p : Nat) (b : List Byte) : Nat × State :=
  let head := s.partHead p
  let tail := s.partTail p
  let cap := s.partCap p
  let bs := s.blockBytes
  let put := fun (s : State) =>
    let v := s.part p
    let s := (s.setPart p { v with bytes := v.bytes ++ b }).setHead p (head + b.length)
    let s := s.chainFit p (b.length / 4096 + 2)
    let s := (s.appendPages p head b.length).foldl (fun s x => let v := s.phys x.1; s.setPhys x.1 { v with pages := max v.pages (x.2 + 1) }) s
    (0, (s.fset P_STAT.FULL p 0).partUsed p)
  if head + b.length - tail ≤ cap then put s
  else if s.fbit P_CFG.WRAP p ∧ b.length ≤ cap ∧ bs ≠ 0 then
    let n := (head + b.length - tail - cap + bs - 1) / bs
    put (s.moveTail p ((tail / bs + n) * bs))
  else (0x24, (s.fset P_STAT.FULL p 1).signal 131 (leB 1 p))

/-- Append, whatever the outcome; while NAND is not READY nothing is written (R440, R447). -/
def State.partAppend (s : State) (p : Nat) (b : List Byte) : State := if s.nandReady ∧ s.isAppend p then (s.appendPart p b).2 else s

/-- Journal records reach a tenant's journal partition, padded to a page (R140, R450); the positions are answered. -/
def State.journalWrite (s : State) (p : Nat) (rs : List JRec) : Tab Nat × State :=
  let b := rs.foldl (fun a r => a ++ r.bytes) []
  let pg := s.pageBytes
  let head := s.partHead p
  let pos := rs.foldl (fun (a : Tab Nat × Nat) r => (a.1 ++ [(r.seq, a.2)], a.2 + r.bytes.length)) ([], head)
  (pos.1, s.partAppend p (fit ((b.length + pg - 1) / pg * pg) b))

end Sys2Proof.Machine
end

