-- ==== Sys2Proof/Machine/Calendar.lean ====
section
/-! DEFINITION. Tariff calendars: dates, the layout of a calendar copy, the ARM checks and tariff selection (R157, R159, R161, R162). -/
namespace Sys2Proof.Machine
open Reg

/-! ### Dates (the Gregorian calendar) -/

/-- Days from 1970-01-01 to a date of year 1970 or later. -/
def daysOf (y m d : Nat) : Nat :=
  let y' := if m ≤ 2 then y - 1 else y
  let era := y' / 400
  let yoe := y' % 400
  let mp := (m + 9) % 12
  let doy := (153 * mp + 2) / 5 + d - 1
  era * 146097 + yoe * 365 + yoe / 4 - yoe / 100 + doy - 719468

/-- The date of a day number: year, month, day. -/
def dateOf (days : Nat) : Nat × Nat × Nat :=
  let z := days + 719468
  let era := z / 146097
  let doe := z % 146097
  let yoe := (doe - doe / 1460 + doe / 36524 - doe / 146096) / 365
  let doy := doe - (365 * yoe + yoe / 4 - yoe / 100)
  let mp := (5 * doy + 2) / 153
  let d := doy - (153 * mp + 2) / 5 + 1
  let m := if mp < 10 then mp + 3 else mp - 9
  (yoe + era * 400 + (if m ≤ 2 then 1 else 0), m, d)

/-- Weekday of a day number, Monday 0. -/
def weekday (days : Nat) : Nat := (days + 3) % 7

/-- Days of a month. -/
def monthDays (y m : Nat) : Nat :=
  if m = 2 then (if y % 4 = 0 ∧ (y % 100 ≠ 0 ∨ y % 400 = 0) then 29 else 28)
  else if m = 4 ∨ m = 6 ∨ m = 9 ∨ m = 11 then 30 else 31

/-! ### A calendar copy (R157), as its 4,096 bytes -/

/-- A copy's bytes. -/
abbrev CalCopy := List Byte

/-- Address of a calendar copy in DRAM (R129). -/
def State.calAddr (s : State) (id : Nat) (b : Bool) : Nat :=
  s.fget LDG_CAL_LO.BASE_LO * 2 ^ 20 + s.fget LDG_CAL_HI.BASE_HI * 2 ^ 32 + (2 * id + b2n b) * 4096

/-- A calendar copy's bytes. -/
def State.calCopy (s : State) (id : Nat) (b : Bool) : CalCopy := s.mread (s.calAddr id b) 4096

/-- FLAGS bits: 0 VALID, 1 ACT_BASE, 2 DST_EN. -/
def CalCopy.flag (c : CalCopy) (n : Nat) : Bool := nbit (leAt c 3 1) n

/-- DEFAULT_TARIFF. -/
def CalCopy.default (c : CalCopy) : Nat := nbits (leAt c 2 1) 3 0

/-- ACT_TIME: UTC seconds, or a mains-phase time. -/
def CalCopy.actTime (c : CalCopy) : Nat := if CalCopy.flag c 1 then leAt c 8 8 else leAt c 8 6

/-- STD_OFS and DST_OFS in minutes. -/
def CalCopy.stdOfs (c : CalCopy) : Int := sval 16 (leAt c 4 2)

/-- DST_OFS in minutes. -/
def CalCopy.dstOfs (c : CalCopy) : Int := sval 16 (leAt c 6 2)

/-- Season `i`: month, day, week profile. -/
def CalCopy.season (c : CalCopy) (i : Nat) : Nat × Nat × Nat :=
  let w := leAt c (0x40 + 8 * i) 2
  (nbits w 3 0, nbits w 8 4, nbits w 12 9)

/-- Day profile of weekday `d` (Monday 0) in week profile `w`. -/
def CalCopy.week (c : CalCopy) (w d : Nat) : Nat := leAt c (0xA0 + 8 * w + d) 1

/-- Switch points of a day profile that are VALID: minute, tariff, FRIENDLY. -/
def CalCopy.points (c : CalCopy) (p : Nat) : List (Nat × Nat × Bool) :=
  (List.range 16).filterMap (fun i =>
    let w := leAt c (0x600 + 64 * p + 4 * i) 4
    if nbit w 31 then some (nbits w 10 0, nbits w 19 16, nbit w 20) else none)

/-- Import and export prices of a tariff. -/
def CalCopy.prices (c : CalCopy) (t : Nat) : Nat × Nat := (leAt c (0x120 + 8 * t) 4, leAt c (0x124 + 8 * t) 4)

/-- CHECK is the CRC over the header, with CHECK taken as 0, and bytes 0x040 to 0xFFF. -/
def CalCopy.checkOk (c : CalCopy) : Bool := leAt c 0x20 4 == crc32 (splice (fit 4096 c) 0x20 [0, 0, 0, 0])

/-- Strictly rising by a measure. -/
def rising {α : Type} (f : α → Nat) : List α → Bool
  | a :: b :: t => decide (f a < f b) && rising f (b :: t)
  | _ => true

/-- A used day profile has at least one VALID switch point, contiguous from index 0 and strictly rising in minute. -/
def CalCopy.profileOk (c : CalCopy) (p : Nat) : Bool :=
  let ps := CalCopy.points c p
  !ps.isEmpty && (List.range ps.length).all (fun i => nbit (leAt c (0x600 + 64 * p + 4 * i) 4) 31) && rising (·.1) ps
    && ps.all (fun x => decide (x.1 < 1440))

/-- A DST rule lies in its ranges (month, week, weekday, minute of day). -/
def dstRuleOk (w : Nat) : Bool :=
  decide (1 ≤ nbits w 3 0 ∧ nbits w 3 0 ≤ 12 ∧ 1 ≤ nbits w 6 4 ∧ nbits w 6 4 ≤ 5 ∧ 1 ≤ nbits w 9 7 ∧ nbits w 9 7 ≤ 7 ∧ nbits w 20 10 < 1440)

/-- Day profiles that some week or special day uses. -/
def CalCopy.used (c : CalCopy) : List Nat :=
  let wk := (List.range (leAt c 0x19 1)).flatMap (fun w => (List.range 7).map (CalCopy.week c w))
  let sp := (List.range (leAt c 0x1C 2)).map (fun i => nbits (leAt c (0x200 + 4 * i) 4) 20 16)
  wk ++ sp

/-- The reason code of the first ARM check a copy fails, 0 if it passes checks 1 to 6 (R159). -/
def CalCopy.armReason (c : CalCopy) : Nat :=
  let ns := leAt c 0x18 1
  let nw := leAt c 0x19 1
  let nd := leAt c 0x1A 1
  let nx := leAt c 0x1C 2
  if CalCopy.checkOk c = false ∨ CalCopy.flag c 0 = false then 1
  else if ns < 1 ∨ ns > 12 ∨ nw < 1 ∨ nw > 16 ∨ nd < 1 ∨ nd > 32 ∨ nx > 256 then 2
  else if rising (fun i => (CalCopy.season c i).1 * 32 + (CalCopy.season c i).2.1) (List.range ns) = false then 3
  else if (List.range ns).any (fun i => decide ((CalCopy.season c i).2.2 ≥ nw)) ∨ (CalCopy.used c).any (fun p => decide (p ≥ nd)) then 4
  else if (CalCopy.used c).any (fun p => !CalCopy.profileOk c p) then 5
  else if CalCopy.flag c 2 ∧ (dstRuleOk (leAt c 0x10 4) = false ∨ dstRuleOk (leAt c 0x14 4) = false) then 6
  else 0

/-- The instant of a DST rule in a year, in seconds of local standard time since 1970. -/
def dstInstant (w y : Nat) : Nat :=
  let m := nbits w 3 0
  let wd := nbits w 9 7 - 1
  let first := daysOf y m 1
  let d1 := first + (wd + 7 - weekday first) % 7
  let d := if nbits w 6 4 = 5 then (if d1 + 28 < first + monthDays y m then d1 + 28 else d1 + 21) else d1 + 7 * (nbits w 6 4 - 1)
  d * 86400 + nbits w 20 10 * 60

/-- DST applies at an instant of local standard time (R162 step 3). -/
def CalCopy.dstOn (c : CalCopy) (localStd : Nat) : Bool :=
  if CalCopy.flag c 2 = false then false
  else
    let y := (dateOf (localStd / 86400)).1
    let a := dstInstant (leAt c 0x10 4) y
    let b := dstInstant (leAt c 0x14 4) y
    if a ≤ b then decide (a ≤ localStd ∧ localStd < b) else decide (a ≤ localStd ∨ localStd < b)

/-- Local time of a UTC instant, in seconds since 1970. -/
def CalCopy.localTime (c : CalCopy) (utc : Int) : Nat :=
  let std := (utc + 60 * CalCopy.stdOfs c).toNat
  ((std : Int) + (if CalCopy.dstOn c std then 60 * CalCopy.dstOfs c else 0)).toNat

/-- The first SPECIAL entry that matches a date, as its word. -/
def CalCopy.special (c : CalCopy) (y m d : Nat) : Option Nat :=
  ((List.range (leAt c 0x1C 2)).map (fun i => leAt c (0x200 + 4 * i) 4)).find? (fun w =>
    nbits w 4 0 == d && nbits w 8 5 == m && (nbits w 15 9 == 127 || nbits w 15 9 + 2000 == y))

/-- The season in force on a (month, day): the latest start on or before it, else the last season. -/
def CalCopy.seasonAt (c : CalCopy) (m d : Nat) : Nat :=
  let ns := leAt c 0x18 1
  match ((List.range ns).reverse).find? (fun i => decide ((CalCopy.season c i).1 * 32 + (CalCopy.season c i).2.1 ≤ m * 32 + d)) with
  | some i => i
  | none => ns - 1

/-- A selection: tariff, friendly hours, and the local day (days since 2000-01-01). -/
structure TarSel where
  tariff : Nat
  friendly : Bool
  localDay : Nat
deriving DecidableEq, Repr

/-- Days from 1970-01-01 to 2000-01-01. -/
def day2000 : Nat := 10957

/-- Steps 3 to 5 of tariff selection at a UTC instant (R162). -/
def CalCopy.select (c : CalCopy) (utc : Int) : TarSel :=
  let lt := CalCopy.localTime c utc
  let days := lt / 86400
  let (y, m, d) := dateOf days
  let minute := lt % 86400 / 60
  let sp := CalCopy.special c y m d
  let prof := match sp with
    | some w => nbits w 20 16
    | none => CalCopy.week c (CalCopy.season c (CalCopy.seasonAt c m d)).2.2 (weekday days)
  let ps := CalCopy.points c prof
  let pt := match (ps.filter (fun x => decide (x.1 ≤ minute))).getLast? with
    | some x => x
    | none => (ps.getLast?).getD (0, CalCopy.default c, false)
  { tariff := pt.2.1, friendly := pt.2.2 || (match sp with | some w => nbit w 21 | none => false), localDay := days - day2000 }

end Sys2Proof.Machine
end

