-- ==== Sys2Proof/Machine/Journal.lean ====
section
/-! DEFINITION. Ledger fields, the journal and its sinks, the ledger lock and the ledger cache (R130, R131, R134 to R143, R150 to R156). -/
namespace Sys2Proof.Machine
open Reg

/-! ### Ledger fields (R130) -/

/-- A ledger field: dword, least significant bit, width. -/
structure LF where
  dw : Nat
  lsb : Nat
  w : Nat

namespace L
def IC : LF := ⟨0, 0, 32⟩
def STATE : LF := ⟨0, 32, 16⟩
def LAST_TIME_L : LF := ⟨0, 48, 16⟩
def LAST_TIME_H : LF := ⟨1, 0, 32⟩
def LAST_CYC : LF := ⟨1, 32, 32⟩
def LAST_SEQ : LF := ⟨2, 0, 64⟩
def DIGEST : LF := ⟨3, 0, 64⟩
def TITLE : LF := ⟨8, 0, 64⟩
def KEY_HANDLE : LF := ⟨9, 0, 32⟩
def BLOB : LF := ⟨9, 32, 32⟩
def CAL : LF := ⟨10, 0, 32⟩
def ROUTE_HINT : LF := ⟨10, 32, 32⟩
def BAL : LF := ⟨11, 0, 32⟩
def TAMPER : LF := ⟨11, 32, 32⟩
def DEFAULT_CNT : LF := ⟨12, 0, 32⟩
def CREDIT : LF := ⟨16, 0, 64⟩
def CREDIT_FRAC : LF := ⟨17, 0, 32⟩
def PP : LF := ⟨17, 32, 32⟩
def EC_LIMIT : LF := ⟨18, 0, 64⟩
def LOW_THRESH : LF := ⟨19, 0, 64⟩
def RECONNECT : LF := ⟨20, 0, 64⟩
def TOPUP_SEQ : LF := ⟨21, 0, 32⟩
def STANDING_DAY : LF := ⟨21, 32, 32⟩
/-- Total `d` of the last reading. -/
def LAST_TOTAL (d : Nat) : LF := ⟨4 + d, 0, 64⟩
/-- Register `d` of tariff `t` (R131). -/
def REG (t d : Nat) : LF := ⟨64 + 4 * t + d, 0, 64⟩
end L

/-- A ledger line's 128 dwords. -/
abbrev Led := Tab Nat

/-- Read a field of a ledger line. -/
def lget (l : Led) (f : LF) : Nat := tget 0 l f.dw / 2 ^ f.lsb % 2 ^ f.w

/-- Write a field of a ledger line. -/
def lset (l : Led) (f : LF) (v : Nat) : Led :=
  let o := tget 0 l f.dw
  tput 0 l f.dw (o - o / 2 ^ f.lsb % 2 ^ f.w * 2 ^ f.lsb + v % 2 ^ f.w * 2 ^ f.lsb)

/-- A bit of STATE: 0 IDENT, 1 IC_VALID, 2 LAST_VALID, 3 TIME_VALID, 4 PREPAY, 5 DEFAULT_LAST. -/
def lstate (l : Led) (n : Nat) : Bool := nbit (lget l L.STATE) n

/-- Set a bit of STATE. -/
def lsetState (l : Led) (n : Nat) (b : Bool) : Led := lset l L.STATE (nsetBit (lget l L.STATE) n b)

/-- LAST_TIME, 48 bits across two dwords. -/
def lastTime (l : Led) : Nat := lget l L.LAST_TIME_L + lget l L.LAST_TIME_H * 2 ^ 16

/-- A ledger's line. -/
def State.led (s : State) (i : Nat) : Led := tget [] s.ldg.ledgers i

/-- Store a ledger's line. -/
def State.setLed (s : State) (i : Nat) (l : Led) : State := { s with ldg := { s.ldg with ledgers := tput [] s.ldg.ledgers i l } }

/-- The 64 bytes of sector `k` of a line. -/
def sectorBytes (l : Led) (k : Nat) : List Byte := (List.range 8).flatMap (fun j => leB 8 (tget 0 l (8 * k + j)))

/-- The ledger index exists (R129). -/
def State.ledExists (s : State) (i : Nat) : Bool := s.fbit LDG_CFG.AREA_VALID && decide (i < s.fget LDG_COUNT.COUNT)

/-- The system title a ledger holds. -/
def ledTitle (l : Led) : List Byte := leB 8 (lget l L.TITLE)

/-! ### Quarantine (R154 to R156) -/

/-- The quarantine entry of a ledger. -/
def State.quarEntry (s : State) (i : Nat) : Option Nat :=
  (s.ldg.quar.find? (fun e => match e.2 with | some q => q.1 == i | none => false)).map (·.1)

/-- A ledger is quarantined, on its own or with its whole tenant. -/
def State.quarantined (s : State) (i tenant : Nat) : Bool := (s.quarEntry i).isSome || s.fbit LDG_T_STAT.QUAR_ALL tenant

/-- The quarantine registers follow the table. -/
def State.quarCount (s : State) : State :=
  let n := (s.ldg.quar.filter (fun e => e.2.isSome)).length
  (s.fset LDG_QUAR_STAT.USED 0 n).fset LDG_QUAR_STAT.FULL 0 (b2n (decide (n ≥ 1024)))

/-- Quarantine a ledger: its line leaves the cache and it enters the table, or its whole tenant is quarantined when the table is full. -/
def State.quarantine (s : State) (i : Nat) : State :=
  let t := (s.ledgerOwner i).getD 0
  if (s.quarEntry i).isSome ∨ (tget [] s.ldg.quarAll t).contains i then s
  else
    let s := { s with ldg := { s.ldg with lines := tput none s.ldg.lines i none, lru := s.ldg.lru.map (fun (e : Nat × List Nat) => (e.1, e.2.filter (· != i))) |>.filter (fun e => !e.2.isEmpty) } }
    let s := s.inkRec 0x22 t (leB 4 i)
    let s := s.signal 1157 (leB 4 i)
    match (List.range 1024).find? (fun k => (tget none s.ldg.quar k).isNone) with
    | some k => ({ s with ldg := { s.ldg with quar := tput none s.ldg.quar k (some (i, 1)) } } : State).quarCount
    | none =>
      let s := { s with ldg := { s.ldg with quarAll := tput [] s.ldg.quarAll t (tget [] s.ldg.quarAll t ++ [i]) } }
      let s := s.fset LDG_T_STAT.QUAR_ALL t 1
      let s := s.signal 1158 (leB 2 t)
      s.errSet [LDG_ERR.QUAR_FULL] id

/-! ### The journal (R137 to R143) -/

/-- A tenant's journal state. -/
def State.tenJ (s : State) (t : Nat) : TenJ := tget {} s.ldg.ten t

/-- Store a tenant's journal state. -/
def State.setTenJ (s : State) (t : Nat) (j : TenJ) : State := { s with ldg := { s.ldg with ten := tput {} s.ldg.ten t j } }

/-- A tenant's next COMMIT_SEQ. -/
def State.nextSeq (s : State) (t : Nat) : Nat := s.get64 LDG_T_SEQ_LO.SEQ_LO LDG_T_SEQ_HI.SEQ_HI t

/-- The acknowledged value of a sink, 0 NAND, 1 PARTNER, 2 HOST: every record below it has been acknowledged (R140). -/
def State.ackOf (s : State) (t k : Nat) : Nat :=
  if k = 0 then s.get64 LDG_T_ACK_NAND_LO.SEQ_LO LDG_T_ACK_NAND_HI.SEQ_HI t
  else if k = 1 then s.get64 LDG_T_ACK_PTNR_LO.SEQ_LO LDG_T_ACK_PTNR_HI.SEQ_HI t
  else s.get64 LDG_T_ACK_HOST_LO.SEQ_LO LDG_T_ACK_HOST_HI.SEQ_HI t

/-- Store a sink's acknowledged value. -/
def State.setAck (s : State) (t k v : Nat) : State :=
  if k = 0 then s.set64 LDG_T_ACK_NAND_LO.SEQ_LO LDG_T_ACK_NAND_HI.SEQ_HI t v
  else if k = 1 then s.set64 LDG_T_ACK_PTNR_LO.SEQ_LO LDG_T_ACK_PTNR_HI.SEQ_HI t v
  else s.set64 LDG_T_ACK_HOST_LO.SEQ_LO LDG_T_ACK_HOST_HI.SEQ_HI t v

/-- The sinks of a tenant that are enabled and UP. -/
def State.upSinks (s : State) (t : Nat) : List Nat :=
  (List.range 3).filter (fun k => nbit (s.fget LDG_T_SINK.EN t) k && nbit (s.fget LDG_T_SINK_STAT.UP t) k)

/-- The acknowledged value of every enabled sink that is UP has passed the number (R140); with no sink UP this holds of every number (R143). -/
def State.acked (s : State) (t seq : Nat) : Bool := (s.upSinks t).all (fun k => decide (seq < s.ackOf t k))

/-- Bytes of journal buffer a tenant uses. -/
def TenJ.bytesUsed (j : TenJ) : Nat := j.buf.foldl (fun a r => a + r.bytes.length) 0

/-- Bytes of journal buffer all tenants use. -/
def State.jUsed (s : State) : Nat := s.ldg.ten.foldl (fun a e => a + e.2.bytesUsed) 0

/-- The usage registers follow the buffer; crossing 1,536 KiB signals source 1153 once in either direction (R170). -/
def State.jUsage (s : State) (t : Nat) : State :=
  let s := s.fset LDG_T_JBUF.USED t (((s.tenJ t).bytesUsed + 1023) / 1024)
  let u := s.jUsed
  let s := s.fset LDG_JBUF.USED 0 ((u + 1023) / 1024)
  let up := decide (u > 1536 * 1024)
  if up = s.ldg.high then s
  else ({ s with ldg := { s.ldg with high := up } } : State).signal 1153 (leB 2 ((u + 1023) / 1024) ++ leB 1 (b2n up))

/-! ### Resynchronisation of the partner (R481) -/

/-- A running checkpoint fails: event 1155; its slot is not used up, so the complete one stays intact (R144, R170). -/
def State.ckptFail (s : State) (t : Nat) : State :=
  let j := s.tenJ t
  match j.running with
  | none => s
  | some sl =>
    let s := s.setTenJ t { j with running := none, endSeq := none, slots := tput ({} : Ckpt) j.slots sl {} }
    ((s.fset LDG_T_CKPT_STAT.BUSY t 0).fset LDG_T_CKPT_STAT.LAST_OK t 0).signal 1155 (leB 2 t)

/-- A sink of a tenant comes UP or goes DOWN, with event 1152 (R170). A checkpoint that runs while its NAND sink goes DOWN fails (R144; log entry 110). -/
def State.setSink (s : State) (t k : Nat) (up : Bool) : State :=
  if nbit (s.fget LDG_T_SINK_STAT.UP t) k = up then s
  else
    let s := (s.fset LDG_T_SINK_STAT.UP t (nsetBit (s.fget LDG_T_SINK_STAT.UP t) k up)).signal 1152 (leB 2 t ++ leB 1 k)
    if k = 0 ∧ up = false then s.ckptFail t else s

/-- Tenants that have PARTNER enabled. -/
def State.partnerTenants (s : State) : List Nat := (List.range 1024).filter (fun t => nbit (s.fget LDG_T_SINK.EN t) 1)

/-- Change a tenant's sync state: the PARTNER sink follows it, event 38 is signalled. -/
def State.setSync (s : State) (t v : Nat) : State :=
  let j := s.tenJ t
  if j.sync = v then s
  else
    let s := s.setTenJ t { j with sync := v }
    let s := s.fset RES_SYNC.TENANT 0 t
    let s := s.fset RES_SYNC.STATE 0 (s.partnerTenants.foldl (fun a t => min a (s.tenJ t).sync) (if s.partnerTenants.isEmpty then 0 else 3))
    let s := s.fset RES_SYNC.SYNCED 0 (s.partnerTenants.filter (fun t => (s.tenJ t).sync == 3)).length
    let s := s.signal 38 (leB 2 t ++ leB 1 v)
    s.setSink t 1 (v == 3)

/-- Free a tenant's oldest records while `need` says so: a record that an enabled DOWN sink has not acknowledged sets its LOST bit. -/
def State.jDropOldest (s : State) (t : Nat) (need : Nat) : Nat → State
  | 0 => s
  | n + 1 =>
    let j := s.tenJ t
    match j.buf with
    | [] => s
    | r :: rest =>
      if j.bytesUsed + need ≤ s.fget LDG_T_JBUF.QUOTA t * 1024 ∨ (s.upSinks t).any (fun k => decide (r.seq ≥ s.ackOf t k)) then s
      else
        let lost := (List.range 3).foldl (fun a k =>
          if nbit (s.fget LDG_T_SINK.EN t) k ∧ nbit (s.fget LDG_T_SINK_STAT.UP t) k = false ∧ r.seq ≥ s.ackOf t k then nsetBit a k true else a)
          (s.fget LDG_T_SINK_STAT.LOST t)
        ((s.setTenJ t { j with buf := rest }).fset LDG_T_SINK_STAT.LOST t lost).jDropOldest t need n

/-- Make room for a record of `len` bytes in the tenant's quota; none while records an UP sink still needs fill it (R142). -/
def State.jRoom (s : State) (t len : Nat) : Option State :=
  let n := (s.tenJ t).buf.length
  let s := s.jDropOldest t len n
  let s := if (s.tenJ t).buf.length = n then s else s.jUsage t
  let s := if nbit (s.fget LDG_T_SINK_STAT.LOST t) 1 ∧ (s.tenJ t).sync ≠ 0 then s.setSync t 0 else s
  if (s.tenJ t).bytesUsed + len ≤ s.fget LDG_T_JBUF.QUOTA t * 1024 then some s else none

/-- The bytes of a journal record (R137). -/
def jBytes (seq typ flags tenant target : Nat) (body : List Byte) : List Byte :=
  let body := fit ((body.length + 7) / 8 * 8) body
  let h := leB 8 seq ++ leB 2 (24 + body.length) ++ leB 1 typ ++ leB 1 flags ++ leB 2 tenant ++ [0, 0] ++ leB 4 target
  h ++ leB 4 (crc32 (h ++ leB 4 0 ++ body)) ++ body

/-- The last entry of a record of `len` bytes written next to a ring; for a DOWN host, for which it is discarded (R265), an entry no ring has. -/
def State.lastEntry (s : State) (r len : Nat) : Nat :=
  if s.fbit RNG_H_STAT.UP (s.ringHost r) then (s.fget RNG_R_CQ.TAIL r + s.prodUnits r len - 1) % s.ringSize r else 65536

/-- The records handed to the HOST sink's ring can no longer be consumed there. -/
def State.hostStale (s : State) (t : Nat) : State :=
  s.setTenJ t { s.tenJ t with hostSent := (s.tenJ t).hostSent.map (fun x => (x.1, 65536)) }

/-- The records the HOST sink is fed from: the buffer's, before them those NAND alone holds while the sink makes up for a loss (R143). -/
def TenJ.hostSrc (j : TenJ) : List JRec :=
  if j.hostNand then j.nand.filter (fun x => j.buf.all (fun y => decide (x.seq < y.seq))) ++ j.buf else j.buf

/-- Hand the HOST sink the records it has not had yet, oldest first, while its ring has room (R140). -/
def State.hostFeed (s : State) (t : Nat) : Nat → State
  | 0 => s
  | n + 1 =>
    let j := s.tenJ t
    if (s.upSinks t).contains 2 = false ∨ s.fbit LDG_T_HRING.VALID t = false then s
    else
      let r := s.fget LDG_T_HRING.RING t
      let next := match j.hostSent.getLast? with | some x => x.1 + 1 | none => s.ackOf t 2
      match j.hostSrc.find? (fun x => decide (x.seq ≥ next)) with
      | none => s
      | some x =>
        if s.prodRoom r x.bytes.length then
          let e := s.lastEntry r x.bytes.length
          let s := s.produce r 2 x.bytes
          let j := s.tenJ t
          (s.setTenJ t { j with hostSent := j.hostSent ++ [(x.seq, e)] }).hostFeed t n
        else s

/-- Hand the HOST sink all the records its ring has room for. -/
def State.hostFeedAll (s : State) (t : Nat) : State := s.hostFeed t (s.tenJ t).hostSrc.length

/-- Append a record to a tenant's journal and offer it to its sinks; answers its COMMIT_SEQ (R139, R140). The PARTNER sink
receives it over the pair link as a JOURNAL item (R476). -/
def State.jAppend (s : State) (t typ flags target : Nat) (body : List Byte) : Nat × State :=
  let seq := s.nextSeq t
  let rec_ : JRec := ⟨seq, typ, target, jBytes seq typ flags t target body⟩
  let j := s.tenJ t
  let s := s.setTenJ t { j with buf := j.buf ++ [rec_], partial_ := j.partial_ || (s.upSinks t).contains 0 }
  let s := s.set64 LDG_T_SEQ_LO.SEQ_LO LDG_T_SEQ_HI.SEQ_HI t (seq + 1)
  let s := if nbit (s.fget LDG_T_SINK.EN t) 1 ∧ j.sync ≥ 2 then s.mrtData pairHost (mrtItem 9 0 0 rec_.bytes) else s
  let s := s.jUsage t
  (seq, s.hostFeedAll t)

/-- Insert by a measure. -/
def insBy {α : Type} (f : α → Nat) (x : α) : List α → List α
  | [] => [x]
  | y :: t => if f x ≤ f y then x :: y :: t else y :: insBy f x t

/-- Sort by a measure. -/
def sortBy {α : Type} (f : α → Nat) (l : List α) : List α := l.foldr (insBy f) []

/-- Post the committed readings of a tenant whose records every required sink has acknowledged, in commit order; one behind a commit of its ledger
that cannot be posted yet waits (R114). -/
def State.postReady (s : State) (t : Nat) : State :=
  let open_ := s.pip.tags.filter (fun e => e.2.st == 2 && e.2.tenant == t)
  let held := open_.filter (fun e => !(e.2.balanceDone && s.acked t e.2.commitSeq))
  let ready := open_.filter (fun e => e.2.balanceDone && s.acked t e.2.commitSeq
    && !(held.any (fun x => x.2.ledger == e.2.ledger && decide (x.2.commitSeq < e.2.commitSeq))))
  (sortBy (fun e => e.2.commitSeq) ready).foldl (fun s e => s.postReading e.1 e.2.gen e.2.finalStatus) s

/-- Records that every enabled sink has acknowledged leave the buffer (R140); the others stay until their space is needed (R143). -/
def State.jRelease (s : State) (t : Nat) : State :=
  let en := (List.range 3).filter (fun k => nbit (s.fget LDG_T_SINK.EN t) k)
  if en.isEmpty then s
  else
    let j := s.tenJ t
    (s.setTenJ t { j with buf := j.buf.filter (fun r => en.any (fun k => decide (r.seq ≥ s.ackOf t k))) }).jUsage t

/-- A sink's cumulative acknowledgement advances to `seq`, below which every record is then acknowledged (R140): buffer space is released and held completions are posted. A checkpoint
whose CKPT_END the NAND sink has acknowledged is complete (R144), and TAIL moves to its S0 record (R450). -/
def State.jAck (s : State) (t k seq : Nat) : State :=
  if seq ≤ s.ackOf t k ∨ seq > s.nextSeq t then s
  else
    let s := s.setAck t k seq
    let j := s.tenJ t
    let s : State := if k = 0 then
        let fresh := j.buf.filter (fun r => decide (r.seq < seq) && !(j.nand.any (fun x => x.seq == r.seq)))
        let (pos, s) := s.journalWrite (s.fget LDG_T_SINK.JPART t) fresh
        s.setTenJ t { j with nand := j.nand ++ fresh, npos := pos.foldl (fun (a : Tab Nat) (e : Nat × Nat) => tput 0 a e.1 e.2) j.npos, partial_ := j.buf.any (fun r => decide (r.seq ≥ seq)) }
      else if k = 2 then s.setTenJ t { j with hostSent := j.hostSent.filter (fun x => decide (x.1 ≥ seq)) } else s
    let j := s.tenJ t
    let s : State := match j.running, j.endSeq with
      | some sl, some e =>
        if k = 0 ∧ e < seq then
          let c := tget ({} : Ckpt) j.slots sl
          let s := s.setTenJ t { j with slots := tput ({} : Ckpt) j.slots sl { c with complete := true }, running := none, endSeq := none, nandWait := false, nextSlot := 1 - sl
                                        nand := j.nand.filter (fun r => decide (r.seq ≥ c.s0)), npos := j.npos.filter (fun (e : Nat × Nat) => decide (e.1 ≥ c.s0)) }
          let s : State := match (j.npos : List (Nat × Nat)).find? (fun (e : Nat × Nat) => e.1 == c.s0) with
            | some e => if s.isAppend (s.fget LDG_T_SINK.JPART t) then s.moveTail (s.fget LDG_T_SINK.JPART t) e.2 else s
            | none => s
          let s := (s.fset LDG_T_CKPT_STAT.BUSY t 0).fset LDG_T_CKPT_STAT.LAST_OK t 1
          let s := s.set64 LDG_T_CKPT_SEQ_LO.S0_LO LDG_T_CKPT_SEQ_HI.S0_HI t c.s0
          let s := if j.nandWait then (s.fset LDG_T_SINK_STAT.LOST t (nsetBit (s.fget LDG_T_SINK_STAT.LOST t) 0 false)).setSink t 0 true else s
          s.signal 1154 (leB 2 t ++ leB 8 c.s0)
        else s
      | _, _ => s
    let s := if k = 1 ∧ (s.tenJ t).sync = 2 ∧ seq = s.nextSeq t then s.setSync t 3 else s
    (s.jRelease t).postReady t

/-! ### Ledger locks (R253 to R256) -/

/-- A ledger's lock. -/
def State.llock (s : State) (i : Nat) : LLock := tget {} s.ldg.locks i

/-- Store a ledger's lock. -/
def State.setLlock (s : State) (i : Nat) (k : LLock) : State := { s with ldg := { s.ldg with locks := tput {} s.ldg.locks i k } }

/-- The waiter that is granted next: most urgent, then longest waiting (R255). -/
def nextWaiter (ws : List LWait) : Option LWait :=
  ws.foldl (fun a w => match a with
    | none => some w
    | some b => if w.prio < b.prio ∨ (w.prio = b.prio ∧ w.stamp < b.stamp) then some w else some b) none

/-- Wait for a ledger lock. -/
def State.lockWait (s : State) (i : Nat) (who : LOwner) (prio : Nat) : State :=
  let k := s.llock i
  if k.waiters.any (fun w => w.who == who) then s
  else
    let s := s.setLlock i { k with waiters := k.waiters ++ [⟨who, prio, s.ldg.stamp⟩] }
    { s with ldg := { s.ldg with stamp := s.ldg.stamp + 1 } }

/-- Release a ledger lock; the waiters compete at LEDGER_LOCK_GRANT. -/
def State.lockFree (s : State) (i : Nat) : State := s.setLlock i { s.llock i with owner := none }

/-- The owner of a ledger lock was reset: the lock is broken, its open record discarded, and source 20 signalled (R134, R253, R254, R256), with the
ledger and its owner as payload (log entry 116). -/
def State.lockBreak (s : State) (i : Nat) : State :=
  let by_ := match (s.llock i).owner with | some (.ctx x) => x | _ => 0xFFFF
  (s.setLlock i { s.llock i with owner := none, broken := true }).signal 20 (leB 4 (2 ^ 31 + i) ++ leB 2 by_)

/-! ### The ledger cache (R150 to R153) -/

/-- The line's directory entry. -/
def State.line (s : State) (i : Nat) : Option Line := tget none s.ldg.lines i

/-- Store a directory entry. -/
def State.setLine (s : State) (i : Nat) (l : Option Line) : State := { s with ldg := { s.ldg with lines := tput none s.ldg.lines i l } }

/-- Key of the set of a slice that holds a ledger's line. -/
def setKey (slice i : Nat) : Nat := slice * 64 + i % 64

/-- Make a line the most recently used of its set. -/
def State.lruTouch (s : State) (slice i : Nat) : State :=
  let k := setKey slice i
  { s with ldg := { s.ldg with lru := tput [] s.ldg.lru k ((tget [] s.ldg.lru k).filter (· != i) ++ [i]) } }

/-- Take a line out of a slice's set. -/
def State.lruDrop (s : State) (slice i : Nat) : State :=
  let k := setKey slice i
  { s with ldg := { s.ldg with lru := tput [] s.ldg.lru k ((tget [] s.ldg.lru k).filter (· != i)) } }

/-- A slice has a way for a ledger's line: its set is not full, or holds a line whose lock is not held (R153). -/
def State.wayFree (s : State) (slice i : Nat) : Bool :=
  let ways := tget [] s.ldg.lru (setKey slice i)
  decide (ways.length < 16) || ways.any (fun v => (s.llock v).owner.isNone)

/-- Make room in a full set: the least recently used line whose lock is not held leaves; a dirty one is written back first. -/
def State.evict (s : State) (slice i : Nat) : State :=
  let k := setKey slice i
  let ways := tget [] s.ldg.lru k
  if ways.length < 16 then s
  else
    match ways.find? (fun v => (s.llock v).owner.isNone) with
    | none => s
    | some v =>
      let s := s.lruDrop slice v
      match s.line v with
      | some l => if l.dirty = 0 then s.setLine v none else (s.setLine v (some { l with wb := true })).fsat LDG_CACHE_WB.COUNT 0
      | none => s

/-- A cluster may use a ledger's line now: it is not owned by a writeback (R152), and the cluster's slice holds it or has a way for it. -/
def State.lineFree (s : State) (i cluster : Nat) : Bool :=
  match s.line i with
  | some l => !l.wb && (l.slice == cluster || s.wayFree cluster i)
  | none => s.wayFree cluster i

/-- Bits set in a mask of 16 sectors. -/
def sectorCount (m : Nat) : Nat := ((List.range 16).filter (fun k => nbit m k)).length

/-- Sectors 0 to 15 in which two lines differ. -/
def sectorsOf (l l' : Led) : Nat :=
  (List.range 16).foldl (fun a k => if (List.range 8).all (fun j => tget 0 l (8 * k + j) == tget 0 l' (8 * k + j)) then a else a + 2 ^ k) 0

/-- A cluster uses the sectors `use` of a ledger's line and makes the sectors `dirty` dirty (R150, R151): the line moves from another slice or
takes a way; a sector the line holds is a hit, any other is filled. -/
def State.lineUse (s : State) (i cluster use dirty : Nat) : State :=
  let l := (s.line i).getD { slice := cluster }
  let s := if s.line i = none then s.evict cluster i
    else if l.slice = cluster then s else ((s.lruDrop l.slice i).evict cluster i).fsat LDG_CACHE_MOVE.COUNT 0
  let s := s.fsat LDG_CACHE_HIT.COUNT 0 (sectorCount (Nat.land use l.valid))
  let s := s.fsat LDG_CACHE_MISS.COUNT 0 (sectorCount (use - Nat.land use l.valid))
  (s.setLine i (some { l with slice := cluster, valid := Nat.lor l.valid use, dirty := Nat.lor l.dirty dirty })).lruTouch cluster i

/-- As `lineUse`; none while the line is not free for the cluster, which then waits. -/
def State.touch (s : State) (i cluster use dirty : Nat) : Option State :=
  if s.lineFree i cluster then some (s.lineUse i cluster use dirty) else none

/-- Note that a cluster waits for a line's writeback to land. -/
def State.waitLine (s : State) (i cluster : Nat) : State :=
  match s.line i with
  | some l => if l.waiting.contains cluster then s else s.setLine i (some { l with waiting := l.waiting ++ [cluster] })
  | none => s

end Sys2Proof.Machine
end

