-- ==== Sys2Proof/Machine/Billing.lean ====
section
/-! DEFINITION. What a ledger transaction does to a ledger: calendar activation, tariff use, prepayment, the digest, and the commit of a
reading (R103, R104, R110, R131, R160 to R169). -/
namespace Sys2Proof.Machine
open Reg

/-! ### Time -/

/-- TAI_UTC, signed. -/
def State.taiUtc (s : State) : Int := sval 16 (s.fget LDG_UTC.TAI_UTC)

/-- UTC of the selected grid time (R161). -/
def State.utcNow (s : State) : Int := (s.gridNow.1 : Int) - s.taiUtc

/-- CAL_OK (R63). -/
def State.calOk (s : State) : Bool := s.fbit MPT_TIME_OK.CAL_OK

/-! ### Calendar activation (R158, R160) -/

/-- A calendar's control. -/
def State.cal (s : State) (id : Nat) : CalCtl := tget {} s.ldg.cals id

/-- Store a calendar's control. -/
def State.setCal (s : State) (id : Nat) (c : CalCtl) : State := { s with ldg := { s.ldg with cals := tput {} s.ldg.cals id c } }

/-- The tenant that owns a calendar. -/
def State.calOwner (s : State) (id : Nat) : Option Nat := s.mapOwner .calendar s.ten.active.cal id

/-- Activate a PENDING calendar: the copies exchange roles, CAL_ACT is journaled, source 1159 is signalled (R158). EFF_TIME is
ACT_TIME for ACT_BASE 0, else the UTC of the activation, 0 without CAL_OK (R160). While the tenant's share of the journal buffer is full the activation
waits (R142); that of a tenant quarantined whole has no effect (R156). -/
def State.calActivate (s : State) (id : Nat) : State :=
  let c := s.cal id
  let t := (s.calOwner id).getD 0
  if c.passive ≠ 2 ∨ s.fbit LDG_T_STAT.QUAR_ALL t then s
  else match s.jRoom t 40 with
  | none => if s.ldg.actWait.contains id then s else { s with ldg := { s.ldg with actWait := s.ldg.actWait ++ [id] } }
  | some s =>
    let armedB := !c.activeB
    let cp := s.calCopy id armedB
    let eff := if CalCopy.flag cp 1 = false then CalCopy.actTime cp else if s.calOk then s.utcNow.toNat else 0
    let (seq, s) := s.jAppend t 7 0 id (leB 1 (b2n armedB) ++ leB 7 0 ++ leB 8 eff)
    let s := s.setCal id { activeB := armedB, activeValid := true, passive := if c.activeValid then 3 else 0, calSeq := seq, eff := eff }
    let s := { s with ldg := { s.ldg with pendList := s.ldg.pendList.filter (· != id), actWait := s.ldg.actWait.filter (· != id) } }
    s.signal 1159 (leB 2 id)

/-! ### Tariff use (R161, R162) -/

/-- What a commit needs of the calendar: tariff, friendly hours, local day, default and RETIRED use, prices, standing charge. -/
structure TarUse where
  tariff : Nat
  friendly : Bool
  localDay : Option Nat
  isDefault : Bool
  retired : Bool
  prices : Nat × Nat
  standing : Nat
deriving DecidableEq, Repr

/-- What applies to a ledger line without a usable calendar or time (R162): the default tariff, and hours friendly only without CAL_OK. The local
day is still that of the tariff time by the active copy (R164), where both are known. -/
def State.tarDefault (s : State) (l : Led) (utc : Option Int) : TarUse :=
  let w := lget l L.CAL
  let c := s.cal (nbits w 12 0)
  let act := s.calCopy (nbits w 12 0) c.activeB
  let have_ := nbit w 15 && c.activeValid
  { tariff := if have_ then CalCopy.default act else 0, friendly := !s.calOk, localDay := if have_ then utc.map (fun x => (CalCopy.select act x).localDay) else none, isDefault := true, retired := false,
    prices := if have_ then CalCopy.prices act (CalCopy.default act) else (0, 0), standing := if have_ then leAt act 0x1A0 8 else 0 }

/-- Select for a ledger line at a UTC instant (R161, R162). -/
def State.tarUse (s : State) (l : Led) (utc : Int) : TarUse :=
  let w := lget l L.CAL
  let id := nbits w 12 0
  let c := s.cal id
  let act := s.calCopy id c.activeB
  if s.calOk = false ∨ nbit w 15 = false ∨ c.activeValid = false then s.tarDefault l (some utc)
  else
    let ret := c.passive == 3 && decide (utc < (c.eff : Int))
    let cp := if ret then s.calCopy id (!c.activeB) else act
    let sel := CalCopy.select cp utc
    { tariff := sel.tariff, friendly := sel.friendly, localDay := some sel.localDay, isDefault := false, retired := ret,
      prices := CalCopy.prices cp sel.tariff, standing := leAt cp 0x1A0 8 }

/-! ### Prepayment (R163 to R168) -/

/-- Saturate a signed value to 64 bits. -/
def sat64 (v : Int) : Int := max (-(2 ^ 63 : Int)) (min (2 ^ 63 - 1 : Int) v)

/-- CREDIT as a signed value. -/
def credit (l : Led) : Int := sval 64 (lget l L.CREDIT)

/-- The charge of a commit (R163): new credit and carried remainder. -/
def chargeOf (cred frac : Int) (di de pi pe : Int) : Int × Int :=
  let a := frac + di * pi - de * pe
  let ch := a / 10000
  (sat64 (cred - ch), a - ch * 10000)

/-- Emergency credit is available. -/
def ecAvail (l : Led) : Bool :=
  let p := lget l L.PP
  nbits p 4 3 == 1 || (nbits p 4 3 == 2 && nbit p 5)

/-- The disconnect condition D. -/
def ppD (l : Led) : Bool :=
  (decide (credit l ≤ 0) && !ecAvail l) || decide (credit l < -(lget l L.EC_LIMIT : Int))

/-- PP_STATE after evaluation (R165); `reason` is 2 or 3 for a disconnect or connect confirmation, else 0. -/
def ppNext (l : Led) (friendly : Bool) (reason : Nat) : Nat :=
  let st := nbits (lget l L.PP) 2 0
  let credState := if ppD l then (if friendly then 3 else 4) else if credit l ≤ 0 then 2 else 1
  if lstate l 4 = false then 0
  else if st = 0 then credState
  else if st = 1 ∨ st = 2 ∨ st = 3 then credState
  else if st = 4 then (if ppD l = false then (if credit l > 0 then 1 else 2) else if reason = 2 then 5 else 4)
  else if st = 5 then (if ppD l = false ∧ credit l ≥ (lget l L.RECONNECT : Int) then 6 else 5)
  else if st = 6 then (if reason = 3 then credState else if ppD l then 5 else 6)
  else st

/-- Notify the tenant's notify task on input 4 (R166). -/
def State.ppNotify (s : State) (t ledger st : Nat) (l : Led) : State :=
  match s.routeTask t 4 with
  | some k => s.deliver k 4 2049 (leB 3 ledger ++ leB 1 st ++ leB 8 (lget l L.CREDIT))
  | none => s

/-- Put a ledger that enters DEFERRED on the watch list of 65,536 (R168); the list is kept in DRAM at LDG_WATCH. -/
def State.watchAdd (s : State) (i : Nat) : State :=
  if s.ldg.watch.contains i then s
  else if s.ldg.watch.length ≥ 65536 then (s.fset LDG_PP_WATCH.FULL 0 1).signal 1161 []
  else
    let s := { s with ldg := { s.ldg with watch := s.ldg.watch ++ [i] } }
    let s := s.fset LDG_PP_WATCH.USED 0 s.ldg.watch.length
    s.fset LDG_PP_WATCH.FULL 0 0

/-- CREDIT of a prepayment ledger is at or below its warning level (R166). -/
def ppLow (l : Led) : Bool := lstate l 4 && decide (credit l ≤ sval 64 (lget l L.LOW_THRESH))

/-- A line with PP_STATE and LOW_SENT evaluated (R165, R166): LOW_SENT is set by the warning and stays until CREDIT rises above LOW_THRESH. -/
def ppLine (l : Led) (friendly : Bool) (reason : Nat) : Led :=
  let p := lget l L.PP
  let stays := nbit p 6 && decide (credit l ≤ sval 64 (lget l L.LOW_THRESH))
  lset l L.PP (nsetBit (p - nbits p 2 0 + ppNext l friendly reason) 6 (ppLow l || stays))

/-- Evaluate a prepayment ledger and store the line (R165 to R168). Answers whether PP_STATE changed. -/
def State.ppEval (s : State) (t i : Nat) (l : Led) (friendly : Bool) (reason : Nat) : Bool × Led × State :=
  let p := lget l L.PP
  let old := nbits p 2 0
  let new := ppNext l friendly reason
  let warn := ppLow l && !nbit p 6
  let l := ppLine l friendly reason
  let s := s.setLed i l
  let s := if new ≠ old ∧ (new = 2 ∨ new = 3 ∨ new = 4 ∨ new = 6) then s.ppNotify t i new l else s
  let s := if warn then s.ppNotify t i 8 l else s
  let s := if new = 3 ∧ old ≠ 3 then s.watchAdd i else s
  (decide (new ≠ old), l, s)

/-! ### The digest (R169) -/

/-- The digest after a reading commit. -/
def digestOf (old ic tariff : Nat) (isDefault : Bool) (meterTime : Nat) (regs : List Nat) : Nat :=
  ofLe ((sha256 (leB 8 old ++ leB 4 ic ++ leB 1 tariff ++ leB 1 (b2n isDefault) ++ [0, 0] ++ leB 8 meterTime
    ++ regs.flatMap (leB 8) ++ leB 8 0)).take 8)

/-- The digest an IDENTITY sets. -/
def digestInit (title : Nat) : Nat := ofLe ((sha256 (leB 8 title ++ leB 8 0)).take 8)

/-! ### Reading records (R107) -/

/-- PRESENT of a reading record, given as 8 dwords. -/
def Reading.present (r : Reading) (n : Nat) : Bool := nbit ((r.record.getD 5 0).toNat % 2 ^ 32) n

/-- METER_TIME, if present. -/
def Reading.meterTime (r : Reading) : Option Nat := if r.present 4 then some ((r.record.getD 0 0).toNat % 2 ^ 48) else none

/-- Total `d`. -/
def Reading.total (r : Reading) (d : Nat) : Nat := (r.record.getD (1 + d) 0).toNat

/-- TAMPER word, 0 if absent. -/
def Reading.tamper (r : Reading) : Nat := if r.present 5 then (r.record.getD 5 0).toNat / 2 ^ 32 else 0

/-- The 64 bytes of the reading record. -/
def Reading.recBytes (r : Reading) : List Byte := (List.range 8).flatMap (fun j => leB 8 (r.record.getD j 0).toNat)

/-- The tariff time of a reading in UTC seconds (R161): one second before its meter time, else before its receipt time; none when neither is
known (log entry 95). -/
def State.tariffTime (s : State) (r : Reading) : Option Int :=
  match r.meterTime with
  | some m => some ((m : Int) - 1)
  | none => r.rxTime.map (fun t => (t.1 : Int) - s.taiUtc - 1)

/-! ### Archive (R111, R112) -/

/-- Deliver a tenant's waiting archive records to its archive ring while it has room. -/
def State.archFeed (s : State) (t : Nat) : Nat → State
  | 0 => s
  | n + 1 =>
    match tget [] s.ldg.arch t with
    | [] => s
    | b :: rest =>
      let r := nbits (s.route t 6 2) 11 0
      if s.prodRoom r 96 then
        (({ s with ldg := { s.ldg with arch := tput [] s.ldg.arch t rest } } : State).produce r 3 b).archFeed t n
      else s

/-- Deliver all of a tenant's waiting archive records that its archive ring has room for (R112). -/
def State.archFeedAll (s : State) (t : Nat) : State := s.archFeed t (tget [] s.ldg.arch t).length

/-- An archive record goes to the route's ring and partition, as the route entry states. -/
def State.archive (s : State) (t : Nat) (b : List Byte) : State :=
  let s := if nbit (s.route t 8 2) 15 then s.partAppend (nbits (s.route t 8 2) 7 0) b else s
  if nbit (s.route t 6 2) 15 then
    let s := { s with ldg := { s.ldg with arch := tput [] s.ldg.arch t (tget [] s.ldg.arch t ++ [b]) } }
    s.archFeedAll t
  else s

/-! ### The commit of a reading (R110) -/

/-- What a commit makes of a line: registers, last reading, tamper, default count, prepayment, IC; before the digest. -/
def commitLine (l : Led) (r : Reading) (u : TarUse) (cyc : Nat) : Led :=
  let inc := fun d => if r.present d then (r.total d + 2 ^ 64 - lget l (L.LAST_TOTAL d)) % 2 ^ 64 else 0
  let first := !lstate l 2
  let di := if first then 0 else inc 0
  let de := if first then 0 else inc 1
  let l' := (List.range 4).foldl (fun a d =>
    if r.present d then
      lset (if first then a else lset a (L.REG u.tariff d) (lget a (L.REG u.tariff d) + inc d)) (L.LAST_TOTAL d) (r.total d)
    else a) l
  let l' := if lstate l 4 then
      let (c, f) := chargeOf (credit l) (lget l L.CREDIT_FRAC) di de u.prices.1 u.prices.2
      let l' := lset (lset l' L.CREDIT (uval 64 c)) L.CREDIT_FRAC f.toNat
      match u.localDay with
      | some day =>
        let sd := lget l L.STANDING_DAY
        if sd ≠ 0 ∧ day > sd then lset (lset l' L.CREDIT (uval 64 (sat64 (c - (u.standing * (day - sd) : Nat))))) L.STANDING_DAY day else l'
      | none => l'
    else l'
  let l' := lset l' L.IC r.ic
  let l' := lsetState (lsetState l' 1 true) 2 true
  let l' := match r.meterTime with
    | some m => lset (lset (lsetState l' 3 true) L.LAST_TIME_L m) L.LAST_TIME_H (m / 2 ^ 16)
    | none => l'
  let l' := lset l' L.LAST_CYC cyc
  let l' := lset l' L.TAMPER (Nat.lor (lget l' L.TAMPER) r.tamper)
  let l' := if u.isDefault then lset l' L.DEFAULT_CNT (min (lget l' L.DEFAULT_CNT + 1) (2 ^ 32 - 1)) else l'
  let st := lget l' L.STATE
  lset l' L.STATE (nsetBit (st - nbits st 9 6 * 64 + u.tariff * 64) 5 u.isDefault)

end Sys2Proof.Machine
end

