-- ==== Sys2Proof/Machine/Ledger.lean ====
section
/-! DEFINITION. The ledger engine: the meter-ID hash, the commit pipe, scribe transactions, the calendar commands, quarantine, checkpoints,
rebuild, and the LDG rows of the table (R84 to R88, R110, R129 to R173). -/
namespace Sys2Proof.Machine
open Reg

/-! ### The meter-ID hash (R84 to R88) -/

/-- Candidate bucket 0 or 1 of a (title, tenant) pair. -/
def State.bucketOf (s : State) (title : List Byte) (tenant k : Nat) : Nat := Config.bucketHash s.pip.salt (ofLe title) tenant k % 2 ^ 20

/-- The entries of a bucket. -/
def State.bucket (s : State) (b : Nat) : List HashEnt := tget [] s.pip.buckets b

/-- Store a bucket. -/
def State.setBucket (s : State) (b : Nat) (l : List HashEnt) : State := { s with pip := { s.pip with buckets := tput [] s.pip.buckets b l } }

/-- An entry is for a pair. -/
def HashEnt.is (e : HashEnt) (title : List Byte) (tenant : Nat) : Bool := e.title == title && e.tenant == tenant

/-- The 4-bit signature of a pair, which the front keeps of each entry (R84). -/
def State.hashSig (s : State) (title : List Byte) (tenant : Nat) : Nat := Config.bucketHash s.pip.salt (ofLe title) tenant 2 % 16

/-- A lookup fetches a bucket: it holds a valid entry with the pair's signature (R85). -/
def State.fetches (s : State) (b : Nat) (title : List Byte) (tenant : Nat) : Bool :=
  (s.bucket b).any (fun e => s.hashSig e.title e.tenant == s.hashSig title tenant)

/-- The entries a lookup of a pair compares in full: those of the buckets it fetches, and the stash (R85). -/
def State.hashSeen (s : State) (title : List Byte) (tenant : Nat) : List HashEnt :=
  let get := fun b => if s.fetches b title tenant then s.bucket b else []
  get (s.bucketOf title tenant 0) ++ get (s.bucketOf title tenant 1) ++ s.pip.stash

/-- CHECK of an entry: one parity bit over bytes 0x0 to 0x6 and one over 0x7 to 0xD (R85). -/
def hashCheck (b : List Byte) : Nat :=
  let par := fun (b : List Byte) => b.foldl (fun a x => a + (List.range 8).foldl (fun a k => a + b2n (nbit x.toNat k)) 0) 0 % 2
  par (b.take 7) + 2 * par ((b.drop 7).take 7)

/-- The 16 bytes of an entry, as the bucket table in DRAM at PIP_HASH holds it (R84, R85; log entry 107). -/
def HashEnt.bytes (e : HashEnt) : List Byte :=
  let b := fit 8 e.title ++ leB 4 (e.ledger % 2 ^ 21 + 2 ^ 31) ++ leB 2 (e.tenant % 1024)
  b ++ leB 2 (hashCheck b)

/-- The outcome of a lookup: the ledger, a miss, or a bucket under repair. -/
inductive HashRes where
  | hit (ledger : Nat)
  | miss
  | repairing
deriving DecidableEq, Repr

/-- Look a pair up (R85): one that reaches a bucket under repair ends with TABLE_PARITY (R88). -/
def State.hashLookup (s : State) (title : List Byte) (tenant : Nat) : HashRes :=
  if s.pip.repair.contains (s.bucketOf title tenant 0) ∨ s.pip.repair.contains (s.bucketOf title tenant 1) then .repairing
  else match (s.hashSeen title tenant).find? (fun e => e.is title tenant) with
    | some e => .hit e.ledger
    | none => .miss

/-- The table holds a pair. -/
def State.hashHas (s : State) (title : List Byte) (tenant : Nat) : Bool :=
  (s.bucket (s.bucketOf title tenant 0) ++ s.bucket (s.bucketOf title tenant 1) ++ s.pip.stash).any (fun x => x.is title tenant)

/-- The hash registers follow the table. -/
def State.hashCount (s : State) : State :=
  let n := s.pip.buckets.foldl (fun a e => a + e.2.length) 0 + s.pip.stash.length
  (s.fset PIP_HASH_STAT.ENTRIES 0 n).fset PIP_HASH_STAT.STASH 0 s.pip.stash.length

/-- Insert a pair (R86). Answers OK, PROTECTION for a duplicate, or INTERNAL when buckets and stash are full. -/
def State.hashInsert (s : State) (title : List Byte) (tenant ledger : Nat) : Nat × State :=
  let b0 := s.bucketOf title tenant 0
  let b1 := s.bucketOf title tenant 1
  let e : HashEnt := { title := title, ledger := ledger, tenant := tenant }
  if s.hashHas title tenant then (0x23, s)
  else
    let n0 := (s.bucket b0).length
    let n1 := (s.bucket b1).length
    if n0 < 4 ∨ n1 < 4 then
      let b := if n1 < n0 then b1 else b0
      (0, (s.setBucket b (s.bucket b ++ [e])).hashCount)
    else if s.pip.stash.length < 64 then
      let s := ({ s with pip := { s.pip with stash := s.pip.stash ++ [e] } } : State).hashCount
      (0, if s.pip.stash.length = 49 then s.signal 1029 (leB 4 0xFFFFFFFF ++ leB 1 49) else s)
    else (0xFF, s.signal 1029 (leB 4 ledger ++ leB 1 64))

/-- Remove a ledger's pair. -/
def State.hashRemove (s : State) (title : List Byte) (tenant : Nat) : State :=
  let b0 := s.bucketOf title tenant 0
  let b1 := s.bucketOf title tenant 1
  let s := s.setBucket b0 ((s.bucket b0).filter (fun e => !e.is title tenant))
  let s := s.setBucket b1 ((s.bucket b1).filter (fun e => !e.is title tenant))
  ({ s with pip := { s.pip with stash := s.pip.stash.filter (fun e => !e.is title tenant) } } : State).hashCount

/-- Forget a ledger's entry in the hidden key cache (R98). -/
def State.cacheForget (s : State) (ledger : Nat) : State :=
  let k := ledger % 4096
  { s with pip := { s.pip with cache := tput [] s.pip.cache k ((tget [] s.pip.cache k).filter (fun e => e.ledger != ledger)) } }

/-! ### The commit pipe (R110) -/

/-- The sectors a commit uses before its tariff is known (R129): 0 and 1, and 2 with prepayment. -/
def commitSectors (l : Led) : Nat := if lstate l 4 then 0b111 else 0b11

/-- The register sector of a tariff (R129, R131). -/
def regSector (tariff : Nat) : Nat := 2 ^ (8 + tariff / 2 % 8)

/-- The PENDING calendar a commit at a tariff time activates first (R160). -/
def State.calDue (s : State) (l : Led) (tt : Option Int) : Option Nat :=
  let id := nbits (lget l L.CAL) 12 0
  let pc := s.calCopy id (!(s.cal id).activeB)
  if nbit (lget l L.CAL) 15 ∧ (s.cal id).passive = 2 ∧ CalCopy.flag pc 1 = false ∧ tt.any (fun x => decide (x ≥ (CalCopy.actTime pc : Int))) then some id else none

/-- Journal room a commit needs: its record's, and that of an activation it makes. -/
def State.commitLen (s : State) (r : Reading) (ledger : Nat) : Nat :=
  if (s.calDue (s.led ledger) (s.tariffTime r)).isSome then 144 else 104

/-- The commit itself, under the ledger lock, the slot reserved and the journal having room. -/
def State.commitApply (s : State) (i ledger : Nat) (broken : Bool) : State :=
  let r := s.tag i
  let l := s.led ledger
  if lstate l 1 ∧ r.ic ≤ lget l L.IC then
    -- the replay decision of R103
    (s.setTag i { r with stage := 5, flags := nsetBit r.flags 5 true, ic := lget l L.IC, lockBroken := r.lockBroken || broken }).endTag i 0x11 0
  else
    let t := r.tenant
    let s := s.unstage r
    let tt := s.tariffTime r
    let s := match s.calDue l tt with | some id => s.calActivate id | none => s
    let u := match tt with | some x => s.tarUse l x | none => s.tarDefault l none
    let l' := commitLine l r u (r.rxMpt / 2 ^ 16 % 2 ^ 32)
    let dig := digestOf (lget l L.DIGEST) r.ic u.tariff u.isDefault (r.meterTime.getD 0) ((List.range 4).map (fun d => lget l' (L.REG u.tariff d)))
    let l' := lset l' L.DIGEST dig
    let diff := match r.digest with | some d => ofLe d != dig | none => false
    let (_, l', s) := if lstate l' 4 then s.ppEval t ledger l' u.friendly 0 else (false, l', s)
    let (rs, cq, v) := match r.origin with
      | .ring q slot _ => (q, (((s.desc q slot).bind (·.cqSlot)).getD (0, 0)).1, 1)
      | _ => (0, 0, 0)
    let body := leB 4 r.ic ++ leB 4 (rs + cq * 2 ^ 12 + v * 2 ^ 28) ++ leB 8 r.rxMpt ++ r.recBytes
    let fl := u.tariff + b2n u.isDefault * 16 + b2n u.retired * 32 + b2n (lstate l' 4) * 64
    let (seq, s) := s.jAppend t 1 fl ledger body
    let s := match r.origin with
      | .ring _ _ _ => s.setTenJ t { s.tenJ t with tags := tput 0 (s.tenJ t).tags seq (i + r.gen * 2 ^ 16 + 1) }
      | _ => s
    let l' := lset l' L.LAST_SEQ seq
    let s := (s.setLed ledger l').lineUse ledger r.cluster (regSector u.tariff) (sectorsOf l l')
    let s := if u.isDefault then s.fsat LDG_T_DEFAULT.COUNT t else s
    let s := if r.ic = 0xFFFFFFFF then s.signal 1028 (leB 4 ledger) else s
    let s := s.archive t (leB 8 seq ++ leB 4 ledger ++ leB 4 r.ic ++ ledTitle l' ++ leB 8 r.rxMpt ++ r.recBytes)
    let bal := nbit (lget l' L.BAL) 31
    let net := fun d => if r.present d then sval 64 ((r.total d + 2 ^ 64 - lget l (L.LAST_TOTAL d)) % 2 ^ 64) else 0
    let b : BalIn := { had := lstate l 2 && lstate l 3, t0 := lastTime l, t1 := r.meterTime, net := net 0 - net 1, node := nbits (lget l' L.BAL) 15 0
                       bucket := nbits (lget l' L.BAL) 17 16, tamper := Nat.land (r.tamper % 256) (255 - lget l L.TAMPER % 256) }
    let r := { r with st := 2, stage := if bal then 10 else 11, bal := if bal then some b else none, flags := nsetBit (nsetBit r.flags 0 diff) 1 u.isDefault, commitSeq := seq
                      onchip := false, lockBroken := r.lockBroken || broken, balanceDone := !bal }
    (s.setTag i r).postReady t

/-- The commit stage of a reading (R110): waits for the lock, for a line's writeback, for a completion slot (R280) or for journal
room (R142); a quarantined ledger ends it. `granted` when a lock grant brought it here. -/
def State.commitTag (s : State) (i : Nat) (granted : Bool) : State :=
  let r := s.tag i
  match r.ledger with
  | none => s
  | some ledger =>
    if r.st ≠ 1 ∨ r.stage ≠ 8 then s
    else if s.quarantined ledger r.tenant then s.endTag i 0x42 0
    else
      let k := s.llock ledger
      if k.owner.isSome ∨ (granted = false ∧ k.waiters.isEmpty = false) then s.lockWait ledger (.pipe i) r.prio
      else
        match s.touch ledger r.cluster (commitSectors (s.led ledger)) 0 with
        | none => s.waitLine ledger r.cluster
        | some s =>
          let s1 := match r.origin with
            | .ring q slot _ => (s.reserveCq q slot)
            | _ => some s
          match s1 with
          | none => s
          | some s =>
            match s.jRoom r.tenant (s.commitLen r ledger) with
            | none => s
            | some s => (s.setLlock ledger { s.llock ledger with broken := false }).commitApply i ledger k.broken

/-! ### Scribe transactions (R132 to R136, R163 to R167) -/

/-- The bits of a dword that a transaction kind may write (R132, R133); reserved bits are none of its fields. -/
def writable (kind dw : Nat) : Nat :=
  if kind = 2 then (if dw = 0 then 2 ^ 32 else if dw = 8 then 2 ^ 64 - 1 else if dw = 9 then 0xFFFFF + 0x1FF * 2 ^ 32 else 0)
  else if kind = 3 then
    if dw = 0 then 2 ^ 36
    else if dw = 10 then 0x9FFF + 0x8003FFFF * 2 ^ 32
    else if dw = 11 then 0x8003FFFF + 0xFFFFFFFF * 2 ^ 32
    else if dw = 18 ∨ dw = 19 ∨ dw = 20 ∨ (24 ≤ dw ∧ dw < 64) then 2 ^ 64 - 1
    else if dw = 17 then 0b111000 * 2 ^ 32
    else 0
  else if kind = 8 then (if dw = 3 then 2 ^ 64 - 1 else 0)
  else 0

/-- One write under a bit mask. -/
def maskWrite (old mask v : Nat) : Nat := Nat.lor (Nat.land old (2 ^ 64 - 1 - mask % 2 ^ 64)) (Nat.land v (mask % 2 ^ 64))

/-- A line with a transaction's writes applied in order. -/
def applyWrites (l : Led) (ws : List (Nat × Nat × Nat)) : Led :=
  ws.foldl (fun l w => tput 0 l w.1 (maskWrite (tget 0 l w.1) w.2.1 w.2.2)) l

/-- Every bit written is one the kind may write, and TAMPER is only cleared (R133). -/
def writesOk (kind : Nat) (l : Led) (ws : List (Nat × Nat × Nat)) : Bool :=
  ws.all (fun w => decide (Nat.land w.2.1 (2 ^ 64 - 1 - writable kind w.1) = 0))
    && decide (Nat.land (lget (applyWrites l ws) L.TAMPER) (2 ^ 32 - 1 - lget l L.TAMPER) = 0)

/-- Sectors 0 to 7 that a FIELDS transaction changes. -/
def fieldsMask (l l' : Led) : Nat :=
  (List.range 8).foldl (fun a k => if sectorBytes l k == sectorBytes l' k then a else a + 2 ^ k) 0

/-- The friendly hours of a ledger at the current UTC (R165). -/
def State.friendlyNow (s : State) (l : Led) : Bool := (s.tarUse l s.utcNow).friendly

/-- The record of a transaction that changed a line: type, body. The line is stored with its LAST_SEQ. -/
def State.txnRecord (s : State) (tenant ledger typ : Nat) (body : List Byte) : Nat × State :=
  let (seq, s) := s.jAppend tenant typ 0 ledger body
  (seq, s.setLed ledger (lset (s.led ledger) L.LAST_SEQ seq))

/-- The meter-ID hash follows an IDENTITY or CLEAR (R136): an installed pair is inserted, one that goes is removed. Answers the insert's status. -/
def State.identHash (s : State) (tenant i : Nat) (l l' : Led) : Nat × State :=
  let same := lstate l 0 && lstate l' 0 && lget l L.TITLE == lget l' L.TITLE
  if same then (0, s)
  else
    let (st, s) := if lstate l' 0 then s.hashInsert (ledTitle l') tenant i else (0, s)
    (st, if st = 0 ∧ lstate l 0 then s.hashRemove (ledTitle l) tenant else s)

/-- A FIELDS transaction that sets PREPAY sets STANDING_DAY (R164): the local day of the current UTC, or 0 without CAL_OK. -/
def State.fieldsDay (s : State) (l l' : Led) : Led :=
  if lstate l' 4 ∧ lstate l 4 = false then
    lset l' L.STANDING_DAY (if s.calOk = false then 0
      else match (s.tarUse l' s.utcNow).localDay with | some d => d | none => s.utcNow.toNat / 86400 - day2000)
  else l'

/-- The line a scribe transaction leaves, before its number and before prepayment is evaluated. An IDENTITY that clears IDENT leaves TITLE 0, by which
its record says so (log entry 111). -/
def State.txnLine (s : State) (x : Txn) : Led :=
  let l := s.led x.ledger
  let l' := applyWrites l x.writes
  if x.kind = 2 then
    let l' := if lstate l' 0 then l' else lset l' L.TITLE 0
    lset (lsetState (lsetState (lsetState l' 1 false) 2 false) 3 false) L.DIGEST (digestInit (lget l' L.TITLE))
  else if x.kind = 3 then s.fieldsDay l l'
  else if x.kind = 4 then lset (lset l L.CREDIT (uval 64 (sat64 (credit l + sval 64 (tget 0 x.args 0))))) L.TOPUP_SEQ (tget 0 x.args 1)
  else if x.kind = 9 then []
  else l'

/-- The reason a PP_EVENT transaction gives, 0 for the others. -/
def Txn.reason (x : Txn) : Nat := if x.kind = 5 then tget 0 x.args 0 % 2 ^ 32 else 0

/-- The line with prepayment evaluated, for the kinds that do so (R165). -/
def State.txnFinal (s : State) (x : Txn) : Led :=
  let l := s.txnLine x
  if x.kind = 3 ∨ x.kind = 4 ∨ x.kind = 5 then ppLine l (s.friendlyNow l) x.reason else l

/-- The body of a scribe transaction's journal record (R138). -/
def State.txnBody (s : State) (x : Txn) : List Byte :=
  let l := s.txnFinal x
  match x.kind with
  | 2 => leB 8 (lget l L.TITLE) ++ leB 4 (lget l L.KEY_HANDLE) ++ leB 4 (lget l L.BLOB)
  | 3 =>
    let m := fieldsMask (s.led x.ledger) l
    leB 2 m ++ leB 6 0 ++ ((List.range 8).filter (fun k => nbit m k)).flatMap (sectorBytes l)
  | 4 => leB 8 (tget 0 x.args 0) ++ leB 4 (tget 0 x.args 1) ++ leB 4 0
  | 5 => leB 4 (lget l L.PP) ++ leB 4 x.reason
  | 8 => leB 8 (lget l L.DIGEST)
  | _ => []

/-- What refuses a transaction at LCOMMIT, 0 if nothing does: quarantine (R154), a write its kind does not list (R133), a TOPUP that is not
newer (R167). -/
def State.txnCheck (s : State) (tenant : Nat) (x : Txn) : Nat :=
  if s.quarantined x.ledger tenant then 0x42
  else if writesOk x.kind (s.led x.ledger) x.writes = false then 0x23
  else if x.kind = 4 ∧ tget 0 x.args 1 % 2 ^ 32 ≤ lget (s.led x.ledger) L.TOPUP_SEQ then 0x11
  else 0

/-- Apply a scribe transaction at LCOMMIT: its status, its COMMIT_SEQ (0 unless it commits) and the state; none while the journal has no room
for its record (R142). -/
def State.txnApply (s : State) (tenant : Nat) (x : Txn) : Option (Nat × Nat × State) :=
  let i := x.ledger
  let l := s.led i
  let c := s.txnCheck tenant x
  if c ≠ 0 then some (c, 0, s)
  else
    let body := s.txnBody x
    match s.jRoom tenant (24 + body.length) with
    | none => none
    | some s =>
      let l' := s.txnLine x
      let (st, s1) := if x.kind = 2 ∨ x.kind = 9 then s.identHash tenant i l l' else (0, s)
      if st ≠ 0 then some (st, 0, if st = 0xFF then s.signal 1029 (leB 4 i ++ leB 1 64) else s)
      else
        let s := if x.kind = 9 ∨ (x.kind = 2 ∧ lget l L.BLOB % 256 ≠ lget l' L.BLOB % 256) then s1.cacheForget i else s1
        let s := if x.kind = 3 ∨ x.kind = 4 ∨ x.kind = 5 then (s.ppEval tenant i l' (s.friendlyNow l') x.reason).2.2 else s.setLed i l'
        let (q, s) := s.txnRecord tenant i x.kind body
        some (0, q, s)

/-! ### Calendar commands (R158 to R160) -/

/-- CAL_WRITE of one 1,024-byte quarter of the passive copy: status, reason; none while the journal has no room for its record (R142). -/
def State.calWrite (s : State) (tenant id quarter : Nat) (b : List Byte) : Option (Nat × Nat × State) :=
  if s.calOwner id ≠ some tenant ∨ s.fbit LDG_CFG.CAL_VALID = false ∨ id ≥ 8192 then some (0x23, 0, s)
  else if s.fbit LDG_T_STAT.QUAR_ALL tenant then some (0x42, 0, s)
  else
    let c := s.cal id
    let pb := !c.activeB
    match s.jRoom tenant 1056 with
    | none => none
    | some s =>
      let s := s.mwrite (s.calAddr id pb + 1024 * quarter) (fit 1024 b)
      let s := { s with ldg := { s.ldg with pendList := s.ldg.pendList.filter (· != id) } }
      let (q, s) := s.jAppend tenant 6 0 id (leB 1 quarter ++ leB 1 (b2n pb) ++ leB 6 0 ++ fit 1024 b)
      some (0, 0, s.setCal id { c with passive := 1, calSeq := q })

/-- ARM (R158, R159). -/
def State.calArm (s : State) (tenant id : Nat) : Nat × Nat × State :=
  if s.calOwner id ≠ some tenant ∨ s.fbit LDG_CFG.CAL_VALID = false ∨ id ≥ 8192 then (0x23, 0, s)
  else
    let c := s.cal id
    if c.passive = 2 then (0, 0, s)
    else if c.passive ≠ 1 then (0x12, 9, s)
    else
      let cp := s.calCopy id (!c.activeB)
      let rs := CalCopy.armReason cp
      if rs ≠ 0 then (0x12, rs, s)
      else if CalCopy.flag cp 1 ∧ (s.centre ∨ (sval 64 ((CalCopy.actTime cp + 2 ^ 64 - s.time.mpt) % 2 ^ 64)).natAbs ≥ 2 ^ 47) then (0x12, 7, s)
      else if s.ldg.pendList.length ≥ 256 then (0x12, 8, s)
      else
        let s := (s.setCal id { c with passive := 2 })
        let s := { s with ldg := { s.ldg with pendList := s.ldg.pendList ++ [id] } }
        (0, 0, if CalCopy.flag cp 1 = false ∧ s.calOk ∧ s.utcNow ≥ (CalCopy.actTime cp : Int) then s.calActivate id else s)

/-- CANCEL (R158). -/
def State.calCancel (s : State) (tenant id : Nat) : Nat × Nat × State :=
  if s.calOwner id ≠ some tenant ∨ s.fbit LDG_CFG.CAL_VALID = false ∨ id ≥ 8192 then (0x23, 0, s)
  else if (s.cal id).passive ≠ 2 then (0x12, 9, s)
  else
    let s := s.setCal id { s.cal id with passive := 1 }
    (0, 0, { s with ldg := { s.ldg with pendList := s.ldg.pendList.filter (· != id) } })

/-- ACTIVATE_NOW (R158, R160). -/
def State.calNow (s : State) (tenant id : Nat) : Nat × Nat × State :=
  if s.calOwner id ≠ some tenant ∨ s.fbit LDG_CFG.CAL_VALID = false ∨ id ≥ 8192 then (0x23, 0, s)
  else if s.fbit LDG_T_STAT.QUAR_ALL tenant then (0x42, 0, s)
  else if (s.cal id).passive ≠ 2 then (0x12, 9, s)
  else (0, 0, s.calActivate id)

/-- A TARIFF trigger for a calendar (R160). -/
def State.calTrigger (s : State) (id : Nat) : State :=
  if (s.cal id).passive = 2 then s.calActivate id else s.errSet [LDG_ERR.TRIG] (fun s => s)

end Sys2Proof.Machine
end

