-- ==== Sys2Proof/Machine/LedgerCmds.lean ====
section
/-! DEFINITION. The ledger rows of the table beyond commit and transactions: sinks, checkpoints, rebuild, quarantine, calendar commands,
the watch sweep and the ledger cache (R117, R135, R140 to R160, R168). -/
namespace Sys2Proof.Machine
open Reg

/-- The tenant an LDG window command acts on: the supervisor's selected one. -/
def State.ldgT (s : State) (host off : Nat) (body : Nat → State → State) : State := s.gateW host .ldg 0 off body

/-! ### Sinks -/

/-- Scrub a ledger to 0 with its journal record, and remove its identity (R132, R155). -/
def State.ledgerClear (s : State) (t i : Nat) : State :=
  let l := s.led i
  let s := if lstate l 0 then s.hashRemove (ledTitle l) t else s
  let s := (s.setLed i []).cacheForget i
  let (q, s) := s.jAppend t 9 0 i []
  s.setLed i (lset [] L.LAST_SEQ q)

/-- Remove the quarantine entry of a ledger. -/
def State.quarRemove (s : State) (i : Nat) : State :=
  match s.quarEntry i with
  | some k => ({ s with ldg := { s.ldg with quar := tput none s.ldg.quar k none } } : State).quarCount
  | none => s

/-- Store the result of a quarantine command. -/
def State.quarRes (s : State) (status : Nat) : State := (s.fset LDG_QUAR_RES.STATUS 0 status).fset LDG_QUAR_RES.BUSY 0 0

/-- CLEAR of a quarantined ledger (R155); it waits, BUSY, while the journal has no room for its record (R142, R171). -/
def State.quarClear (s : State) (ledger : Nat) : State :=
  let t := (s.ledgerOwner ledger).getD 0
  match s.jRoom t 24 with
  | none => ({ s with ldg := { s.ldg with quarWait := some ledger } } : State).fset LDG_QUAR_RES.BUSY 0 1
  | some s => ((({ s with ldg := { s.ldg with quarWait := none } } : State).ledgerClear t ledger).quarRemove ledger).quarRes 0

/-- What waits for journal room goes on once it has some: calendar activations, and a quarantine CLEAR (R142). -/
def State.roomRetry (s : State) : State :=
  let s := s.ldg.actWait.foldl (fun s c => s.calActivate c) s
  match s.ldg.quarWait with | some i => s.quarClear i | none => s

/-- A sink's cumulative acknowledgement advances (R140). A NAND sink acknowledges nothing while NAND is not READY (R440, R447). -/
def execJournalAck (tenant sink seq : Nat) (s : State) : Res :=
  .next (if sink = 0 ∧ s.nandReady = false then s else (s.jAck tenant sink seq).roomRetry)

/-- A partly filled journal page is programmed (R140); its records are acknowledged once the page is verified (JOURNAL_ACK). -/
def execNandPartialFlush (tenant : Nat) (s : State) : Res := .next (s.setTenJ tenant { s.tenJ tenant with partial_ := false })

/-- A sink with outstanding records acknowledges nothing for JACK_TMO: DOWN, Inkwell record, event 1152; completions go on (R143).
A PARTNER sink that goes DOWN leaves SYNCED (R481). -/
def execSinkDown (tenant sink : Nat) (s : State) : Res :=
  if (s.upSinks tenant).contains sink = false ∨ max 1 (s.ackOf tenant sink) ≥ s.nextSeq tenant then .next s
  else
    let s := s.setSink tenant sink false
    let s := s.inkRec 0x20 tenant (leB 1 sink ++ leB 7 0 ++ leB 8 (s.ackOf tenant sink))
    let s := if sink = 1 then s.setSync tenant 0 else s
    .next ((s.jRelease tenant).postReady tenant).roomRetry

/-- Clear a sink's LOST bit. -/
def State.clearLost (s : State) (t k : Nat) : State := s.fset LDG_T_SINK_STAT.LOST t (nsetBit (s.fget LDG_T_SINK_STAT.LOST t) k false)

/-- A change of the enabled sinks, from the mask `old` (R140, R143): a sink enabled now owes the records committed from now on and is UP, PARTNER
once the tenant is SYNCED (R481) and NAND while it is READY; a sink disabled now holds nothing back. -/
def State.sinkChange (s : State) (t old : Nat) : State :=
  let s := (List.range 3).foldl (fun (s : State) k =>
    let now := nbit (s.fget LDG_T_SINK.EN t) k
    if now = nbit old k then s
    else
      let s := s.clearLost t k
      let s := if k = 2 then s.setTenJ t { s.tenJ t with hostSent := [] } else s
      let s := if k = 1 then s.setSync t 0 else s
      if now then (s.setAck t k (s.nextSeq t)).setSink t k (k == 2 || (k == 0 && s.nandReady)) else s.setSink t k false) s
  (s.jRelease t).postReady t

/-- RESYNC_NAND (R143): with LOST the sink resumes only after a new checkpoint. -/
def execResyncNand (host : Nat) (s : State) : Res :=
  .next (s.ldgT host 0x1154 (fun t s =>
    if nbit (s.fget LDG_T_SINK.EN t) 0 = false ∨ nbit (s.fget LDG_T_SINK_STAT.UP t) 0 then s
    else if nbit (s.fget LDG_T_SINK_STAT.LOST t) 0 then s.setTenJ t { s.tenJ t with nandWait := true }
    else (s.setTenJ t { s.tenJ t with partial_ := !(s.tenJ t).buf.isEmpty }).setSink t 0 true))

/-- RESYNC_HOST (R143): resent from the acknowledged value; after a loss, the records still in NAND, and a GAP record where
some are held nowhere. -/
def execResyncHost (host : Nat) (s : State) : Res :=
  .next (s.ldgT host 0x1154 (fun t s =>
    if nbit (s.fget LDG_T_SINK.EN t) 2 = false ∨ nbit (s.fget LDG_T_SINK_STAT.UP t) 2 then s
    else
      let lost := nbit (s.fget LDG_T_SINK_STAT.LOST t) 2
      let s := (s.setTenJ t { s.tenJ t with hostSent := [], hostNand := lost }).setSink t 2 true
      if lost = false then s.hostFeedAll t
      else
        let s := s.clearLost t 2
        let j := s.tenJ t
        let first := match j.buf with | x :: _ => x.seq | [] => s.nextSeq t
        let old := j.nand.filter (fun x => decide (x.seq ≥ s.ackOf t 2 ∧ x.seq < first))
        let missing := first - max 1 (s.ackOf t 2) - old.length
        let s := if missing = 0 then s else s.inkRec 1 t (gapBody missing 0 0 4)
        s.hostFeedAll t))

/-! ### Checkpoints (R144, R145) -/

/-- Start a checkpoint: ignored while one runs; without a valid partition, or without room for its marker, it fails (event 1155). -/
def State.ckptStart (s : State) (t : Nat) : State :=
  if s.fbit LDG_T_CKPT_STAT.BUSY t then s
  else if s.fbit LDG_T_CKPT.VALID t = false then (s.fset LDG_T_CKPT_STAT.LAST_OK t 0).signal 1155 (leB 2 t)
  else
    match s.jRoom t 24 with
    | none => (s.fset LDG_T_CKPT_STAT.LAST_OK t 0).signal 1155 (leB 2 t)
    | some s =>
      let (s0, s) := s.jAppend t 0x0A 0 (s.fget LDG_T_CKPT.PART t) []
      let j := s.tenJ t
      let j := { j with running := some j.nextSlot, endSeq := none,
                        slots := tput ({} : Ckpt) j.slots j.nextSlot { s0 := s0 } }
      (s.setTenJ t j).fset LDG_T_CKPT_STAT.BUSY t 1

/-- LDG_T_CKPT_CMD.TAKE. -/
def execTake (host : Nat) (s : State) : Res := .next (s.ldgT host 0x1110 (fun t s => s.ckptStart t))

/-- The checkpoint period elapses; PERIOD 0 means on command only. -/
def execCkptPeriodExpiry (tenant : Nat) (s : State) : Res :=
  .next (if s.fget LDG_T_CKPT.PERIOD tenant = 0 then s else s.ckptStart tenant)

/-- Ledgers of a tenant that hold anything. -/
def State.tenLedgers (s : State) (t : Nat) : Tab (Tab Nat) := s.ldg.ledgers.filter (fun e => s.ownsLedger t e.1)

/-- Calendars of a tenant. -/
def State.tenCals (s : State) (t : Nat) : List Nat := (List.range 8192).filter (fun c => decide (s.calOwner c = some t))

/-- The copy ends and CKPT_END is journaled; the checkpoint is complete once the NAND sink acknowledges it (R144). -/
def execCkptCopyDone (tenant : Nat) (s : State) : Res :=
  let j := s.tenJ tenant
  match j.running with
  | none => .next s
  | some sl =>
    if j.endSeq.isSome then .next s
    else
      match s.jRoom tenant 24 with
      | none => .next s
      | some s =>
        let c := tget ({} : Ckpt) j.slots sl
        let cals : Tab (List Byte × List Byte × CalCtl) := (s.tenCals tenant).map (fun i => (i, s.calCopy i false, s.calCopy i true, s.cal i))
        let s := s.setTenJ tenant { s.tenJ tenant with slots := tput ({} : Ckpt) j.slots sl { c with ledgers := s.tenLedgers tenant, cals := cals } }
        let (q, s) := s.jAppend tenant 0x0B 0 (s.fget LDG_T_CKPT.PART tenant) []
        .next (s.setTenJ tenant { s.tenJ tenant with endSeq := some q })

/-! ### Replay (R146, R147) -/

/-- The body of a journal record. -/
def JRec.body (r : JRec) : List Byte := r.bytes.drop 24

/-- FLAGS of a journal record. -/
def JRec.flags (r : JRec) : Nat := leAt r.bytes 0x0B 1

/-- The record's CRC holds. -/
def JRec.crcOk (r : JRec) : Bool := leAt r.bytes 0x14 4 == crc32 (splice r.bytes 0x14 (leB 4 0))

/-- The reading a READING body holds. -/
def JRec.reading (r : JRec) (t : Nat) : Reading :=
  { tenant := t, ledger := some r.target, ic := leAt r.body 0 4, rxMpt := leAt r.body 8 8
    record := (List.range 8).map (fun k => BitVec.ofNat 64 (leAt r.body (16 + 8 * k) 8)) }

/-- Tariff use taken from the record's FLAGS, not from the present time. -/
def State.replayUse (s : State) (r : JRec) (rd : Reading) : TarUse :=
  let l := s.led r.target
  let w := lget l L.CAL
  let c := s.cal (nbits w 12 0)
  let tariff := nbits r.flags 3 0
  let have_ := nbit w 15 && c.activeValid
  let cp := s.calCopy (nbits w 12 0) (if nbit r.flags 5 then !c.activeB else c.activeB)
  let day := match rd.meterTime with
    | some m => if have_ = false then none else some (CalCopy.select cp ((m : Int) - 1)).localDay
    | none => none
  { tariff := tariff
    friendly := if nbit r.flags 4 then have_ else (match rd.meterTime with | some m => (CalCopy.select cp ((m : Int) - 1)).friendly | none => false)
    localDay := day, isDefault := nbit r.flags 4, retired := nbit r.flags 5
    prices := if have_ then CalCopy.prices cp tariff else (0, 0), standing := if have_ then leAt cp 0x1A0 8 else 0 }

/-- Enter a ledger's identity in the meter-ID hash again. -/
def State.rehash (s : State) (t i : Nat) : State :=
  let l := s.led i
  if lstate l 0 then ((s.hashRemove (ledTitle l) t).hashInsert (ledTitle l) t i).2 else s

/-- Apply one journal record if it is newer than its target (R146). What a record does not hold is taken as log entry 111 says: IDENT of an IDENTITY
from its TITLE, and friendly hours at a TOPUP from PP_STATE. -/
def State.replayRec (s : State) (t : Nat) (r : JRec) : State :=
  let b := r.body
  let i := r.target
  let l := s.led i
  let newer := decide (r.seq > lget l L.LAST_SEQ)
  let fin := fun (s : State) (l : Led) => s.setLed i (lset l L.LAST_SEQ r.seq)
  if r.typ = 6 then
    if r.seq > (s.cal i).calSeq then
      let s := s.mwrite (s.calAddr i (nbit (leAt b 1 1) 0) + 1024 * leAt b 0 1) (slice b 8 1024)
      s.setCal i { s.cal i with passive := 1, calSeq := r.seq }
    else s
  else if r.typ = 7 then
    if r.seq > (s.cal i).calSeq then
      let c := s.cal i
      s.setCal i { activeB := nbit (leAt b 0 1) 0, activeValid := true, passive := if c.activeValid then 3 else 0, calSeq := r.seq, eff := leAt b 8 8 }
    else s
  else if newer = false ∨ r.typ ≥ 0x0A then s
  else if r.typ = 1 then
    let rd := r.reading t
    let u := s.replayUse r rd
    let l' := commitLine l rd u (rd.rxMpt / 2 ^ 16 % 2 ^ 32)
    let dig := digestOf (lget l L.DIGEST) rd.ic u.tariff u.isDefault (rd.meterTime.getD 0) ((List.range 4).map (fun d => lget l' (L.REG u.tariff d)))
    let l' := lset l' L.DIGEST dig
    fin s (if lstate l' 4 then ppLine l' u.friendly 0 else l')
  else if r.typ = 2 then
    let s := if lstate l 0 then s.hashRemove (ledTitle l) t else s
    let title := leAt b 0 8
    let l' := lset (lset (lset l L.TITLE title) L.KEY_HANDLE (leAt b 8 4)) L.BLOB (leAt b 12 4)
    let l' := lsetState (lsetState (lsetState (lsetState l' 0 (title != 0)) 1 false) 2 false) 3 false
    let s := fin s (lset l' L.DIGEST (digestInit title))
    s.rehash t i
  else if r.typ = 3 then
    let m := leAt b 0 2
    let (l', _) := (List.range 8).foldl (fun (a : Led × Nat) k =>
      if nbit m k then ((List.range 8).foldl (fun l j => tput 0 l (8 * k + j) (leAt b (8 + 64 * a.2 + 8 * j) 8)) a.1, a.2 + 1) else a) (l, 0)
    fin s l'
  else if r.typ = 4 then
    let l' := lset (lset l L.CREDIT (uval 64 (sat64 (credit l + sval 64 (leAt b 0 8))))) L.TOPUP_SEQ (leAt b 8 4)
    fin s (ppLine l' (nbits (lget l L.PP) 2 0 == 3) 0)
  else if r.typ = 5 then fin s (lset l L.PP (leAt b 0 4))
  else if r.typ = 8 then fin s (lset l L.DIGEST (leAt b 0 8))
  else
    let s := if lstate l 0 then s.hashRemove (ledTitle l) t else s
    fin s []

/-- Replay records in ascending COMMIT_SEQ from `want` on, to the first bad CRC or gap (R147). Answers the last number applied and
whether it stopped early. -/
def State.replay (s : State) (t : Nat) : List JRec → Nat → Nat × Bool × State
  | [], want => (want - 1, false, s)
  | r :: rest, want =>
    if r.seq < want then s.replay t rest want
    else if r.seq ≠ want ∨ r.crcOk = false then (want - 1, true, s)
    else (s.replayRec t r).replay t rest (want + 1)

/-- The newest complete checkpoint of a tenant. -/
def TenJ.newest (j : TenJ) : Option Ckpt :=
  j.slots.foldl (fun a e => if e.2.complete = false then a else match a with | none => some e.2 | some b => if e.2.s0 > b.s0 then some e.2 else some b) none

/-- Load a checkpoint's ledgers and calendars into DRAM. -/
def State.ckptLoad (s : State) (t : Nat) (c : Ckpt) : State :=
  let keep := s.ldg.ledgers.filter (fun e => !s.ownsLedger t e.1)
  let s := { s with ldg := { s.ldg with ledgers := c.ledgers.foldl (fun a e => tput [] a e.1 e.2) keep } }
  c.cals.foldl (fun s e => ((s.mwrite (s.calAddr e.1 false) e.2.1).mwrite (s.calAddr e.1 true) e.2.2.1).setCal e.1 e.2.2.2) s

/-- LDG_REBUILD.BUSY is 1 while some tenant's rebuild runs or is to run (R171). -/
def State.rebuildBusy (s : State) : State :=
  s.fset LDG_REBUILD.BUSY 0 (b2n ((List.range 1024).any (fun t => s.fbit LDG_T_STAT.REBUILD t && !s.fbit LDG_T_STAT.REBUILD_WAIT t)))

/-- A tenant is to be rebuilt: it is OFF until the rebuild ends (R148). -/
def State.rebuildStart (s : State) (t : Nat) : State :=
  let s := s.fset LDG_T_STAT.REBUILD t 1
  if t = 0 then s else s.fset TEN_STAT.STATE t 0

/-- A tenant's COMMIT_SEQ continues from the last value found in its journal (R139), every number below it being settled. -/
def State.seqContinue (s : State) (t : Nat) : State :=
  let j := s.tenJ t
  let n := (j.nand ++ j.holdup).foldl (fun a r => max a (r.seq + 1)) (s.nextSeq t)
  if n = s.nextSeq t then s
  else (List.range 3).foldl (fun (s : State) k => s.setAck t k n) (s.set64 LDG_T_SEQ_LO.SEQ_LO LDG_T_SEQ_HI.SEQ_HI t n)

/-- The PENDING calendars of a tenant are on the pending list again (R160). -/
def State.pendRefill (s : State) (t : Nat) : State :=
  let own := fun c => decide (s.calOwner c = some t)
  let ids := (s.ldg.cals.filter (fun e => e.2.passive == 2 && own e.1)).map (·.1)
  { s with ldg := { s.ldg with pendList := s.ldg.pendList.filter (fun c => !own c) ++ ids } }

/-- The tenant enters the state its configuration requests (R148). -/
def State.rebuildEnd (s : State) (t last : Nat) : State :=
  let s := ((s.fset LDG_T_STAT.REBUILD t 0).fset LDG_T_STAT.REBUILD_WAIT t 0).rebuildBusy
  let s := if t ≠ 0 ∧ s.fbit TEN_CTRL.ENABLE t ∧ s.fget TEN_STAT.STATE t = 0 then (s.fset TEN_STAT.STATE t 2).fadd TEN_STAT.GEN t else s
  s.signal 1156 (leB 2 t ++ leB 8 last)

/-- The blobs of a tenant's ledgers return from the blob store to the blob area (R392). -/
def State.blobsBack (s : State) (tenant : Nat) : State :=
  if s.fbit LDG_CFG.BLOB_VALID = false then s
  else
    s.vault.blobs.foldl (fun (s : State) (e : Nat × List (BitVec 8)) =>
      if s.ownsLedger tenant e.1 then s.mwrite (s.base LDG_BLOB_LO.BASE_LO 20 LDG_BLOB_HI.BASE_HI + 64 * e.1) e.2 else s) s

/-- The rebuild of one tenant (R146 to R149), the lowest that waits; `ms` is how long it took. A tenant without a checkpoint waits for
REBUILD_DONE or its partner. Records after the last one applied are discarded (R147). -/
def execTenantRebuild (tenant ms : Nat) (s : State) : Res :=
  let lowest := (List.range tenant).all (fun t => !(s.fbit LDG_T_STAT.REBUILD t && !s.fbit LDG_T_STAT.REBUILD_WAIT t))
  if s.fbit LDG_T_STAT.REBUILD tenant = false ∨ s.fbit LDG_T_STAT.REBUILD_WAIT tenant ∨ lowest = false then .next s
  else
    let s := (s.fset LDG_REBUILD.TENANT 0 tenant).fset LDG_REBUILD_TIME.MS 0 ms
    let j := s.tenJ tenant
    match j.newest with
    | none => .next (s.fset LDG_T_STAT.REBUILD_WAIT tenant 1).rebuildBusy
    | some c =>
      let s := s.ckptLoad tenant c
      let s := c.ledgers.foldl (fun s e => s.rehash tenant e.1) s
      let s := s.blobsBack tenant
      let src := sortBy (fun (r : JRec) => r.seq) (j.nand ++ j.holdup.filter (fun r => !(j.nand.any (fun x => x.seq == r.seq))))
      let (last, stopped, s) := s.replay tenant (src.filter (fun r => decide (r.seq ≥ c.s0))) c.s0
      let s := s.set64 LDG_T_SEQ_LO.SEQ_LO LDG_T_SEQ_HI.SEQ_HI tenant (last + 1)
      let s := (List.range 3).foldl (fun (s : State) k => s.setAck tenant k (last + 1)) s
      let s := s.setTenJ tenant { s.tenJ tenant with lastApplied := last, holdup := [], nand := src.filter (fun r => decide (r.seq ≤ last)) }
      let s := if stopped then (s.errSet [LDG_ERR.RECORD] (fun s => s)).inkRec 0x21 tenant (leB 8 last) else s
      let s := (s.tenLedgers tenant).foldl (fun s e => if lstate e.2 4 ∧ nbits (lget e.2 L.PP) 2 0 = 3 then s.watchAdd e.1 else s) s
      .next ((s.pendRefill tenant).rebuildEnd tenant last)

/-- LDG_T_CMD.REBUILD_DONE ends a rebuild without checkpoint (R148). -/
def execRebuildDone (host : Nat) (s : State) : Res :=
  .next (s.ldgT host 0x1154 (fun t s => if s.fbit LDG_T_STAT.REBUILD_WAIT t then s.rebuildEnd t (s.nextSeq t - 1) else s))

/-! ### Quarantine (R154 to R156) -/

/-- A ledger's sector is read again (R117): a good read ends the retries; after PIP_RETRY_LDG attempts the ledger is quarantined. -/
def execLedgerSectorRetry (ledger : Nat) (ok : Bool) (s : State) : Res :=
  let n := tget 0 s.ldg.sectorTries ledger + 1
  let set := fun (s : State) (v : Nat) => ({ s with ldg := { s.ldg with sectorTries := tput 0 s.ldg.sectorTries ledger v } } : State)
  .next (if ok then set s 0 else if n ≥ s.fget PIP_RETRY_LDG.TRIES then (set s 0).quarantine ledger else set s n)

/-- A quarantine command of the supervisor: one written while BUSY is 1 is discarded with LDG_ERR.BUSY (R171). -/
def State.quarGate (s : State) (host : Nat) (body : State → State) : State :=
  s.gate host .ldg 0x44 (fun s => if s.fbit LDG_QUAR_RES.BUSY then s.errAt LDG_ERR.BUSY 0x44 else body s)

/-- REBUILD (R155): checkpoint, then journal; `good` is whether the read-back verified. One that fails leaves the ledger as it is, quarantined. -/
def execRebuild (host ledger : Nat) (good : Bool) (s : State) : Res :=
  .next (s.quarGate host (fun s =>
    match s.quarEntry ledger with
    | none => (s.protCount 0).quarRes 0x23
    | some k =>
      let t := (s.ledgerOwner ledger).getD 0
      let j := s.tenJ t
      match j.newest with
      | none => s.quarRes 0x40
      | some c =>
        if nbit (s.fget LDG_T_SINK_STAT.LOST t) 0 then s.quarRes 0x40
        else if good then
          let s := s.setLed ledger (tget [] c.ledgers ledger)
          let s := (j.nand.filter (fun r => decide (r.seq ≥ c.s0) && r.target == ledger && r.typ != 6 && r.typ != 7)).foldl (fun s r => s.replayRec t r) s
          ((s.rehash t ledger).quarRemove ledger).quarRes 0
        else ({ s with ldg := { s.ldg with quar := tput none s.ldg.quar k (some (ledger, 2)) } } : State).quarRes 0x40))

/-- CLEAR (R155). -/
def execQuarClear (host ledger : Nat) (s : State) : Res :=
  .next (s.quarGate host (fun s =>
    if (s.quarEntry ledger).isNone then (s.protCount 0).quarRes 0x23
    else s.quarClear ledger))

/-- REQUAR (R156): with a free entry the ledger is quarantined again, and QUAR_ALL clears once no ledger of the tenant is left without an entry. -/
def execRequar (host ledger : Nat) (s : State) : Res :=
  .next (s.quarGate host (fun s =>
    let t := (s.ledgerOwner ledger).getD 0
    if (tget [] s.ldg.quarAll t).contains ledger = false then (s.protCount 0).quarRes 0x23
    else
      match (List.range 1024).find? (fun k => (tget none s.ldg.quar k).isNone) with
      | none => s.quarRes 0x24
      | some k =>
        let rest := (tget [] s.ldg.quarAll t).filter (· != ledger)
        let s := { s with ldg := { s.ldg with quar := tput none s.ldg.quar k (some (ledger, 1)), quarAll := tput [] s.ldg.quarAll t rest } }
        ((s.quarCount.fset LDG_T_STAT.QUAR_ALL t (b2n (!rest.isEmpty))).signal 1157 (leB 4 ledger)).quarRes 0))

/-! ### Calendar commands (R158 to R160, R171): the supervisor's requests are tenant 0's (log entry 12) -/

/-- Store the result of a calendar command. -/
def State.calRes (x : Nat × Nat × State) : State :=
  let s := if x.1 = 0x23 then x.2.2.protCount 0 else x.2.2
  (s.fset LDG_CAL_RES.STATUS 0 x.1).fset LDG_CAL_RES.REASON 0 x.2.1

/-- LDG_CAL_CMD ARM. -/
def execArm (host cal : Nat) (s : State) : Res := .next (s.gate host .ldg 0x70 (fun s => State.calRes (s.calArm 0 (cal % 8192))))

/-- LDG_CAL_CMD CANCEL. -/
def execCancel (host cal : Nat) (s : State) : Res := .next (s.gate host .ldg 0x70 (fun s => State.calRes (s.calCancel 0 (cal % 8192))))

/-- LDG_CAL_CMD ACTIVATE_NOW. -/
def execActivateNow (host cal : Nat) (s : State) : Res := .next (s.gate host .ldg 0x70 (fun s => State.calRes (s.calNow 0 (cal % 8192))))

/-- The once-per-second check of grid-based calendars (R160), in ascending ID. -/
def execCalActivationCheck (s : State) : Res :=
  .next (if s.calOk = false then s
    else (sortBy id s.ldg.pendList).foldl (fun s c =>
      let cp := s.calCopy c (!(s.cal c).activeB)
      if CalCopy.flag cp 1 = false ∧ s.utcNow ≥ (CalCopy.actTime cp : Int) then s.calActivate c else s) s)

/-! ### The watch sweep (R168) -/

/-- Evaluate one watched ledger; it leaves the list once it has left DEFERRED. A change is journaled with reason 1. -/
def State.sweepOne (s : State) (i : Nat) : State :=
  let l := s.led i
  let t := (s.ledgerOwner i).getD 0
  if s.quarantined i t then s
  else
    match if ppNext l (s.friendlyNow l) 0 = nbits (lget l L.PP) 2 0 then some s else s.jRoom t 32 with
    | none => s
    | some s =>
      let (changed, l', s) := s.ppEval t i l (s.friendlyNow l) 0
      let s := if changed then (s.txnRecord t i 5 (leB 4 (lget l' L.PP) ++ leB 4 1)).2 else s
      if nbits (lget l' L.PP) 2 0 = 3 then s
      else
        let s := { s with ldg := { s.ldg with watch := s.ldg.watch.filter (· != i) } }
        (s.fset LDG_PP_WATCH.USED 0 s.ldg.watch.length).fset LDG_PP_WATCH.FULL 0 0

/-- At a whole UTC minute, while CAL_OK is 1, every watched ledger is evaluated. -/
def execWatchSweep (s : State) : Res := .next (if s.calOk then s.ldg.watch.foldl (fun s i => s.sweepOne i) s else s)

/-! ### The ledger cache (R151, R152) -/

/-- A cluster is granted a line: the commits that wait in its pipe go on, or the line comes to its slice for a waiting LBEGIN (R152). -/
def State.lineGrant (s : State) (ledger c : Nat) : State :=
  match s.pip.tags.filter (fun e => e.2.st == 1 && e.2.stage == 8 && e.2.ledger == some ledger && e.2.cluster == c) with
  | [] => (s.touch ledger c 0 0).getD s
  | ws => ws.foldl (fun s e => s.commitTag e.1 false) s

/-- A writeback lands: the waiting clusters are granted in order from the rotating pointer, one at a time (R152). -/
def execWritebackLanded (ledger : Nat) (s : State) : Res :=
  match s.line ledger with
  | none => .next s
  | some l =>
    if l.wb = false then .next s
    else
      let order := (List.range 8).map (fun k => (s.ldg.rotate + k) % 8)
      let grants := order.filter (fun c => l.waiting.contains c)
      let s := s.setLine ledger none
      let s := grants.foldl (fun s c => s.lineGrant ledger c) s
      let rot := match grants.getLast? with | some c => (c + 1) % 8 | none => s.ldg.rotate
      .next { s with ldg := { s.ldg with rotate := rot, granted := grants } }

/-- A line moves to the requester's slice once its lock is free and no writeback owns it (R151). -/
def execLineMove (ledger cluster : Nat) (s : State) : Res :=
  match s.line ledger with
  | none => .next s
  | some l =>
    if (s.llock ledger).owner.isSome ∨ l.slice = cluster ∨ cluster ≥ 8 then .next s else .next ((s.touch ledger cluster 0 0).getD s)

/-! ### The commit pipe and transactions -/

/-- The commit stage of a reading (R110). -/
def execLedgerCommit (tag : Nat) (s : State) : Res := .next (s.commitTag tag false)

end Sys2Proof.Machine
end

