-- ==== Sys2Proof/Machine/Vault.lean ====
section
/-! DEFINITION. The key vault: fuses, the root's derivations, key slots with their generations and pins, work items' windows, and
wrapped blobs (R371 to R392, R395, R402). -/
namespace Sys2Proof.Machine
open Reg

/-! ### Fuses (R371 to R373) -/

/-- The six reads of a word: two per copy, the cells' content unless a read differs. -/
def State.fuseReads (s : State) (dev : List FuseRead) (w : Nat) : List (Nat × Nat) :=
  (List.range 3).map (fun k =>
    match dev.find? (fun d => d.word == w && d.copy == k) with
    | some d => (d.hi, d.lo)
    | none => (tget 0 s.vault.cells (w + 512 * k), tget 0 s.vault.cells (w + 512 * k)))

/-- The accepted value of six reads: that of two or three stable copies; none is doubtful (R372). -/
def fuseAccept (rs : List (Nat × Nat)) : Option Nat :=
  let st := rs.filterMap (fun r => if r.1 = r.2 then some r.1 else none)
  st.find? (fun v => decide ((st.filter (· == v)).length ≥ 2))

/-- Which of the six reads equal a value: bits in the order of KV_FUSE_WSTAT.AGREE. -/
def fuseAgree (rs : List (Nat × Nat)) (v : Nat) : Nat :=
  ((rs.flatMap (fun r => [r.1, r.2])).foldl (fun (a : Nat × Nat) x => (a.1 + (if x = v then 2 ^ a.2 else 0), a.2 + 1)) (0, 0)).1

/-- A word's area: 0 KEY, 1 IDENTITY, 2 CONFIG. -/
def fuseArea (w : Nat) : Nat := if w < 16 then 0 else if w < 48 then 1 else 2

/-- What a doubtful CONFIG word is read as. -/
def fuseDefault (w : Nat) : Nat := if w < 64 then 0 else 0xFFFFFFFF

/-- One word read: its status and accepted value are recorded. -/
def State.fuseRead1 (s : State) (dev : List FuseRead) (w : Nat) : State :=
  let rs := s.fuseReads dev w
  match fuseAccept rs with
  | some v => { s with vault := { s.vault with wstat := tput 0x3F s.vault.wstat w (fuseAgree rs v), acc := tput 0 s.vault.acc w v } }
  | none => { s with vault := { s.vault with wstat := tput 0x3F s.vault.wstat w (2 ^ 31) } }

/-- Words that the last read found doubtful. -/
def State.fuseDoubt (s : State) : List Nat := (List.range 128).filter (fun w => nbit (tget 0x3F s.vault.wstat w) 31)

/-- A full read of the array (R374): status registers, and event 256 where a word is doubtful. No value in use changes. -/
def State.fuseReadAll (s : State) (dev : List FuseRead) : State :=
  let s := (List.range 128).foldl (fun s w => s.fuseRead1 dev w) s
  let d := s.fuseDoubt
  let s := (s.fset KV_FUSE_STAT.DOUBT_CNT 0 d.length).fset KV_FUSE_STAT.CLEAN 0 (b2n d.isEmpty)
  let s := (s.fset KV_FUSE_STAT.BAND 0 (s.fget PWR_TBAND.BAND)).fset KV_FUSE_AGE.S 0 0
  match d with
  | w :: _ => s.signal 256 (leB 2 w ++ leB 1 (fuseArea w))
  | [] => s

/-- A fuse word's value in use (R373). -/
def State.fuseVal (s : State) (w : Nat) : Nat := tget 0 s.vault.fuse w

/-- Program a word: bits are ORed into all three copies; it is read back (R375). Answers whether it was accepted with the new value. -/
def State.fuseProgram (s : State) (dev : List FuseRead) (w v : Nat) : Bool × State :=
  let want := Nat.lor (tget 0 s.vault.acc w) v
  let s := (List.range 3).foldl (fun (s : State) k =>
    { s with vault := { s.vault with cells := tput 0 s.vault.cells (w + 512 * k) (Nat.lor (tget 0 s.vault.cells (w + 512 * k)) v) } }) s
  let ok := fuseAccept (s.fuseReads dev w) == some want
  (ok, s.fuseRead1 dev w)

/-! ### The root's derivations (R377 to R380) -/

/-- The root secret: words 0 to 7, word 0 the low one (R371), as bytes in order of significance (log entry 14). -/
def State.root (s : State) : List Byte := (List.range 8).flatMap (fun w => leB 4 (tget 0 s.vault.acc w))

/-- The identity key (R378): 320 bits of SVX-IDENT, reduced modulo n − 1, plus 1. -/
def State.deriveIdentity (s : State) : State :=
  let d := ofBe (kdf s.root (ascii "SVX-IDENT") [] 320) % (p256.n - 1) + 1
  let pub := p256.pub d
  let s := { s with vault := { s.vault with identity := d } }
  (List.range 16).foldl (fun s k => s.fset KV_DEV_PUB.BYTES k (leAt pub (4 * k) 4)) s

/-- DEV_ID in use, 8 bytes. -/
def State.devId (s : State) : List Byte := leB 4 (s.fget KV_DEV_ID_LO.ID_LO) ++ leB 4 (s.fget KV_DEV_ID_HI.ID_HI)

/-! ### Slots (R381 to R384) -/

/-- A slot's record. -/
def State.vslot (s : State) (n : Nat) : VSlot := tget {} s.vault.slots n

/-- Store a slot's record. -/
def State.setVslot (s : State) (n : Nat) (v : VSlot) : State := { s with vault := { s.vault with slots := tput {} s.vault.slots n v } }

/-- A key as an operation sees it. -/
structure KeyMat where
  typ : Nat
  attr : Nat
  key : List Byte
  ak : List Byte
deriving DecidableEq, Repr

/-- The secret a slot's masked cells hold (R382): the key, then the companion key. -/
def VSlot.secret (v : VSlot) : List Byte := xorB v.cells v.mask

/-- The slot's current generation. -/
def State.slotGen (s : State) (n : Nat) : Nat := s.fget KV_S_INFO.GEN n

/-- The slot holds a key (a CHANGING slot keeps its former one until the change completes). -/
def State.slotLoaded (s : State) (n : Nat) : Bool := s.fget KV_S_INFO.TYPE n != 0

/-- The slot's current key. -/
def State.slotKey (s : State) (n : Nat) : KeyMat :=
  let v := s.vslot n
  ⟨s.fget KV_S_INFO.TYPE n, s.fget KV_S_INFO.ATTR n, v.secret.take v.klen, v.secret.drop v.klen⟩

/-- The key of a pinned generation: the current one, or an older one kept in the pool. -/
def State.keyAt (s : State) (n gen : Nat) : Option KeyMat :=
  if s.slotLoaded n ∧ s.slotGen n = gen then some (s.slotKey n)
  else ((s.vslot n).old.find? (fun o => o.gen == gen)).map (fun o => ⟨o.typ, o.attr, o.key, o.ak⟩)

/-- Slot and generation of a 20-bit handle. -/
def hSlot (h : Nat) : Nat := nbits h 11 0
/-- Generation of a handle. -/
def hGen (h : Nat) : Nat := nbits h 19 12

/-- A handle names a loaded slot of the current generation. -/
def State.handleOk (s : State) (h : Nat) : Bool := s.slotLoaded (hSlot h) && s.slotGen (hSlot h) == hGen h

/-- The tenant that owns a slot. -/
def State.slotOwner (s : State) (n : Nat) : Option Nat := s.mapOwner .slot s.ten.active.slot n

/-- The pin and pool registers follow the slots. -/
def State.pinRegs (s : State) (n : Nat) : State :=
  let v := s.vslot n
  let s := s.fset KV_S_INFO.PINS n (min v.pins 255)
  let s := s.fset KV_S_OLD.GENS n (min v.old.length 255)
  let s := s.fset KV_S_OLD.PINS n (min (v.old.foldl (fun a o => a + o.pins) 0) 255)
  let s := s.fset KV_POOL.OLDGEN 0 (s.vault.slots.foldl (fun a e => a + e.2.old.length) 0)
  s.fset KV_POOL.PINS 0 (min (s.vault.slots.foldl (fun a e => a + e.2.pins + e.2.old.foldl (fun a o => a + o.pins) 0) 0) 65535)

/-- Pin the current generation of a slot. -/
def State.pinSlot (s : State) (n : Nat) : State :=
  let v := s.vslot n
  (s.setVslot n { v with pins := v.pins + 1 }).pinRegs n

/-- Release a pin of a generation. -/
def State.unpin (s : State) (p : Option (Nat × Nat)) : State :=
  match p with
  | none => s
  | some (n, g) =>
    let v := s.vslot n
    let v := if s.slotGen n = g ∧ v.old.all (fun o => o.gen != g) then { v with pins := v.pins - 1 }
      else { v with old := v.old.map (fun o => if o.gen = g then { o with pins := o.pins - 1 } else o) }
    (s.setVslot n v).pinRegs n

/-- Bytes of a key of a TYPE. -/
def keyLen (typ : Nat) : Nat := if typ = 1 then 16 else if typ = 5 ∨ typ = 6 then 48 else if typ = 0 then 0 else 32

/-- The attributes R381 allows a TYPE. -/
def attrOk (typ attr : Nat) : Bool :=
  if typ = 1 ∨ typ = 2 then attr < 3 else if typ = 3 ∨ typ = 6 then attr != 2 && attr < 4 else if typ = 4 ∨ typ = 5 then attr == 0 || attr == 3 else false

/-- The public key of a scalar of a TYPE. -/
def pubOf (typ : Nat) (key : List Byte) : List Byte := (if typ = 4 then p256 else p384).pub (ofBe key)

/-- The key check value (R402). -/
def kcv (typ : Nat) (key : List Byte) : Nat :=
  if typ = 1 ∨ typ = 2 then ofLe ((aesEnc key (List.replicate 16 0)).take 3)
  else if typ = 3 ∨ typ = 6 then ofLe ((hmac256 key [0]).take 3)
  else if typ = 4 ∨ typ = 5 then ofLe ((sha256 (pubOf typ key)).take 3)
  else 0

/-- Write a slot's key under a freshly drawn mask, with its registers. -/
def State.loadSlot (s : State) (n typ attr gen : Nat) (key ak : List Byte) (cnt : Nat) : State :=
  let sec := key ++ ak
  let (m, s) := s.draw sec.length
  let s := s.setVslot n { s.vslot n with cells := xorB sec m, mask := m, klen := key.length, pins := 0 }
  let s := (s.fset KV_S_INFO.TYPE n typ).fset KV_S_INFO.ATTR n attr
  let s := (s.fset KV_S_INFO.AK_LEN n (ak.length / 16)).fset KV_S_INFO.STATE n (if typ = 0 then 0 else 1)
  let s := (s.fset KV_S_INFO.GEN n gen).fset KV_S_KCV.KCV n (kcv typ key)
  (s.set64 KV_S_CNT_LO.CNT_LO KV_S_CNT_HI.CNT_HI n cnt).pinRegs n

/-! ### Work items (R239, R395) -/

/-- An outstanding work item. -/
def State.item (s : State) (n : Nat) : Option Item := tget none s.scb.items n

/-- Store a work item. -/
def State.setItem (s : State) (n : Nat) (v : Option Item) : State := { s with scb := { s.scb with items := tput none s.scb.items n v } }

/-- Fix a work item's outcome and release its pins. -/
def State.itemDone (s : State) (n status result : Nat) : State :=
  match s.item n with
  | none => s
  | some it =>
    let s := if status = 0x23 then s.protCount it.tenant else s
    ((s.unpin it.pin).unpin it.pin2).setItem n (some { it with done := some (status, result), pin := none, pin2 := none })

/-- A little-endian field of a work item. -/
def Item.f (it : Item) (off n : Nat) : Nat := leAt it.bytes off n

/-- OP, FLAGS, P1, P2 of a work item of engines 0 to 4. -/
def Item.op (it : Item) : Nat := it.f 0 1
/-- HANDLE. -/
def Item.handle (it : Item) : Nat := it.f 4 4 % 2 ^ 20
/-- HANDLE2. -/
def Item.handle2 (it : Item) : Nat := it.f 8 4 % 2 ^ 20

/-- Base of a task's DRAM window. -/
def State.xwinBase (s : State) (t : Nat) : Nat := s.fget TSK_XWIN_LO.BASE_LO t * 4096 + s.fget TSK_XWIN_HI.BASE_HI t * 2 ^ 32

/-- Size of a task's DRAM window. -/
def State.xwinSize (s : State) (t : Nat) : Nat := s.fget TSK_XWIN_SIZE.PAGES t * 4096

/-- Size of a task's data window. -/
def State.dwinSize (s : State) (t : Nat) : Nat := s.fget TSK_DATA.PAGES t * 4096

/-- A range lies in the task's data window, or else DRAM window. -/
def State.winOk (s : State) (t : Nat) (data : Bool) (off n : Nat) : Bool :=
  decide (off + n ≤ (if data then s.dwinSize t else s.xwinSize t))

/-- Read a range of a task's window. -/
def State.winRead (s : State) (t : Nat) (data : Bool) (off n : Nat) : List Byte :=
  if data then s.dread (s.winAddr t off) n else s.mread (s.xwinBase t + off) n

/-- Write a range of a task's window. -/
def State.winWrite (s : State) (t : Nat) (data : Bool) (off : Nat) (b : List Byte) : State :=
  if data then s.dwrite (s.winAddr t off) b else s.mwrite (s.xwinBase t + off) b

/-- Bytes of the item's input; none where the range leaves its window. -/
def State.itIn (s : State) (it : Item) (extra n : Nat) : Option (List Byte) :=
  let d := nbit (it.f 1 1) 0
  if s.winOk it.task d (it.f 0x0C 4 + extra) n then some (s.winRead it.task d (it.f 0x0C 4 + extra) n) else none

/-- Bytes of the item's auxiliary input. -/
def State.itAux (s : State) (it : Item) (n : Nat) : Option (List Byte) :=
  let d := nbit (it.f 1 1) 2
  if s.winOk it.task d (it.f 0x14 4) n then some (s.winRead it.task d (it.f 0x14 4) n) else none

/-- Write the item's output; none where the range leaves its window. -/
def State.itOut (s : State) (it : Item) (b : List Byte) : Option State :=
  let d := nbit (it.f 1 1) 1
  if s.winOk it.task d (it.f 0x10 4) b.length then some (s.winWrite it.task d (it.f 0x10 4) b) else none

/-- Keys are blocked: RESTRICTED, ZEROIZED, or a killed root (R376, R387). -/
def State.keysBlocked (s : State) : Bool := s.mode == 3 || s.mode == 0xB || s.fbit KV_STAT.KILLED

/-- Result word of a new handle. -/
def newHandle (n gen : Nat) : Nat := n + gen % 256 * 4096

/-! ### Slot changes (R384, R386) -/

/-- The update counter of a key authority: a KEK slot's, or for 4096 the identity key's (R389). -/
def State.authCnt (s : State) (a : Nat) : Nat :=
  if a = 4096 then s.get64 KV_ECDH_CNT_LO.CNT_LO KV_ECDH_CNT_HI.CNT_HI else s.get64 KV_S_CNT_LO.CNT_LO KV_S_CNT_HI.CNT_HI a

/-- Store the update counter of a key authority. -/
def State.setAuthCnt (s : State) (a v : Nat) : State :=
  if a = 4096 then s.set64 KV_ECDH_CNT_LO.CNT_LO KV_ECDH_CNT_HI.CNT_HI 0 v else s.set64 KV_S_CNT_LO.CNT_LO KV_S_CNT_HI.CNT_HI a v

/-- A message whose change fails has no effect: its authority's counter returns, unless a later message has moved it on (R11, R389). -/
def State.authBack (s : State) (c : SlotChg) : State :=
  match c.auth, c.cnt with
  | some a, some k => if s.authCnt a = k then s.setAuthCnt a c.prev else s
  | _, _ => s

/-- Report the outcome of a slot change to whoever asked. -/
def State.chgEnd (s : State) (n : Nat) (c : SlotChg) (status : Nat) : State :=
  let s := if status = 0 then s else s.authBack c
  match c.src with
  | .item i =>
    let s := match s.item i with
      | some it => if status = 0 ∧ c.out ≠ [] then (s.itOut it c.out).getD s else s
      | none => s
    s.itemDone i status (if status = 0 ∧ c.typ ≠ 0 then newHandle n (s.slotGen n) else 0)
  | .reg => (s.fset KV_S_RES.STATUS n status).fset KV_S_RES.BUSY n 0
  | .release => s

/-- Start a change of a slot that is not CHANGING: an erase of an EMPTY slot ends at once; a change that needs a pool entry when none is free
is refused; otherwise the slot is CHANGING until its sealed record is written. -/
def State.chgStart (s : State) (n : Nat) (c : SlotChg) : State :=
  if c.typ = 0 ∧ s.slotLoaded n = false then s.chgEnd n c (match c.src with | .item _ => 0x15 | _ => 0)
  else if (s.vslot n).pins > 0 ∧ s.fget KV_POOL.OLDGEN ≥ 256 then (s.signal 262 (leB 2 n)).chgEnd n c 0x24
  else (s.setVslot n { s.vslot n with current := some c }).fset KV_S_INFO.STATE n 2

/-- A change arrives: it waits behind one under way (R384). -/
def State.slotChange (s : State) (n : Nat) (c : SlotChg) : State :=
  let v := s.vslot n
  if v.current.isSome then s.setVslot n { v with waiting := v.waiting ++ [c] } else s.chgStart n c

/-- The next waiting changes run until one is under way, at most `k`. -/
def State.chgNext (s : State) (n : Nat) : Nat → State
  | 0 => s
  | k + 1 =>
    let v := s.vslot n
    match v.current, v.waiting with
    | none, c :: rest => ((s.setVslot n { v with waiting := rest }).chgStart n c).chgNext n k
    | _, _ => s

/-- The vault store has no erased record place: a write waits for an erase (R432). -/
def State.storeFull (s : State) : Bool := s.vault.wp % 512 == 0 && s.vault.used.contains (s.vault.wp / 512)

/-- Write a sealed record at the vault store's next free location (R432). -/
def State.storeRec (s : State) (r : SealRec) : State :=
  let sec := s.vault.wp / 512
  { s with vault := { s.vault with store := s.vault.store ++ [{ r with sector := sec }], wp := (s.vault.wp + 1) % 16384
                                   used := if s.vault.used.contains sec then s.vault.used else s.vault.used ++ [sec] } }

/-- The change under way ends with a status and the slot keeps its former state. -/
def State.chgFail (s : State) (n : Nat) (c : SlotChg) (status : Nat) : State :=
  ((s.setVslot n { s.vslot n with current := none }).fset KV_S_INFO.STATE n (if s.slotLoaded n then 1 else 0)).chgEnd n c status

/-- The vault store takes the counter of the authority behind a change; a slot's own record holds its count (R386, R389). -/
def State.storeCnt (s : State) (auth : Option Nat) (cnt own : Nat) : State :=
  let t := match auth with | some a => tput 0 s.vault.cnts a cnt | none => s.vault.cnts
  { s with vault := { s.vault with cnts := tput 0 t own 0 } }

/-- The sealed record of the change under way is written, or fails (R383, R384, R386). -/
def State.chgDone (s : State) (n : Nat) (ok : Bool) : State :=
  let v := s.vslot n
  match v.current with
  | none => s
  | some c =>
    if ok ∧ s.storeFull then s else
    let s := if ok ∧ v.pins > 0 ∧ s.fget KV_POOL.OLDGEN ≥ 256 then (s.signal 262 (leB 2 n)).chgFail n c 0x24
      else if ok then
        let s := s.setVslot n { v with current := none }
        let old := s.slotKey n
        let g := s.slotGen n
        let v := s.vslot n
        let s := s.setVslot n { v with old := if v.pins = 0 then v.old else v.old ++ [⟨g, old.typ, old.attr, old.key, old.ak, v.pins⟩] }
        let cnt := c.cnt.getD (if c.typ = 0 then 0 else s.get64 KV_S_CNT_LO.CNT_LO KV_S_CNT_HI.CNT_HI n)
        let s := s.loadSlot n c.typ (if c.typ = 0 then 0 else c.attr) ((g + 1) % 256) c.key c.ak cnt
        let seq := s.fget KV_SEAL.SEQ + 1
        let s := s.fset KV_SEAL.SEQ 0 seq
        let r : SealRec := ⟨n, (s.slotOwner n).getD 0, (g + 1) % 256, c.typ, c.attr, c.key, c.ak, cnt, seq, s.fget KV_ZCOUNT.COUNT, 0⟩
        let s := ({ s with vault := { s.vault with vaultSeq := some seq } } : State).storeRec r
        (s.storeCnt c.auth (c.cnt.getD 0) n).chgEnd n c 0
      else (s.errSet [KV_ERR.SEAL] (fun s => s)).chgFail n c 0x40
    s.chgNext n ((s.vslot n).waiting.length + 1)

/-! ### Wrapped blobs (R390 to R392) -/

/-- A ledger's keys: encryption key, authentication key, suite. -/
abbrev MeterKey := List Byte × List Byte × Nat

/-- Address of a ledger's blob (R129). -/
def State.blobAddr (s : State) (l : Nat) : Nat := s.fget LDG_BLOB_LO.BASE_LO * 2 ^ 20 + s.fget LDG_BLOB_HI.BASE_HI * 2 ^ 32 + 64 * l

/-- Suite, AK_MODE and companion key agree (R390). -/
def blobFits (suite : Nat) (akMode : Bool) (akLen : Nat) : Bool :=
  if suite = 2 then akMode && akLen == 32 else suite < 2 && (!akMode || akLen == 16)

/-- The first 8 bytes of a blob. -/
def blobHeader (suite : Nat) (akMode : Bool) (gen ledger tenant : Nat) : List Byte :=
  leB 1 1 ++ leB 1 (suite + b2n akMode * 4) ++ leB 1 gen ++ [0] ++ leB 4 (ledger + tenant * 2 ^ 21)

/-- Build a blob. -/
def blobWrap (k : KeyMat) (suite : Nat) (akMode : Bool) (gen ledger tenant : Nat) (plain : List Byte) : List Byte :=
  let h := blobHeader suite akMode gen ledger tenant
  h ++ keyWrap k.key h (fit 32 plain) ++ List.replicate 16 0

/-- Open a blob under a WRAP key (R391); `gen` is the ledger's BLOB_GEN where it must agree. -/
def blobOpen (k : KeyMat) (blob : List Byte) (gen : Option Nat) (ledger tenant : Nat) : Option (List Byte × Nat × Bool) :=
  match keyUnwrap k.key (blob.take 8) (slice blob 8 40) with
  | none => none
  | some p =>
    let suite := leAt blob 1 1 % 4
    let akMode := nbit (leAt blob 1 1) 2
    let bind := leAt blob 4 4
    if leAt blob 0 1 = 1 ∧ (gen.isNone ∨ gen = some (leAt blob 2 1)) ∧ nbits bind 20 0 = ledger ∧ nbits bind 30 21 = tenant
        ∧ blobFits suite akMode k.ak.length then some (p, suite, akMode) else none

/-- The meter key a blob gives. -/
def meterKeyOf (k : KeyMat) (p : List Byte) (suite : Nat) (akMode : Bool) : MeterKey :=
  if suite = 2 then (p.take 32, k.ak, 2) else (p.take 16, if akMode then k.ak else slice p 16 16, suite)

/-- The blob store can hold a ledger's blob: NAND is ready and the store covers the ledger (R392, R435). -/
def State.blobRoom (s : State) (l : Nat) : Bool := s.fget STO_NAND_STAT.STATE == 4 && decide (l < s.nand.blobLedgers)

/-- Store a blob in the blob area and in the blob store (R392). -/
def State.putBlob (s : State) (l : Nat) (b : List Byte) : State :=
  let s := s.mwrite (s.blobAddr l) b
  { s with vault := { s.vault with blobs := tput [] s.vault.blobs l b } }

end Sys2Proof.Machine
end

