-- ==== Sys2Proof/Machine/Pipeline.lean ====
section
/-! DEFINITION. The reading pipeline: classification, tag allocation, key fetch, decryption, the replay filter, plausibility, and the
PIP rows of the table (R80 to R128). -/
namespace Sys2Proof.Machine
open Reg

/-! ### Tag allocation (R83, R91) -/

/-- The modes that admit readings: CONCENTRATOR, HEADEND, ISLANDED, DEGRADED, UPDATE (R91). -/
def modeAdmits (m : Nat) : Bool := m ∈ [5, 6, 7, 8, 9]

/-- The staging of an APDU (R83): on chip, in DRAM, or none with the error it sets. A reading without APDU bytes needs an on-chip slot. -/
def State.stagePick (s : State) (len : Nat) : Option Bool × State :=
  if len ≤ 256 ∨ len > 4096 then
    if s.fget PIP_STAGING.ONCHIP < 4096 then (some true, s)
    else if s.fbit PIP_CFG.SPILL = false then (none, s)
    else if s.fbit PIP_CFG.STAGE_VALID then (some false, s) else (none, s.errSet [PIP_ERR.STAGE] id)
  else if s.fbit PIP_CFG.STAGE_VALID then (some false, s) else (none, s.errSet [PIP_ERR.STAGE] id)

/-- Tag allocation (R91). Answers the tag, or the REASON of NO_CREDIT. -/
def State.allocTag (s : State) (rd : Reading) (urgent : Bool) : Sum Nat Nat × State :=
  let free := 65536 - s.fget PIP_TAGS.IN_FLIGHT
  if modeAdmits s.mode = false then (.inr 5, s)
  else if s.fbit PIP_WITHHOLD.ACTIVE then (.inr 3, s)
  else if free ≤ (if urgent then 0 else s.fget PIP_CFG.RESERVE * 64) then (.inr 1, s)
  else if s.fget TEN_TAGS.IN_FLIGHT rd.tenant ≥ s.ten.active.tagQuota rd.tenant * 64 then (.inr 2, s)
  else
    match s.stagePick rd.len with
    | (none, s) => (.inr 4, s)
    | (some onchip, s) =>
      let (i, s) := if s.pip.fresh < 65536 then (s.pip.fresh, { s with pip := { s.pip with fresh := s.pip.fresh + 1 } })
        else (s.pip.freed.headD 0, { s with pip := { s.pip with freed := s.pip.freed.drop 1 } })
      let s := s.setTag i { rd with st := 1, stage := 3, gen := (s.tag i).gen, onchip := onchip }
      let s := (s.fsat PIP_TAGS.IN_FLIGHT 0).fsat TEN_TAGS.IN_FLIGHT rd.tenant
      let s := if onchip then s.fadd PIP_STAGING.ONCHIP 0 else s.fsat PIP_STAGING.SPILLED 0
      (.inl i, s.lowCheck)

/-! ### Key fetch (R95 to R99) -/

/-- The form of an APDU is one the decrypt stage accelerates (R100); the others are not decrypted and need no key (log entry 94). -/
def accForm (apdu : List Byte) : Bool := let b := leAt apdu 0 1; b == 0xDB || b == 0xDC || (b ≥ 0xC8 && b ≤ 0xD7)

/-- The form of an APDU needs the dedicated key (R99). -/
def dedForm (apdu : List Byte) : Bool := let b := leAt apdu 0 1; b == 0xDC || (b ≥ 0xD0 && b ≤ 0xD7)

/-- The hidden cache's entry for a ledger under its present blob generation and key handle (R95). -/
def State.cacheFind (s : State) (ledger : Nat) (ded : Bool) : Option KeyEnt :=
  let l := s.led ledger
  (tget [] s.pip.cache (ledger % 4096)).find? (fun e => e.ledger == ledger && e.dedicated == ded && (ded ||
    (e.blobGen == lget l L.BLOB % 256 && e.handle == lget l L.KEY_HANDLE % 2 ^ 20)))

/-- Put an entry at the front of its set; the set keeps its four most recently used (R95). -/
def State.cacheUse (s : State) (e : KeyEnt) : State :=
  let k := e.ledger % 4096
  let rest := (tget [] s.pip.cache k).filter (fun x => !(x.ledger == e.ledger && x.dedicated == e.dedicated))
  { s with pip := { s.pip with cache := tput [] s.pip.cache k ((e :: rest).take 4) } }

/-- The key found goes to the tag, which is ready for the decrypt stage. -/
def State.tagKey (s : State) (i : Nat) (k : MeterKey) : State :=
  s.setTag i { s.tag i with key := some k, stage := 4, waitFill := false }

/-- The status with which a fill cannot start (R96): NO_KEY, or KEY_ATTR. -/
def State.fillCheck (s : State) (ledger tenant : Nat) : Nat :=
  let h := lget (s.led ledger) L.KEY_HANDLE % 2 ^ 20
  if s.slotLoaded (hSlot h) = false ∨ s.slotGen (hSlot h) ≠ hGen h ∨ s.slotOwner (hSlot h) ≠ some tenant then 0x15
  else if s.fget KV_S_INFO.ATTR (hSlot h) ≠ 2 then 0x13 else 0

/-- The key-fetch stage of a tag: no key is needed for a reading without APDU bytes (R82) or of a form that is not decrypted; a hit goes on; a miss
joins or starts a fill, which pins the slot (R95 to R98). No data of a quarantined ledger are used: its reading goes on to the commit stage, which ends
it (R104, R154; log entry 109). -/
def State.keyFetch (s : State) (i : Nat) : State :=
  let r := s.tag i
  let ledger := r.ledger.getD 0
  if s.quarantined ledger r.tenant then s.setTag i { r with stage := 8 }
  else if r.len = 0 ∨ r.len > 4096 ∨ accForm r.apdu = false then s.setTag i { r with stage := 4 }
  else
    match s.cacheFind ledger (dedForm r.apdu) with
    | some e => (s.cacheUse e).tagKey i (e.encKey, e.authKey, e.suite)
    | none =>
      let s := s.fsat PIP_T_KEYMISS.COUNT r.tenant
      if dedForm r.apdu then s.endTag i 0x15 0
      else if s.pip.fills.any (fun f => f.ledger == ledger && !f.dead) then s.setTag i { r with waitFill := true }
      else
        let c := s.fillCheck ledger r.tenant
        if c ≠ 0 then s.endTag i c 0
        else
          let h := lget (s.led ledger) L.KEY_HANDLE % 2 ^ 20
          let s := s.setTag i { r with waitFill := true }
          { s.pinSlot (hSlot h) with pip := { s.pip with fills := s.pip.fills ++ [{ ledger := ledger, handle := h, tries := 1 }] } }

/-- A fill goes: its pin is released. -/
def State.fillDrop (s : State) (f : Fill) : State :=
  ({ s with pip := { s.pip with fills := s.pip.fills.erase f } } : State).unpin (some (hSlot f.handle, hGen f.handle))

/-- A fill ends, and each reading that waits receives its outcome (R97). -/
def State.fillEnd (s : State) (f : Fill) (status : Nat) (key : Option MeterKey) : State :=
  let s := s.fillDrop f
  s.pip.tags.foldl (fun s e =>
    if e.2.waitFill ∧ e.2.ledger = some f.ledger ∧ e.2.st = 1 then
      match key with
      | some k => s.tagKey e.1 k
      | none => s.endTag e.1 status 0
    else s) s

/-- Every fill ends with KEY_DESTROYED and the hidden cache is cleared: zeroize (R96, R393). -/
def State.fillsDestroyed (s : State) : State :=
  let s := s.pip.fills.foldl (fun s f => if f.dead then s.fillDrop f else s.fillEnd f 0x14 none) s
  { s with pip := { s.pip with cache := [] } }

/-! ### Entry into the pipeline -/

/-- DMA read of an APDU returned (R81). -/
def execApduReadDone (ring slot : Nat) (data : List Byte) (s : State) : Res :=
  let k := ring * 65536 + slot
  let r := tget {} s.pip.pre k
  .next (if r = {} ∨ r.stage ≠ 0 then s
    else { s with pip := { s.pip with pre := tput {} s.pip.pre k { r with apdu := fit r.len data, stage := 1 } } })

/-- An attempt to read an APDU timed out: another is made, or after the last the reading ends with TIMEOUT (R117). -/
def execApduReadTimeout (ring slot : Nat) (s : State) : Res :=
  let k := ring * 65536 + slot
  let r := tget {} s.pip.pre k
  .next (if r = {} ∨ r.stage ≠ 0 then s
    else if r.tries < s.fget PIP_RETRY_DMA.TRIES then { s with pip := { s.pip with pre := tput {} s.pip.pre k { r with tries := r.tries + 1 } } }
    else s.endPre k 0x20 0)

/-- A parity error met in a bucket (R88): recorded, signalled, and the bucket waits for its repair scan. -/
def State.hashParity (s : State) (b : Nat) : State :=
  let s := s.fset PIP_HASH_PAR.BUCKET 0 b
  let s := if s.pip.repair.contains b then s else { s with pip := { s.pip with repair := s.pip.repair ++ [b] } }
  (s.fset PIP_HASH_STAT.REPAIR 0 1).signal 1027 (leB 4 b)

/-- The bucket in which a lookup meets a parity error: 1 and 2, a front entry of candidate bucket 0 or 1; 3, the stash, recorded for candidate bucket 0
(log entry 108); 4 and 5, an entry of candidate bucket 0 or 1, if it is fetched (R85, R88). 0 is none. -/
def State.hashError (s : State) (title : List Byte) (tenant spot : Nat) : Option Nat :=
  let b := s.bucketOf title tenant
  match spot with
  | 1 => some (b 0)
  | 2 => some (b 1)
  | 3 => some (b 0)
  | 4 => if s.fetches (b 0) title tenant then some (b 0) else none
  | 5 => if s.fetches (b 1) title tenant then some (b 1) else none
  | _ => none

/-- The ledger a ring reading belongs to, or the status that ends it (R84, R87, R88). `spot`: where the lookup meets a parity error. -/
def State.classify (s : State) (r : Reading) (spot : Nat) : Sum Nat Nat × State :=
  match r.hint with
  | some l =>
    if s.ownsLedger r.tenant l ∧ s.ledExists l ∧ lstate (s.led l) 0 ∧ ledTitle (s.led l) = r.title then (.inl l, s) else (.inr 0x23, s)
  | none =>
    match s.hashError r.title r.tenant spot with
    | some b => (.inr 0x32, s.hashParity b)
    | none => match s.hashLookup r.title r.tenant with
      | .hit l => if s.ledExists l then (.inl l, s) else (.inr 0x23, s)
      | .miss => (.inr 0x23, s)
      | .repairing => (.inr 0x32, s)

/-- Classification of a ring reading, tag allocation and the key fetch's lookup (R84 to R88, R91, R95). -/
def execClassify (ring slot spot : Nat) (s : State) : Res :=
  let k := ring * 65536 + slot
  let r := tget {} s.pip.pre k
  .next (if r = {} ∨ r.stage ≠ 1 then s
    else match s.classify r spot with
      | (.inr st, s) => s.endPre k st 0
      | (.inl l, s) =>
        if (s.routeTask r.tenant 0).isNone then s.endPre k 0x23 0
        else
          let rd := { r with ledger := some l, stage := 2 }
          let s := { s with pip := { s.pip with pre := tput {} s.pip.pre k rd } }
          match s.allocTag rd (decide (r.prio ≤ 1)) with
          | (.inr reason, s) => s.endPre k 0x24 reason
          | (.inl i, s) => ({ s with pip := { s.pip with pre := tput {} s.pip.pre k {} } } : State).keyFetch i)

/-! ### Field frames (R121) -/

/-- Frames an ingest queue holds: 256 per lane, 128 per radio. -/
def ingestCap (port : Nat) : Nat := if port < 4 then 256 else 128

/-- A field frame is dropped (R121). -/
def State.fieldDrop (s : State) (tenant : Nat) : State := (s.fsat PIP_T_FIELDDROP.COUNT tenant).signal 1030 (leB 2 tenant)

/-- A lane or radio hands a reading to its ingest queue after its node-table lookup: the tenant must be ON, the node and the ledger its own, the
ledger one of LDG_COUNT's, and the route must name a parse task (R31, R41, R121, R129). A reading refused here has no tag: it is only counted. -/
def State.ingest (s : State) (port : Nat) (r : Reading) : State :=
  let l := r.ledger.getD 0
  if s.tenOn r.tenant = false then s.countEnd r.tenant 0x22
  else if r.node.any (fun n => !s.ten.active.ownsNode r.tenant n) ∨ s.ownsLedger r.tenant l = false ∨ s.ledExists l = false ∨ (s.routeTask r.tenant 0).isNone then
    (s.protCount r.tenant).countEnd r.tenant 0x23
  else
    let q := tget [] s.pip.ingest port
    if q.length ≥ ingestCap port then s.fieldDrop r.tenant
    else { s with pip := { s.pip with ingest := tput [] s.pip.ingest port (q ++ [r]) } }

/-- The head of an ingest queue is offered for a tag; when that fails and its 10 ms are over, it is dropped (R121). -/
def execIngestQueueOffer (port : Nat) (expired : Bool) (s : State) : Res :=
  .next (match tget [] s.pip.ingest port with
    | [] => s
    | r :: rest =>
      let pop := fun (s : State) => { s with pip := { s.pip with ingest := tput [] s.pip.ingest port rest } }
      match s.allocTag r false with
      | (.inl i, s) => (pop s).keyFetch i
      | (.inr _, s) => if expired then (pop s).fieldDrop r.tenant else s)

/-! ### Unwrap (R96, R97, R117, R391) -/

/-- The unwrap of a ledger's blob ends (R96, R391); the answer of one that no reading waits for any more is discarded (R93, R118). -/
def execKeyUnwrapDone (ledger : Nat) (s : State) : Res :=
  .next (match s.pip.fills.find? (fun f => f.ledger == ledger) with
    | none => s
    | some f =>
      if f.dead then (s.fillDrop f).fsat PIP_LATE.COUNT 0
      else match s.keyAt (hSlot f.handle) (hGen f.handle) with
      | none => s.fillEnd f 0x14 none
      | some k =>
        let t := (s.ledgerOwner ledger).getD 0
        match blobOpen k (s.mread (s.blobAddr ledger) 64) (some (lget (s.led ledger) L.BLOB % 256)) ledger t with
        | none => s.fillEnd f 0x15 none
        | some (p, suite, akMode) =>
          let m := meterKeyOf k p suite akMode
          let s := s.cacheUse { ledger := ledger, blobGen := lget (s.led ledger) L.BLOB % 256, handle := f.handle, encKey := m.1, authKey := m.2.1, suite := m.2.2 }
          s.fillEnd f 0 (some m))

/-- The slot was busy and refused the unwrap: it is asked again, or after the last attempt the fill ends with TIMEOUT (R117; log entry 16). One that
no reading waits for any more is not asked again (R118). -/
def execKeyUnwrapRetry (ledger : Nat) (s : State) : Res :=
  .next (match s.pip.fills.find? (fun f => f.ledger == ledger) with
    | none => s
    | some f =>
      if f.dead then s.fillDrop f
      else if f.tries < s.fget PIP_RETRY_KEY.TRIES then
        { s with pip := { s.pip with fills := s.pip.fills.map (fun x => if x = f then { f with tries := f.tries + 1 } else x) } }
      else s.fillEnd f 0x20 none)

/-! ### Decryption (R100 to R102) and the replay filter (R103) -/

/-- What the decrypt stage finds. -/
inductive Dec where
  /-- The stage ends the reading; `unsupp` counts PIP_T_UNSUPP. -/
  | stop (status : Nat) (unsupp : Bool)
  | raw
  | ok (ic : Nat) (plain : List Byte)
deriving DecidableEq, Repr

/-- A BER length at the front of bytes: its value and what follows. -/
def berLen (b : List Byte) : Option (Nat × List Byte) :=
  match b with
  | [] => none
  | x :: t =>
    let v := x.toNat
    if v < 0x80 then some (v, t)
    else if v = 0x80 ∨ v > 0x84 ∨ t.length < v - 0x80 then none
    else some (ofBe (t.take (v - 0x80)), t.drop (v - 0x80))

/-- The ciphered content of an accelerated APDU, if its lengths fit, and the title inside a general form (R100). -/
def dlmsContent (apdu : List Byte) (general : Bool) : Option (Option (List Byte) × List Byte) :=
  let body := apdu.drop 1
  if general then
    match berLen body with
    | none => none
    | some (n, t) =>
      if t.length < n then none
      else match berLen (t.drop n) with
        | none => none
        | some (m, c) => if c.length < m then none else some (some (t.take n), c.take m)
  else match berLen body with
    | none => none
    | some (m, c) => if c.length < m then none else some (none, c.take m)

/-- Security control, the title of a general form, invocation counter, authentication and decryption of the ciphered content (R101, R102). -/
def State.decContent (s : State) (t : Nat) (key : MeterKey) (inner : Option (List Byte)) (title c : List Byte) : Dec :=
  if c.length < 5 + 12 then .stop 0x10 false
  else
    let sc := leAt c 0 1
    let ic := ofBe (slice c 1 4)
    let info := (c.drop 5).take (c.length - 17)
    let tag := c.drop (c.length - 12)
    if nbit sc 7 then .stop 0x10 true
    else if nbits sc 3 0 > 2 then .stop 0x10 false
    else if nbits sc 3 0 ≠ key.2.2 then .stop 0x13 false
    else if nbit sc 6 ∨ nbit sc 4 = false then .stop 0x10 false
    else if nbit sc 5 = false ∧ s.policy t 0 = false then .stop 0x10 false
    else if inner.isSome ∧ inner ≠ some title then .stop 0x10 false
    else
      let nonce := title ++ beB 4 ic
      let enc := nbit sc 5
      let aad := leB 1 sc ++ key.2.1 ++ (if enc then [] else info)
      let ct := if enc then info else []
      if (gcmTag key.1 nonce aad ct).take 12 ≠ tag then .stop 0x10 false
      else .ok ic (if enc then gcmCrypt key.1 nonce info else info)

/-- The decrypt stage of a reading (R100). -/
def State.decrypt (s : State) (r : Reading) : Dec :=
  let b := leAt r.apdu 0 1
  let title := ledTitle (s.led (r.ledger.getD 0))
  if r.len = 0 ∨ r.len > 4096 then .stop 0x10 false
  else if b = 0xDD ∨ b = 0xDF then if s.policy r.tenant 1 then .raw else .stop 0x10 true
  else if accForm r.apdu then
    match r.key, dlmsContent r.apdu (b = 0xDB ∨ b = 0xDC) with
    | some k, some (tt, c) => s.decContent r.tenant k tt title c
    | _, _ => .stop 0x10 false
  else if s.policy r.tenant 2 then .raw else .stop 0x10 false

/-- Signal the route's parse or plausibility task for a tag (R105, R109); a task that is not ON cannot take it, and the reading is
CANCELLED (R220). -/
def State.stageSignal (s : State) (i routeOff input : Nat) : State :=
  let r := s.tag i
  match s.routeTask r.tenant routeOff with
  | none => s.endTag i 0xFF 0
  | some t =>
    if s.fget TSK_STAT.STATE t ≠ 2 then (s.deliver t input 2048 (leB 4 (i + r.gen * 2 ^ 16))).endTag i 0x21 0 true
    else s.deliver t input 2048 (leB 4 (i + r.gen * 2 ^ 16))

/-- The replay filter (R103, R104): the stored counter, as prefetched, against the IC. A quarantined ledger passes. -/
def State.replayStops (s : State) (r : Reading) : Option Nat :=
  let l := s.led (r.ledger.getD 0)
  if s.quarantined (r.ledger.getD 0) r.tenant then none
  else if lstate l 1 ∧ r.ic ≤ lget l L.IC then some (lget l L.IC) else none

/-- The decrypt stage ends; a reading that passes goes through the replay filter to its parse task (R100 to R105). -/
def execDecryptDone (tag : Nat) (s : State) : Res :=
  let r := s.tag tag
  .next (if r.st ≠ 1 ∨ r.stage ≠ 4 then s
    else match s.decrypt r with
      | .stop st u => (if u then s.fsat PIP_T_UNSUPP.COUNT r.tenant else s).endTag tag st 0
      | d =>
        let r := match d with
          | .ok ic p => { r with ic := ic, plain := p }
          | _ => { r with plain := r.apdu, raw := true, flags := nsetBit r.flags 4 true }
        let r := { r with stage := 6, record := (List.range 8).map (fun k => if k = 7 then BitVec.ofNat 64 (s.route r.tenant (if r.alt then 0x0D else 0x0A) 1) else 0#64) }
        match s.replayStops r with
        | some stored => (s.setTag tag { r with stage := 5, ic := stored }).endTag tag 0x11 0
        | none => (s.setTag tag r).stageSignal tag 0 1)

/-! ### Plausibility (R108, R109) -/

/-- A field of a plausibility profile. -/
def State.profile (s : State) (p off n : Nat) : Nat := tget 0 s.pip.profiles (8 * p + off / 4) / 2 ^ (8 * (off % 4)) % 2 ^ (8 * n)

/-- Receipt time in milliseconds of UTC, if one is known: the descriptor's or the frame's (R109), less TAI_UTC (R161). -/
def State.receipt (s : State) (r : Reading) : Option Int := r.rxTime.map (fun t => ((t.1 : Int) - s.taiUtc) * 1000 + (t.2 : Int))

/-- The checks of R109 in order. Answers the reason of the first that fails, and whether WINDOW was reached and skipped for want of a receipt time.
A quarantined ledger's data are not used (R154): every check passes. -/
def State.plausible (s : State) (r : Reading) : Option Nat × Bool :=
  let l := s.led (r.ledger.getD 0)
  let p := leAt (r.recBytes) 0x38 1
  let fl := s.profile p 0x10 2
  let mt := r.meterTime
  let last := if lstate l 3 then some (lastTime l) else none
  let dt : Option Int := match mt, last with | some m, some t => some ((m : Int) - (t : Int)) | _, _ => none
  let unchecked := nbit fl 2 && (s.receipt r).isNone
  let winBad := match mt, s.receipt r with
    | some m, some rx => nbit fl 2 && (decide ((m : Int) * 1000 < rx - 1000 * (s.profile p 8 2 : Nat)) || decide ((m : Int) * 1000 > rx + 1000 * (s.profile p 0xA 2 : Nat)))
    | _, _ => false
  let inc := fun d => (r.total d : Int) - (lget l (L.LAST_TOTAL d) : Nat)
  let known := fun d => r.present d && lstate l 2
  let rateBad := match dt with
    | some x => (List.range 4).any (fun d => known d && decide (inc d * 360 > (s.profile p (if d < 2 then 0 else 4) 4 : Nat) * x))
    | none => false
  let reason :=
    if s.quarantined (r.ledger.getD 0) r.tenant then none
    else if nbit fl 5 ∧ s.profile p 0xC 4 ≠ 0 ∧ lstate l 1 ∧ r.ic > lget l L.IC + s.profile p 0xC 4 then some 5
    else if nbit fl 3 ∧ mt.isNone then some 6
    else if winBad then some 3
    else if (match dt with | some x => decide (x ≤ 0) | none => false) then some 4
    else if nbit fl 0 ∧ (List.range 4).any (fun d => known d && decide (inc d < 0)) then some 1
    else if nbit fl 1 ∧ rateBad then some 2 else none
  (reason, unchecked && reason != some 5 && reason != some 6)

/-- The plausibility stage of a tag whose parse stage ended OK: the hardware checks, then the route's task where the profile asks for it,
else the commit stage (R109). -/
def State.plausStage (s : State) (i : Nat) : State :=
  let r := { s.tag i with stage := 7 }
  let (bad, unchecked) := s.plausible r
  let r := if unchecked then { r with flags := nsetBit r.flags 6 true } else r
  match bad with
  | some reason => (s.setTag i r).endTag i 0x12 reason
  | none =>
    if nbit (s.profile (leAt r.recBytes 0x38 1) 0x10 2) 4 then (s.setTag i { r with plausAsked := true }).stageSignal i 2 2
    else s.setTag i { r with stage := 8 }

/-- A task ends the stage of its bound tag (R105): OK, IMPLAUSIBLE with a reason, or any other status, which is INTERNAL. -/
def State.stageEnd (s : State) (i status reason cluster : Nat) : State :=
  let r := s.tag i
  if r.st ≠ 1 ∨ (r.stage ≠ 6 ∧ r.stage ≠ 7) then s
  else
    let s := s.setTag i { r with cluster := cluster }
    if status = 0x12 then s.endTag i 0x12 (if r.stage = 7 then 8 else reason)
    else if status ≠ 0 then s.endTag i 0xFF 0
    else if r.stage = 6 then s.plausStage i
    else s.setTag i { s.tag i with stage := 8 }

/-! ### The end of a tag -/

/-- The tag timer expired (R118). -/
def execTagTimeout (tag : Nat) (s : State) : Res := .next (s.endTag tag 0x20 0 true)

/-- Every old-generation engine step of an ENDING tag has returned (R94). -/
def execTagEndingDone (tag : Nat) (s : State) : Res :=
  let r := s.tag tag
  .next (if r.st ≠ 3 then s else s.postReading tag r.endGen r.status)

/-- A response carries a generation other than its tag's (R93). -/
def execLateResponse (tag gen : Nat) (s : State) : Res := .next (if (s.tag tag).gen = gen ∧ (s.tag tag).st ≠ 0 then s else s.fsat PIP_LATE.COUNT 0)

/-- An entry says what its ledger's identity says. -/
def State.hashTrue (s : State) (e : HashEnt) : Bool :=
  lstate (s.led e.ledger) 0 && ledTitle (s.led e.ledger) == e.title && s.ledgerOwner e.ledger == some e.tenant

/-- The identities that belong to a bucket and are nowhere in the table, by the scan of all ledgers with an identity (R88). -/
def State.hashMissing (s : State) (b : Nat) : List HashEnt :=
  s.ldg.ledgers.filterMap (fun (e : Nat × Led) =>
    match s.ledgerOwner e.1 with
    | none => none
    | some t =>
      let h : HashEnt := ⟨ledTitle e.2, e.1, t⟩
      if lstate e.2 0 && (s.bucketOf h.title t 0 == b || s.bucketOf h.title t 1 == b) && !s.hashHas h.title t then some h else none)

/-- The repair scan ends (R88): the bucket holds again what the ledgers' identities say; what it cannot hold goes to the stash. -/
def execHashRepairDone (s : State) : Res :=
  .next (match s.pip.repair with
    | [] => s
    | b :: rest =>
      let es := (s.bucket b).filter s.hashTrue ++ s.hashMissing b
      let s := s.setBucket b (es.take 4)
      let s := { s with pip := { s.pip with repair := rest, stash := s.pip.stash ++ (es.drop 4).take (64 - s.pip.stash.length) } }
      (s.fset PIP_HASH_STAT.REPAIR 0 (b2n (!rest.isEmpty))).hashCount)

/-- PHASE of the pass in which a completion slot was reserved (R280): the pass that runs, or for a slot at or after the next to be reserved the one
before it. -/
def State.slotPhase (s : State) (ring q : Nat) : Nat :=
  if q < s.fget RNG_R_CQ.TAIL ring then s.fget RNG_R_STAT.PHASE ring else 1 - s.fget RNG_R_STAT.PHASE ring

/-- The reading's tag, as far as the journal's keeper still knows it, plus 1; 0 where it does not, as for a partner's record (log entry 98). -/
def State.rebuiltTag (s : State) (tenant seq : Nat) : Nat := tget 0 (s.tenJ tenant).tags seq

/-- The completion slot already holds a committed reading's completion: its PHASE is that of the reserving pass and its RESULT.TAG the reading's
(R119, R280). -/
def State.slotHolds (s : State) (tenant seq ring q phase tag : Nat) : Bool :=
  let k := s.rebuiltTag tenant seq
  phase % 2 == s.slotPhase ring q && (k == 0 || k == tag + 1)

/-- A committed reading is looked at again after takeover or recovery (R119); what is posted again carries REPOST, its status is OK, and a
notification has REPOST in bit 24 of its tag word (log entry 98). `user`, `slot`: from the descriptor, still held by the host; `held`: what
the completion slot named in the journal holds, or that the notification was delivered. -/
def execCompletionRebuild (tenant seq user slot : Nat) (held : SlotSeen) (s : State) : Res :=
  let j := s.tenJ tenant
  .next (match (j.buf ++ j.nand).find? (fun r => r.seq == seq && r.typ == 1) with
    | none => s
    | some r =>
      let w := leAt r.body 4 4
      let k := s.rebuiltTag tenant seq - 1
      let rd : Reading := { r.reading tenant with flags := 8 + b2n (nbit r.flags 4) * 2 }
      if nbit w 28 then
        let ring := nbits w 11 0
        let q := nbits w 27 12
        if s.slotHolds tenant seq ring q held.phase held.tag ∨ s.fbit RNG_H_STAT.UP (s.ringHost ring) = false ∨ s.fget RNG_R_STAT.STATE ring ≠ 2 then s
        else
          let c : Cpl := ⟨user, slot, 0, 1, s.fget RNG_R_STAT.GEN ring, s.slotPhase ring q, resultArea rd 11 0 0 (k % 65536) (k / 65536)⟩
          ((s.putCpl ring q c).coalesce ring false).fsat PIP_T_REPOST.COUNT tenant
      else if held.delivered then s
      else match s.routeTask tenant 4 with
        | some t =>
          if s.fget TSK_STAT.STATE t = 2 then (s.deliver t 3 2048 (leB 4 (k + 2 ^ 24) ++ leB 8 seq)).fsat PIP_T_REPOST.COUNT tenant
          else s.fsat PIP_T_OTHER.COUNT tenant
        | none => s.fsat PIP_T_OTHER.COUNT tenant)

/-! ### Tables and counters (R126 to R128) -/

/-- PIP_T_CLR.CLEAR (R126). -/
def execClear (host value : Nat) (s : State) : Res :=
  .next (s.gateW host .pip 0 0x11FC (fun t s =>
    if nbit value 0 then
      [PIP_T_OK.COUNT, PIP_T_AUTH.COUNT, PIP_T_REPLAY.COUNT, PIP_T_IMPL.COUNT, PIP_T_NOCRED.COUNT, PIP_T_TMO.COUNT, PIP_T_CANCEL.COUNT,
        PIP_T_OTHER.COUNT, PIP_T_KEYMISS.COUNT, PIP_T_UNSUPP.COUNT, PIP_T_FIELDDROP.COUNT, PIP_T_REPOST.COUNT].foldl (fun s f => s.fset f t 0) s
    else s))

/-- A resource field of a route entry as words: VALID and owned by the tenant, or not VALID (R127). -/
def routeFieldOk (owner : Nat → Option Nat) (idx w t : Nat) : Bool := !nbit w 15 || owner (w % 2 ^ (idx + 1)) == some t

/-- The words of a route entry name only what the tenant owns (R127, R128). -/
def State.routeOk (s : State) (t w0 w1 w2 : Nat) : Bool :=
  let b := s.ten.active
  routeFieldOk (ownerOf b.task) 11 (nbits w0 15 0) t && routeFieldOk (ownerOf b.task) 11 (nbits w0 31 16) t
    && routeFieldOk (ownerOf b.task) 11 (nbits w1 15 0) t && routeFieldOk b.ringOwner 11 (nbits w1 31 16) t
    && routeFieldOk s.partOwner 7 (nbits w2 15 0) t

/-- The bits of a route entry's word that are not reserved (R128). -/
def routeMask (w : Nat) : Nat := match w with | 0 => 0x8FFF8FFF | 1 => 0x8FFF8FFF | 2 => 0xFFFF80FF | 3 => 0xFF0F | _ => 0

/-- The bits of a plausibility profile's word that are not reserved (R108). -/
def profileMask (w : Nat) : Nat := if w < 4 then 2 ^ 32 - 1 else if w = 4 then 0x3F else 0

/-- The bits of an OBIS entry's word that are not reserved (R127). -/
def obisMask (w : Nat) : Nat := if w = 1 then 2 ^ 25 - 1 else 2 ^ 32 - 1

/-- A write of one word of a route entry (R127). -/
def execRouteEntryWrite (host off value : Nat) (s : State) : Res :=
  .next (s.gate host .pip off (fun s =>
    if off < 0x10000 ∨ off ≥ 0x18000 then s
    else
      let k := (off - 0x10000) / 4
      let t := k / 8
      let routes := tput 0 s.pip.routes k (Nat.land value (routeMask (k % 8)))
      let w := fun j => tget 0 routes (8 * t + j)
      if s.routeOk t (w 0) (w 1) (w 2) then { s with pip := { s.pip with routes := routes } }
      else s.errAt PIP_ERR.ROUTE off))

/-- Clear the VALID bits of a half word whose resource is not the tenant's. -/
def clearHalf (ok : Bool) (w lsb : Nat) : Nat := if ok then w else nsetBit w (lsb + 15) false

/-- At an epoch switch every route entry is checked again (R127). -/
def State.routeRecheck (s : State) : State :=
  let b := s.ten.active
  let fix := fun (k w : Nat) =>
    let t := k / 8
    match k % 8 with
    | 0 => clearHalf (routeFieldOk (ownerOf b.task) 11 (nbits w 31 16) t) (clearHalf (routeFieldOk (ownerOf b.task) 11 (nbits w 15 0) t) w 0) 16
    | 1 => clearHalf (routeFieldOk b.ringOwner 11 (nbits w 31 16) t) (clearHalf (routeFieldOk (ownerOf b.task) 11 (nbits w 15 0) t) w 0) 16
    | 2 => clearHalf (routeFieldOk s.partOwner 7 (nbits w 15 0) t) w 0
    | _ => w
  let routes := (s.pip.routes.map (fun (e : Nat × Nat) => (e.1, fix e.1 e.2))).filter (fun e => e.2 != 0)
  if routes = s.pip.routes then s
  else ({ s with pip := { s.pip with routes := routes } } : State).errSet [PIP_ERR.ROUTE] id

end Sys2Proof.Machine
end

