-- ==== Sys2Proof/Machine/Prims.lean ====
section
/-! DEFINITION. Credit queues, hashed tables and primitive locks (R241 to R256), and the PRM rows of the table that act through registers. -/
namespace Sys2Proof.Machine
open Reg

/-- PRM selector kinds: 0 queue, 1 table, 2 lock group. A window write of PRM. -/
def State.prmW (s : State) (host kind off : Nat) (body : Nat → State → State) : State := s.gateW host .prm kind off body

/-! ### Credit queues (R241 to R245) -/

/-- A queue's contents. -/
def State.queue (s : State) (q : Nat) : Queue := tget {} s.prm.queues q

/-- Store a queue's contents; LEVEL follows, and HIGH keeps the highest. -/
def State.setQueue (s : State) (q : Nat) (v : Queue) : State :=
  let s := { s with prm := { s.prm with queues := tput {} s.prm.queues q v } }
  let s := s.fset Q_LEVEL.LEVEL q v.entries.length
  s.fset Q_LEVEL.HIGH q (max (s.fget Q_LEVEL.HIGH q) v.entries.length)

/-- Depth of a queue. -/
def State.qDepth (s : State) (q : Nat) : Nat := 2 ^ s.fget Q_CFG.DEPTH_LOG2 q

/-- Entries of a batch: 1, 4 or 16 (R243). -/
def State.qBatch (s : State) (q : Nat) : Nat := match s.fget Q_CFG.BATCH q with | 0 => 1 | 1 => 4 | _ => 16

/-- Two half-open ranges overlap. -/
def overlaps (a n b m : Nat) : Bool := decide (a < b + m ∧ b < a + n)

/-- A queue's place is free of every other queue that is not OFF (R241; log entry 17). -/
def State.qPlaceOk (s : State) (q base depth : Nat) : Bool :=
  (List.range 1024).all (fun k => k == q || s.fget Q_STAT.STATE k == 0 || !overlaps base depth (s.fget Q_BASE.BASE k) (s.qDepth k))

/-- Turn a queue ON: its place must be its own. It starts empty. -/
def State.qStart (s : State) (q : Nat) : State :=
  if s.fget Q_BASE.BASE q + s.qDepth q > 65536 then (s.errAt PRM_ERR.POOL 0x1100).turnOff lifeQueue q
  else if s.qPlaceOk q (s.fget Q_BASE.BASE q) (s.qDepth q) = false ∨ s.fget Q_BASE.BASE q % s.qDepth q ≠ 0 then
    (s.errAt PRM_ERR.OVERLAP 0x1100).turnOff lifeQueue q
  else ((s.turnOn lifeQueue q).setQueue q {}).fadd PRM_QPOOL.USED 0 (s.qDepth q)

/-- End DRAINING of a queue that is empty. -/
def State.qDrained (s : State) (q : Nat) : State :=
  if s.fget Q_STAT.STATE q ≠ 1 ∨ (s.queue q).entries ≠ [] then s
  else (s.fsub PRM_QPOOL.USED 0 (s.qDepth q)).drainDone lifeQueue q (fun s => s.qStart q)

/-- QPUSH by a task of `tenant` (R241, R244, R245): status. -/
def State.qPush (s : State) (tenant q lo hi : Nat) : Nat × State :=
  if q ≥ 1024 ∨ s.fget Q_CFG.OWNER q ≠ tenant ∨ s.fbit Q_ENDP.PROD_KIND q then (0x23, s)
  else if s.fget Q_STAT.STATE q ≠ 2 then (0x21, s)
  else
    let k := s.queue q
    if k.entries.length + k.unret ≥ s.qDepth q then (0x24, s.fsat Q_PUSH_REF.COUNT q)
    else
      let u := if k.unpub + 1 ≥ s.qBatch q then 0 else k.unpub + 1
      (0, s.setQueue q { k with entries := k.entries ++ [(lo, hi)], unpub := u })

/-- QPOP by a task of `tenant`: status and entry. -/
def State.qPop (s : State) (tenant q : Nat) : Nat × (Nat × Nat) × State :=
  if q ≥ 1024 ∨ s.fget Q_CFG.OWNER q ≠ tenant ∨ s.fbit Q_ENDP.CONS_KIND q then (0x23, (0, 0), s)
  else if s.fget Q_STAT.STATE q = 0 then (0x21, (0, 0), s)
  else
    let k := s.queue q
    match k.entries with
    | [] => (0x24, (0, 0), s)
    | e :: rest =>
      if k.entries.length ≤ k.unpub then (0x24, (0, 0), s)
      else
        let u := if k.unret + 1 ≥ s.qBatch q then 0 else k.unret + 1
        (0, e, s.setQueue q { k with entries := rest, unret := u })

/-- STRAND elapses at an end: the producer publishes its pointer, or the consumer returns its credit (R243). -/
def execQueuePublish (queue : QEnd) (s : State) : Res :=
  let q := s.queue queue.queue
  .next (s.setQueue queue.queue (if queue.consumer then { q with unret := 0 } else { q with unpub := 0 }))

/-- Q_CTRL.ENABLE (R245). -/
def execQueueEnable (host value : Nat) (s : State) : Res :=
  .next (s.prmW host 0 0x1100 (fun q s => s.enableWrite lifeQueue q (nbit value 0) (fun s => s.qStart q) id))

/-- Q_CMD.FLUSH (R245). -/
def execFlush (host value : Nat) (s : State) : Res :=
  .next (s.prmW host 0 0x1120 (fun q s => if nbit value 0 ∧ s.fget Q_STAT.STATE q = 1 then (s.setQueue q {}).qDrained q else s))

/-- Q_CMD.CLR_HIGH (R262): HIGH and Q_PUSH_REF read 0. -/
def execClrHigh (host value : Nat) (s : State) : Res :=
  .next (s.prmW host 0 0x1120 (fun q s => if nbit value 1 then (s.fset Q_LEVEL.HIGH q 0).fset Q_PUSH_REF.COUNT q 0 else s))

/-! ### Hashed tables (R246 to R251) -/

/-- A table. -/
def State.htab (s : State) (t : Nat) : HTab := tget {} s.prm.tables t

/-- Store a table; its counts follow. -/
def State.setHtab (s : State) (t : Nat) (v : HTab) : State :=
  let s := { s with prm := { s.prm with tables := tput {} s.prm.tables t v } }
  (s.fset T_COUNT.VALID t v.ents.length).fset T_COUNT.STATIC t (v.ents.filter (·.isStatic)).length

/-- Sets of a table. -/
def State.tSets (s : State) (t : Nat) : Nat := 2 ^ s.fget T_CFG.SETS_LOG2 t

/-- A table's place is free of every other table that is not OFF (R246; log entry 17). -/
def State.tPlaceOk (s : State) (t base sets : Nat) : Bool :=
  (List.range 32).all (fun k => k == t || s.fget T_STAT.STATE k == 0 || !overlaps base sets (s.fget T_BASE.BASE k) (s.tSets k))

/-- Turn a table ON: a new salt, no entries (R246). -/
def State.tStart (s : State) (t : Nat) : State :=
  if s.fget T_BASE.BASE t + s.tSets t > 16384 then (s.errAt PRM_ERR.POOL 0x1100).turnOff lifeTable t
  else if s.tPlaceOk t (s.fget T_BASE.BASE t) (s.tSets t) = false ∨ s.fget T_BASE.BASE t % s.tSets t ≠ 0 then
    (s.errAt PRM_ERR.OVERLAP 0x1100).turnOff lifeTable t
  else
    let (salt, s) := s.drawNat (2 ^ 64)
    ((s.turnOn lifeTable t).setHtab t { salt := salt }).fadd PRM_TPOOL.USED 0 (s.tSets t)

/-- A table has no work of its own in flight: DRAINING ends at the next DRAIN_END. -/
def State.tDrained (s : State) (t : Nat) : State :=
  if s.fget T_STAT.STATE t ≠ 1 then s else (s.fsub PRM_TPOOL.USED 0 (s.tSets t)).drainDone lifeTable t (fun s => s.tStart t)

/-- The set a key falls in. -/
def State.tSet (s : State) (t key : Nat) : Nat := Config.bucketHash (s.htab t).salt key t 0 % s.tSets t

/-- Entries of a set whose parity fails on this read (R250): a dynamic one is removed, a static one is kept with BAD. -/
def State.tParity (s : State) (t set : Nat) (ways : List Nat) : State :=
  let k := s.htab t
  let hit := k.ents.filter (fun e => e.bucket == set && ways.contains e.way && !e.bad)
  if hit.isEmpty then s
  else
    let ents := (k.ents.filter (fun e => !(hit.contains e && !e.isStatic))).map (fun e => if hit.contains e then { e with bad := true } else e)
    let s := s.setHtab t { k with ents := ents }
    hit.foldl (fun s _ => (s.fsat T_PARITY.COUNT t).signal 21 (leB 1 t ++ leB 1 0 ++ leB 2 set)) s

/-- Write the evicted key to T_EVKEY0 to 3. -/
def State.tEvKey (s : State) (t key : Nat) : State :=
  (List.range 4).foldl (fun s j => s.fset T_EVKEY.KEY (4 * t + j) (key / 2 ^ (32 * j) % 2 ^ 32)) s

/-- Insert a new entry into its set (R248). Answers the status and whether it was inserted. -/
def State.tInsert (s : State) (t set key value : Nat) (isStatic : Bool) : Nat × Bool × State :=
  let k := s.htab t
  let here := k.ents.filter (fun e => e.bucket == set)
  let st := (here.filter (·.isStatic)).length
  if st = 4 ∨ (isStatic ∧ st ≥ 3) then (0x24, false, s)
  else
    let new := fun w : Nat => ({ key := key, value := value, isStatic := isStatic, hit := true, bucket := set, way := w } : TblEnt)
    match (List.range 4).find? (fun w => !here.any (fun e => e.way == w)) with
    | some w => (0, true, s.setHtab t { k with ents := k.ents ++ [new w] })
    | none =>
      let dyn := here.filter (fun e => !e.isStatic)
      let (n, s) := if s.fbit T_CFG.OLDEST t then (0, s) else s.drawNat dyn.length
      let victim := if s.fbit T_CFG.OLDEST t then
          dyn.foldl (fun a e => match a with
            | none => some e
            | some (b : TblEnt) => if e.age > b.age ∨ (e.age = b.age ∧ e.way < b.way) then some e else some b) none
        else dyn[n]?
      match victim with
      | none => (0x24, false, s)
      | some v =>
        let s := (s.tEvKey t v.key).fsat T_EVICT.COUNT t
        (0x31, true, s.setHtab t { k with ents := (k.ents.filter (fun e => !(e.bucket == set && e.way == v.way))) ++ [new v.way] })

/-- Replace the entry with a key. -/
def State.tUpdate (s : State) (t key : Nat) (f : TblEnt → TblEnt) : State :=
  let k := s.htab t
  s.setHtab t { k with ents := k.ents.map (fun e => if e.key = key ∧ e.bad = false then f e else e) }

/-- A TBL operation of a task of `tenant` (R247 to R250): status, value out where one is given, flags. `bad` lists the ways of the key's set
whose parity fails on this read. -/
def State.tblOp (s : State) (op tenant t key value : Nat) (bad : List Nat) : Nat × Option Nat × Nat × State :=
  if t ≥ 32 ∨ s.fget T_CFG.OWNER t ≠ tenant then (0x23, none, 0, s)
  else if s.fget T_STAT.STATE t ≠ 2 then (0x21, none, 0, s)
  else
    let set := s.tSet t key
    let had := bad.any (fun w => (s.htab t).ents.any (fun e => e.bucket == set && e.way == w)) || (s.htab t).ents.any (fun e => e.bucket == set && e.bad)
    let s := s.tParity t set bad
    let s := if op = 3 ∨ op = 4 then s.setHtab t { s.htab t with ents := (s.htab t).ents.filter (fun e => !(e.bucket == set && e.bad)) } else s
    let par := fun st : Nat => if had ∧ (st = 0 ∨ st = 0x31) then 0x32 else st
    match (s.htab t).ents.find? (fun e => e.key == key && !e.bad) with
    | some e =>
      let sf := if e.isStatic then 2 else 0
      match op with
      | 0 => (0, some e.value, 1 + sf, if e.isStatic then s else s.tUpdate t key (fun e => { e with hit := true }))
      | 3 =>
        let st := ((s.htab t).ents.filter (fun x => x.bucket == set && x.isStatic)).length
        if e.isStatic = false ∧ st ≥ 3 then (0x24, none, 0, s)
        else (0, none, 1 + 2, s.tUpdate t key (fun e => { e with isStatic := true, value := value }))
      | 4 => (0, none, 1 + sf, s.setHtab t { s.htab t with ents := (s.htab t).ents.filter (fun x => !(x.key == key && !x.bad)) })
      | _ =>
        if e.isStatic then (if op = 2 then (0x23, none, 0, s) else (0, none, 3, s))
        else
          let moved := e.value != value
          let s := s.tUpdate t key (fun e => { e with value := value, hit := true, age := 0 })
          (0, none, 1 + (if moved then 8 else 0), if moved then s.fsat T_MOVES.COUNT t else s)
    | none =>
      match op with
      | 0 => (par 0, none, 0, s)
      | 4 => (par 0, none, 0, s)
      | _ =>
        let (st, ins, s) := s.tInsert t set key value (op = 3)
        (par st, none, if ins then 4 + (if op = 3 then 2 else 0) else 0, s)

/-- One sweeper visit (R249, R250). -/
def State.tVisit (s : State) (t set way : Nat) : State :=
  if s.fget T_SWEEP.S t = 0 then s
  else
    let k := s.htab t
    match k.ents.find? (fun e => e.bucket == set && e.way == way) with
    | none => s
    | some e =>
      if e.isStatic then s
      else if e.hit = false ∧ e.age ≥ 1 then
        (s.setHtab t { k with ents := k.ents.filter (fun x => !(x.bucket == set && x.way == way)) }).fsat T_AGED.COUNT t
      else s.setHtab t { k with ents := k.ents.map (fun x => if x.bucket = set ∧ x.way = way then
          (if x.hit then { x with hit := false, age := 0 } else { x with age := x.age + 1 }) else x) }

/-- The sweeper visits an entry of a table; `bad` when its parity fails on the read (R249, R250). -/
def State.tSweep (s : State) (t set way : Nat) (bad : Bool) : State := if bad then s.tParity t set [way] else s.tVisit t set way

/-- The sweeper visits an entry; `bad` when its parity fails on the read. -/
def execSweepVisit (table set way : Nat) (bad : Bool) (s : State) : Res :=
  .next (if s.fget T_STAT.STATE table ≠ 2 then s else s.tSweep table set way bad)

/-- T_CTRL.ENABLE (R246). -/
def execTableEnable (host value : Nat) (s : State) : Res :=
  .next (s.prmW host 1 0x1100 (fun t s => s.enableWrite lifeTable t (nbit value 0) (fun s => s.tStart t) id))

/-- T_CMD.SWEEP_NOW (R262): one extra visit to every entry. -/
def execSweepNow (host : Nat) (value : SweepAsk) (s : State) : Res :=
  .next (s.prmW host 1 0x1138 (fun t s =>
    if nbit value.value 2 ∧ s.fget T_STAT.STATE t = 2 then (s.htab t).ents.foldl (fun s e => s.tSweep t e.bucket e.way (value.bad.contains (e.bucket, e.way))) s else s))

/-- T_CMD.CLR (R262). -/
def execTClr (host value : Nat) (s : State) : Res :=
  .next (s.prmW host 1 0x1138 (fun t s =>
    if nbit value 1 then [T_EVICT.COUNT, T_AGED.COUNT, T_MOVES.COUNT, T_PARITY.COUNT].foldl (fun s f => s.fset f t 0) s else s))

/-- T_CMD.SCRUB_BAD (R250). -/
def execScrubBad (host value : Nat) (s : State) : Res :=
  .next (s.prmW host 1 0x1138 (fun t s => if nbit value 0 then s.setHtab t { s.htab t with ents := (s.htab t).ents.filter (fun e => !e.bad) } else s))

/-! ### Primitive locks (R252 to R255) -/

/-- A scribe context's record. -/
def State.ctx (s : State) (x : Nat) : Ctx := tget {} s.scb.ctxs x

/-- Store a scribe context's record. -/
def State.setCtx (s : State) (x : Nat) (c : Ctx) : State := { s with scb := { s.scb with ctxs := tput {} s.scb.ctxs x c } }

/-- A register of a context; w0 reads 0 (R233). -/
def Ctx.get (c : Ctx) (r : Nat) : BitVec 64 := if r = 0 then 0#64 else tget 0#64 c.w r

/-- Write a register of a context; writes to w0 are discarded (R233). -/
def Ctx.set (c : Ctx) (r : Nat) (v : BitVec 64) : Ctx := if r = 0 then c else { c with w := tput 0#64 c.w r v }

/-- The answer a waiting context was stalled for arrives; the watchdog count restarts (R226). -/
def State.wake (s : State) (x rd status : Nat) : State :=
  s.setCtx x { (s.ctx x).set rd (BitVec.ofNat 64 status) with wait := .none, run := 0 }

/-- A primitive lock. -/
def State.plock (s : State) (n : Nat) : PLock := tget {} s.prm.locks n

/-- Store a primitive lock; HELD of its group follows. -/
def State.setPlock (s : State) (n : Nat) (v : PLock) : State :=
  let s := { s with prm := { s.prm with locks := tput {} s.prm.locks n v } }
  s.fset L_STAT.HELD (n / 64) (s.prm.locks.filter (fun e => e.1 / 64 == n / 64 && e.2.st == 1)).length

/-- The priority a context asks with: 0 for a priority-0 handler, the ring's for a host whose command it serves, else its task's PRIO (R255). -/
def State.ctxPrio (s : State) (x : Nat) : Nat :=
  let c := s.ctx x
  if c.prio0 then 0
  else match c.cmd with
    | some (r, _) => s.fget RNG_R_CFG.PRIO r
    | none => s.fget TSK_CFG.PRIO (c.task.getD 0)

/-- A context becomes the owner of a lock. -/
def State.lockOwn (s : State) (n x : Nat) (ws : List PWait) : State :=
  let c := s.ctx x
  let t := c.task.getD 0
  let s := s.setCtx x { c with locks := c.locks ++ [n] }
  s.setPlock n { st := 1, ctx := x, task := t, tenant := (s.taskOwner t).getD 0, host := c.cmd.map (fun d => s.ringHost d.1), waiters := ws }

/-- The waiter to be granted next: most urgent, then longest waiting (R255). -/
def State.pNext (s : State) (ws : List PWait) : Option PWait :=
  ws.foldl (fun a w => match a with
    | none => some w
    | some b => if s.ctxPrio w.ctx < s.ctxPrio b.ctx ∨ (s.ctxPrio w.ctx = s.ctxPrio b.ctx ∧ w.stamp < b.stamp) then some w else some b) none

/-- A lock loses its owner: the next waiter gets it with `status`, or it goes to `st` (R253). -/
def State.lockPass (s : State) (n status st : Nat) : State :=
  let k := s.plock n
  match s.pNext k.waiters with
  | some w =>
    let s := s.lockOwn n w.ctx (k.waiters.filter (fun v => v.ctx != w.ctx))
    match (s.ctx w.ctx).wait with
    | .lock _ rd _ => s.wake w.ctx rd status
    | _ => s
  | none => s.setPlock n { st := st }

/-- LKACQ (R252, R253): the status at once, or none while the requester waits. -/
def State.lockAcquire (s : State) (x n : Nat) (try_ : Bool) : Option Nat × State :=
  let tn := (s.taskOwner ((s.ctx x).task.getD 0)).getD 0
  if n ≥ 8192 ∨ s.fget L_CFG.OWNER (n / 64) ≠ tn then (some 0x23, s)
  else if s.fget L_STAT.STATE (n / 64) ≠ 2 then (some 0x21, s)
  else
    let k := s.plock n
    match k.st with
    | 0 => (some 0, s.lockOwn n x [])
    | 2 => (some 0x30, s.lockOwn n x [])
    | _ =>
      if k.ctx = x then (some 0x23, s)
      else if try_ then (some 0x24, s)
      else
        let s := s.setPlock n { k with waiters := k.waiters ++ [⟨x, s.ctxPrio x, s.prm.stamp⟩] }
        (none, { s with prm := { s.prm with stamp := s.prm.stamp + 1 } })

/-- LKREL (R253): status. -/
def State.lockRelease (s : State) (x n : Nat) : Nat × State :=
  let k := s.plock n
  if n ≥ 8192 ∨ k.st ≠ 1 ∨ k.ctx ≠ x then (0x23, s)
  else
    let c := s.ctx x
    (0, (s.setCtx x { c with locks := c.locks.filter (· != n) }).lockPass n 0 0)

/-- A lock's owner is reset (R254): event source 20, then the next waiter with LOCK_BROKEN, or BROKEN. -/
def State.lockBroken (s : State) (n : Nat) : State :=
  let k := s.plock n
  if k.st ≠ 1 then s
  else
    let c := s.ctx k.ctx
    let s := s.setCtx k.ctx { c with locks := c.locks.filter (· != n) }
    let s := (s.fsat L_BROKEN.COUNT (n / 64)).signal 20 (leB 2 n ++ leB 2 k.ctx)
    s.lockPass n 0x30 2

/-- A waiter leaves a lock's queue. -/
def State.lockUnwait (s : State) (n x : Nat) : State :=
  let k := s.plock n
  s.setPlock n { k with waiters := k.waiters.filter (fun w => w.ctx != x) }

/-- A waiter's time limit expires (R253). -/
def execLockWaitTimeout (ctx : Nat) (s : State) : Res :=
  .next (match (s.ctx ctx).wait with
    | .lock n rd limit => if limit = 0 then s else (s.lockUnwait n ctx).wake ctx rd 0x20
    | _ => s)

/-- The owner of a lock is reset (R254). -/
def execLockOwnerReset (lock : Nat) (s : State) : Res := .next (s.lockBroken lock)

/-- Every lock held for a host that went DOWN is broken (R254, R265). -/
def State.locksOfHost (s : State) (h : Nat) : State :=
  (s.prm.locks.filter (fun e => e.2.st == 1 && e.2.host == some h)).foldl (fun s e => s.lockBroken e.1) s

/-- A lock group enters DRAINING: its waiters complete with CANCELLED (R253). -/
def State.lockGroupDrain (s : State) (g : Nat) : State :=
  (s.prm.locks.filter (fun e => e.1 / 64 == g)).foldl (fun s e =>
    e.2.waiters.foldl (fun s w => match (s.ctx w.ctx).wait with
      | .lock _ rd _ => (s.lockUnwait e.1 w.ctx).wake w.ctx rd 0x21
      | _ => s) s) s

/-- L_CTRL.ENABLE (R253). -/
def execLockGroupEnable (host value : Nat) (s : State) : Res :=
  .next (s.prmW host 2 0x1100 (fun g s => s.enableWrite lifeLock g (nbit value 0) (fun s => s.turnOn lifeLock g) (fun s => s.lockGroupDrain g)))

/-- DRAINING of a lock group ends when no lock of it is HELD (R253). -/
def State.lockDrained (s : State) (g : Nat) : State :=
  if s.prm.locks.any (fun e => e.1 / 64 == g && e.2.st == 1) then s else s.drainDone lifeLock g (fun s => s.turnOn lifeLock g)

end Sys2Proof.Machine
end

