-- ==== Sys2Proof/Machine/Tasks.lean ====
section
/-! DEFINITION. Tasks and contexts: enabling, dispatch, the end of a handler, faults, stops, program banks, pages, and the SCB rows of the table
that are no instructions (R211 to R232, R257 to R260). -/
namespace Sys2Proof.Machine
open Reg

/-! ### Contexts in use -/

/-- Count a context in or out of its cluster's load (SCB_LOAD0, SCB_LOAD1). -/
def State.loadCount (s : State) (x : Nat) (up : Bool) : State :=
  let c := x / 64
  let f := if c < 4 then SCB_LOAD0.RUN else SCB_LOAD1.RUN
  let u := 2 ^ (8 * (c % 4))
  s.fset f 0 (if up then s.fget f + u else s.fget f - u)

/-- A context is one of the reserved ones (R213). -/
def reservedCtx (x : Nat) : Bool := x % 64 == 0

/-- Contexts that run a task. -/
def State.ctxsOf (s : State) (t : Nat) : List Nat := (s.scb.ctxs.filter (fun e => e.2.task == some t)).map (·.1)

/-- The store buffer's entries reach DRAM in order (R236). -/
def State.drainStores (s : State) (x : Nat) : State :=
  let c := s.ctx x
  let s := c.stores.foldl (fun s e => s.mwrite e.1 (leB 8 e.2)) s
  s.setCtx x { c with stores := [] }

/-- Release a context: cycles are charged to its task and, for a general context, to its tenant's virtual time (R227). -/
def State.releaseCtx (s : State) (x : Nat) : State :=
  let c := s.ctx x
  match c.task with
  | none => s
  | some t =>
    let was := s.readyTask t
    let s := s.set64 TSK_CYC_LO.CYC_LO TSK_CYC_HI.CYC_HI t ((s.get64 TSK_CYC_LO.CYC_LO TSK_CYC_HI.CYC_HI t + c.cycles) % 2 ^ 64)
    let s := (s.setCtx x {}).loadCount x false
    if c.prio0 then s
    else
      let tn := (s.taskOwner t).getD 0
      let sh := s.ten.active.share tn
      let s := if sh = 0 then s else { s with scb := { s.scb with vtime := tput 0 s.scb.vtime tn (tget 0 s.scb.vtime tn + c.cycles * 4096 / sh) } }
      (s.fsub TSK_STAT.RUNNING t).markReady t was

/-! ### Stopping a context (R224, R225) -/

/-- An open ledger transaction of a stopped context is discarded and its lock broken; a waiting LBEGIN leaves the queue (R134, R224). -/
def State.txnStop (s : State) (x : Nat) : State :=
  let s := match tget none s.ldg.txns x with
    | some (t : Txn) =>
      let s := { s with ldg := { s.ldg with txns := tput none s.ldg.txns x none } }
      if (s.llock t.ledger).owner = some (LOwner.ctx x) then s.lockBreak t.ledger else s
    | none => s
  match (s.ctx x).wait with
  | .ledger l _ _ => s.setLlock l { s.llock l with waiters := (s.llock l).waiters.filter (fun w => w.who != LOwner.ctx x) }
  | .lock n _ _ => s.lockUnwait n x
  | _ => s

/-- Stop a context as an owner reset: `rd` ends a reading bound to it, `cmd` is the status of a bound ring command. Work items it issued lose
their results (R224). -/
def State.stopCtx (s : State) (x : Nat) (rd : Option Nat) (cmd : Nat) : State :=
  let c := s.ctx x
  if c.task.isNone then s
  else
    let s := (s.drainStores x).txnStop x
    let s := c.locks.foldl (fun s n => s.lockBroken n) s
    let s := match rd, c.tag with
      | some st, some (i, g) => if (s.tag i).gen = g then s.endTag i st 0 else s
      | _, _ => s
    let s := { s with scb := { s.scb with items := s.scb.items.map (fun (e : Nat × Option Item) => (e.1, e.2.map (fun (it : Item) => if it.ctx = x ∧ c.task = some it.task ∧ it.gen = c.gen then { it with dead := true } else it))) } }
    let s := s.releaseCtx x
    match c.cmd with
    | some (r, slot) => s.finishDesc r slot cmd
    | none => s

/-- A task enters DRAINING (R220, R224): its queued events are discarded, its contexts stopped, its undelivered commands and the readings of
tenants that route to it cancelled (R30, R90). -/
def State.taskDrain (s : State) (t : Nat) : State :=
  let n := (List.range 8).foldl (fun a i => a + s.fget TSK_IN.COUNT (8 * t + i)) 0
  let r := s.task t
  let tn := (s.taskOwner t).getD 0
  let free := r.queues.foldl (fun a e => a + e.2.length) 0
  let cmds := (r.queues.flatMap (fun e => e.2)).filterMap (fun v => if v.src = 2051 then some (leAt v.pay 0 2, leAt v.pay 2 2) else none)
  let s := s.setTask t { r with queues := [] }
  let s := (List.range 8).foldl (fun s i => s.fset TSK_IN.COUNT (8 * t + i) 0) (s.fsat TSK_DISCARD.COUNT t n)
  let s := ({ s with poolUse := tput 0 s.poolUse tn (s.poolHeld tn - free) } : State).fsub SCB_POOL.USED 0 free
  let s := (s.ctxsOf t).foldl (fun s x => s.stopCtx x none 0x21) s
  let wait := (s.rng.prio0.filter (fun e => e.1 == t)).map (fun e => e.2)
  let s := { s with rng := { s.rng with prio0 := s.rng.prio0.filter (fun e => e.1 != t) } }
  let held := (s.rng.rings.map (·.1)).flatMap (fun q => if s.fget RNG_R_TASK.TASK q = t then
      ((s.ring q).order.filter (fun x => match s.desc q x with | some d => d.st == .waitDeliver | none => false)).map (fun x => (q, x)) else [])
  let s := (cmds ++ wait ++ held).foldl (fun s e => s.finishDesc e.1 e.2 0x21) s
  s.cancelTags (fun rd => s.routeTask rd.tenant 0 == some t || s.routeTask rd.tenant 2 == some t || s.routeTask rd.tenant 4 == some t)

/-- A fault of the handler on a context (R225): recorded, then the context is stopped with its reading INTERNAL, and the task drains. It is a trial
fault (R417). -/
def State.taskFault (s : State) (x code : Nat) : State :=
  let c := s.ctx x
  match c.task with
  | none => s
  | some t =>
    let s := (s.fset TSK_STAT.FAULT t code).fset TSK_FAULT_PC.PC t c.pc
    let s := s.inkRec 0x10 ((s.taskOwner t).getD 0) (leB 2 t ++ leB 1 code ++ [0] ++ leB 4 c.pc)
    let s := s.signal 16 (leB 2 t ++ leB 1 code ++ [0] ++ leB 4 c.pc)
    let s := (s.stopCtx x (some 0xFF) 0xFF).trialFault
    if s.fget TSK_STAT.STATE t = 2 then ((s.fset TSK_CTRL.ENABLE t 0).fset TSK_STAT.STATE t 1).taskDrain t else s

/-- A handler reaches the watchdog limit (R226). -/
def execWatchdog (ctx : Nat) (s : State) : Res :=
  .next (if (s.ctx ctx).task.isSome ∧ (s.ctx ctx).run ≥ s.fget SCB_CFG.RUN_MAX * 1024 then s.taskFault ctx 6 else s)

/-! ### Enabling a task (R214, R215) -/

/-- The handler entry of an input. -/
def State.entry (s : State) (t i : Nat) : Nat :=
  s.fget ([TSK_ENTRY.E0, TSK_ENTRY.E1, TSK_ENTRY.E2, TSK_ENTRY.E3, TSK_ENTRY.E4, TSK_ENTRY.E5, TSK_ENTRY.E6, TSK_ENTRY.E7].getD i TSK_ENTRY.E7) t

/-- The DRAM areas of LDG, PIP and BAL that are configured: base and bytes (R83, R84, R129, R168, R195, R202; log entry 18). -/
def State.engineAreas (s : State) : List (Nat × Nat) :=
  (if s.fbit LDG_CFG.AREA_VALID then [(s.base LDG_BASE_LO.BASE_LO 20 LDG_BASE_HI.BASE_HI, s.fget LDG_COUNT.COUNT * 1024)] else [])
  ++ (if s.fbit LDG_CFG.BLOB_VALID then [(s.base LDG_BLOB_LO.BASE_LO 20 LDG_BLOB_HI.BASE_HI, s.fget LDG_COUNT.COUNT * 64)] else [])
  ++ (if s.fbit LDG_CFG.CAL_VALID then [(s.base LDG_CAL_LO.BASE_LO 20 LDG_CAL_HI.BASE_HI, 16384 * 4096)] else [])
  ++ (if s.fbit LDG_CFG.AREA_VALID then [(s.base LDG_WATCH_LO.BASE_LO 20 LDG_WATCH_HI.BASE_HI, 65536 * 4)] else [])
  ++ (if s.fbit PIP_CFG.STAGE_VALID then [(s.base PIP_STAGE_LO.BASE_LO 12 PIP_STAGE_HI.BASE_HI, 65536 * 4160)] else [])
  ++ (if s.centre then [(s.base PIP_HASH_LO.BASE_LO 26 PIP_HASH_HI.BASE_HI, 2 ^ 26)] else [])
  ++ (if s.fbit BAL_CFG.AREA_VALID then [(s.base BAL_AREA_LO.BASE_LO 20 BAL_AREA_HI.BASE_HI, 65536 * 640)] else [])
  ++ (if s.fbit BAL_CFG.MEMB_VALID then [(s.base BAL_MEMB_LO.BASE_LO 20 BAL_MEMB_HI.BASE_HI, 2097152 * 2)] else [])

/-- Every condition of R215 holds. -/
def State.taskMay (s : State) (t : Nat) : Bool :=
  match s.taskOwner t with
  | none => false
  | some tn =>
    let b := s.fget TSK_CFG.BANK t
    let xb := s.xwinBase t
    let xn := s.xwinSize t
    s.tenOn tn
    && s.fget SCB_BANK_CTRL.STATE b == 2 && (s.fget SCB_BANK_CTRL.OWNER b == tn || (s.fbit SCB_BANK_CTRL.SHARED b && s.fget SCB_BANK_CTRL.OWNER b == 0))
    && (List.range 8).all (fun i => !nbit (s.fget TSK_IN_CFG.EN t) i || decide (s.entry t i < s.fget SCB_BANK_LEN.LEN b))
    && (List.range (s.fget TSK_DATA.PAGES t)).all (fun k => ownerOf s.scb.pages (s.fget TSK_DATA.BASE t + k) == some tn)
    && (xn == 0 || (s.engineAreas.all (fun a => !overlaps xb xn a.1 a.2)
      && (List.range 4096).all (fun k => s.fget TSK_STAT.STATE k == 0 || s.taskOwner k == some tn || s.xwinSize k == 0 || !overlaps xb xn (s.xwinBase k) (s.xwinSize k))))
    && s.fget TSK_CFG.CLUSTERS t != 0 && decide (1 ≤ s.fget TSK_CFG.MULTI t ∧ s.fget TSK_CFG.MULTI t ≤ 64)

/-- Turn a task ON, or leave it OFF with SCB_ERR.ENABLE (R215). A task whose tenant is not ON cannot leave OFF and nothing is recorded (R33). -/
def State.taskStart (s : State) (t : Nat) : State :=
  if s.taskMay t = false then
    (s.turnOff lifeTask t).errAt SCB_ERR.ENABLE 0x1100
  else
    let s := (s.turnOn lifeTask t).fset TSK_STAT.FAULT t 0
    let s := { s with scb := { s.scb with badTasks := s.scb.badTasks.filter (· != t) } }
    let s := (List.range 8).foldl (fun s i => s.fset TSK_IN.COUNT (8 * t + i) 0) s
    let s := s.setTask t { s.task t with queues := [], last := 7 }
    s.fadd SCB_BANK_STAT.USERS (s.fget TSK_CFG.BANK t)

/-- TSK_CTRL.ENABLE (R214, R215). -/
def execTaskEnable (host value : Nat) (s : State) : Res :=
  .next (s.gateW host .scb 0 0x1100 (fun t s => s.enableWrite lifeTask t (nbit value 0) (fun s => s.taskStart t) (fun s => s.taskDrain t)))

/-- A task leaves DRAINING when no context runs it and every result of the old generation has returned (R224). -/
def State.taskDrained (s : State) (t : Nat) : State :=
  if s.fget TSK_STAT.STATE t ≠ 1 ∨ (s.ctxsOf t) ≠ [] ∨ s.scb.items.any (fun e => match e.2 with | some it => it.task == t | none => false) then s
  else (s.fsub SCB_BANK_STAT.USERS (s.fget TSK_CFG.BANK t)).drainDone lifeTask t (fun s => s.taskStart t)

/-! ### Dispatch (R221, R223, R227) -/

/-- Tasks with an event waiting that may be dispatched now (R221). -/
def State.waitingTasks (s : State) : List Nat :=
  let live := (tget [] s.regs TSK_IN.COUNT.id).map (fun e => e.1 / 8)
  (live.eraseDups).filter (fun t => s.readyTask t
    && decide (s.fget TSK_STAT.RUNNING t < (List.range 8).foldl (fun a i => if nbit (s.fget TSK_IN_CFG.EN t) i then a + s.fget TSK_IN.COUNT (8 * t + i) else a) 0))

/-- The smallest of a list under a measure, the first among equals. -/
def leastBy (f : Nat → Nat) : List Nat → Option Nat
  | [] => none
  | x :: t => match leastBy f t with
    | none => some x
    | some y => some (if f x ≤ f y then x else y)

/-- Contexts of a cluster that run, as SCB_LOAD shows them. -/
def State.clusterLoad (s : State) (c : Nat) : Nat := s.fget (if c < 4 then SCB_LOAD0.RUN else SCB_LOAD1.RUN) / 2 ^ (8 * (c % 4)) % 256

/-- The cluster a READY task is placed in (R229): of its CLUSTERS with a free general context, the one with the fewest contexts running, ties to the
lowest number (log entry 117). -/
def State.placedIn (s : State) (t : Nat) : Option Nat :=
  leastBy s.clusterLoad ((List.range 8).filter (fun c => nbit (s.fget TSK_CFG.CLUSTERS t) c && (List.range 64).any (fun k => k != 0 && (s.ctx (64 * c + k)).task.isNone)))

/-- The waiting tasks that a cluster dispatches (R227, R229). -/
def State.candidates (s : State) (cluster : Nat) : List Nat := s.waitingTasks.filter (fun t => s.placedIn t == some cluster)

/-- A tenant's virtual time. -/
def State.vt (s : State) (tn : Nat) : Nat := tget 0 s.scb.vtime tn

/-- Idle tenants do not accumulate credit: no virtual time stays further behind the smallest one of the tenants with work (R227). -/
def State.vtFloor (s : State) (work : List Nat) : State :=
  match leastBy s.vt (work.filter (fun tn => s.ten.active.share tn != 0)) with
  | none => s
  | some m =>
    (List.range 1024).foldl (fun s tn =>
      let sh := s.ten.active.share tn
      if sh = 0 then s
      else
        let lo := s.vt m - 1000000 * 4096 / sh
        if s.vt tn < lo then { s with scb := { s.scb with vtime := tput 0 s.scb.vtime tn lo } } else s) s

/-- The tenant a freed general context serves (R227): smallest virtual time among those with a share, else share-0 tenants in rotation. -/
def State.pickTenant (s : State) (work : List Nat) : Option Nat :=
  match leastBy s.vt (work.filter (fun tn => s.ten.active.share tn != 0)) with
  | some tn => some tn
  | none => leastBy (fun tn => (tn + 1023 - s.scb.rot0) % 1024) work

/-- The input a task serves next (R221). -/
def State.nextInput (s : State) (t : Nat) : Option Nat :=
  ((List.range 8).map (fun k => ((s.task t).last + 1 + k) % 8)).find? (fun i => nbit (s.fget TSK_IN_CFG.EN t) i && s.fget TSK_IN.COUNT (8 * t + i) != 0)

/-- Start a handler on a context. -/
def State.startCtx (s : State) (x t input : Nat) (prio0 : Bool) (w : Tab (BitVec 64)) (cmd : Option (Nat × Nat)) : State :=
  let s := s.setCtx x { task := some t, gen := s.fget TSK_STAT.GEN t, pc := s.entry t input, w := w, input := input, prio0 := prio0, cmd := cmd }
  let s := s.loadCount x true
  if prio0 then s else s.fadd TSK_STAT.RUNNING t

/-- A free general context is given to a READY task (R221, R227). -/
def execTaskDispatch (ctx : Nat) (s : State) : Res :=
  .next (if ctx ≥ 512 ∨ reservedCtx ctx ∨ (s.ctx ctx).task.isSome then s
    else
      let cand := s.candidates (ctx / 64)
      let work := (cand.map (fun t => (s.taskOwner t).getD 0)).eraseDups
      let s := s.vtFloor ((s.waitingTasks.map (fun t => (s.taskOwner t).getD 0)).eraseDups)
      match s.pickTenant work with
      | none => s
      | some tn =>
        let s := if s.ten.active.share tn = 0 then { s with scb := { s.scb with rot0 := tn } } else s
        let mine := cand.filter (fun t => (s.taskOwner t).getD 0 == tn)
        match leastBy (fun t => s.fget TSK_CFG.PRIO t * 2 ^ 64 + (s.task t).readyAt) mine with
        | none => s
        | some t =>
          match s.nextInput t with
          | none => s
          | some i =>
            let s := s.setTask t { s.task t with last := i }
            s.startCtx ctx t i false (s.task t).saved none)

/-- The header EVPOP returns (R240). -/
def evHeader (src input len : Nat) : Nat := src + input * 2 ^ 12 + len * 2 ^ 16 + 2 ^ 63

/-- The command at the head of the priority-0 queue goes to the free reserved context of the lowest-numbered cluster of its task (R223, R277). -/
def execPriority0Dispatch (s : State) : Res :=
  .next (match s.rng.prio0 with
    | [] => s
    | (t, r, slot) :: rest =>
      match (List.range 8).find? (fun c => nbit (s.fget TSK_CFG.CLUSTERS t) c && (s.ctx (64 * c)).task.isNone), s.desc r slot with
      | some c, some d =>
        let pay := s.cmdPayload r slot d
        let w := tput 0#64 (tput 0#64 (tput 0#64 (s.task t).saved 29 (BitVec.ofNat 64 (evHeader 2051 5 12))) 30 (BitVec.ofNat 64 (leAt pay 0 8)))
          31 (BitVec.ofNat 64 (leAt pay 8 4))
        let s := { s with rng := { s.rng with prio0 := rest } }
        let s := s.setDesc r slot (some { d with st := .running })
        s.startCtx (64 * c) t 5 true w (some (r, slot))
      | _, _ => s)

/-! ### Program banks (R230) -/

/-- SCB_BANK_IDX of a host: the bank its BANK registers show. -/
def State.bankOf (s : State) (host : Nat) : Nat := s.fget SCB_BANK_IDX.BANK host

/-- A bank's place is clear of every other LOADING or SEALED bank (R230). -/
def State.bankClear (s : State) (b base len : Nat) : Bool :=
  (List.range 256).all (fun k => k == b || s.fget SCB_BANK_CTRL.STATE k == 0 || !overlaps base len (s.fget SCB_BANK_BASE.BASE k) (s.fget SCB_BANK_LEN.LEN k))

/-- The bytes of a bank. -/
def State.bankBytes (s : State) (b : Nat) : List Byte :=
  (List.range (s.fget SCB_BANK_LEN.LEN b)).flatMap (fun k => leB 4 (tget 0 s.scb.istore (s.fget SCB_BANK_BASE.BASE b + k)))

/-- OPEN of a bank (R230). -/
def State.bankOpen (s : State) (b : Nat) : State :=
  let st := s.fget SCB_BANK_CTRL.STATE b
  let base := s.fget SCB_BANK_BASE.BASE b
  let len := s.fget SCB_BANK_LEN.LEN b
  if st = 1 then s
  else if st = 2 ∧ s.fget SCB_BANK_STAT.USERS b > 0 then s.errAt SCB_ERR.BANK_BUSY 0x34
  else if base + len > 131072 ∨ s.bankClear b base len = false then s.errAt SCB_ERR.OVERLAP 0x34
  else s.fset SCB_BANK_CTRL.STATE b 1

/-- SEAL of a bank (R230). -/
def State.bankSeal (s : State) (b : Nat) : State :=
  if s.fget SCB_BANK_CTRL.STATE b ≠ 1 then s
  else if crc32 (s.bankBytes b) = s.fget SCB_BANK_CHECK.CRC b then (s.fset SCB_BANK_CTRL.STATE b 2).fadd SCB_BANK_STAT.GEN b
  else s.errAt SCB_ERR.CHECK 0x34

/-- RELEASE of a bank (R230). -/
def State.bankRelease (s : State) (b : Nat) : State :=
  if s.fget SCB_BANK_CTRL.STATE b = 0 then s
  else if s.fget SCB_BANK_STAT.USERS b > 0 then s.errAt SCB_ERR.BANK_BUSY 0x34
  else s.fset SCB_BANK_CTRL.STATE b 0

/-- SCB_BANK_CMD with OP 1. -/
def execOpen (host : Nat) (s : State) : Res := .next (s.gate host .scb 0x34 (fun s => s.bankOpen (s.bankOf host)))

/-- SCB_BANK_CMD with OP 2. -/
def execSeal (host : Nat) (s : State) : Res := .next (s.gate host .scb 0x34 (fun s => s.bankSeal (s.bankOf host)))

/-- SCB_BANK_CMD with OP 3. -/
def execRelease (host : Nat) (s : State) : Res := .next (s.gate host .scb 0x34 (fun s => s.bankRelease (s.bankOf host)))

/-- Store an instruction word, with its parity. -/
def State.istorePut (s : State) (k v : Nat) : State :=
  { s with scb := { s.scb with istore := tput 0 s.scb.istore k v, badWords := s.scb.badWords.filter (· != k) } }

/-- A write of one instruction word (R230). -/
def execInstructionStoreWrite (host off value : Nat) (s : State) : Res :=
  .next (s.gate host .scb off (fun s =>
    let k := (off - 0x10000) / 4
    if off < 0x10000 ∨ k ≥ 131072 then s
    else if (List.range 256).any (fun b => s.fget SCB_BANK_CTRL.STATE b == 1 && inRange (s.fget SCB_BANK_BASE.BASE b, s.fget SCB_BANK_LEN.LEN b) k) then
      s.istorePut k (value % 2 ^ 32)
    else s.errAt SCB_ERR.BANK_BUSY off))

/-- A page lies in the data window of a task that is not OFF (R231). -/
def State.pageBusy (s : State) (p : Nat) : Bool :=
  (List.range 4096).any (fun t => s.fget TSK_STAT.STATE t != 0 && inRange (s.fget TSK_DATA.BASE t, s.fget TSK_DATA.PAGES t) p)

/-- One entry of the data page owner map: whether it is refused, and the state. -/
def State.pageWrite (s : State) (p v : Nat) : Bool × State :=
  if tget 0 s.scb.pages p = Nat.land v 0x83FF then (false, s)
  else if s.pageBusy p then (true, s) else (false, { s with scb := { s.scb with pages := tput 0 s.scb.pages p (Nat.land v 0x83FF) } })

/-- A page's owner set on its own, a refusal recorded with the entry's offset. -/
def State.pageSet (s : State) (p v : Nat) : State :=
  match s.pageWrite p v with
  | (false, s) => s
  | (true, s) => s.errAt SCB_ERR.WINDOW (0x90000 + 2 * p)

/-- A write of 2 or 4 bytes of the data page owner map, entry by entry; an access with a refused entry sets WINDOW once (R231, R564, R565). -/
def execPageOwnerWrite (host off bits value : Nat) (s : State) : Res :=
  .next (s.gate host .scb off (fun s =>
    let p := (off - 0x90000) / 2
    if off < 0x90000 ∨ p ≥ 256 then s
    else
      let a := s.pageWrite p (value % 65536)
      let b := if bits = 32 then a.2.pageWrite (p + 1) (value / 65536 % 65536) else (false, a.2)
      if a.1 ∨ b.1 then b.2.errAt SCB_ERR.WINDOW off else b.2))

/-- TSK_CMD.CLR (R259). -/
def execTskCmdClr (host value : Nat) (s : State) : Res :=
  .next (s.gateW host .scb 0 0x1160 (fun t s =>
    if nbit value 0 then
      let s := (List.range 8).foldl (fun s i => s.fset TSK_IN.OVERFLOW (8 * t + i) 0) s
      (s.fset TSK_DISCARD.COUNT t 0).set64 TSK_CYC_LO.CYC_LO TSK_CYC_HI.CYC_HI t 0
    else s))

/-! ### Waits that end from outside -/

/-- A stalled EVWAIT resumes (R222). -/
def execEvwaitWake (ctx : Nat) (s : State) : Res :=
  let c := s.ctx ctx
  .next (match c.wait, c.task with
    | .event mask rd, some t =>
      match (List.range 8).find? (fun i => nbit mask i && s.fget TSK_IN.COUNT (8 * t + i) != 0) with
      | some i => s.wake ctx rd i
      | none => s
    | _, _ => s)

/-- The oldest store-buffer entry leaves (R236). -/
def execStoreBufferDrain (ctx : Nat) (s : State) : Res :=
  let c := s.ctx ctx
  .next (match c.stores with
    | [] => s
    | e :: rest => (s.mwrite e.1 (leB 8 e.2)).setCtx ctx { c with stores := rest })

/-! ### Ledger locks of contexts (R134, R255, R256) -/

/-- The next waiter gets a free ledger lock: a context's LBEGIN answers OK or LOCK_BROKEN, a commit pipe goes on with its commit. -/
def execLedgerLockGrant (ledger : Nat) (s : State) : Res :=
  let k := s.llock ledger
  .next (if k.owner.isSome then s
    else
      let ws := k.waiters.map (fun w => match w.who with
        | .ctx n => { w with prio := s.ctxPrio n }
        | .pipe _ => w)
      match nextWaiter ws with
      | none => s
      | some w =>
        let u := s.setLlock ledger { k with waiters := k.waiters.filter (fun v => v.who != w.who) }
        match w.who with
        | .pipe i => u.commitTag i true
        | .ctx x =>
          if s.lineFree ledger (x / 64) = false then s.waitLine ledger (x / 64)
          else match (s.ctx x).wait with
          | .ledger _ kind rd =>
            let s := u.lineUse ledger (x / 64) 0 0
            let s := s.setLlock ledger { s.llock ledger with owner := some (.ctx x), broken := false }
            let s := { s with ldg := { s.ldg with txns := tput none s.ldg.txns x (some { ledger := ledger, kind := kind }) } }
            s.wake x rd (if k.broken then 0x30 else 0)
          | _ => u)

/-- A ledger time limit expires: an open transaction is aborted and its lock released normally; an LBEGIN that still waits returns TIMEOUT
(R134, R135). -/
def execTxnTimeout (ctx : Nat) (s : State) : Res :=
  .next (match (s.ctx ctx).wait with
    | .ledger l _ rd =>
      (s.setLlock l { s.llock l with waiters := (s.llock l).waiters.filter (fun w => w.who != LOwner.ctx ctx) }).wake ctx rd 0x20
    | _ =>
      match tget none s.ldg.txns ctx with
      | none => s
      | some (x : Txn) =>
        if x.timedOut ∨ (s.llock x.ledger).owner ≠ some (LOwner.ctx ctx) then s
        else
          let s := { s with ldg := { s.ldg with txns := tput none s.ldg.txns ctx (some { x with timedOut := true, writes := [], args := [] }) } }
          s.lockFree x.ledger)

/-! ### Work items (R239) -/

/-- Operations of an engine (R329, R364, R396, R422, R450, R462). -/
def engineOps (e : Nat) : Nat := match e with | 0 => 7 | 1 => 5 | 2 => 5 | 3 => 1 | 4 => 7 | 5 => 6 | 6 => 5 | 7 => 5 | 8 => 6 | 9 => 8 | _ => 0

/-- The operation uses HANDLE, HANDLE2 (R396). -/
def usesHandle (e op : Nat) : Bool := e == 0 || (e == 1 && (op == 1 || op == 2 || op == 4)) || (e == 2 && op ≥ 3) || (e == 4 && (op == 1 || (3 ≤ op && op ≤ 5)))
def usesHandle2 (e op : Nat) : Bool := (e == 1 && (op == 2 || op == 3)) || (e == 4 && (2 ≤ op && op ≤ 4))

/-- The tenant owns the ledger, partition or node-table entry that the item names (R17). -/
def State.ownsNamed (s : State) (it : Item) : Bool :=
  match it.engine with
  | 4 => it.op != 4 || s.ownsLedger it.tenant (it.f 0x20 4 % 2 ^ 21)
  | 5 => s.partOwner (it.f 1 1) == some it.tenant
  | 7 => it.op == 4 || (it.op == 0 && nbit (it.f 2 2) 15) || s.ten.active.ownsNode it.tenant (it.f 2 2 % 32768)
  | 8 => (it.op == 0 && nbit (it.f 2 2) 15) || s.ten.active.ownsNode it.tenant (it.f 2 2 % 32768)
  | 9 => it.op != 0 || s.partOwner (it.f 3 1) == some it.tenant
  | _ => true

/-- The check at issue (R25), made once: the tenant's state, then every resource the item names. The engine judges the rest of the item. -/
def State.issueVerdict (s : State) (it : Item) : Nat :=
  if s.tenOn it.tenant = false then 0x22
  else if it.op ≥ engineOps it.engine then 0x23
  else if usesHandle it.engine it.op ∧ s.slotOwner (hSlot it.handle) ≠ some it.tenant then 0x23
  else if usesHandle2 it.engine it.op ∧ s.slotOwner (hSlot it.handle2) ≠ some it.tenant then 0x23
  else if s.ownsNamed it = false then 0x23
  else 0

/-- Items of a task, of a context, that have not been answered. -/
def State.itemsBy (s : State) (p : Item → Bool) : Nat := (s.scb.items.filter (fun e => match e.2 with | some it => p it | none => false)).length

/-- Hand a work item to its engine (R239): status and ticket. The pins of R383 are taken here. The host of a handler that has no ring command is
host 0 (log entry 99). -/
def State.issue (s : State) (x engine : Nat) (urgent : Bool) (bytes : List Byte) : Nat × Nat × State :=
  let c := s.ctx x
  let t := c.task.getD 0
  let tn := (s.taskOwner t).getD 0
  if engine ≥ 10 ∨ (urgent ∧ (reservedCtx x = false ∨ engine ∉ [0, 3, 7, 8]))
      ∨ nbit (s.fget TSK_IN_CFG.EN t) 7 = false ∨ nbit (s.fget TSK_IN_CFG.MODE t) 7 then (0x23, 0, s)
  else if s.itemsBy (fun it => it.task == t && !it.dead) + s.fget TSK_IN.COUNT (8 * t + 7) ≥ 16 ∨ s.itemsBy (fun it => it.ctx == x) ≥ 8
      ∨ s.poolHeld tn ≥ s.poolQuota tn ∨ s.fget SCB_POOL.USED ≥ 65536 then (0x24, 0, s)
  else
    let n := s.scb.nextItem
    let ticket := n % 65536
    let host := match c.cmd with | some (r, _) => s.ringHost r | none => 0
    let it : Item := { task := t, gen := c.gen, tenant := tn, ctx := x, host := host, epoch := s.fget CHIP_EPOCH.EPOCH, engine := engine, urgent := urgent, ticket := ticket, bytes := bytes }
    let v := s.issueVerdict it
    let it := { it with verdict := v }
    let s := { s with scb := { s.scb with nextItem := n + 1 }, poolUse := tput 0 s.poolUse tn (s.poolHeld tn + 1) }
    let s := s.fadd SCB_POOL.USED 0
    let s := if s.fget SCB_POOL.USED = 57345 then s.signal 19 (leB 4 8191) else s
    let (s, it) := if v = 0 ∧ usesHandle engine it.op ∧ s.handleOk it.handle then
        (s.pinSlot (hSlot it.handle), { it with pin := some (hSlot it.handle, hGen it.handle) }) else (s, it)
    let (s, it) := if v = 0 ∧ engine = 4 ∧ it.op = 4 ∧ s.handleOk it.handle2 then
        (s.pinSlot (hSlot it.handle2), { it with pin2 := some (hSlot it.handle2, hGen it.handle2) }) else (s, it)
    let s := s.setItem n (some it)
    (0, ticket, if it.op ≥ engineOps engine then s.itemDone n 0x23 0 else s)

/-- An engine's answer reaches input 7 of the issuing task, in the pool entry its ISSUE reserved (R218, R239); the answer of a stopped context is
discarded (R224). -/
def execEngineCompletion (n : Nat) (s : State) : Res :=
  .next (match s.item n with
    | none => s
    | some it =>
      match it.done with
      | none => s
      | some (st, r) =>
        let s := s.setItem n none
        if it.dead ∨ s.fget TSK_STAT.STATE it.task ≠ 2 ∨ s.fget TSK_STAT.GEN it.task ≠ it.gen then
          ({ s with poolUse := tput 0 s.poolUse it.tenant (s.poolHeld it.tenant - 1) } : State).fsub SCB_POOL.USED 0
        else s.deliver it.task 7 2050 (leB 2 it.ticket ++ leB 1 st ++ [0] ++ leB 8 r) true)

end Sys2Proof.Machine
end

