-- ==== Sys2Proof/Machine/Scribe.lean ====
section
/-! DEFINITION. The scribe instruction set: the words of the instructions, the gate every instruction passes, and the meaning of each (R233 to R239). -/
namespace Sys2Proof.Machine
open Reg

/-! ### Words (R233) -/

/-- A word of format R; a field too large for its bits spells no word (2^32, which no stored word equals). -/
def encR (op a b c f : Nat) : Nat :=
  if a < 32 ∧ b < 32 ∧ c < 32 ∧ f < 2048 then op * 2 ^ 26 + a * 2 ^ 21 + b * 2 ^ 16 + c * 2 ^ 11 + f else 2 ^ 32

/-- A word of format I. -/
def encI (op a b imm : Nat) : Nat := if a < 32 ∧ b < 32 ∧ imm < 65536 then op * 2 ^ 26 + a * 2 ^ 21 + b * 2 ^ 16 + imm else 2 ^ 32

/-- A word of format J. -/
def encJ (op a off : Nat) : Nat := if a < 32 ∧ off < 2 ^ 21 then op * 2 ^ 26 + a * 2 ^ 21 + off else 2 ^ 32

/-- The F codes of OP 0x00 (R235). -/
def aluCodes : List Nat := [0, 1, 2, 3, 4, 5, 6, 7, 8, 9, 10, 11, 12, 13, 16, 17, 18, 20, 21, 22, 23, 24]

/-- A word the instruction set lists, with every reserved field 0; any other faults with ILLEGAL (R233, R234, R568). -/
def legalWord (w : Nat) : Bool :=
  let a := nbits w 25 21
  let b := nbits w 20 16
  let c := nbits w 15 11
  let f := nbits w 10 0
  let imm := nbits w 15 0
  match nbits w 31 26 with
  | 0x00 => aluCodes.contains f && (f != 24 || c == 0)
  | 0x07 => nbits imm 15 14 != 3 && nbits imm 13 6 == 0
  | 0x08 => nbits b 4 3 == 0
  | 0x20 => decide (f ≤ 3) && a == 0 && b == 0 && c == 0
  | 0x21 => decide (imm ≤ 9) && b == 0
  | 0x22 => decide (imm < 8) && b == 0
  | 0x23 => decide (imm < 8) && b == 0
  | 0x24 => decide (imm < 256) && b == 0
  | 0x25 => f == 0
  | 0x26 => decide (imm ≤ 4) && b == 0
  | 0x27 => c == 0 && f == 0
  | 0x28 => c == 0 && f == 0
  | 0x29 => decide (f < 128) && (nbits f 6 3 == 0 || nbits f 2 0 == 5 || nbits f 2 0 == 6) && (c == 0 || nbits f 2 0 == 6 || nbits f 2 0 == 7)
  | 0x2A => decide (imm < 8) && b == 0
  | 0x2B => decide (imm < 8) && b == 0
  | 0x30 => decide (f < 16) && c == 0
  | 0x31 => c == 0 && f == 0
  | 0x32 => f == 0
  | 0x33 => a == 0 && f == 0
  | 0x34 => b == 0 && c == 0 && f == 0
  | 0x35 => a == 0 && b == 0 && c == 0 && f == 0
  | 0x36 => decide (f < 16) && (nbits f 1 0 == 0 || (c == 0 && f < 4))
  | 0x38 => f == 0
  | 0x39 => c == 0 && f == 0
  | 0x3A => decide (f ≤ 4)
  | 0x3B => decide (f ≤ 1)
  | 0x3C => c == 0 && f == 0
  | 0x3D => decide (f ≤ 1)
  | op => (0x01 ≤ op && op ≤ 0x15) || (0x18 ≤ op && op ≤ 0x1F)

/-! ### The gate (R212, R226, R233) -/

/-- The tenant a context works for. -/
def State.ctxTenant (s : State) (x : Nat) : Nat := (s.taskOwner ((s.ctx x).task.getD 0)).getD 0

/-- The word at a context's program counter; none at or beyond the bank's LEN (FETCH). -/
def State.fetched (s : State) (x : Nat) : Option Nat :=
  let c := s.ctx x
  let b := s.fget TSK_CFG.BANK (c.task.getD 0)
  if c.pc < s.fget SCB_BANK_LEN.LEN b then some (tget 0 s.scb.istore (s.fget SCB_BANK_BASE.BASE b + c.pc)) else none

/-- The word a context fetches, or its task's state, carries a parity error (R238). -/
def State.parityBad (s : State) (x : Nat) : Bool :=
  let c := s.ctx x
  let t := c.task.getD 0
  s.scb.badTasks.contains t || s.scb.badWords.contains (s.fget SCB_BANK_BASE.BASE (s.fget TSK_CFG.BANK t) + c.pc)

/-- Context `x` issues the instruction `w`. A context that is free or stalled issues nothing; a handler at the watchdog limit, a fetch beyond the
bank, a parity error and a word that is not listed fault; where the bank holds another listed instruction at the context's PC, that one is issued by its own
command and this command changes nothing (log entry 2). -/
def State.isa (s : State) (x w : Nat) (body : Ctx → State → State) : State :=
  let c := s.ctx x
  if c.task.isNone ∨ c.wait ≠ .none then s
  else if c.run ≥ s.fget SCB_CFG.RUN_MAX * 1024 then s.taskFault x 6
  else
    match s.fetched x with
    | none => s.taskFault x 2
    | some v => if s.parityBad x then s.taskFault x 11 else if legalWord v = false then s.taskFault x 1 else if v = w then body c s else s

/-- The context after an instruction of `cyc` cycles: the next PC, one more instruction. -/
def Ctx.next (c : Ctx) (cyc : Nat) : Ctx := { c with pc := c.pc + 1, cycles := c.cycles + cyc, run := c.run + 1 }

/-- Jump of an instruction of `cyc` cycles. -/
def Ctx.jump (c : Ctx) (pc cyc : Nat) : Ctx := { c with pc := pc % 2 ^ 64, cycles := c.cycles + cyc, run := c.run + 1 }

/-- A number as a register value. -/
def w64 (n : Nat) : BitVec 64 := BitVec.ofNat 64 n

/-- The sign-extended 16-bit immediate. -/
def simm (imm : Nat) : BitVec 64 := (BitVec.ofNat 16 imm).signExtend 64

/-- An instruction that only writes wA. -/
def State.alu (s : State) (x a cyc : Nat) (c : Ctx) (v : BitVec 64) : State := s.setCtx x ((c.set a v).next cyc)

/-- Finish an instruction whose status is in wA, counting PROTECTION for the tenant (R47). -/
def State.retStatus (s : State) (x a cyc st : Nat) (more : Ctx → Ctx) : State :=
  let s := if st = 0x23 then s.protCount (s.ctxTenant x) else s
  s.setCtx x ((more ((s.ctx x).set a (w64 st))).next cyc)

/-! ### OP 0x00 (R235) -/

/-- Quotient and remainder of R235: division by 0 gives all ones and the dividend. -/
def divS (b c : BitVec 64) : BitVec 64 := if c = 0#64 then BitVec.allOnes 64 else b.sdiv c
def divU (b c : BitVec 64) : BitVec 64 := if c = 0#64 then BitVec.allOnes 64 else b / c
def remS (b c : BitVec 64) : BitVec 64 := if c = 0#64 then b else b.srem c
def remU (b c : BitVec 64) : BitVec 64 := if c = 0#64 then b else b % c

/-- Leading zeros of a word. -/
def clz64 (v : BitVec 64) : Nat := if v = 0#64 then 64 else 63 - Nat.log2 v.toNat

/-- wA = wB + wC. -/
def execAdd (ctx a b c : Nat) (s : State) : Res :=
  .next (s.isa ctx (encR 0x00 a b c 0) (fun k s => s.alu ctx a 1 k (k.get b + k.get c)))

/-- wA = wB - wC. -/
def execSub (ctx a b c : Nat) (s : State) : Res :=
  .next (s.isa ctx (encR 0x00 a b c 1) (fun k s => s.alu ctx a 1 k (k.get b - k.get c)))

/-- Bitwise AND. -/
def execAnd (ctx a b c : Nat) (s : State) : Res :=
  .next (s.isa ctx (encR 0x00 a b c 2) (fun k s => s.alu ctx a 1 k (k.get b &&& k.get c)))

/-- Bitwise OR. -/
def execOr (ctx a b c : Nat) (s : State) : Res :=
  .next (s.isa ctx (encR 0x00 a b c 3) (fun k s => s.alu ctx a 1 k (k.get b ||| k.get c)))

/-- Bitwise XOR. -/
def execXor (ctx a b c : Nat) (s : State) : Res :=
  .next (s.isa ctx (encR 0x00 a b c 4) (fun k s => s.alu ctx a 1 k (k.get b ^^^ k.get c)))

/-- Shift left by wC[5:0]. -/
def execSll (ctx a b c : Nat) (s : State) : Res :=
  .next (s.isa ctx (encR 0x00 a b c 5) (fun k s => s.alu ctx a 1 k (k.get b <<< ((k.get c).toNat % 64))))

/-- Shift right, logical. -/
def execSrl (ctx a b c : Nat) (s : State) : Res :=
  .next (s.isa ctx (encR 0x00 a b c 6) (fun k s => s.alu ctx a 1 k (k.get b >>> ((k.get c).toNat % 64))))

/-- Shift right, arithmetic. -/
def execSra (ctx a b c : Nat) (s : State) : Res :=
  .next (s.isa ctx (encR 0x00 a b c 7) (fun k s => s.alu ctx a 1 k ((k.get b).sshiftRight ((k.get c).toNat % 64))))

/-- 1 if wB is less than wC, signed. -/
def execSlt (ctx a b c : Nat) (s : State) : Res :=
  .next (s.isa ctx (encR 0x00 a b c 8) (fun k s => s.alu ctx a 1 k (w64 (b2n ((k.get b).slt (k.get c))))))

/-- 1 if wB is less than wC, unsigned. -/
def execSltu (ctx a b c : Nat) (s : State) : Res :=
  .next (s.isa ctx (encR 0x00 a b c 9) (fun k s => s.alu ctx a 1 k (w64 (b2n ((k.get b).ult (k.get c))))))

/-- The smaller, signed. -/
def execMin (ctx a b c : Nat) (s : State) : Res :=
  .next (s.isa ctx (encR 0x00 a b c 10) (fun k s => s.alu ctx a 1 k (if (k.get b).slt (k.get c) then k.get b else k.get c)))

/-- The larger, signed. -/
def execMax (ctx a b c : Nat) (s : State) : Res :=
  .next (s.isa ctx (encR 0x00 a b c 11) (fun k s => s.alu ctx a 1 k (if (k.get b).slt (k.get c) then k.get c else k.get b)))

/-- The smaller, unsigned. -/
def execMinu (ctx a b c : Nat) (s : State) : Res :=
  .next (s.isa ctx (encR 0x00 a b c 12) (fun k s => s.alu ctx a 1 k (if (k.get b).ult (k.get c) then k.get b else k.get c)))

/-- The larger, unsigned. -/
def execMaxu (ctx a b c : Nat) (s : State) : Res :=
  .next (s.isa ctx (encR 0x00 a b c 13) (fun k s => s.alu ctx a 1 k (if (k.get b).ult (k.get c) then k.get c else k.get b)))

/-- Low 64 bits of the product. -/
def execMul (ctx a b c : Nat) (s : State) : Res :=
  .next (s.isa ctx (encR 0x00 a b c 16) (fun k s => s.alu ctx a 3 k (k.get b * k.get c)))

/-- High 64 bits, signed. -/
def execMulh (ctx a b c : Nat) (s : State) : Res :=
  .next (s.isa ctx (encR 0x00 a b c 17) (fun k s => s.alu ctx a 3 k (BitVec.ofInt 64 ((k.get b).toInt * (k.get c).toInt / 2 ^ 64))))

/-- High 64 bits, unsigned. -/
def execMulhu (ctx a b c : Nat) (s : State) : Res :=
  .next (s.isa ctx (encR 0x00 a b c 18) (fun k s => s.alu ctx a 3 k (w64 ((k.get b).toNat * (k.get c).toNat / 2 ^ 64))))

/-- Signed quotient, rounded toward zero. -/
def execDiv (ctx a b c : Nat) (s : State) : Res :=
  .next (s.isa ctx (encR 0x00 a b c 20) (fun k s => s.alu ctx a 36 k (divS (k.get b) (k.get c))))

/-- Unsigned quotient. -/
def execDivu (ctx a b c : Nat) (s : State) : Res :=
  .next (s.isa ctx (encR 0x00 a b c 21) (fun k s => s.alu ctx a 36 k (divU (k.get b) (k.get c))))

/-- Remainder with the sign of the dividend. -/
def execRem (ctx a b c : Nat) (s : State) : Res :=
  .next (s.isa ctx (encR 0x00 a b c 22) (fun k s => s.alu ctx a 36 k (remS (k.get b) (k.get c))))

/-- Unsigned remainder. -/
def execRemu (ctx a b c : Nat) (s : State) : Res :=
  .next (s.isa ctx (encR 0x00 a b c 23) (fun k s => s.alu ctx a 36 k (remU (k.get b) (k.get c))))

/-- Leading zeros of wB. -/
def execClz (ctx a b : Nat) (s : State) : Res :=
  .next (s.isa ctx (encR 0x00 a b 0 24) (fun k s => s.alu ctx a 1 k (w64 (clz64 (k.get b)))))

/-! ### Immediates (R234) -/

/-- wA = wB + IMM. -/
def execAddi (ctx a b imm : Nat) (s : State) : Res :=
  .next (s.isa ctx (encI 0x01 a b imm) (fun k s => s.alu ctx a 1 k (k.get b + simm imm)))

/-- AND with IMM, zero-extended. -/
def execAndi (ctx a b imm : Nat) (s : State) : Res :=
  .next (s.isa ctx (encI 0x02 a b imm) (fun k s => s.alu ctx a 1 k (k.get b &&& w64 imm)))

/-- OR with IMM, zero-extended. -/
def execOri (ctx a b imm : Nat) (s : State) : Res :=
  .next (s.isa ctx (encI 0x03 a b imm) (fun k s => s.alu ctx a 1 k (k.get b ||| w64 imm)))

/-- XOR with IMM, zero-extended. -/
def execXori (ctx a b imm : Nat) (s : State) : Res :=
  .next (s.isa ctx (encI 0x04 a b imm) (fun k s => s.alu ctx a 1 k (k.get b ^^^ w64 imm)))

/-- 1 if wB is less than IMM, signed. -/
def execSlti (ctx a b imm : Nat) (s : State) : Res :=
  .next (s.isa ctx (encI 0x05 a b imm) (fun k s => s.alu ctx a 1 k (w64 (b2n ((k.get b).slt (simm imm))))))

/-- 1 if wB is less than IMM, unsigned. -/
def execSltiu (ctx a b imm : Nat) (s : State) : Res :=
  .next (s.isa ctx (encI 0x06 a b imm) (fun k s => s.alu ctx a 1 k (w64 (b2n ((k.get b).ult (simm imm))))))

/-- Shift by IMM[5:0]; IMM[15:14] selects SLL, SRL or SRA. -/
def execShi (ctx a b imm : Nat) (s : State) : Res :=
  .next (s.isa ctx (encI 0x07 a b imm) (fun k s =>
    let n := imm % 64
    match nbits imm 15 14 with
    | 0 => s.alu ctx a 1 k (k.get b <<< n)
    | 1 => s.alu ctx a 1 k (k.get b >>> n)
    | 2 => s.alu ctx a 1 k ((k.get b).sshiftRight n)
    | _ => s.taskFault ctx 1))

/-- Put IMM into quarter B[1:0] of wA, clearing wA first when B[2] is 1. -/
def execLiq (ctx a b imm : Nat) (s : State) : Res :=
  .next (s.isa ctx (encI 0x08 a b imm) (fun k s =>
    let n := 16 * (b % 4)
    let old := if nbit b 2 then 0 else (k.get a).toNat
    s.alu ctx a 1 k (w64 (old - nbits old (n + 15) n * 2 ^ n + imm % 65536 * 2 ^ n))))

/-! ### The data window (R231, R234) -/

/-- The offset wB + IMM, modulo 2^64. -/
def memOff (k : Ctx) (b imm : Nat) : Nat := (k.get b + simm imm).toNat

/-- Fault code of an access of `n` bytes to a window of `size` bytes: BOUNDS before MISALIGN (R238). -/
def memFault (off n size : Nat) : Option Nat := if off + n > size then some 3 else if off % n ≠ 0 then some 4 else none

/-- A load of `n` bytes from the data window; `f` extends it. -/
def State.load (s : State) (x a b imm n : Nat) (k : Ctx) (f : Nat → BitVec 64) : State :=
  let t := k.task.getD 0
  let off := memOff k b imm
  match memFault off n (s.dwinSize t) with
  | some c => s.taskFault x c
  | none => s.alu x a 2 k (f (ofLe (s.winRead t true off n)))

/-- A store of `n` bytes to the data window. -/
def State.store (s : State) (x a b imm n : Nat) (k : Ctx) : State :=
  let t := k.task.getD 0
  let off := memOff k b imm
  match memFault off n (s.dwinSize t) with
  | some c => s.taskFault x c
  | none => (s.winWrite t true off (leB n (k.get a).toNat)).setCtx x (k.next 1)

/-- Sign extension of `n` bytes. -/
def sx (n v : Nat) : BitVec 64 := (BitVec.ofNat (8 * n) v).signExtend 64

/-- Load 1 byte, sign-extended. -/
def execLb (ctx a b imm : Nat) (s : State) : Res :=
  .next (s.isa ctx (encI 0x09 a b imm) (fun k s => s.load ctx a b imm 1 k (sx 1)))

/-- Load 1 byte. -/
def execLbu (ctx a b imm : Nat) (s : State) : Res :=
  .next (s.isa ctx (encI 0x0A a b imm) (fun k s => s.load ctx a b imm 1 k w64))

/-- Load 2 bytes, sign-extended. -/
def execLh (ctx a b imm : Nat) (s : State) : Res :=
  .next (s.isa ctx (encI 0x0B a b imm) (fun k s => s.load ctx a b imm 2 k (sx 2)))

/-- Load 2 bytes. -/
def execLhu (ctx a b imm : Nat) (s : State) : Res :=
  .next (s.isa ctx (encI 0x0C a b imm) (fun k s => s.load ctx a b imm 2 k w64))

/-- Load 4 bytes, sign-extended. -/
def execLw (ctx a b imm : Nat) (s : State) : Res :=
  .next (s.isa ctx (encI 0x0D a b imm) (fun k s => s.load ctx a b imm 4 k (sx 4)))

/-- Load 4 bytes. -/
def execLwu (ctx a b imm : Nat) (s : State) : Res :=
  .next (s.isa ctx (encI 0x0E a b imm) (fun k s => s.load ctx a b imm 4 k w64))

/-- Load 8 bytes. -/
def execLd (ctx a b imm : Nat) (s : State) : Res :=
  .next (s.isa ctx (encI 0x0F a b imm) (fun k s => s.load ctx a b imm 8 k w64))

/-- Store 1 byte. -/
def execSb (ctx a b imm : Nat) (s : State) : Res :=
  .next (s.isa ctx (encI 0x10 a b imm) (fun k s => s.store ctx a b imm 1 k))

/-- Store 2 bytes. -/
def execSh (ctx a b imm : Nat) (s : State) : Res :=
  .next (s.isa ctx (encI 0x11 a b imm) (fun k s => s.store ctx a b imm 2 k))

/-- Store 4 bytes. -/
def execSw (ctx a b imm : Nat) (s : State) : Res :=
  .next (s.isa ctx (encI 0x12 a b imm) (fun k s => s.store ctx a b imm 4 k))

/-- Store 8 bytes. -/
def execSd (ctx a b imm : Nat) (s : State) : Res :=
  .next (s.isa ctx (encI 0x13 a b imm) (fun k s => s.store ctx a b imm 8 k))

/-! ### The DRAM window (R232, R236) -/

/-- DRAM as a context sees it: its own buffered stores over memory. -/
def State.seen (s : State) (k : Ctx) : State := k.stores.foldl (fun s e => s.mwrite e.1 (leB 8 e.2)) s

/-- Load 8 bytes of the DRAM window. `bad`: the read met an uncorrectable error. -/
def execXld (ctx a b imm : Nat) (bad : Bool) (s : State) : Res :=
  .next (s.isa ctx (encI 0x14 a b imm) (fun k s =>
    let t := k.task.getD 0
    let off := memOff k b imm
    match memFault off 8 (s.xwinSize t) with
    | some c => s.taskFault ctx c
    | none => if bad then s.taskFault ctx 10 else s.alu ctx a 90 k (w64 (ofLe ((s.seen k).winRead t false off 8)))))

/-- Store 8 bytes to the DRAM window through the store buffer; a full buffer first gives up its oldest entry. -/
def execXst (ctx a b imm : Nat) (s : State) : Res :=
  .next (s.isa ctx (encI 0x15 a b imm) (fun k s =>
    let t := k.task.getD 0
    let off := memOff k b imm
    match memFault off 8 (s.xwinSize t) with
    | some c => s.taskFault ctx c
    | none =>
      let full := decide (k.stores.length ≥ 8)
      let s := match k.stores with
        | e :: _ => if full then s.mwrite e.1 (leB 8 e.2) else s
        | [] => s
      let st := if full then k.stores.drop 1 else k.stores
      s.setCtx ctx ({ k with stores := st ++ [(s.xwinBase t + off, (k.get a).toNat)] }.next (if full then 1200 else 1))))

/-! ### Control flow (R233, R234) -/

/-- A branch: PC + IMM when taken. -/
def State.branch (s : State) (x imm : Nat) (k : Ctx) (taken : Bool) : State :=
  s.setCtx x (if taken then k.jump (w64 k.pc + simm imm).toNat 2 else k.next 1)

/-- Branch if equal. -/
def execBeq (ctx a b imm : Nat) (s : State) : Res :=
  .next (s.isa ctx (encI 0x18 a b imm) (fun k s => s.branch ctx imm k (k.get a == k.get b)))

/-- Branch if not equal. -/
def execBne (ctx a b imm : Nat) (s : State) : Res :=
  .next (s.isa ctx (encI 0x19 a b imm) (fun k s => s.branch ctx imm k (k.get a != k.get b)))

/-- Branch if signed less. -/
def execBlt (ctx a b imm : Nat) (s : State) : Res :=
  .next (s.isa ctx (encI 0x1A a b imm) (fun k s => s.branch ctx imm k ((k.get a).slt (k.get b))))

/-- Branch if signed greater or equal. -/
def execBge (ctx a b imm : Nat) (s : State) : Res :=
  .next (s.isa ctx (encI 0x1B a b imm) (fun k s => s.branch ctx imm k (!(k.get a).slt (k.get b))))

/-- Branch if unsigned less. -/
def execBltu (ctx a b imm : Nat) (s : State) : Res :=
  .next (s.isa ctx (encI 0x1C a b imm) (fun k s => s.branch ctx imm k ((k.get a).ult (k.get b))))

/-- Branch if unsigned greater or equal. -/
def execBgeu (ctx a b imm : Nat) (s : State) : Res :=
  .next (s.isa ctx (encI 0x1D a b imm) (fun k s => s.branch ctx imm k (!(k.get a).ult (k.get b))))

/-- wA = PC + 1; PC = PC + OFF. -/
def execJal (ctx a off : Nat) (s : State) : Res :=
  .next (s.isa ctx (encJ 0x1E a off) (fun k s =>
    s.setCtx ctx ((k.set a (w64 (k.pc + 1))).jump (w64 k.pc + (BitVec.ofNat 21 off).signExtend 64).toNat 2)))

/-- wA = PC + 1; PC = wB + IMM. -/
def execJalr (ctx a b imm : Nat) (s : State) : Res :=
  .next (s.isa ctx (encI 0x1F a b imm) (fun k s => s.setCtx ctx ((k.set a (w64 (k.pc + 1))).jump (k.get b + simm imm).toNat 2)))

/-! ### SYS, CSR, events (R222, R234, R237, R240) -/

/-- SYS F 0. -/
def execSysNop (ctx : Nat) (s : State) : Res := .next (s.isa ctx (encR 0x20 0 0 0 0) (fun k s => s.setCtx ctx (k.next 1)))

/-- END and YIELD (R222, R277): a fault while a transaction or a lock is held; else the store buffer drains, the image is saved for MULTI 1, the
context is released and a bound ring command completes with w1 as status, w2 and w3 as result. -/
def State.endHandler (s : State) (x : Nat) (k : Ctx) : State :=
  if (tget none s.ldg.txns x).isSome then s.taskFault x 8
  else if k.locks ≠ [] then s.taskFault x 7
  else
    let t := k.task.getD 0
    let s := (s.setCtx x (k.next 20)).drainStores x
    let s := if s.fget TSK_CFG.MULTI t = 1 ∧ k.prio0 = false then s.setTask t { s.task t with saved := k.w } else s
    let s := s.releaseCtx x
    match k.cmd with
    | some (r, slot) =>
      let st := (k.get 1).toNat % 256
      s.finishDesc r slot (if statusCodes.contains st then st else 0xFF) (leB 8 (k.get 2).toNat ++ leB 8 (k.get 3).toNat)
    | none => s

/-- SYS F 1. -/
def execEnd (ctx : Nat) (s : State) : Res := .next (s.isa ctx (encR 0x20 0 0 0 1) (fun k s => s.endHandler ctx k))

/-- SYS F 2. -/
def execYield (ctx : Nat) (s : State) : Res := .next (s.isa ctx (encR 0x20 0 0 0 2) (fun k s => s.endHandler ctx k))

/-- SYS F 3 (R236). -/
def execFence (ctx : Nat) (s : State) : Res :=
  .next (s.isa ctx (encR 0x20 0 0 0 3) (fun k s => (s.setCtx ctx (k.next (1 + 90 * k.stores.length))).drainStores ctx))

/-- The value of a CSR (R237). -/
def State.csr (s : State) (x : Nat) (k : Ctx) (n : Nat) : Nat :=
  let t := k.task.getD 0
  match n with
  | 0 => t
  | 1 => s.ctxTenant x
  | 2 => x
  | 3 => k.input + b2n k.prio0 * 256
  | 4 => k.cycles
  | 5 => k.gen
  | 6 => match k.tag with | some (i, g) => i + g * 2 ^ 16 + 2 ^ 31 | none => 0
  | 7 => match k.tag with | some (i, g) => if (s.tag i).gen = g then (s.tag i).plain.length % 65536 + b2n (s.tag i).raw * 65536 else 0 | none => 0
  | 8 => s.ctxPrio x
  | _ => match k.cmd with | some (r, _) => s.ringHost r + 8 | none => 0

/-- wA = CSR IMM. -/
def execCsrr (ctx a imm : Nat) (s : State) : Res := .next (s.isa ctx (encI 0x21 a 0 imm) (fun k s => s.alu ctx a 1 k (w64 (s.csr ctx k imm))))

/-- Pop an input (R216, R240, R277): header, payload bytes 0 to 7, bytes 8 to 11. The source of a counted event is not kept: its field is a free
value (log entry 19). A general handler that pops a ring command is bound to it. -/
def execEvpop (ctx a imm : Nat) (s : State) : Res :=
  .next (s.isa ctx (encI 0x22 a 0 imm) (fun k s =>
    if a + 2 > 31 then s.taskFault ctx 5
    else
      let t := k.task.getD 0
      let i := imm % 8
      let n := s.fget TSK_IN.COUNT (8 * t + i)
      let ret := fun (k : Ctx) (h lo hi : Nat) (s : State) => s.setCtx ctx ((((k.set a (w64 h)).set (a + 1) (w64 lo)).set (a + 2) (w64 hi)).next 3)
      if n = 0 ∨ (i = 5 ∧ k.cmd.isSome) then ret k 0 0 0 s
      else
        let s := s.fset TSK_IN.COUNT (8 * t + i) (n - 1)
        let r := s.task t
        match tget [] r.queues i with
        | e :: rest =>
          let s := s.setTask t { r with queues := tput [] r.queues i rest }
          let tn := (s.taskOwner t).getD 0
          let s := ({ s with poolUse := tput 0 s.poolUse tn (s.poolHeld tn - 1) } : State).fsub SCB_POOL.USED 0
          let k := if i = 5 ∧ e.src = 2051 then { k with cmd := some (leAt e.pay 0 2, leAt e.pay 2 2) } else k
          ret k (evHeader e.src i e.pay.length) (leAt e.pay 0 8) (leAt e.pay 8 4) s
        | [] =>
          let (src, s) := s.drawNat 4096
          ret k (evHeader src i 0) 0 0 s))

/-- wA = COUNT of an input. -/
def execEvcnt (ctx a imm : Nat) (s : State) : Res :=
  .next (s.isa ctx (encI 0x23 a 0 imm) (fun k s => s.alu ctx a 1 k (w64 (s.fget TSK_IN.COUNT (8 * k.task.getD 0 + imm % 8)))))

/-- Stall until an input of the mask has an event; wA = the lowest such input. -/
def execEvwait (ctx a imm : Nat) (s : State) : Res :=
  .next (s.isa ctx (encI 0x24 a 0 imm) (fun k s =>
    let t := k.task.getD 0
    match (List.range 8).find? (fun i => nbit imm i && s.fget TSK_IN.COUNT (8 * t + i) != 0) with
    | some i => (s.setCtx ctx (k.next 2)).wake ctx a i
    | none => s.setCtx ctx { k.next 2 with wait := .event imm a }))

/-- Signal a software source: OK, or PROTECTION. -/
def execSignal (ctx a b c : Nat) (s : State) : Res :=
  .next (s.isa ctx (encR 0x25 a b c 0) (fun k s =>
    if c + 1 > 31 then s.taskFault ctx 5
    else
      let src := (k.get b).toNat
      if src < 1280 ∨ src > 2047 ∨ ownerOf s.ten.active.event src ≠ some (s.ctxTenant ctx) then s.retStatus ctx a 4 0x23 id
      else (s.setCtx ctx ((k.set a 0#64).next 4)).signal src (leB 8 (k.get c).toNat ++ leB 4 (k.get (c + 1)).toNat)))

/-- Read a time base, all values of one tick. -/
def execTime (ctx a imm : Nat) (s : State) : Res :=
  .next (s.isa ctx (encI 0x26 a 0 imm) (fun k s =>
    let grid := fun (g : GridDom) (st : Nat) =>
      if a + 2 > 31 then s.taskFault ctx 5
      else s.setCtx ctx ((((k.set a (w64 g.now.1)).set (a + 1) (w64 g.now.2)).set (a + 2) (w64 st)).next 4)
    match imm with
    | 0 => s.alu ctx a 4 k (w64 s.time.mpt)
    | 1 => if s.fget MPT_GRID_SEL.DOMAIN = 0 then grid s.time.gt0 (s.fget GT0_STAT.STATE) else grid s.time.gt1 (s.fget GT1_STAT.STATE)
    | 2 => grid s.time.gt0 (s.fget GT0_STAT.STATE)
    | 3 => grid s.time.gt1 (s.fget GT1_STAT.STATE)
    | 4 => if a + 1 > 31 then s.taskFault ctx 5
           else s.setCtx ctx (((k.set a (w64 (s.fget MPT_OPSEC.SECONDS))).set (a + 1) (w64 (s.fget MPT_PCYC.COUNT))).next 4)
    | _ => s.taskFault ctx 1))

/-! ### Readings (R105, R234) -/

/-- A tag is at a stage that a task serves: parse or plausibility, under the route of its tenant. -/
def State.serves (s : State) (t : Nat) (r : Reading) : Bool :=
  r.st == 1 && ((r.stage == 6 && s.routeTask r.tenant 0 == some t) || (r.stage == 7 && r.plausAsked && s.routeTask r.tenant 2 == some t))

/-- Bind a tag. -/
def execTagset (ctx a b : Nat) (s : State) : Res :=
  .next (s.isa ctx (encR 0x27 a b 0 0) (fun k s =>
    if k.tag.isSome then s.taskFault ctx 9
    else
      let i := (k.get b).toNat % 2 ^ 16
      let g := (k.get b).toNat / 2 ^ 16 % 256
      let r := s.tag i
      if r.st ≠ 0 ∧ r.tenant ≠ s.ctxTenant ctx then s.retStatus ctx a 6 0x23 id
      else if r.gen ≠ g then (s.fsat PIP_LATE.COUNT 0).retStatus ctx a 6 0x21 id
      else if s.serves (k.task.getD 0) r = false then s.retStatus ctx a 6 0x21 id
      else s.setCtx ctx (({ k with tag := some (i, g) }.set a 0#64).next 6)))

/-- End the bound tag's stage (R105, R109). A tag that has moved on gives CANCELLED and is counted (R93). -/
def execStend (ctx a b : Nat) (s : State) : Res :=
  .next (s.isa ctx (encR 0x28 a b 0 0) (fun k s =>
    match k.tag with
    | none => s.taskFault ctx 9
    | some (i, g) =>
      let v := (k.get b).toNat
      let k' := { k with tag := none }
      if (s.tag i).gen ≠ g ∨ s.serves (k.task.getD 0) (s.tag i) = false then
        (s.fsat PIP_LATE.COUNT 0).setCtx ctx ((k'.set a 0x21#64).next 6)
      else (s.setCtx ctx ((k'.set a 0#64).next 6)).stageEnd i (v % 256) (v / 256 % 256) (ctx / 64)))

/-- wA = a dword of the reading record. A tag that has moved on has no record: the value is free (log entry 20). -/
def execRecld (ctx a imm : Nat) (s : State) : Res :=
  .next (s.isa ctx (encI 0x2A a 0 imm) (fun k s =>
    match k.tag with
    | none => s.taskFault ctx 9
    | some (i, g) =>
      if (s.tag i).gen = g ∧ (s.tag i).st = 1 then s.alu ctx a 2 k ((s.tag i).record.getD (imm % 8) 0#64)
      else let (v, s) := s.drawNat (2 ^ 64); s.alu ctx a 2 k (w64 v)))

/-- A dword of the reading record = wA. For a tag that has moved on the write is discarded and counted (R93). -/
def execRecst (ctx a imm : Nat) (s : State) : Res :=
  .next (s.isa ctx (encI 0x2B a 0 imm) (fun k s =>
    match k.tag with
    | none => s.taskFault ctx 9
    | some (i, g) =>
      let r := s.tag i
      let s := if r.gen = g ∧ r.st = 1 then s.setTag i { r with record := r.record.set (imm % 8) (k.get a) } else s.fsat PIP_LATE.COUNT 0
      s.setCtx ctx (k.next 2)))

/-! ### Ledger transactions (R134, R234) -/

/-- A context's open transaction. -/
def State.txn (s : State) (x : Nat) : Option Txn := tget none s.ldg.txns x

/-- Store a context's open transaction. -/
def State.setTxn (s : State) (x : Nat) (t : Option Txn) : State := { s with ldg := { s.ldg with txns := tput none s.ldg.txns x t } }

/-- Open a transaction of kind F on ledger wB. The ledger's line comes to the context's slice before its lock is taken (R150, R151); while the line
is not free for it, the context waits at the instruction. -/
def execLbegin (ctx a b f : Nat) (s : State) : Res :=
  .next (s.isa ctx (encR 0x30 a b 0 f) (fun k s =>
    if (s.txn ctx).isSome then s.taskFault ctx 8
    else
      let l := (k.get b).toNat
      let tn := s.ctxTenant ctx
      if f ∉ [2, 3, 4, 5, 8, 9] ∨ s.ownsLedger tn l = false ∨ s.ledExists l = false then ((s.protCount tn).setCtx ctx (k.next 20)).wake ctx a 0x23
      else if s.quarantined l tn then (s.setCtx ctx (k.next 20)).wake ctx a 0x42
      else
        let q := s.llock l
        if q.owner.isSome ∨ q.waiters ≠ [] then
          (s.setCtx ctx { k.next 20 with wait := .ledger l f a }).lockWait l (LOwner.ctx ctx) (s.ctxPrio ctx)
        else if s.lineFree l (ctx / 64) = false then s.waitLine l (ctx / 64)
        else
          let s := s.lineUse l (ctx / 64) 0 0
          let s := s.setLlock l { q with owner := some (LOwner.ctx ctx), broken := false }
          let s := (s.setTxn ctx (some { ledger := l, kind := f })).setCtx ctx (k.next 20)
          s.wake ctx a (if q.broken then 0x30 else 0)))

/-- Read a ledger dword, with the transaction's own writes. A dword above 127 has no stated value: it is free (log entry 20). -/
def execLrd (ctx a b : Nat) (s : State) : Res :=
  .next (s.isa ctx (encR 0x31 a b 0 0) (fun k s =>
    match s.txn ctx with
    | none => s.taskFault ctx 8
    | some t =>
      let d := (k.get b).toNat
      let sector := 2 ^ (d / 8)
      let hit := nbit ((s.line t.ledger).getD {}).valid (d / 8)
      if d < 128 then (if t.timedOut then s else s.lineUse t.ledger (ctx / 64) sector 0).alu ctx a (if hit then 20 else 110) k (w64 (tget 0 (applyWrites (s.led t.ledger) t.writes) d))
      else let (v, s) := s.drawNat (2 ^ 64); s.alu ctx a 20 k (w64 v)))

/-- Write wC into ledger dword wB under bit mask wA. -/
def execLwr (ctx a b c : Nat) (s : State) : Res :=
  .next (s.isa ctx (encR 0x32 a b c 0) (fun k s =>
    match s.txn ctx with
    | none => s.taskFault ctx 8
    | some t => (s.setTxn ctx (some (if t.timedOut then t else { t with writes := t.writes ++ [((k.get b).toNat, (k.get a).toNat, (k.get c).toNat)] }))).setCtx ctx (k.next 4)))

/-- Set a transaction argument. -/
def execLarg (ctx b c : Nat) (s : State) : Res :=
  .next (s.isa ctx (encR 0x33 0 b c 0) (fun k s =>
    match s.txn ctx with
    | none => s.taskFault ctx 8
    | some t => (s.setTxn ctx (some { t with args := tput 0 t.args (k.get b).toNat (k.get c).toNat })).setCtx ctx (k.next 2)))

/-- Commit: status and COMMIT_SEQ (R135 for a transaction that timed out). While the journal has no room for the record, the context waits at the
instruction (R142). -/
def execLcommit (ctx a : Nat) (s : State) : Res :=
  .next (s.isa ctx (encR 0x34 a 0 0 0) (fun _ s =>
    match s.txn ctx with
    | none => s.taskFault ctx 8
    | some t =>
      if a + 1 > 31 then s.taskFault ctx 5
      else
        if t.timedOut then (s.setTxn ctx none).retStatus ctx a 300 0x20 (fun k => k.set (a + 1) 0#64)
        else
          match s.txnApply (s.ctxTenant ctx) t with
          | none => s
          | some (st, seq, u) =>
            let m := sectorsOf (s.led t.ledger) (u.led t.ledger)
            (((if m = 0 then u else u.lineUse t.ledger (ctx / 64) m m).setTxn ctx none).lockFree t.ledger).retStatus ctx a 300 st (fun k => k.set (a + 1) (w64 seq))))

/-- Discard the open record and release the lock. -/
def execLabort (ctx : Nat) (s : State) : Res :=
  .next (s.isa ctx (encR 0x35 0 0 0 0) (fun k s =>
    match s.txn ctx with
    | none => s.taskFault ctx 8
    | some t =>
      let s := (s.setTxn ctx none).setCtx ctx (k.next 10)
      if t.timedOut then s else s.lockFree t.ledger))

/-- Answer of a calendar command: status in wA, reason in wA+1. -/
def State.lcalRet (_ : State) (x a cyc : Nat) (r : Nat × Nat × State) : State := r.2.2.retStatus x a cyc r.1 (fun k => k.set (a + 1) (w64 r.2.1))

/-- Write quarter `q` of the passive copy of calendar wB from the data window at wC; it waits for journal room as LCOMMIT does. -/
def execLcalWrite (ctx a b c q : Nat) (s : State) : Res :=
  .next (s.isa ctx (encR 0x36 a b c (4 * q)) (fun k s =>
    let t := k.task.getD 0
    let off := (k.get c).toNat
    if a + 1 > 31 then s.taskFault ctx 5
    else if off + 1024 > s.dwinSize t then s.taskFault ctx 3
    else if off % 64 ≠ 0 then s.taskFault ctx 4
    else
      match s.calWrite (s.ctxTenant ctx) (k.get b).toNat q (s.winRead t true off 1024) with
      | none => s
      | some r => s.lcalRet ctx a 1100 r))

/-- LCAL F 1 on calendar wB. -/
def execLcalArm (ctx a b : Nat) (s : State) : Res :=
  .next (s.isa ctx (encR 0x36 a b 0 1) (fun k s =>
    if a + 1 > 31 then s.taskFault ctx 5 else s.lcalRet ctx a 40 (s.calArm (s.ctxTenant ctx) (k.get b).toNat)))

/-- LCAL F 2 on calendar wB. -/
def execLcalCancel (ctx a b : Nat) (s : State) : Res :=
  .next (s.isa ctx (encR 0x36 a b 0 2) (fun k s =>
    if a + 1 > 31 then s.taskFault ctx 5 else s.lcalRet ctx a 40 (s.calCancel (s.ctxTenant ctx) (k.get b).toNat)))

/-- LCAL F 3 on calendar wB. -/
def execLcalActivateNow (ctx a b : Nat) (s : State) : Res :=
  .next (s.isa ctx (encR 0x36 a b 0 3) (fun k s =>
    if a + 1 > 31 then s.taskFault ctx 5 else s.lcalRet ctx a 40 (s.calNow (s.ctxTenant ctx) (k.get b).toNat)))

/-! ### Queues, tables, locks, work items (R234) -/

/-- Push wC, wC+1 to queue wB. -/
def execQpush (ctx a b c : Nat) (s : State) : Res :=
  .next (s.isa ctx (encR 0x38 a b c 0) (fun k s =>
    if c + 1 > 31 then s.taskFault ctx 5
    else
      let (st, s) := s.qPush (s.ctxTenant ctx) (k.get b).toNat (k.get c).toNat (k.get (c + 1)).toNat
      s.retStatus ctx a 8 st id))

/-- Pop from queue wB into wA+1, wA+2. -/
def execQpop (ctx a b : Nat) (s : State) : Res :=
  .next (s.isa ctx (encR 0x39 a b 0 0) (fun k s =>
    if a + 2 > 31 then s.taskFault ctx 5
    else
      let (st, e, s) := s.qPop (s.ctxTenant ctx) (k.get b).toNat
      s.retStatus ctx a 8 st (fun k => if st = 0 then (k.set (a + 1) (w64 e.1)).set (a + 2) (w64 e.2) else k)))

/-- A TBL operation (R247). `bad`: ways of the key's set whose parity fails on this read. -/
def State.tbl (s : State) (x op a b c cyc : Nat) (bad : List Nat) (k : Ctx) : State :=
  let t := (k.get b).toNat
  let wide := t < 32 && s.fbit T_CFG.KEY16 t
  if a + 2 > 31 ∨ (wide ∧ c + 1 > 31) then s.taskFault x 5
  else
    let key := (k.get c).toNat + (if wide then (k.get (c + 1)).toNat * 2 ^ 64 else 0)
    let (st, v, fl, s) := s.tblOp op (s.ctxTenant x) t key (k.get (a + 1)).toNat bad
    s.retStatus x a cyc st (fun k =>
      let k := match v with | some v => k.set (a + 1) (w64 v) | none => k
      k.set (a + 2) (w64 fl))

/-- TBL F 0: look up a key. -/
def execLookup (ctx a b c : Nat) (bad : List Nat) (s : State) : Res :=
  .next (s.isa ctx (encR 0x3A a b c 0) (fun k s => s.tbl ctx 0 a b c 12 bad k))

/-- TBL F 1: learn a dynamic entry. -/
def execLearn (ctx a b c : Nat) (bad : List Nat) (s : State) : Res :=
  .next (s.isa ctx (encR 0x3A a b c 1) (fun k s => s.tbl ctx 1 a b c 16 bad k))

/-- TBL F 2: insert a dynamic entry. -/
def execInsert (ctx a b c : Nat) (bad : List Nat) (s : State) : Res :=
  .next (s.isa ctx (encR 0x3A a b c 2) (fun k s => s.tbl ctx 2 a b c 16 bad k))

/-- TBL F 3: insert or make a static entry. -/
def execInsertStatic (ctx a b c : Nat) (bad : List Nat) (s : State) : Res :=
  .next (s.isa ctx (encR 0x3A a b c 3) (fun k s => s.tbl ctx 3 a b c 16 bad k))

/-- TBL F 4: remove an entry. -/
def execDelete (ctx a b c : Nat) (bad : List Nat) (s : State) : Res :=
  .next (s.isa ctx (encR 0x3A a b c 4) (fun k s => s.tbl ctx 4 a b c 12 bad k))

/-- Acquire lock wB; F[0] TRY, wC the time limit. -/
def execLkacq (ctx a b c try_ : Nat) (s : State) : Res :=
  .next (s.isa ctx (encR 0x3B a b c try_) (fun k s =>
    if k.locks.length ≥ 4 then s.taskFault ctx 7
    else
      let n := (k.get b).toNat
      match s.lockAcquire ctx n (nbit try_ 0) with
      | (some st, s) => s.retStatus ctx a 10 st id
      | (none, s) => s.setCtx ctx { (s.ctx ctx).next 10 with wait := .lock n a (k.get c).toNat }))

/-- Release lock wB, after the store buffer. -/
def execLkrel (ctx a b : Nat) (s : State) : Res :=
  .next (s.isa ctx (encR 0x3C a b 0 0) (fun k s =>
    let s := s.drainStores ctx
    let (st, s) := s.lockRelease ctx (k.get b).toNat
    s.retStatus ctx a 6 st id))

/-- Issue the work item at data-window offset wC to engine wB, after the store buffer; F[0] URGENT. -/
def execIssue (ctx a b c urgent : Nat) (s : State) : Res :=
  .next (s.isa ctx (encR 0x3D a b c urgent) (fun k s =>
    let t := k.task.getD 0
    let off := (k.get c).toNat
    if a + 1 > 31 then s.taskFault ctx 5
    else if off + 64 > s.dwinSize t then s.taskFault ctx 3
    else if off % 64 ≠ 0 then s.taskFault ctx 4
    else
      let s := s.drainStores ctx
      let (st, ticket, s) := s.issue ctx (k.get b).toNat (nbit urgent 0) (s.winRead t true off 64)
      s.retStatus ctx a 30 st (fun k => if st = 0 then k.set (a + 1) (w64 ticket) else k)))

end Sys2Proof.Machine
end

