-- ==== Sys2Proof/Decode.lean ====
section
/-! DEFINITION. The command a word spells. The opcode table gives no row any bits, so no word spells a command of the block. The words of the
scribes' own instructions (R233 to R235) are decoded and encoded here. -/
namespace Sys2Proof
open Sys2Proof.Machine

/-- No row of the table has bits. -/
def decodeTableWord (_nbits _w : Nat) : Option Instr := none

/-- The command of a word of OP 0x00, by F (R235). -/
def scribeAlu (x a b c : Nat) : Nat → Option Instr
  | 0 => some (.add x a b c)
  | 1 => some (.sub x a b c)
  | 2 => some (.and x a b c)
  | 3 => some (.or x a b c)
  | 4 => some (.xor x a b c)
  | 5 => some (.sll x a b c)
  | 6 => some (.srl x a b c)
  | 7 => some (.sra x a b c)
  | 8 => some (.slt x a b c)
  | 9 => some (.sltu x a b c)
  | 10 => some (.min x a b c)
  | 11 => some (.max x a b c)
  | 12 => some (.minu x a b c)
  | 13 => some (.maxu x a b c)
  | 16 => some (.mul x a b c)
  | 17 => some (.mulh x a b c)
  | 18 => some (.mulhu x a b c)
  | 20 => some (.div x a b c)
  | 21 => some (.divu x a b c)
  | 22 => some (.rem x a b c)
  | 23 => some (.remu x a b c)
  | 24 => some (.clz x a b)
  | _ => none

/-- The command of a word of OP 0x29, by F (R106, R568). -/
def scribeFx (x a b c f : Nat) : Option Instr :=
  match f % 8 with
  | 0 => some (.hdr x a b)
  | 1 => some (.int x a b)
  | 2 => some (.skip x a b)
  | 3 => some (.obis x a b)
  | 4 => some (.dt x a b)
  | 5 => some (.bytes x a b (f / 8))
  | 6 => some (.find x a b c (f / 8))
  | _ => some (.scale x a b c)

/-- The command that context `x` issues when its bank holds the word `w`; none for a word that is not listed (R233, R234). Operands the
environment supplies are those of a read without an error. -/
def scribeOf (x w : Nat) : Option Instr :=
  let a := nbits w 25 21
  let b := nbits w 20 16
  let c := nbits w 15 11
  let f := nbits w 10 0
  let imm := nbits w 15 0
  if legalWord w = false then none
  else match nbits w 31 26 with
  | 0x00 => scribeAlu x a b c f
  | 0x01 => some (.addi x a b imm)
  | 0x02 => some (.andi x a b imm)
  | 0x03 => some (.ori x a b imm)
  | 0x04 => some (.xori x a b imm)
  | 0x05 => some (.slti x a b imm)
  | 0x06 => some (.sltiu x a b imm)
  | 0x07 => some (.shi x a b imm)
  | 0x08 => some (.liq x a b imm)
  | 0x09 => some (.lb x a b imm)
  | 0x0A => some (.lbu x a b imm)
  | 0x0B => some (.lh x a b imm)
  | 0x0C => some (.lhu x a b imm)
  | 0x0D => some (.lw x a b imm)
  | 0x0E => some (.lwu x a b imm)
  | 0x0F => some (.ld x a b imm)
  | 0x10 => some (.sb x a b imm)
  | 0x11 => some (.sh x a b imm)
  | 0x12 => some (.sw x a b imm)
  | 0x13 => some (.sd x a b imm)
  | 0x14 => some (.xld x a b imm false)
  | 0x15 => some (.xst x a b imm)
  | 0x18 => some (.beq x a b imm)
  | 0x19 => some (.bne x a b imm)
  | 0x1A => some (.blt x a b imm)
  | 0x1B => some (.bge x a b imm)
  | 0x1C => some (.bltu x a b imm)
  | 0x1D => some (.bgeu x a b imm)
  | 0x1F => some (.jalr x a b imm)
  | 0x1E => some (.jal x a (nbits w 20 0))
  | 0x20 => (match f with | 0 => some (.sysNop x) | 1 => some (.endCmd x) | 2 => some (.yield x) | _ => some (.fence x))
  | 0x21 => some (.csrr x a imm)
  | 0x22 => some (.evpop x a imm)
  | 0x23 => some (.evcnt x a imm)
  | 0x24 => some (.evwait x a imm)
  | 0x25 => some (.signal x a b c)
  | 0x26 => some (.time x a imm)
  | 0x27 => some (.tagset x a b)
  | 0x28 => some (.stend x a b)
  | 0x29 => scribeFx x a b c f
  | 0x2A => some (.recld x a imm)
  | 0x2B => some (.recst x a imm)
  | 0x30 => some (.lbegin x a b f)
  | 0x31 => some (.lrd x a b)
  | 0x32 => some (.lwr x a b c)
  | 0x33 => some (.larg x b c)
  | 0x34 => some (.lcommit x a)
  | 0x35 => some (.labort x)
  | 0x36 => (match f % 4 with | 0 => some (.lcalWrite x a b c (f / 4)) | 1 => some (.lcalArm x a b) | 2 => some (.lcalCancel x a b) | _ => some (.lcalActivateNow x a b))
  | 0x38 => some (.qpush x a b c)
  | 0x39 => some (.qpop x a b)
  | 0x3A => (match f with | 0 => some (.lookup x a b c []) | 1 => some (.learn x a b c []) | 2 => some (.insert x a b c []) | 3 => some (.insertStatic x a b c []) | _ => some (.delete x a b c []))
  | 0x3B => some (.lkacq x a b c f)
  | 0x3C => some (.lkrel x a b)
  | 0x3D => some (.issue x a b c f)
  | _ => none

/-- The word of a scribe instruction (R234, R235); none for a command that is not one. -/
def scribeWord : Instr → Option Nat
  | .add _ a b c => some (encR 0x00 a b c 0)
  | .sub _ a b c => some (encR 0x00 a b c 1)
  | .and _ a b c => some (encR 0x00 a b c 2)
  | .or _ a b c => some (encR 0x00 a b c 3)
  | .xor _ a b c => some (encR 0x00 a b c 4)
  | .sll _ a b c => some (encR 0x00 a b c 5)
  | .srl _ a b c => some (encR 0x00 a b c 6)
  | .sra _ a b c => some (encR 0x00 a b c 7)
  | .slt _ a b c => some (encR 0x00 a b c 8)
  | .sltu _ a b c => some (encR 0x00 a b c 9)
  | .min _ a b c => some (encR 0x00 a b c 10)
  | .max _ a b c => some (encR 0x00 a b c 11)
  | .minu _ a b c => some (encR 0x00 a b c 12)
  | .maxu _ a b c => some (encR 0x00 a b c 13)
  | .mul _ a b c => some (encR 0x00 a b c 16)
  | .mulh _ a b c => some (encR 0x00 a b c 17)
  | .mulhu _ a b c => some (encR 0x00 a b c 18)
  | .div _ a b c => some (encR 0x00 a b c 20)
  | .divu _ a b c => some (encR 0x00 a b c 21)
  | .rem _ a b c => some (encR 0x00 a b c 22)
  | .remu _ a b c => some (encR 0x00 a b c 23)
  | .clz _ a b => some (encR 0x00 a b 0 24)
  | .addi _ a b imm => some (encI 0x01 a b imm)
  | .andi _ a b imm => some (encI 0x02 a b imm)
  | .ori _ a b imm => some (encI 0x03 a b imm)
  | .xori _ a b imm => some (encI 0x04 a b imm)
  | .slti _ a b imm => some (encI 0x05 a b imm)
  | .sltiu _ a b imm => some (encI 0x06 a b imm)
  | .shi _ a b imm => some (encI 0x07 a b imm)
  | .liq _ a b imm => some (encI 0x08 a b imm)
  | .lb _ a b imm => some (encI 0x09 a b imm)
  | .lbu _ a b imm => some (encI 0x0A a b imm)
  | .lh _ a b imm => some (encI 0x0B a b imm)
  | .lhu _ a b imm => some (encI 0x0C a b imm)
  | .lw _ a b imm => some (encI 0x0D a b imm)
  | .lwu _ a b imm => some (encI 0x0E a b imm)
  | .ld _ a b imm => some (encI 0x0F a b imm)
  | .sb _ a b imm => some (encI 0x10 a b imm)
  | .sh _ a b imm => some (encI 0x11 a b imm)
  | .sw _ a b imm => some (encI 0x12 a b imm)
  | .sd _ a b imm => some (encI 0x13 a b imm)
  | .xld _ a b imm _ => some (encI 0x14 a b imm)
  | .xst _ a b imm => some (encI 0x15 a b imm)
  | .beq _ a b imm => some (encI 0x18 a b imm)
  | .bne _ a b imm => some (encI 0x19 a b imm)
  | .blt _ a b imm => some (encI 0x1A a b imm)
  | .bge _ a b imm => some (encI 0x1B a b imm)
  | .bltu _ a b imm => some (encI 0x1C a b imm)
  | .bgeu _ a b imm => some (encI 0x1D a b imm)
  | .jal _ a off => some (encJ 0x1E a off)
  | .jalr _ a b imm => some (encI 0x1F a b imm)
  | .sysNop _ => some (encR 0x20 0 0 0 0)
  | .endCmd _ => some (encR 0x20 0 0 0 1)
  | .yield _ => some (encR 0x20 0 0 0 2)
  | .fence _ => some (encR 0x20 0 0 0 3)
  | .csrr _ a imm => some (encI 0x21 a 0 imm)
  | .evpop _ a imm => some (encI 0x22 a 0 imm)
  | .evcnt _ a imm => some (encI 0x23 a 0 imm)
  | .evwait _ a imm => some (encI 0x24 a 0 imm)
  | .signal _ a b c => some (encR 0x25 a b c 0)
  | .time _ a imm => some (encI 0x26 a 0 imm)
  | .tagset _ a b => some (encR 0x27 a b 0 0)
  | .stend _ a b => some (encR 0x28 a b 0 0)
  | .hdr _ a b => some (encR 0x29 a b 0 0)
  | .int _ a b => some (encR 0x29 a b 0 1)
  | .skip _ a b => some (encR 0x29 a b 0 2)
  | .obis _ a b => some (encR 0x29 a b 0 3)
  | .dt _ a b => some (encR 0x29 a b 0 4)
  | .bytes _ a b n => some (encR 0x29 a b 0 (n * 8 + 5))
  | .find _ a b c n => some (encR 0x29 a b c (n * 8 + 6))
  | .scale _ a b c => some (encR 0x29 a b c 7)
  | .recld _ a imm => some (encI 0x2A a 0 imm)
  | .recst _ a imm => some (encI 0x2B a 0 imm)
  | .lbegin _ a b f => some (encR 0x30 a b 0 f)
  | .lrd _ a b => some (encR 0x31 a b 0 0)
  | .lwr _ a b c => some (encR 0x32 a b c 0)
  | .larg _ b c => some (encR 0x33 0 b c 0)
  | .lcommit _ a => some (encR 0x34 a 0 0 0)
  | .labort _ => some (encR 0x35 0 0 0 0)
  | .lcalWrite _ a b c q => some (encR 0x36 a b c (4 * q))
  | .lcalArm _ a b => some (encR 0x36 a b 0 1)
  | .lcalCancel _ a b => some (encR 0x36 a b 0 2)
  | .lcalActivateNow _ a b => some (encR 0x36 a b 0 3)
  | .qpush _ a b c => some (encR 0x38 a b c 0)
  | .qpop _ a b => some (encR 0x39 a b 0 0)
  | .lookup _ a b c _ => some (encR 0x3A a b c 0)
  | .learn _ a b c _ => some (encR 0x3A a b c 1)
  | .insert _ a b c _ => some (encR 0x3A a b c 2)
  | .insertStatic _ a b c _ => some (encR 0x3A a b c 3)
  | .delete _ a b c _ => some (encR 0x3A a b c 4)
  | .lkacq _ a b c try_ => some (encR 0x3B a b c try_)
  | .lkrel _ a b => some (encR 0x3C a b 0 0)
  | .issue _ a b c urgent => some (encR 0x3D a b c urgent)
  | .registerWrite _ _ _ => none
  | .selectorWrite _ _ _ => none
  | .windowReadRefused _ _ => none
  | .chipLock _ _ => none
  | .switch _ => none
  | .epochBankExchange => none
  | .epochCopyDone _ => none
  | .tenPendingWrite _ _ _ _ => none
  | .resourceRelease _ => none
  | .resourceScrubDone _ => none
  | .tenEnable _ _ => none
  | .drainEnd _ => none
  | .drainOverrun _ => none
  | .doorbellSqTail _ _ _ => none
  | .doorbellHead _ _ _ => none
  | .descriptorFetchIssue _ => none
  | .descriptorFetched _ _ _ => none
  | .descriptorFetchFail _ _ => none
  | .taskCmdDeliver _ _ => none
  | .apduReadDone _ _ _ => none
  | .apduReadTimeout _ _ => none
  | .classify _ _ _ => none
  | .ingestQueueOffer _ _ => none
  | .keyUnwrapDone _ => none
  | .keyUnwrapRetry _ => none
  | .decryptDone _ => none
  | .ledgerSectorRetry _ _ => none
  | .ledgerCommit _ => none
  | .balanceContribution _ => none
  | .journalAck _ _ _ => none
  | .tagTimeout _ => none
  | .tagEndingDone _ => none
  | .lateResponse _ _ => none
  | .hashRepairDone => none
  | .completionRebuild _ _ _ _ _ => none
  | .clear _ _ => none
  | .routeEntryWrite _ _ _ => none
  | .txnTimeout _ => none
  | .nandPartialFlush _ => none
  | .sinkDown _ _ => none
  | .resyncNand _ => none
  | .resyncPtnr _ => none
  | .resyncHost _ => none
  | .rebuildDone _ => none
  | .take _ => none
  | .ckptPeriodExpiry _ => none
  | .ckptCopyDone _ => none
  | .tenantRebuild _ _ => none
  | .rebuild _ _ _ => none
  | .quarClear _ _ => none
  | .requar _ _ => none
  | .arm _ _ => none
  | .cancel _ _ => none
  | .activateNow _ _ => none
  | .calActivationCheck => none
  | .watchSweep => none
  | .writebackLanded _ => none
  | .lineMove _ _ => none
  | .zeroCrossing _ _ _ => none
  | .crossingMissing => none
  | .holdoverExpiry => none
  | .phaseCrossingBc _ _ _ => none
  | .mptLoadLo _ _ => none
  | .cycleCountLoad => none
  | .nominal60Change _ _ => none
  | .mptNowRead _ => none
  | .gtNsRead _ _ => none
  | .snapTake _ _ => none
  | .invalidate _ _ => none
  | .step _ _ => none
  | .confirm _ _ => none
  | .confirmWinExpiry _ => none
  | .holdLimitExpiry _ => none
  | .gtTrimWrite _ _ _ => none
  | .gridSelWrite _ _ => none
  | .compareArm _ _ => none
  | .compareFire _ _ => none
  | .metrologyCycleEnd _ _ _ _ _ _ => none
  | .windowEvaluate _ => none
  | .phaseReport _ _ _ => none
  | .feederDetectorSet _ => none
  | .feederDetectorClear _ => none
  | .membValWrite _ _ => none
  | .markTableWrite _ _ _ => none
  | .metrologyEnable _ _ => none
  | .balNodeEnable _ _ => none
  | .taskEnable _ _ => none
  | .taskDispatch _ => none
  | .priority0Dispatch => none
  | .watchdog _ => none
  | .storeBufferDrain _ => none
  | .evwaitWake _ => none
  | .ledgerLockGrant _ => none
  | .queuePublish _ => none
  | .sweepVisit _ _ _ _ => none
  | .lockWaitTimeout _ => none
  | .lockOwnerReset _ => none
  | .engineCompletion _ => none
  | .openCmd _ => none
  | .seal _ => none
  | .release _ => none
  | .instructionStoreWrite _ _ _ => none
  | .pageOwnerWrite _ _ _ _ => none
  | .tskCmdClr _ _ => none
  | .queueEnable _ _ => none
  | .flush _ _ => none
  | .clrHigh _ _ => none
  | .tableEnable _ _ => none
  | .sweepNow _ _ => none
  | .tClr _ _ => none
  | .scrubBad _ _ => none
  | .lockGroupEnable _ _ => none
  | .ringEnable _ _ => none
  | .rngRClr _ _ => none
  | .hostUp _ => none
  | .hostDown _ => none
  | .shpIdleTimeout => none
  | .supvAltTakeover => none
  | .write _ _ => none
  | .read _ _ => none
  | .status => none
  | .ident => none
  | .irqCoalesceTimeout _ => none
  | .eventSignal _ _ => none
  | .evtRouteWrite _ _ _ => none
  | .evtSClr _ _ => none
  | .hello _ _ => none
  | .data _ _ => none
  | .ack _ _ => none
  | .nak _ _ => none
  | .close _ _ => none
  | .mrtRtoExpiry _ => none
  | .mrtKeepalive _ => none
  | .mrtSessionTimeout _ => none
  | .laneEnable _ _ => none
  | .combiningGroupWrite _ _ => none
  | .preambleDetect _ _ _ => none
  | .syncmFound _ _ => none
  | .fchDecode _ _ _ _ => none
  | .payloadEnd _ _ _ _ _ => none
  | .muteEnd _ => none
  | .pairWaitExpiry _ _ => none
  | .plcFrameReceived _ _ => none
  | .toneMapResponseSend _ _ => none
  | .tmAgeExpiry _ => none
  | .plcTxStart _ _ _ _ _ => none
  | .plcTxEnd _ _ => none
  | .plcAckTimeout _ => none
  | .levelTrip _ => none
  | .plcEnergyWaitExpiry _ => none
  | .burst2Send _ _ _ => none
  | .beaconStart _ _ _ => none
  | .beaconAnswer _ => none
  | .send _ => none
  | .reinject _ => none
  | .nodeRd _ => none
  | .nodeWr _ => none
  | .beaconSet _ => none
  | .plcNodeRead _ => none
  | .plcNodeWrite _ => none
  | .plcNodeClear _ => none
  | .nodeIndexRepairDone => none
  | .plcLClr _ _ => none
  | .clrTrim _ _ => none
  | .radioEnable _ _ => none
  | .rfPreambleDetect _ _ => none
  | .syncWord _ _ => none
  | .rfFrameReceived _ _ _ _ => none
  | .connectIndSend _ _ _ => none
  | .connectingTimeout _ => none
  | .windowOpen _ _ => none
  | .windowClose _ _ => none
  | .csmFrameExchange _ _ _ _ _ _ _ _ => none
  | .connectionEventEnd _ _ _ => none
  | .updateInstant _ => none
  | .wmbHoldExpiry _ _ => none
  | .rfTxStart _ _ _ _ => none
  | .rfAckTimeout _ => none
  | .rfBudgetWaitExpiry _ => none
  | .rfSend _ => none
  | .rfReinject _ => none
  | .connect _ => none
  | .connUpdate _ => none
  | .terminate _ => none
  | .connRd _ => none
  | .rfmRClr _ _ => none
  | .reread _ _ => none
  | .program _ _ _ => none
  | .fusePeriodicReread _ => none
  | .lock _ _ _ => none
  | .kvZeroize _ _ => none
  | .zeroizeFuseDone _ => none
  | .sealRecordDone _ _ => none
  | .pinRelease _ _ => none
  | .keyRemask _ => none
  | .erase _ => none
  | .gcmEncrypt _ => none
  | .gcmDecrypt _ => none
  | .ctr _ => none
  | .ccmEncrypt _ => none
  | .ccmDecrypt _ => none
  | .cmacGenerate _ => none
  | .cmacVerify _ => none
  | .ecdsaVerify _ => none
  | .ecdsaSign _ => none
  | .ecdh _ => none
  | .keygen _ => none
  | .publicKey _ => none
  | .sha256 _ => none
  | .sha384 _ => none
  | .sha512 _ => none
  | .hmacGenerate _ => none
  | .hmacVerify _ => none
  | .randomBytes _ => none
  | .keyUpdate _ => none
  | .vaultErase _ => none
  | .generate _ => none
  | .derive _ => none
  | .rewrap _ => none
  | .info _ => none
  | .identSign _ => none
  | .trngTestFail _ => none
  | .trngRestartTest _ => none
  | .drbgReseed => none
  | .stageOpen _ _ => none
  | .writeBlock _ _ => none
  | .verify _ _ => none
  | .stageCommandDone _ _ => none
  | .stageArm _ _ => none
  | .disarm _ _ => none
  | .stageActivateNow _ _ => none
  | .stageConfirm _ _ => none
  | .revert _ _ => none
  | .raiseFloor _ _ _ => none
  | .imageActivate => none
  | .activationFailure => none
  | .actTmoExpiry => none
  | .trialConfirmExpiry => none
  | .campOpen _ => none
  | .campWrite _ => none
  | .campSeal _ => none
  | .campSend _ => none
  | .merge _ => none
  | .prepAct _ => none
  | .campRead _ => none
  | .campClose _ => none
  | .campaignTargetReached _ => none
  | .qspiRead _ _ => none
  | .qspiProgram _ _ => none
  | .qspiErase _ _ => none
  | .boothdr _ _ => none
  | .vaultStoreCompact => none
  | .format _ _ _ _ => none
  | .ftlRead _ => none
  | .ftlWrite _ => none
  | .append _ => none
  | .trim _ => none
  | .reclaim _ => none
  | .ftlInfo _ => none
  | .mergeDone _ => none
  | .pageProgramDone _ _ _ => none
  | .programFailure _ => none
  | .blockEraseDone _ _ => none
  | .uncorrectableRead _ _ => none
  | .mapCheckpoint => none
  | .wearLevelMove _ => none
  | .partitionScrubDone _ => none
  | .holdupFlush => none
  | .holdupFlushDone => none
  | .inkwellRecord _ _ _ => none
  | .inkwellFlush => none
  | .freeze _ _ => none
  | .inkRelease _ _ => none
  | .freezeMaxExpiry => none
  | .inkSnapTake _ _ => none
  | .inkRdSeq _ _ _ => none
  | .inkItemWrite _ => none
  | .inkItemRead _ _ => none
  | .inkItemSnap _ => none
  | .inkItemFreeze _ => none
  | .inkItemRelease _ => none
  | .ethPortEnable _ _ => none
  | .ethLinkChange _ _ _ => none
  | .ethFrameReceived _ _ _ _ _ => none
  | .prpSupervision => none
  | .prpNodeForget _ _ => none
  | .ptpRequestSend _ => none
  | .fdbLookup _ _ _ => none
  | .fdbInsertStatic _ _ _ => none
  | .fdbDelete _ _ _ => none
  | .flushDynamic _ _ => none
  | .ethPClr _ _ => none
  | .claimInEdge => none
  | .claimInRelease => none
  | .claimRefreshMissing => none
  | .heartbeatSend => none
  | .heartbeat _ => none
  | .journal _ => none
  | .resync _ => none
  | .notice => none
  | .listenTimeout => none
  | .claimSettle => none
  | .heartbeatMiss => none
  | .conflictDetect => none
  | .conflictResolve => none
  | .claimRelease _ _ => none
  | .claimTake _ _ => none
  | .resyncStreamEnd _ => none
  | .reservoirCostUpdate _ _ => none
  | .test _ _ => none
  | .capTestPeriod => none
  | .capTestEnd _ _ _ => none
  | .holdupEntry _ => none
  | .safetyScan _ => none
  | .offPulse _ _ _ => none
  | .killTest _ => none
  | .safArm _ _ _ => none
  | .safReset _ _ _ => none
  | .restart _ _ => none
  | .degTimerExpiry => none
  | .tamperDetect _ => none
  | .tampCfgWrite _ _ _ => none
  | .hvinRise _ => none
  | .hvinFall _ => none
  | .railGroupEnable => none
  | .failedStart => none
  | .startRetry => none
  | .vsysFall _ => none
  | .railFault _ => none
  | .railWarn _ => none
  | .vbatLow _ => none
  | .boot _ => none
  | .dramInitDone => none
  | .roleEntry _ => none
  | .bootTimeout => none
  | .island _ _ => none
  | .connectReq _ _ => none
  | .degrade _ _ => none
  | .resume _ _ => none
  | .detectedFault _ => none
  | .islandDelayExpiry _ => none
  | .degradedTimerExpiry => none
  | .warm _ _ => none
  | .cold _ _ => none
  | .rstNLow => none
  | .holdupReturn _ => none
  | .thermalSample _ => none
  | .thermalCrossing _ _ _ => none
  | .thermalRestart => none
  | .pciePerst _ => none
  | .patrolScrub _ => none
  | .padFuncWrite _ _ => none
  | .ppsPulse _ => none
  | .ppsWidthEnd _ => none
  | .rfTxEnd _ => none
  | .vbatLost => none

end Sys2Proof
end

