-- ==== Sys2Proof/Machine/Fx.lean ====
section
/-! DEFINITION. The field-extract unit (R106, R568): A-XDR elements of the bound tag's plaintext. -/
namespace Sys2Proof.Machine
open Reg

/-- An operation's answer: value, cursor, result flags, cycles. -/
structure FxAns where
  value : Nat
  cursor : Nat
  flags : Nat
  cycles : Nat
deriving DecidableEq, Repr

/-- An operation that failed at cursor `c` with a flag: value 0, the cursor where it was. -/
def fxBad (c flag cyc : Nat) : FxAns := ⟨0, c, flag, cyc⟩

/-- An operation's step: a value, or the flag it fails with (1 FX_OVER, 2 FX_TYPE, 4 FX_DEPTH). -/
abbrev FxR (α : Type) := Except Nat α

/-- `n` bytes of the plaintext at an offset, or FX_OVER. -/
def fxTake (d : List Byte) (c n : Nat) : FxR (List Byte) := if c + n ≤ d.length then .ok ((d.drop c).take n) else .error 1

/-- One byte. -/
def fxByte (d : List Byte) (c : Nat) : FxR Nat := match fxTake d c 1 with | .ok l => .ok (ofBe l) | .error e => .error e

/-- Data bytes of the A-XDR types of fixed size (IEC 62056-6-2; log entry 21). -/
def axdrFixed (tag : Nat) : Option Nat :=
  match tag with
  | 0 => some 0 | 3 => some 1 | 5 => some 4 | 6 => some 4 | 13 => some 1 | 15 => some 1 | 16 => some 2 | 17 => some 1 | 18 => some 2
  | 20 => some 8 | 21 => some 8 | 22 => some 1 | 23 => some 4 | 24 => some 8 | 25 => some 12 | 26 => some 5 | 27 => some 4
  | _ => none

/-- The types a length follows: array, structure, bit-string, octet-, visible- and utf8-string. -/
def axdrCounted (tag : Nat) : Bool := tag ∈ [1, 2, 4, 9, 10, 12]

/-- A header: type tag, the length it carries (none for a type of fixed size), header size. -/
def fxHdr (d : List Byte) (c : Nat) : FxR (Nat × Option Nat × Nat) :=
  match fxByte d c with
  | .error e => .error e
  | .ok tag =>
    if (axdrFixed tag).isSome then .ok (tag, none, 1)
    else if axdrCounted tag = false then .error 2
    else
      match fxByte d (c + 1) with
      | .error e => .error e
      | .ok b =>
        if b < 0x80 then .ok (tag, some b, 2)
        else if b = 0x80 ∨ b ≥ 0x85 then .error 2
        else match fxTake d (c + 2) (b - 0x80) with
          | .error e => .error e
          | .ok l => .ok (tag, some (ofBe l), 2 + (b - 0x80))

/-- Walk elements until the outermost is complete: `open_` holds the elements still to come in each open array or structure, the innermost
first, above 1 for the outermost element itself. Every round reads at least a byte, so the plaintext's length bounds the rounds. -/
def fxWalk (d : List Byte) : Nat → Nat → List Nat → FxR Nat
  | 0, _, _ => .error 1
  | n + 1, c, open_ =>
    match open_.dropWhile (· == 0) with
    | [] => .ok c
    | k :: rest =>
      match fxHdr d c with
      | .error e => .error e
      | .ok (tag, len, h) =>
        if tag = 1 ∨ tag = 2 then
          if rest.length ≥ 16 then .error 4 else fxWalk d n (c + h) (len.getD 0 :: (k - 1) :: rest)
        else
          let size := match len with
            | none => (axdrFixed tag).getD 0
            | some l => if tag = 4 then (l + 7) / 8 else l
          if c + h + size ≤ d.length then fxWalk d n (c + h + size) ((k - 1) :: rest) else .error 1

/-- HDR. The length returned for a type of fixed size, which carries none, is free (log entry 21). -/
def fxOpHdr (d : List Byte) (c free : Nat) : FxAns :=
  match fxHdr d c with
  | .error e => fxBad c e 2
  | .ok (tag, len, h) => ⟨tag + h * 2 ^ 8 + (len.getD free) * 2 ^ 16, c, 0, 2⟩

/-- INT: the types it takes, as bytes and signedness. -/
def fxInt (tag : Nat) : Option (Nat × Bool) :=
  match tag with
  | 3 => some (1, false) | 5 => some (4, true) | 6 => some (4, false) | 15 => some (1, true) | 16 => some (2, true) | 17 => some (1, false)
  | 18 => some (2, false) | 20 => some (8, true) | 21 => some (8, false) | 22 => some (1, false)
  | _ => none

/-- INT. -/
def fxOpInt (d : List Byte) (c : Nat) : FxAns :=
  match fxByte d c with
  | .error e => fxBad c e 2
  | .ok tag =>
    match fxInt tag with
    | none => fxBad c 2 2
    | some (n, signed) =>
      match fxTake d (c + 1) n with
      | .error e => fxBad c e 2
      | .ok l => ⟨if signed then uval 64 (sval (8 * n) (ofBe l)) else ofBe l, c + 1 + n, 0, 2⟩

/-- SKIP: one cycle for every 8 bytes of the element, rounded down (log entry 21). -/
def fxOpSkip (d : List Byte) (c : Nat) : FxAns :=
  match fxWalk d (d.length + 2) c [1] with
  | .error e => fxBad c e 2
  | .ok e => ⟨0, e, 0, 2 + (e - c) / 8⟩

/-- OBIS: the first VALID entry of the set whose six bytes match. -/
def fxOpObis (d : List Byte) (c : Nat) (set : Nat → Nat × Nat) : FxAns :=
  match fxTake d c 2 with
  | .error e => fxBad c e 3
  | .ok h =>
    if ofBe h ≠ 0x0906 then fxBad c 2 3
    else match fxTake d (c + 2) 6 with
      | .error e => fxBad c e 3
      | .ok code =>
        match (List.range 64).find? (fun i => nbit (set i).2 24 && leB 4 (set i).1 ++ leB 2 (set i).2 == code) with
        | some i => ⟨i + nbits (set i).2 23 16 * 2 ^ 8, c + 8, 0, 3⟩
        | none => ⟨2 ^ 64 - 1, c + 8, 0, 3⟩

/-- The twelve bytes of a COSEM date-time, converted (R568): value and flags. -/
def fxDate (l : List Byte) (devAdd : Bool) : Nat × Nat :=
  let y := ofBe (slice l 0 2)
  let m := leAt l 2 1
  let d := leAt l 3 1
  let raw := ofBe (slice l 9 2)
  let dev : Int := if raw = 0x8000 then 0 else sval 16 raw
  let fl := if raw = 0x8000 then 16 else 0
  if y = 0xFFFF ∨ y < 1970 ∨ m < 1 ∨ m > 12 ∨ d < 1 ∨ d > monthDays y m ∨ leAt l 5 1 > 23 ∨ leAt l 6 1 > 59 ∨ leAt l 7 1 > 59 then (0, fl + 8)
  else
    let loc : Int := (daysOf y m d * 86400 + leAt l 5 1 * 3600 + leAt l 6 1 * 60 + leAt l 7 1 : Nat)
    (uval 64 (if devAdd then loc + dev * 60 else loc - dev * 60), fl)

/-- DT. -/
def fxOpDt (d : List Byte) (c : Nat) (devAdd : Bool) : FxAns :=
  match fxByte d c with
  | .error e => fxBad c e 4
  | .ok tag =>
    if tag = 25 then
      match fxTake d (c + 1) 12 with
      | .error e => fxBad c e 4
      | .ok l => let (v, fl) := fxDate l devAdd; ⟨v, c + 13, fl, 4⟩
    else if tag ≠ 9 then fxBad c 2 4
    else match fxByte d (c + 1) with
      | .error e => fxBad c e 4
      | .ok n =>
        if n ≠ 12 then fxBad c 2 4
        else match fxTake d (c + 2) 12 with
          | .error e => fxBad c e 4
          | .ok l => let (v, fl) := fxDate l devAdd; ⟨v, c + 14, fl, 4⟩

/-- BYTES. -/
def fxOpBytes (d : List Byte) (c n : Nat) : FxAns :=
  if n = 0 ∨ n > 8 then fxBad c 2 1
  else match fxTake d c n with
    | .error e => fxBad c e 1
    | .ok l => ⟨ofBe l, c + n, 0, 1⟩

/-- The first place of a pattern in a list, counted from `at_`. -/
def fxFind (pat : List Byte) : Nat → List Byte → Option Nat
  | at_, l =>
    if l.take pat.length == pat then some at_
    else match l with
      | [] => none
      | _ :: t => fxFind pat (at_ + 1) t

/-- FIND (R568). -/
def fxOpFind (d : List Byte) (c pat n span : Nat) : FxAns :=
  let sp := min span 4096
  let cyc := 2 + sp / 16
  if n = 0 ∨ n > 8 then ⟨2 ^ 64 - 1, c, 2, cyc⟩
  else
    let fl := if c + sp > d.length then 1 else 0
    match fxFind (beB n pat) c ((d.drop c).take sp) with
    | some i => ⟨i, c, fl, cyc⟩
    | none => ⟨2 ^ 64 - 1, c, fl, cyc⟩

/-- SCALE of a signed value, toward zero (R106; log entry 21). Units 30 and 32 are Wh and varh. -/
def fxOpScale (v sc unit : Nat) (c : Nat) : FxAns :=
  let e := sval 8 sc
  if (unit ≠ 30 ∧ unit ≠ 32) ∨ e < -9 ∨ e > 9 then fxBad c 2 3
  else
    let x := sval 64 v
    let r : Int := if e + 1 ≥ 0 then x * ((10 ^ (e + 1).toNat : Nat) : Int) else x.tdiv ((10 ^ (-(e + 1)).toNat : Nat) : Int)
    if r > 2 ^ 63 - 1 then ⟨2 ^ 63 - 1, 0, 32, 3⟩
    else if r < -(2 ^ 63) then ⟨2 ^ 63, 0, 32, 3⟩
    else ⟨uval 64 r, 0, 0, 3⟩

/-- An FX instruction: TAG without a bound tag, REG where a pair or triple passes w31, else the answer in wA, wA+1, wA+2. A tag that has moved
on has no plaintext: an empty one is read (log entry 20). -/
def State.fx (s : State) (x a b c f : Nat) (op : State → Ctx → List Byte → FxAns × State) : Res :=
  .next (s.isa x (encR 0x29 a b c f) (fun k s =>
    match k.tag with
    | none => s.taskFault x 9
    | some (i, g) =>
      if a + 2 > 31 ∨ (f % 8 = 6 ∧ c + 1 > 31) then s.taskFault x 5
      else
        let r := s.tag i
        let (ans, s) := op s k (if r.gen = g then r.plain else [])
        s.setCtx x ((((k.set a (w64 ans.value)).set (a + 1) (w64 ans.cursor)).set (a + 2) (w64 ans.flags)).next ans.cycles)))

/-- The tenant's OBIS set entries, two words each (R128). -/
def State.obisSet (s : State) (tn i : Nat) : Nat × Nat :=
  let k := (s.route tn 0x0B 1 * 64 + i) * 2
  (tget 0 s.pip.obis k, tget 0 s.pip.obis (k + 1))

/-- Header of an element. -/
def execHdr (ctx a b : Nat) (s : State) : Res :=
  s.fx ctx a b 0 0 (fun s k d => let (v, s) := s.drawNat (2 ^ 32); (fxOpHdr d (k.get b).toNat v, s))

/-- A typed integer. -/
def execInt (ctx a b : Nat) (s : State) : Res := s.fx ctx a b 0 1 (fun s k d => (fxOpInt d (k.get b).toNat, s))

/-- The cursor after one complete element. -/
def execSkip (ctx a b : Nat) (s : State) : Res := s.fx ctx a b 0 2 (fun s k d => (fxOpSkip d (k.get b).toNat, s))

/-- A match in the route's OBIS set. -/
def execObis (ctx a b : Nat) (s : State) : Res :=
  s.fx ctx a b 0 3 (fun s k d => (fxOpObis d (k.get b).toNat (s.obisSet (s.ctxTenant ctx)), s))

/-- A COSEM date-time as grid seconds. -/
def execDt (ctx a b : Nat) (s : State) : Res :=
  s.fx ctx a b 0 4 (fun s k d => (fxOpDt d (k.get b).toNat (s.policy (s.ctxTenant ctx) 3), s))

/-- One to eight bytes, big-endian. -/
def execBytes (ctx a b n : Nat) (s : State) : Res := s.fx ctx a b 0 (n * 8 + 5) (fun s k d => (fxOpBytes d (k.get b).toNat n, s))

/-- The first match of a pattern. -/
def execFind (ctx a b c n : Nat) (s : State) : Res :=
  s.fx ctx a b c (n * 8 + 6) (fun s k d => (fxOpFind d (k.get b).toNat (k.get c).toNat n (k.get (c + 1)).toNat, s))

/-- A value in 0.1 Wh or 0.1 varh. -/
def execScale (ctx a b c : Nat) (s : State) : Res :=
  s.fx ctx a b c 7 (fun s k _ => (fxOpScale (k.get b).toNat (nbits (k.get c).toNat 7 0) (nbits (k.get c).toNat 15 8) (k.get b).toNat, s))

end Sys2Proof.Machine
end

