-- ==== Sys2Proof/Machine/Balance.lean ====
section
/-! DEFINITION. The balance engine and the feeder metrology (R174 to R210). -/
namespace Sys2Proof.Machine
open Reg

/-! ### Windows, nodes and accumulators -/

/-- A window set. -/
def State.winSet (s : State) (w : Nat) : WinSet := tget {} s.bal.sets w

/-- Store a window set. -/
def State.setWinSet (s : State) (w : Nat) (v : WinSet) : State := { s with bal := { s.bal with sets := tput {} s.bal.sets w v } }

/-- A node's part of a window. -/
def Window.node (w : Window) (n : Nat) : NodeWin := tget {} w.nodes n

/-- Store a node's part of a window. -/
def Window.setNode (w : Window) (n : Nat) (v : NodeWin) : Window := { w with nodes := tput {} w.nodes n v }

/-- A bucket of a node's window. -/
def NodeWin.acc (n : NodeWin) (b : Nat) : BAcc := tget {} n.accs b

/-- Store a bucket. -/
def NodeWin.setAcc (n : NodeWin) (b : Nat) (a : BAcc) : NodeWin := { n with accs := tput {} n.accs b a }

/-- Expected members of a bucket. -/
def NodeWin.exp (n : NodeWin) (b : Nat) : Nat := tget 0 n.expected b

/-- Change one bucket of a node in a window. -/
def Window.upd (w : Window) (n b : Nat) (f : BAcc → BAcc) : Window := let v := w.node n; w.setNode n (v.setAcc b (f (v.acc b)))

/-- Nodes that are ON in a set, in ascending order. -/
def State.nodesOn (s : State) (w : Nat) : List Nat :=
  ((tget [] s.regs BAL_N_STAT.STATE.id).filter (fun e => e.2 == 2 && s.fget BAL_N_CFG.WS e.1 == w)).map (·.1)

/-- The ledger is the reference of a LEDGER node (R198). -/
def State.isRef (s : State) (n ledger : Nat) : Bool := s.fget BAL_N_CFG.REF_TYPE n == 2 && s.fget BAL_N_REF.LEDGER n == ledger

/-- Members of a node's bucket, as BAL_N_MEMB shows them: ledgers whose BAL is VALID and names them; the reference ledger is none (log entry 22). -/
def State.members (s : State) (n b : Nat) : Nat :=
  (s.ldg.ledgers.filter (fun e => let v := lget e.2 L.BAL; nbit v 31 && nbits v 15 0 == n && nbits v 17 16 == b && !s.isRef n e.1)).length

/-- Rounded quotient, halves up. -/
def roundDiv (a b : Nat) : Nat := (2 * a + b) / (2 * b)

/-- The integer square root, by bits from 2^`n` down. -/
def isqrtFrom (v : Nat) : Nat → Nat → Nat
  | 0, r => r
  | n + 1, r => isqrtFrom v n (if (r + 2 ^ n) * (r + 2 ^ n) ≤ v then r + 2 ^ n else r)

/-- The integer square root of a value below 2^256. -/
def isqrt (v : Nat) : Nat := isqrtFrom v 128 0

/-- The square root rounded to the nearest integer. -/
def isqrtRound (v : Nat) : Nat := let r := isqrt v; if v > r * r + r then r + 1 else r

/-- A mains-phase source that is LOCKED: the metrology is COHERENT (R179). -/
def State.coherent (s : State) : Bool := s.fget MPT_SRC.STATE == 2

/-- Time that is not LOCKED marks every open window in the field role (R179, R182), and the run counts of the detectors go to 0 (R205). -/
def State.balDegrade (s : State) : State :=
  let s := { s with bal := { s.bal with runs := [] } }
  if s.centre then s
  else (List.range 8).foldl (fun s w => match (s.winSet w).cur with
    | some c => s.setWinSet w { s.winSet w with cur := some { c with degraded := true } }
    | none => s) s

/-! ### Evaluation (R199 to R201) -/

/-- The net reference of a phase of a METROLOGY node, in 0.1 Wh (R198). -/
def Window.phaseRef (w : Window) (p : Nat) : Int :=
  let d := fun k => (((w.stop.getD w.start).tot.getD k 0 / 100 : Nat) : Int) - ((w.start.tot.getD k 0 / 100 : Nat) : Int)
  d p - d (p + 3)

/-- The variance of a METROLOGY reference. -/
def refVar (r : Int) (acc : Nat) : Nat := roundDiv ((r.natAbs * acc) ^ 2) (3 * 10 ^ 8)

/-- Step 1 of R199 for one bucket: whether it is INCOMPLETE, and the bucket with the estimate of its missing members. -/
def missing (a : BAcc) (e unc : Nat) : Bool × BAcc :=
  if a.covered = 0 then (decide (e > 0), a)
  else
    let est := a.demand * ((e : Int) - (a.covered : Int)) / (a.covered : Int)
    (false, { a with demand := a.demand + est, var := a.var + roundDiv ((est.natAbs * unc) ^ 2) 10000 })

/-- Technical loss of R199 for a reference over `len` milliseconds. -/
def techLoss (p0 pcu prated : Nat) (r : Int) (len : Nat) : Nat :=
  (p0 * (len * prated) ^ 2 + pcu * (r.natAbs * 360000) ^ 2) * len / (360000 * (len * prated) ^ 2)

/-- A signed value cut to 32 bits, saturating. -/
def sat32 (v : Int) : Nat := uval 32 (if v > 2 ^ 31 - 1 then 2 ^ 31 - 1 else if v < -(2 ^ 31) then -(2 ^ 31) else v)

/-- Conditions met of R200: bits 0 HIGH and 1 LOW. -/
def condMet (l : Int) (u k10 lossMin : Nat) : Nat :=
  b2n (decide (l * 10 > ((k10 * u : Nat) : Int)) && decide (l > (lossMin : Int))) + 2 * b2n (decide (l * 10 < -((k10 * u : Nat) : Int)) && decide (-l > (lossMin : Int)))

/-- One alarm condition of a node counts a window (R200). -/
def State.alarmStep (s : State) (n c seq : Nat) (met : Bool) : State :=
  let active := nbit (s.fget BAL_N_STAT.ALARM n) c
  let runs := s.fget BAL_N_RUN.RUNS n
  let run := nbits runs (4 * c + 3) (4 * c)
  let put := fun (s : State) (v : Nat) => s.fset BAL_N_RUN.RUNS n (runs - run * 2 ^ (4 * c) + v * 2 ^ (4 * c))
  if met = active then put s 0
  else if run + 1 ≥ s.fget (if active then BAL_N_ALARM.N_CLR else BAL_N_ALARM.N_WIN) n then
    ((put s 0).fset BAL_N_STAT.ALARM n (nsetBit (s.fget BAL_N_STAT.ALARM n) c (!active))).signal 899 (leB 2 n ++ leB 1 c ++ [0] ++ leB 4 seq)
  else put s (run + 1)

/-- Add a child's share to its parent's window (R198). -/
def State.parentOf (s : State) (n : Nat) (w : Window) : Option Nat :=
  let p := s.fget BAL_N_CFG.PARENT n
  if s.fbit BAL_N_CFG.PARENT_VALID n ∧ (w.node p).on then some p else none

/-- Evaluate one node of a window (R198 to R201): the window with what it hands its parent, and the state. -/
def State.evalNode (s : State) (ws n : Nat) (w : Window) : Window × State :=
  let v := w.node n
  if v.on = false then (w, s)
  else if s.fget BAL_N_CFG.REF_TYPE n = 0 then
    match s.parentOf n w with
    | none => (w, s)
    | some p =>
      let q := (List.range 4).foldl (fun (q : NodeWin) b =>
        let a := v.acc b
        let o := q.acc b
        { q.setAcc b { demand := o.demand + a.demand, var := o.var + a.var, covered := o.covered + a.covered, aligned := o.aligned + a.aligned } with
          expected := tput 0 q.expected b (q.exp b + v.exp b) }) (w.node p)
      (w.setNode p { q with fed0 := q.fed0 || v.fed0 || (v.acc 0).demand != 0 || v.exp 0 != 0 }, s)
  else
    let met := s.fget BAL_N_CFG.REF_TYPE n == 1
    let acc := s.fget BAL_N_ALARM.REF_ACC n
    let stop := w.stop.getD w.start
    let len := stop.ms - w.start.ms
    let rp := (List.range 3).map w.phaseRef
    let r : Int := if met then rp.foldl (· + ·) 0 else (v.acc 4).demand
    let rv := if met then refVar r acc else (v.acc 4).var
    let unc := s.fget BAL_MISS.MISS_UNC
    let bs := (List.range 4).map (fun b => missing (v.acc b) (v.exp b) unc)
    let sumE := (List.range 4).foldl (fun a b => a + v.exp b) 0
    let sumC := (List.range 4).foldl (fun a b => a + (v.acc b).covered) 0
    let sumA := (List.range 4).foldl (fun a b => a + (v.acc b).aligned) 0
    let incomplete := bs.any (·.1) || decide ((sumE - sumC) * 100 > s.fget BAL_MISS.MISS_MAX * sumE)
    let tl := techLoss (s.fget BAL_N_TL_P0.P0 n) (s.fget BAL_N_TL_PCU.PCU n) (s.fget BAL_N_TL_PR.PRATED n) r len
    let tv := fun (t : Int) => roundDiv ((t.natAbs * s.fget BAL_N_TL_P0.TL_UNC n) ^ 2) 10000
    let d := bs.foldl (fun a b => a + b.2.demand) 0
    let l := r - d - tl
    let u := isqrtRound (rv + bs.foldl (fun a b => a + b.2.var) 0 + tv tl)
    let phase := met && (v.acc 0).demand == 0 && v.exp 0 == 0 && !v.fed0
    -- with a reference of 0 the spec states no share of the loss for a phase: it is free (log entry 22)
    let (fr, s) := if phase ∧ r = 0 then s.drawNat (2 ^ 32) else (0, s)
    let tlp := fun (p : Nat) => if r = 0 then (fr : Int) else Int.fdiv ((tl : Int) * rp.getD p 0) r
    let lp := (List.range 3).map (fun p => rp.getD p 0 - ((bs.getD (p + 1) (false, {})).2).demand - tlp p)
    let up := (List.range 3).map (fun p => isqrtRound (refVar (rp.getD p 0) acc + ((bs.getD (p + 1) (false, {})).2).var + tv (tlp p)))
    let k10 := s.fget BAL_N_ALARM.K10 n
    let lm := s.fget BAL_N_LOSSMIN.MIN n
    let met8 := condMet l u k10 lm + (if phase then (List.range 3).foldl (fun a p => a + condMet (lp.getD p 0) (up.getD p 0) k10 lm * 4 ^ (p + 1)) 0 else 0)
    let degraded := w.degraded || w.start.degraded || stop.degraded
    let s := if incomplete ∨ degraded ∨ v.first ∨ w.early then s
      else (List.range 8).foldl (fun s c => s.alarmStep n c w.seq (nbit met8 c)) s
    let high := nbit met8 0 || nbit met8 2 || nbit met8 4 || nbit met8 6
    let fl := b2n incomplete + 2 * b2n degraded + 4 * b2n v.first + 8 * b2n (w.start.late || stop.late) + 16 * b2n w.early
      + 32 * b2n (decide (v.tamp > 0) && high) + 64 * b2n phase + 128 * b2n w.tamper
    let body := leB 4 w.seq ++ leB 2 n ++ leB 1 ws ++ leB 1 v.tamp ++ leB 2 fl ++ leB 1 (s.fget BAL_N_STAT.ALARM n) ++ leB 1 met8
      ++ leB 4 sumE ++ leB 4 sumC ++ leB 4 sumA ++ leB 6 (w.start.ms / 1000) ++ leB 2 (w.start.ms % 1000)
      ++ leB 8 (uval 64 r) ++ leB 8 (uval 64 d) ++ leB 4 tl ++ leB 4 u ++ leB 4 len ++ leB 4 0
    let ring := s.fget BAL_N_RING.RING n
    let s := if s.fbit BAL_N_RING.VALID n then
        (if s.prodRoom ring 64 then s.produce ring 4 body else s.fset BAL_N_STAT.RES_LOST n 1)
      else s
    let s := s.fset BAL_N_SEQ.SEQ n w.seq
    let s := if phase then (List.range 3).foldl (fun s p => (s.fset BAL_N_PL.L (3 * n + p) (sat32 (lp.getD p 0))).fset BAL_N_PU.U (3 * n + p) (min (up.getD p 0) (2 ^ 32 - 1))) s else s
    let w := match s.parentOf n w with
      | none => w
      | some p =>
        let add := fun (w : Window) (b : Nat) (x : Int) (xv : Nat) =>
          let w := w.upd p b (fun a => { a with demand := a.demand + x, var := a.var + xv })
          if b = 0 then w.setNode p { w.node p with fed0 := true } else w
        if met then (List.range 3).foldl (fun w q => add w (q + 1) (rp.getD q 0) (refVar (rp.getD q 0) acc)) w
        else add w (s.fget BAL_N_CFG.REF_PHASE n) r rv
    (w, s)

/-- Evaluate a closed window of a set (R199), in descending node index; source 898 at its end. -/
def State.evalWindow (s : State) (ws : Nat) (w : Window) : State :=
  let ns := ((w.nodes.filter (fun e => e.2.on)).map (·.1)).reverse
  let s := (ns.foldl (fun (p : Window × State) n => p.2.evalNode ws n p.1) (w, s)).2
  let bits := fun (v : Nat) => (List.range 8).foldl (fun a c => a + b2n (nbit v c)) 0
  let al := ns.foldl (fun a n => a + bits (s.fget BAL_N_STAT.ALARM n)) 0
  s.signal 898 (leB 1 ws ++ [0, 0, 0] ++ leB 4 w.seq ++ leB 4 al)

/-- WS_EVAL after its closing boundary, the oldest closed window of a set is evaluated (R183). -/
def execWindowEvaluate (set : Nat) (s : State) : Res :=
  .next (match (s.winSet set).closed with
    | [] => s
    | w :: t => (s.setWinSet set { s.winSet set with closed := t }).evalWindow set w)

/-! ### Boundaries (R181 to R190) -/

/-- The totals latched at a boundary (R177). -/
def State.metTotals (s : State) : List Nat :=
  (List.range 3).map (fun p => s.get64 BAL_EAI.LO BAL_EAI.HI p) ++ (List.range 3).map (fun p => s.get64 BAL_EAE.LO BAL_EAE.HI p)

/-- TARGET_CYCLE of a mark-table entry. -/
def State.markCyc (s : State) (e : Nat) : Nat := s.fget BAL_MARK_ID.ID e + s.fget BAL_MARK_CYC.CYC_HI e * 2 ^ 32

/-- TARGET_UTC of a mark-table entry. -/
def State.markUtc (s : State) (e : Nat) : Nat := s.fget BAL_MARK_UTC.SEC e + s.fget BAL_MARK_ST.UTC_HI e * 2 ^ 32

/-- Marks of a set meet a boundary (R190); one that becomes VOID sets BAL_ERR.CM (R209). -/
def State.markLatch (s : State) (w : Nat) (b : Bound) : State :=
  (List.range 4).foldl (fun s e =>
    let st := s.fget BAL_MARK_ST.STATE e
    if s.fget BAL_MARK_ST.WS e ≠ w ∨ (st ≠ 1 ∧ st ≠ 2) then s
    else if st = 2 ∧ s.markCyc e = b.cyc ∧ b.late = false then s.fset BAL_MARK_ST.STATE e 3
    else (s.fset BAL_MARK_ST.STATE e 0).errSet [BAL_ERR.CM] id) s

/-- A mark is prepared at a boundary of the marked set (R188). With a measured frequency of 0 its TARGET_UTC has no stated value: it is free. -/
def State.markPrepare (s : State) (w : Nat) (b : Bound) : State :=
  if s.centre ∨ s.fget BAL_CM_CFG.WS ≠ w ∨ s.fbit BAL_CM_CFG.EN = false then s
  else if s.fbit MPT_TIME_OK.CAL_OK = false then s.fsat BAL_CM_STAT.SKIPPED 0
  else
    let len := s.fget BAL_WS_LEN.CYCLES w
    let f := s.fget MPT_FREQ.FREQ
    let cyc := (b.cyc + len) % 2 ^ 48
    let (fr, s) := if f = 0 then s.drawNat (2 ^ 48) else (0, s)
    let utc := if f = 0 then fr else (2 * (b.ms * f + len * 10 ^ 6) + 1000 * f) / (2000 * f)
    let e := s.bal.nextMark
    let s := { s with bal := { s.bal with nextMark := (e + 1) % 4 } }
    let s := (((s.fset BAL_MARK_ID.ID e (cyc % 2 ^ 32)).fset BAL_MARK_CYC.CYC_HI e (cyc / 2 ^ 32)).fset BAL_MARK_UTC.SEC e (utc % 2 ^ 32)).fset BAL_MARK_ST.UTC_HI e (utc / 2 ^ 32)
    ((s.fset BAL_MARK_ST.WS e w).fset BAL_MARK_ST.STATE e 1).signal 900 (leB 4 (cyc % 2 ^ 32))

/-- The expected member counts of a closing window are taken (R196). -/
def State.countExpected (s : State) (w : Window) : Window :=
  { w with nodes := w.nodes.map (fun (e : Nat × NodeWin) => (e.1, { e.2 with expected := (List.range 4).foldl (fun t b => tput 0 t b (s.members e.1 b)) [] })) }

/-- Phases whose cycle begins after phase A's, their lag rounded down to 256 pu (R176), while the front end is ON: their accumulators are latched at their next cycle end. -/
def State.laterPhases (s : State) : List Nat :=
  if s.fget BAL_MET_STAT.STATE ≠ 2 then []
  else (if s.fget MPT_PH_B.OFFSET / 256 = 0 then [] else [1]) ++ (if s.fget MPT_PH_C.OFFSET / 256 = 0 then [] else [2])

/-- Take a phase's totals into a boundary. -/
def Bound.latch (b : Bound) (p : Nat) (tot : List Nat) : Bound :=
  { b with tot := (List.range 6).map (fun k => if k % 3 = p then tot.getD k 0 else b.tot.getD k 0) }

/-- The newest boundary of a set that waits for a phase takes its totals: as the end of the last closed window and the start of the open one. -/
def State.latchSet (s : State) (w p : Nat) : State :=
  let x := s.winSet w
  if x.latch.contains p = false then s
  else
    let t := s.metTotals
    let cyc := match x.cur with | some c => c.start.cyc | none => 0
    let stop := fun (v : Window) => match v.stop with
      | some e => if e.cyc = cyc then { v with stop := some (e.latch p t) } else v
      | none => v
    s.setWinSet w { x with cur := x.cur.map (fun c => { c with start := c.start.latch p t }), closed := x.closed.map stop, latch := x.latch.filter (· != p) }

/-- A CONVERSION trigger (R181): cycle and phase of its target, and whether it fired late. -/
def State.conversion (s : State) (w cyc phase : Nat) (late : Bool) : State :=
  if s.fbit BAL_WS_CTRL.EN w = false ∨ phase ≠ 0 then s.errSet [BAL_ERR.TRIG] id
  else
    let utc := s.utcNow.toNat
    let ms := utc * 1000 + s.gridNow.2 / 1000000
    let deg := (!s.centre && !s.coherent) || !s.fbit MPT_TIME_OK.CAL_OK
    let b : Bound := { cyc := cyc, ms := ms, late := late, degraded := deg, tot := s.metTotals }
    let s := s.fadd BAL_WS_SEQ.SEQ w
    let seq := s.fget BAL_WS_SEQ.SEQ w
    let s := (((s.fset BAL_WS_BCYC_LO.CYC_LO w (cyc % 2 ^ 32)).fset BAL_WS_BCYC_HI.CYC_HI w (cyc / 2 ^ 32)).fset BAL_WS_BUTC.SEC_LO w (utc % 2 ^ 32)).fset BAL_WS_BFLAGS.MS w (ms % 1000)
    let s := (s.fset BAL_WS_BFLAGS.DEGRADED w (b2n deg)).fset BAL_WS_BFLAGS.LATE_BOUND w (b2n late)
    let x := s.winSet w
    let old := match x.cur with
      | some c => [s.countExpected { c with seq := seq, stop := some b }]
      | none => []
    let was := fun n => match x.cur with | some c => (c.node n).on | none => false
    let nodes := (s.nodesOn w).foldl (fun (t : Tab NodeWin) n => tput {} t n { on := true, first := !was n }) []
    let win : Window := { start := b, degraded := !s.centre && !s.coherent, tamper := s.fget BAL_TAMP_STAT.ACTIVE != 0, nodes := nodes }
    let early := if x.closed.length ≥ 3 ∧ old ≠ [] then x.closed.head? else none
    let closed := (if early.isSome then x.closed.drop 1 else x.closed) ++ old
    let s := s.setWinSet w { cur := some win, closed := closed, bounds := b :: x.bounds, latch := s.laterPhases }
    let s := match early with | some e => s.evalWindow w { e with early := true } | none => s
    let s := s.signal 897 (leB 1 w ++ [0, 0, 0] ++ leB 4 seq)
    let s := if s.centre then s else s.markLatch w b
    s.markPrepare w b

/-! ### Contributions (R192 to R196, R207) -/

/-- A ledger's member entry (R192). -/
def State.memb (s : State) (l : Nat) : Nat := tget 0 s.bal.memb l

/-- Store a member entry. -/
def State.setMemb (s : State) (l v : Nat) : State := { s with bal := { s.bal with memb := tput 0 s.bal.memb l v } }

/-- Where an endpoint lies (R194): at a LATCHED mark's boundary if it is aligned, else at its own time. -/
def State.placeEnd (s : State) (w : Nat) (cap : Bool) (t : Nat) : Nat × Bool :=
  match (if cap then (List.range 4).find? (fun e => s.fget BAL_MARK_ST.STATE e == 3 && s.fget BAL_MARK_ST.WS e == w && s.markUtc e == t) else none) with
  | none => (t * 1000, false)
  | some e =>
    match (s.winSet w).bounds.find? (fun b => b.cyc == s.markCyc e) with
    | some b => (b.ms, true)
    | none => (t * 1000, true)

/-- A portion lies in a window: between its boundaries, the open window having no end. -/
def Window.holds (w : Window) (a b : Nat) : Bool := decide (w.start.ms ≤ a) && (match w.stop with | some e => decide (b ≤ e.ms) | none => true)

/-- Change the window of a set that a condition picks, newest first; none when no held window fits. -/
def WinSet.updWin (x : WinSet) (p : Window → Bool) (f : Window → Window) : Option WinSet :=
  match x.cur with
  | some c =>
    if p c then some { x with cur := some (f c) }
    else if x.closed.any p then some { x with closed := x.closed.map (fun w => if p w then f w else w) } else none
  | none => if x.closed.any p then some { x with closed := x.closed.map (fun w => if p w then f w else w) } else none

/-- Add a portion to the window that holds it, or drop it (R195, R196). -/
def State.portion (s : State) (w n b a z : Nat) (share : Int) (half : Nat) : State :=
  match (s.winSet w).updWin (fun v => v.holds a z && (v.node n).on)
      (fun v => v.upd n b (fun c => { c with demand := c.demand + share, var := c.var + roundDiv ((share.natAbs * half) ^ 2) (3 * 10 ^ 8) })) with
  | some x => s.setWinSet w x
  | none => (s.fset BAL_N_LATE_E.E n (sat32 (sval 32 (s.fget BAL_N_LATE_E.E n) + share))).fsat BAL_DROP.COUNT 0

/-- The balance engine receives a committed reading's contribution (R193 to R196, R207); the reading is ready once it is done. -/
def execBalanceContribution (tag : Nat) (s : State) : Res :=
  .next (let r := s.tag tag
    match r.bal, r.ledger with
    | some i, some ledger =>
      if r.st ≠ 2 ∨ r.balanceDone then s
      else
        let done := fun (s : State) (interp : Bool) =>
          let r := s.tag tag
          (s.setTag tag { r with balanceDone := true, bal := none, stage := 11, flags := nsetBit r.flags 7 (nbit r.flags 7 || interp) }).postReady r.tenant
        let m := s.memb ledger
        let n := i.node
        if nbit m 1 ∨ i.had = false ∨ s.ten.active.ownsBal r.tenant n = false ∨ s.fget BAL_N_STAT.STATE n ≠ 2 then done (s.fsat BAL_SKIP.COUNT 0) false
        else match i.t1 with
        | none => done (s.fsat BAL_SKIP.COUNT 0) false
        | some t1 =>
          let w := s.fget BAL_N_CFG.WS n
          let b := if s.isRef n ledger then 4 else i.bucket
          let half := s.fget BAL_ACC.HALF (nbits m 5 3)
          let (a, al0) := s.placeEnd w (nbit m 0) i.t0
          let (z, al1) := s.placeEnd w (nbit m 0) t1
          let dt := z - a
          let cuts := ((s.winSet w).bounds.filter (fun c => decide (a < c.ms ∧ c.ms < z))).reverse.map (·.ms)
          let edges := a :: (cuts ++ [z])
          let spans := edges.zip (edges.drop 1)
          let share := fun (p : Nat × Nat) => i.net * ((p.2 - p.1 : Nat) : Int) / (dt : Int)
          let firsts := spans.dropLast
          let last := i.net - firsts.foldl (fun t p => t + share p) 0
          let s := firsts.foldl (fun s p => s.portion w n b p.1 p.2 (share p) half) s
          let s := s.portion w n b (spans.getLastD (a, z)).1 z last half
          -- the misalignment term of each boundary that splits the interval goes to the window it ends (R195)
          let s := cuts.foldl (fun s c =>
            let mm := min (c - a) (z - c)
            let mis := s.fget BAL_MISALIGN.MIS_PCT * 2 * mm
            let clk := s.fget BAL_MISALIGN.CLK * 10000
            let ub := roundDiv (i.net.natAbs ^ 2 * (mis ^ 2 + clk ^ 2)) ((100 * dt) ^ 2)
            match (s.winSet w).updWin (fun v => (match v.stop with | some e => e.ms == c | none => false) && (v.node n).on) (fun v => v.upd n b (fun q => { q with var := q.var + ub })) with
            | some x => s.setWinSet w x
            | none => s) s
          -- coverage and alignment of every window whose end lies in the interval
          let prev := tget 0 s.bal.lastAligned ledger
          let x := s.winSet w
          let cover := fun (v : Window) =>
            match v.stop with
            | some e =>
              if a < e.ms ∧ e.ms ≤ z ∧ (v.node n).on then
                let whole := al1 && e.ms == z && ((al0 && v.start.ms == a) || prev == v.start.ms + 1)
                v.upd n b (fun q => { q with covered := q.covered + 1, aligned := q.aligned + b2n whole })
              else v
            | none => v
          let s := s.setWinSet w { x with closed := x.closed.map cover }
          let s := if al1 then { s with bal := { s.bal with lastAligned := tput 0 s.bal.lastAligned ledger (z + 1) } } else s
          let s := if i.tamper = 0 then s else
            let (pa, pz) := spans.getLastD (a, z)
            let s := match (s.winSet w).updWin (fun v => v.holds pa pz && (v.node n).on) (fun v => let q := v.node n; v.setNode n { q with tamp := min 255 (q.tamp + 1) }) with
              | some x => s.setWinSet w x
              | none => s
            s.signal 903 (leB 4 ledger ++ leB 1 i.tamper)
          let s := if cuts.isEmpty then s else s.fsat BAL_INTERP.COUNT 0
          done s (!cuts.isEmpty)
    | _, _ => s)

/-! ### The metrology front end (R174 to R180) -/

/-- Start the front end (R29, R174); event 896. -/
def State.metStart (s : State) : State := (s.turnOn lifeMet 0).signal 896 (leB 1 2)

/-- Nothing of the front end stays in flight once it drains. -/
def State.metDrain (s : State) : State := s.signal 896 (leB 1 1)

/-- The front end leaves DRAINING: for OFF, with event 896, or for ON where it was enabled meanwhile. -/
def State.metDrained (s : State) : State :=
  let s' := s.drainDone lifeMet 0 State.metStart
  if s.fget BAL_MET_STAT.STATE = 1 ∧ s'.fget BAL_MET_STAT.STATE = 0 then s'.signal 896 (leB 1 0) else s'

/-- BAL_MET_CTRL.ENABLE (R174). -/
def execMetrologyEnable (host value : Nat) (s : State) : Res :=
  .next (s.gate host .bal 0x40 (fun s =>
    if s.centre ∧ nbit value 0 then s.errAt BAL_ERR.ROLE 0x40
    else s.enableWrite lifeMet 0 (nbit value 0) State.metStart State.metDrain))

/-- The raw 24-bit codes of a channel's cycle, corrected by the steps of R175 in their order, in units of 2^-22 code. The spec gives neither the
interpolation of a current channel's delay nor the integrator's transfer: each is an open function of the samples it takes (log entry 23). -/
def State.corrected (s : State) (ch : Nat) (raw : List Nat) : List Int :=
  let xs := (List.range 256).map (fun k => (sval 24 (raw.getD k 0) - sval 24 (s.fget BAL_CAL_OFS.OFS ch)) * (s.fget BAL_CAL_GAIN.GAIN ch : Int))
  let ys := if ch < 4 ∨ s.fget BAL_CAL_PH.PHASE ch = 0 then xs
    else (List.range 256).map (fun k => Config.delayed s.freeCtr (s.fget BAL_CAL_PH.PHASE ch) xs k)
  if ch < 4 ∨ s.fbit BAL_CAL_PH.INTEG ch = false then ys else (List.range 256).map (fun k => Config.integrated s.freeCtr ys k)

/-- The limits of a corrected sample. -/
def sampleMax : Int := (2 ^ 23 - 1) * 2 ^ 22
def sampleMin : Int := -(2 ^ 45)

/-- The 256 corrected samples of a channel's cycle, clipped; OVER is set and 896 signalled for a channel that reached a limit (R180). -/
def State.samples (s : State) (ch : Nat) (raw : List Nat) : List Int × State :=
  let xs := s.corrected ch raw
  let s := { s with freeCtr := s.freeCtr + 1 }
  let clip := xs.any (fun x => decide (x ≥ sampleMax ∨ x ≤ sampleMin))
  let s := if clip then (s.fset BAL_MET_STAT.OVER 0 (nsetBit (s.fget BAL_MET_STAT.OVER) ch true)).signal 896 (leB 1 (s.fget BAL_MET_STAT.STATE) ++ leB 1 ch) else s
  (xs.map (fun x => if x > sampleMax then sampleMax else if x < sampleMin then sampleMin else x), s)

/-- The RMS of samples times a full scale in thousandths: the unit of the register (R176, log entry 23). -/
def rms (xs : List Int) (fsMilli : Nat) : Nat := isqrtRound (xs.foldl (fun a x => a + x.natAbs ^ 2) 0 * fsMilli ^ 2 / (256 * 2 ^ 90))

/-- Nearest integer of a signed quotient. -/
def roundInt (a : Int) (b : Nat) : Int := (2 * a + (b : Int)) / ((2 * b : Nat) : Int)

/-- Add an energy to one of a phase's accumulators: a power of `pn` / (256 × 2^90 × 10^4) W clip `t` nanoseconds, in thousandths of an hour,
the fraction carried (R177). -/
def State.energyAdd (s : State) (lo hi : Fld) (p slot pn t : Nat) : State :=
  let den := 256 * 2 ^ 90 * 10 ^ 4 * 3600000000
  let n := tget 0 s.bal.frac slot + pn * t
  let s := { s with bal := { s.bal with frac := tput 0 s.bal.frac slot (n % den) } }
  s.set64 lo hi p ((s.get64 lo hi p + n / den) % 2 ^ 64)

/-! ### The feeder detectors (R205) -/

/-- The vector sum of the phase currents in a phase-A cycle, sample by sample, in 2^-45 mA: each phase's latest complete cycle, shifted by its lag
(log entry 113). -/
def State.vectorSum (s : State) : List Int :=
  let part := fun (p lag : Nat) =>
    let xs := tget [] s.bal.currents p
    (List.range 256).map (fun k => xs.getD ((k + 256 - lag % 256) % 256) 0 * (s.fget BAL_CAL_FS.FS (4 + p) : Int))
  let b := part 1 (s.fget MPT_PH_B.OFFSET / 256)
  let c := part 2 (s.fget MPT_PH_C.OFFSET / 256)
  (part 0 0).zipWith (· + ·) (b.zipWith (· + ·) c)

/-- The sum of squares of 256 samples in 2^-45 units whose RMS is a limit. -/
def rmsLimit (v : Nat) : Nat := 256 * (v * 2 ^ 45) ^ 2

/-- The sum of squares of samples. -/
def squares (xs : List Int) : Nat := xs.foldl (fun a x => a + x.natAbs ^ 2) 0

/-- The conditions of the five detectors in a phase-A cycle (R205), from the corrected samples of VN and IN: bits as in BAL_TAMP_STAT. -/
def State.detectorConds (s : State) (vn n : List Int) : Nat :=
  let rev := fun (p : Nat) => !nbit (s.fget BAL_TAMP_CFG0.EXPORT_OK) p && decide (sval 32 (s.fget BAL_P.W p) < -(s.fget BAL_TAMP_CFG0.REV_MIN : Int))
  let sum := s.vectorSum
  let is_ := n.map (· * (s.fget BAL_CAL_FS.FS 7 : Int))
  let byp := s.fget BAL_TAMP_CFG1.BYP_MIN
  let bypass := decide (squares (is_.zipWith (· - ·) sum) > rmsLimit byp)
  let neutral := decide (squares (vn.map (· * (s.fget BAL_CAL_FS.FS 3 : Int))) > rmsLimit (s.fget BAL_TAMP_CFG2.NEU_MAX))
    || (decide (squares is_ < rmsLimit byp) && decide (squares sum > rmsLimit (4 * byp)))
  b2n (rev 0) + 2 * b2n (rev 1) + 4 * b2n (rev 2) + 8 * b2n bypass + 16 * b2n neutral

/-- The detectors run while the metrology is ON and COHERENT (R205). -/
def State.detectorsRun (s : State) : Bool := s.fget BAL_MET_STAT.STATE == 2 && s.coherent

/-- A phase-A cycle counts in every detector's run: of cycles with its condition while it is clear, and without it while it is set (R205). -/
def State.detectCycle (s : State) (vn n : List Int) : State :=
  if s.detectorsRun = false then { s with bal := { s.bal with runs := [] } }
  else
    let conds := s.detectorConds vn n
    let active := s.fget BAL_TAMP_STAT.ACTIVE
    { s with bal := { s.bal with runs := (List.range 5).foldl (fun t d => tput 0 t d (if nbit conds d != nbit active d then tget 0 s.bal.runs d + 1 else 0)) [] } }

/-- A detector's qualifying cycles. -/
def State.detectorCycles (s : State) (d : Nat) : Nat :=
  if d < 3 then s.fget BAL_TAMP_CFG0.REV_CYC else if d = 3 then s.fget BAL_TAMP_CFG1.BYP_CYC else s.fget BAL_TAMP_CFG2.NEU_CYC

/-- A detector's run has reached its qualifying cycles: it changes (R205). -/
def State.detectorDue (s : State) (d : Nat) : Bool :=
  decide (d < 5) && s.detectorsRun && decide (0 < tget 0 s.bal.runs d ∧ s.detectorCycles d ≤ tget 0 s.bal.runs d)

/-- A phase cycle ends (R176, R177): its 256 raw samples of voltage and current, for phase A also those of VN and IN, and its duration in
nanoseconds. -/
def execMetrologyCycleEnd (phase : Nat) (v i vn n : List Nat) (period : Nat) (s : State) : Res :=
  .next (if phase ≥ 3 ∨ s.fget BAL_MET_STAT.STATE ≠ 2 then s
    else
      let (vs, s) := s.samples phase v
      let (is_, s) := s.samples (4 + phase) i
      let old := tget [] s.bal.tails phase
      let quarter := (List.replicate (64 - old.length) 0 ++ old) ++ vs
      let dot := fun (xs ys : List Int) => (xs.zip ys).foldl (fun a p => a + p.1 * p.2) (0 : Int)
      let fv := s.fget BAL_CAL_FS.FS phase
      let fi := s.fget BAL_CAL_FS.FS (4 + phase)
      let pn := dot vs is_ * ((fv * fi : Nat) : Int)
      let qn := dot quarter is_ * ((fv * fi : Nat) : Int)
      let den := 256 * 2 ^ 90 * 10 ^ 4
      let s := { s with bal := { s.bal with tails := tput [] s.bal.tails phase (vs.drop 192) } }
      let s := ((s.fset BAL_P.W phase (sat32 (roundInt pn den))).fset BAL_Q.VAR phase (sat32 (roundInt qn den))).fset BAL_VRMS.MV phase (rms vs (fv * 100))
      let s := s.fset BAL_IRMS.MA phase (rms is_ fi)
      let s := if pn ≥ 0 then s.energyAdd BAL_EAI.LO BAL_EAI.HI phase (4 * phase) pn.natAbs period
        else s.energyAdd BAL_EAE.LO BAL_EAE.HI phase (4 * phase + 1) pn.natAbs period
      let s := if qn ≥ 0 then s.energyAdd BAL_ERI.LO BAL_ERI.HI phase (4 * phase + 2) qn.natAbs period
        else s.energyAdd BAL_ERE.LO BAL_ERE.HI phase (4 * phase + 3) qn.natAbs period
      let s := (List.range 8).foldl (fun (s : State) w => s.latchSet w phase) s
      let s := { s with bal := { s.bal with currents := tput [] s.bal.currents phase is_ } }
      if phase = 0 then
        let (xs, s) := s.samples 3 vn
        let (ys, s) := s.samples 7 n
        ((s.fset BAL_N_VRMS.MV 0 (rms xs (s.fget BAL_CAL_FS.FS 3 * 100))).fset BAL_N_IRMS.MA 0 (rms ys (s.fget BAL_CAL_FS.FS 7))).detectCycle xs ys
      else s)

/-- A detector's condition has held for its qualifying cycles (R205). -/
def execFeederDetectorSet (detector : Nat) (s : State) : Res :=
  .next (if s.detectorDue detector = false ∨ nbit (s.fget BAL_TAMP_STAT.ACTIVE) detector then s
    else
      let s := { s with bal := { s.bal with runs := tput 0 s.bal.runs detector 0 } }
      let s := s.fset BAL_TAMP_STAT.ACTIVE 0 (nsetBit (s.fget BAL_TAMP_STAT.ACTIVE) detector true)
      let s := s.fset BAL_TAMP_LATCH.SEEN 0 (nsetBit (s.fget BAL_TAMP_LATCH.SEEN) detector true)
      let s := (List.range 8).foldl (fun s w => match (s.winSet w).cur with
        | some c => s.setWinSet w { s.winSet w with cur := some { c with tamper := true } }
        | none => s) s
      s.signal 902 (leB 1 (2 ^ detector)))

/-- A detector's condition has been absent for its qualifying cycles (R205). -/
def execFeederDetectorClear (detector : Nat) (s : State) : Res :=
  .next (if s.detectorDue detector = false ∨ nbit (s.fget BAL_TAMP_STAT.ACTIVE) detector = false then s
    else ({ s with bal := { s.bal with runs := tput 0 s.bal.runs detector 0 } } : State).fset BAL_TAMP_STAT.ACTIVE 0 (nsetBit (s.fget BAL_TAMP_STAT.ACTIVE) detector false))

/-! ### Thosa frames and phase reports (R185, R186, R202 to R204) -/

/-- The 8-byte header and body of a Thosa frame this device sends. -/
def State.thosa (s : State) (typ : Nat) (body : List Byte) : List Byte × State :=
  (leB 1 0x40 ++ leB 1 (s.fget BAL_TH_CFG.THOSA_ID) ++ leB 1 1 ++ leB 1 typ ++ leB 2 body.length ++ leB 2 s.bal.thSeq ++ body,
   { s with bal := { s.bal with thSeq := (s.bal.thSeq + 1) % 65536 } })

/-- The G3 data payload begins as a Thosa frame: ESC and THOSA_ID (R185). -/
def State.isThosa (s : State) (f : List Byte) : Bool := decide (2 ≤ f.length ∧ leAt f 0 1 = 0x40 ∧ leAt f 1 1 = s.fget BAL_TH_CFG.THOSA_ID)

/-- A body length that matches a TYPE (R186, R187, R202, R419). -/
def thosaLen (typ len : Nat) : Bool :=
  match typ with
  | 0x01 => len == 20
  | 0x02 => len == 8
  | 0x10 => len == 48
  | 0x11 => decide (72 ≤ len ∧ len ≤ 392 ∧ len % 16 = 8)
  | 0x12 => len == 12
  | 0x13 => decide (9 ≤ len ∧ len ≤ 136)
  | 0x14 => len == 16
  | 0x15 => len == 8
  | _ => false

/-- TYPE and body of a received Thosa frame that R186 accepts. -/
def State.thosaBody (s : State) (secured : Bool) (f : List Byte) : Option (Nat × List Byte) :=
  let typ := leAt f 3 1
  let len := leAt f 4 2
  if secured ∧ s.isThosa f ∧ leAt f 2 1 = 1 ∧ thosaLen typ len ∧ f.length = 8 + len then some (typ, f.drop 8) else none

/-- The distance of two phases, the shorter way round. -/
def phaseDist (a b : Nat) : Nat := let d := (a + 65536 - b % 65536) % 65536; min d (65536 - d)

/-- A counted or discarded phase report of a member (R203, R204). -/
def State.phaseReport (s : State) (ledger mark delay : Nat) : State :=
  if nbit (lget (s.led ledger) L.BAL) 31 = false ∨ (List.range 4).all (fun e => s.fget BAL_MARK_ST.STATE e == 0 || s.fget BAL_MARK_ID.ID e != mark) then s
  else
    let x := (0x2AAB + delay) % 65536
    let cand := [(1, 0, 0), (2, 0, s.fget MPT_PH_B.OFFSET), (3, 0, s.fget MPT_PH_C.OFFSET), (1, 1, 0x8000), (2, 1, s.fget MPT_PH_B.OFFSET + 0x8000), (3, 1, s.fget MPT_PH_C.OFFSET + 0x8000)]
    let best := cand.foldl (fun (b : Nat × Nat × Nat) c => if phaseDist x c.2.2 < phaseDist x b.2.2 then c else b) (1, 0, 0)
    if phaseDist x best.2.2 > s.fget BAL_PH_CFG.TOL then s.fsat BAL_PH_AMBIG.COUNT 0
    else
      let m := s.memb ledger
      let same := nbits m 10 8 == best.1 && nbits m 11 11 == best.2.1
      let agree := if same then min 7 (nbits m 14 12 + 1) else 1
      let s := s.setMemb ledger (m % 256 + best.1 * 2 ^ 8 + best.2.1 * 2 ^ 11 + agree * 2 ^ 12)
      if agree ≠ s.fget BAL_PH_CFG.N_AGREE ∨ (same ∧ nbits m 14 12 = 7) then s
      else
        let differs := nbits (lget (s.led ledger) L.BAL) 17 16 != best.1
        let sig := fun (s : State) (code : Nat) => s.signal 901 (leB 4 ledger ++ leB 1 best.1 ++ leB 1 best.2.1 ++ leB 1 code)
        let s := if differs then sig s (if nbit m 2 then 2 else 1) else s
        if best.2.1 = 1 then sig s 3 else s

/-! ### Register rows -/

/-- A write of the mark table (R190, R209): centre role only. -/
def execMarkTableWrite (host off value : Nat) (s : State) : Res :=
  .next (s.gate host .bal off (fun s =>
    if off < 0x540 ∨ off ≥ 0x580 ∨ off % 4 ≠ 0 then s
    else if s.centre = false then s.errAt BAL_ERR.MARK_WR off
    else (s.writeReg host .bal 0 off 0 value).2))

/-- BAL_MEMB_VAL (R192): bits 7:0 of the entry the host's BAL_MEMB_IDX names. Without a member area there is no entry. -/
def execMembValWrite (host value : Nat) (s : State) : Res :=
  .next (s.gate host .bal 0x704 (fun s =>
    if s.fbit BAL_CFG.MEMB_VALID = false then s
    else let l := s.fget BAL_MEMB_IDX.LEDGER host; s.setMemb l (s.memb l / 256 * 256 + value % 256)))

/-- Turn a node ON, where it has an accumulator area (R197, R209). Its first window is the one its set opens next. -/
def State.nodeStart (s : State) (n : Nat) : State :=
  if s.fbit BAL_CFG.AREA_VALID then s.turnOn lifeNode n else s.turnOff lifeNode n

/-- A node's open and waiting windows are discarded without results (R197). -/
def State.nodeDiscard (s : State) (n : Nat) : State :=
  let w := s.fget BAL_N_CFG.WS n
  let x := s.winSet w
  let cut := fun (v : Window) => v.setNode n {}
  s.setWinSet w { x with cur := x.cur.map cut, closed := x.closed.map cut }

/-- A node leaves DRAINING. -/
def State.nodeDrained (s : State) (n : Nat) : State := s.drainDone lifeNode n (fun s => s.nodeStart n)

/-- BAL_N_CTRL.ENABLE (R197). -/
def execBalNodeEnable (host value : Nat) (s : State) : Res :=
  .next (s.gateW host .bal 0 0x1100 (fun n s => s.enableWrite lifeNode n (nbit value 0) (fun s => s.nodeStart n) (fun s => s.nodeDiscard n)))

/-- The nodes whose PARENT is a node (R197). -/
def State.children (s : State) (n : Nat) : List Nat :=
  ((tget [] s.regs BAL_N_CFG.PARENT_VALID.id).filter (fun e => e.2 == 1 && s.fget BAL_N_CFG.PARENT e.1 == n)).map (·.1)

/-- A configuration write of a node (R197, R198): BUSY unless OFF, then TREE, then ROLE, also for a result ring of another owner (R210). -/
def State.nodeWrite (s : State) (host n off value : Nat) : State :=
  if s.fget BAL_N_STAT.STATE n ≠ 0 then s.errAt BAL_ERR.BUSY off
  else
    match s.writeReg host .bal 0 off n value with
    | (false, s') => s'
    | (true, s') =>
      let p := s'.fget BAL_N_CFG.PARENT n
      let tree : Bool := (s'.fbit BAL_N_CFG.PARENT_VALID n && (decide (p ≥ n) || s'.fget BAL_N_CFG.WS p != s'.fget BAL_N_CFG.WS n
        || (match s.balOwner n with | some t => !s.ten.active.ownsBal t p | none => true)))
        || (s.children n).any (fun c => s'.fget BAL_N_CFG.WS c != s'.fget BAL_N_CFG.WS n)
      let ty := s'.fget BAL_N_CFG.REF_TYPE n
      let role : Bool := match ty with
        | 0 => false
        | 1 => s.centre || s.balOwner n != some (s.fget BAL_CFG.MET_OWNER)
                || decide (((tget [] s'.regs BAL_N_CFG.REF_TYPE.id).filter (fun e => e.2 == 1)).length > 4)
        | 2 => match s.balOwner n with | some t => !s.ownsLedger t (s'.fget BAL_N_REF.LEDGER n) | none => true
        | _ => true
      let ring : Bool := s'.fbit BAL_N_RING.VALID n && (s.ten.active.ringOwner (s'.fget BAL_N_RING.RING n) != s.balOwner n || (s.balOwner n).isNone)
      if tree then s.errAt BAL_ERR.TREE off else if role || ring then s.errAt BAL_ERR.ROLE off else s'

/-- A write of WS_CTRL: a set that is enabled anew has no open window until its first boundary (R181). -/
def State.wsEnable (s : State) (host off value : Nat) : State :=
  let w := (off - 0x400) / 32
  let was := s.fbit BAL_WS_CTRL.EN w
  let s := (s.writeReg host .bal 0 off 0 value).2
  if was = false ∧ s.fbit BAL_WS_CTRL.EN w then s.setWinSet w { s.winSet w with cur := none, latch := [] } else s

/-- A write of WS_LEN or WS_EVAL (R184). -/
def State.wsWrite (s : State) (host off value : Nat) : State :=
  let w := (off - 0x400) / 32
  if s.fbit BAL_WS_CTRL.EN w then s.errAt BAL_ERR.BUSY off
  else
    let len := if off % 32 = 4 then value % 2 ^ 24 else s.fget BAL_WS_LEN.CYCLES w
    let ev := if off % 32 = 8 then value % 2 ^ 16 else s.fget BAL_WS_EVAL.S w
    let f := if s.fbit MPT_CFG.NOMINAL_60 then 60 else 50
    if len < 3000 ∨ ev = 0 ∨ ev * f ≥ 3 * len then s.errAt BAL_ERR.RANGE off else (s.writeReg host .bal 0 off 0 value).2

end Sys2Proof.Machine
end

