-- ==== Sys2Proof/Machine/Rings.lean ====
section
/-! DEFINITION. Host attachments, doorbells, descriptor fetch, ring lifecycle and event routes (R263 to R291, R299 to R304). -/
namespace Sys2Proof.Machine
open Reg

/-! ### Doorbells (R284, R285) -/

/-- A refused doorbell: the writing host and the ring are recorded, RNG_ERR_OFS is not (R285). -/
def State.dbErr (s : State) (f : Fld) (host r : Nat) : State := s.rngErr f host r none

/-- The checks of a doorbell: from the ring's host, and that host UP. -/
def State.doorbell (s : State) (host r : Nat) (body : State → State) : State :=
  if r ≥ 4096 then s
  else if host ≠ s.ringHost r then (s.fsat RNG_H_DBPROT.COUNT host).dbErr RNG_ERR.DB_PROT host r
  else if s.fbit RNG_H_STAT.UP host = false then s
  else body s

/-- DB_SQ_TAIL: discarded for a PRODUCE ring; refused for a ring that is not ON or a value of SIZE or above. It lets a ring whose fetch
failed fetch again (R278). -/
def State.dbSqTail (s : State) (host r v : Nat) : State :=
  s.doorbell host r (fun s =>
    if s.fget RNG_R_CFG.TYPE r = 1 then s
    else if s.fget RNG_R_STAT.STATE r ≠ 2 ∨ v % 65536 ≥ s.ringSize r then s.dbErr RNG_ERR.DB_RANGE host r
    else (s.fset RNG_R_SQ.TAIL r v).fset RNG_R_STAT.FETCH_ERR r 0)

/-- Journal records of a HOST sink whose last entry CONS_HEAD has passed are acknowledged (R283). -/
def State.hostConsumed (s : State) (r old new : Nat) : State :=
  let z := s.ringSize r
  (List.range 1024).foldl (fun s t =>
    if s.fbit LDG_T_HRING.VALID t ∧ s.fget LDG_T_HRING.RING t = r then
      let done := ((s.tenJ t).hostSent.takeWhile (fun x => decide (x.2 < z ∧ (x.2 + z - old) % z < (new + z - old) % z))).map (·.1)
      let s := match done.getLast? with | some q => s.jAck t 2 (q + 1) | none => s
      s.hostFeedAll t
    else s) s

/-- Archive records that waited for room on a ring are written (R112). -/
def State.archRoom (s : State) (r : Nat) : State :=
  s.ldg.arch.foldl (fun s e => if s.route e.1 6 2 = r + 32768 then s.archFeedAll e.1 else s) s

/-- A PRODUCE ring starts at a new generation: records it held before can no longer be consumed, and those that waited are written (R112, R140). -/
def State.ringFeed (s : State) (r : Nat) : State :=
  if s.fget RNG_R_CFG.TYPE r = 0 then s
  else
    let s := (List.range 1024).foldl (fun s t => if s.fbit LDG_T_HRING.VALID t ∧ s.fget LDG_T_HRING.RING t = r then (s.hostStale t).hostFeedAll t else s) s
    s.archRoom r

/-- DB_HEAD: consumes completions, or records with CONS_HEAD. A reserved completion slot that is not yet written is not passed (R285; log entry 96). -/
def State.dbHead (s : State) (host r v : Nat) : State :=
  s.doorbell host r (fun s =>
    let z := s.ringSize r
    let v := v % 65536
    let old := s.fget RNG_R_CQ.HEAD r
    let used := (s.fget RNG_R_CQ.TAIL r + z - old) % z
    let unwritten := (s.ring r).order.any (fun x => match (s.desc r x).bind (·.cqSlot) with
      | some (q, _) => decide ((q + z - old) % z < (v + z - old) % z)
      | none => false)
    if s.fget RNG_R_STAT.STATE r = 0 ∨ v ≥ z ∨ (v + z - old) % z > used ∨ unwritten then s.dbErr RNG_ERR.DB_RANGE host r
    else
      let s := s.fset RNG_R_CQ.HEAD r v
      if s.fget RNG_R_CFG.TYPE r = 0 then s.ringAdvance r ((s.ring r).order.length + 1)
      else
        let g := s.ring r
        let s := s.setRing r { g with prods := g.prods.filter (fun e => decide ((e.1 + z - old) % z ≥ (v + z - old) % z)) }
        let s := s.fset RNG_R_OUT.COUNT r (s.prodUsed r)
        (s.hostConsumed r old v).archRoom r)

/-- A DB_SQ_TAIL write. -/
def execDoorbellSqTail (host ring value : Nat) (s : State) : Res := .next (s.dbSqTail host ring value)

/-- A DB_HEAD write. -/
def execDoorbellHead (host ring value : Nat) (s : State) : Res := .next (s.dbHead host ring value)

/-! ### Descriptor fetch (R278, R286) -/

/-- A ring's next slot may be fetched: ON, descriptors pending, no failed fetch, the descriptor last fetched from the slot completed, and at most
SIZE - 1 outstanding (R278). -/
def State.mayFetch (s : State) (h r : Nat) : Bool :=
  let g := s.ring r
  let head := s.fget RNG_R_SQ.HEAD r
  s.fget RNG_R_STAT.STATE r == 2 && s.fget RNG_R_CFG.TYPE r == 0 && s.ringHost r == h && !s.fbit RNG_R_STAT.FETCH_ERR r
    && head != s.fget RNG_R_SQ.TAIL r && (s.desc r head).isNone && !(g.reads.any (fun x => x.slot == head))
    && decide (g.order.length + g.reads.length + 1 < s.ringSize r)

/-- Rings of a host that the fetch unit may choose, ascending. -/
def State.fetchable (s : State) (h : Nat) : List Nat := ((tget [] s.regs RNG_R_STAT.STATE.id).map (·.1)).filter (fun r => s.mayFetch h r)

/-- The ring of a level whose turn is next, in ascending ring number (R286). -/
def State.turn (s : State) (h l : Nat) (rs : List Nat) : Option Nat :=
  let mine := rs.filter (fun r => s.fget RNG_R_CFG.PRIO r == l)
  let last := tget 4095 (s.host h).lastRing l
  match mine.find? (fun r => decide (r > last)) with
  | some r => some r
  | none => mine.head?

/-- Weight of a level 2 to 7. -/
def State.weight (s : State) (h l : Nat) : Nat :=
  match l with
  | 2 => s.fget RNG_H_WT0.WT2 h | 3 => s.fget RNG_H_WT0.WT3 h | 4 => s.fget RNG_H_WT0.WT4 h | 5 => s.fget RNG_H_WT0.WT5 h
  | 6 => s.fget RNG_H_WT1.WT6 h | _ => s.fget RNG_H_WT1.WT7 h

/-- The level served at an issue slot, and the host's record of the round after it (R286). The round ends when no level with weight left has a
descriptor pending. -/
def State.pickLevel (s : State) (h : Nat) (rs : List Nat) : Option Nat × HostA :=
  let pend := fun l => rs.any (fun r => s.fget RNG_R_CFG.PRIO r == l)
  let ls := [2, 3, 4, 5, 6, 7].filter pend
  let nz := ls.filter (fun l => s.weight h l != 0)
  let left := nz.filter (fun l => decide (tget 0 (s.host h).spent l < s.weight h l))
  let (a, left) := if left.isEmpty then ({ s.host h with spent := [], lastLevel := 7 }, nz) else (s.host h, left)
  if pend 0 then (some 0, a)
  else if pend 1 then (some 1, a)
  else if nz.isEmpty then (ls.head?, a)
  else
    let l := match left.find? (fun l => decide (l > a.lastLevel)) with | some l => some l | none => left.head?
    match l with
    | some l => (some l, { a with spent := tput 0 a.spent l (tget 0 a.spent l + 1), lastLevel := l })
    | none => (none, a)

/-- Reads of a host's rings in flight. -/
def State.readsOf (s : State) (h : Nat) : Nat := s.rng.rings.foldl (fun a e => if s.ringHost e.1 = h then a + e.2.reads.length else a) 0

/-- An issue slot of a host's fetch unit (R286): at most 64 reads in flight. -/
def execDescriptorFetchIssue (host : Nat) (s : State) : Res :=
  .next (if s.fbit RNG_H_STAT.UP host = false ∨ s.readsOf host ≥ 64 then s
    else
      let rs := s.fetchable host
      match s.pickLevel host rs with
      | (none, a) => s.setHost host a
      | (some l, a) =>
        match s.turn host l rs with
        | none => s
        | some r =>
          let s := s.setHost host { a with lastRing := tput 4095 a.lastRing l r }
          let g := s.ring r
          let head := s.fget RNG_R_SQ.HEAD r
          let s := s.setRing r { g with reads := g.reads ++ [{ slot := head }] }
          s.fset RNG_R_SQ.HEAD r ((head + 1) % s.ringSize r))

/-- The status a descriptor's check ends it with, if it does not pass (R25, R275). -/
def State.descCheck (s : State) (r : Nat) (d : Desc) : Option Nat :=
  let tn := s.ringTenant r
  let h := s.ringHost r
  if s.tenOn tn = false then some 0x22
  else if nbit (s.ten.active.ringMask r) h = false ∨ nbit (s.ten.active.hostMask tn) h = false then some 0x23
  else if d.prio < s.ten.active.prioMin tn then some 0x23
  else if d.opcode > 2 ∨ (d.opcode = 2 ∧ (s.fbit RNG_R_TASK.VALID r = false ∨ s.taskOwner (s.fget RNG_R_TASK.TASK r) ≠ some tn)) then some 0x23
  else none

/-- Take up a returned descriptor: checked, then held by its fence or started (R274, R275). -/
def State.takeUp (s : State) (r slot : Nat) (data : List Byte) : State :=
  let d : Desc := { opcode := leAt data 0 1, flags := leAt data 1 1, user := leAt data 8 8, area := slice data 16 48, gen := s.fget RNG_R_STAT.GEN r, st := .running,
                    resv := slice data 2 6, tenant := s.ringTenant r, host := s.ringHost r, epoch := s.fget CHIP_EPOCH.EPOCH, prio := s.fget RNG_R_CFG.PRIO r }
  let g := s.ring r
  let first := g.order.isEmpty
  let s := s.setRing r { g with descs := tput none g.descs slot (some d), order := g.order ++ [slot] }
  let s := (s.fset RNG_R_OUT.COUNT r (s.ring r).order.length).fsat RNG_H_FETCHED.COUNT (s.ringHost r)
  match s.descCheck r d with
  | some st => s.finishDesc r slot st
  | none =>
    if nbit d.flags 1 ∧ first = false then s.setDesc r slot (some { d with st := .fenced })
    else
      let s := s.startDesc r slot
      s.ringAdvance r ((s.ring r).order.length + 1)

/-- Take up returned descriptors in slot order, at most `n` (R278). -/
def State.takeReads (s : State) (r : Nat) : Nat → State
  | 0 => s
  | n + 1 =>
    let g := s.ring r
    match g.reads with
    | x :: rest =>
      match x.data with
      | some b => ((s.setRing r { g with reads := rest }).takeUp r x.slot b).takeReads r n
      | none => s
    | [] => s

/-- The serial ring area's base in DRAM (R268, R300). -/
def State.shpBase (s : State) : Nat := s.base RNG_SHP_LO.BASE_LO 12 RNG_SHP_HI.BASE_HI

/-- An address of a ring area of 64 bits in 4 KiB steps. -/
def State.areaAt (s : State) (lo hi : Fld) (r : Nat) : Nat := s.fget lo r * 4096 + s.fget hi r * 2 ^ 32

/-- The bytes the device wrote at a completion slot or first entry of a ring. -/
def Ring.ownBytes (g : Ring) (typ q : Nat) : List Byte :=
  if typ = 0 then (match tget none g.cpls q with | some c => c.bytes | none => []) else (match tget none g.prods q with | some p => p.bytes | none => [])

/-- A ring's area that the device writes: its offset in the serial ring area, the bytes of an entry and of the whole (R270). -/
def State.ownArea (s : State) (r : Nat) : Nat × Nat × Nat :=
  if s.fget RNG_R_CFG.TYPE r = 0 then (s.areaAt RNG_R_CQ_LO.CQ_LO RNG_R_CQ_HI.CQ_HI r, 32, 32 * s.ringSize r)
  else (s.areaAt RNG_R_BASE_LO.BASE_LO RNG_R_BASE_HI.BASE_HI r, 2 ^ s.fget RNG_R_CFG.ESIZE_LOG2 r, 2 ^ s.fget RNG_R_CFG.ESIZE_LOG2 r * s.ringSize r)

/-- What the device wrote at a byte of the serial ring area, for a ring of host 2: the ring, the slot or first entry, and the place in its bytes. Of two
records that reach the byte the later starts nearer to it (R270, R279, R282; log entry 107). -/
def State.shpOwn (s : State) (off : Nat) : Option (Nat × Nat × Nat) :=
  s.rng.rings.findSome? (fun (e : Nat × Ring) =>
    let (a, es, n) := s.ownArea e.1
    let typ := s.fget RNG_R_CFG.TYPE e.1
    if s.ringHost e.1 ≠ 2 ∨ off < a ∨ a + n ≤ off then none
    else
      let ks := if typ = 0 then e.2.cpls.map (·.1) else e.2.prods.map (·.1)
      (ks.foldl (fun (b : Option (Nat × Nat)) k =>
        let d := (off - a + n - es * k) % n
        if d < (e.2.ownBytes typ k).length ∧ b.all (fun x => decide (d < x.2)) then some (k, d) else b) none).map (fun x => (e.1, x.1, x.2)))

/-- `n` bytes of the serial ring area from an offset: what the device wrote there, else what DRAM holds. -/
def State.shpBytes (s : State) (off : Nat) : Nat → List Byte
  | 0 => []
  | n + 1 =>
    (match s.shpOwn off with
      | some (r, k, d) => ((s.ring r).ownBytes (s.fget RNG_R_CFG.TYPE r) k).getD d 0
      | none => (s.mread (s.shpBase + off) 1).headD 0) :: s.shpBytes (off + 1) n

/-- Before the host writes over it, the record the device wrote at a byte becomes bytes of DRAM, wrapping at its area's end. -/
def State.shpSettle (s : State) (off : Nat) : State :=
  match s.shpOwn off with
  | none => s
  | some (r, k, _) =>
    let (a, es, n) := s.ownArea r
    let g := s.ring r
    let b := g.ownBytes (s.fget RNG_R_CFG.TYPE r) k
    let s := if s.fget RNG_R_CFG.TYPE r = 0 then s.setRing r { g with cpls := tput none g.cpls k none } else s.setRing r { g with prods := tput none g.prods k none }
    (s.mwrite (s.shpBase + a + es * k) (b.take (n - es * k))).mwrite (s.shpBase + a) (b.drop (n - es * k))

/-- A descriptor read returns: from host memory as given, from the serial ring area, or from the MRT receive buffer (R270, R278). -/
def execDescriptorFetched (ring slot : Nat) (data : List (BitVec 8)) (s : State) : Res :=
  .next (let g := s.ring ring
    if g.reads.any (fun x => x.slot == slot && x.data.isNone) = false then s
    else
      let h := s.ringHost ring
      let b := if h = 2 then s.shpBytes (s.areaAt RNG_R_BASE_LO.BASE_LO RNG_R_BASE_HI.BASE_HI ring + 64 * slot) 64
        else if h ≥ 3 then fit 64 ((tget none g.stored slot).getD []) else fit 64 data
      let s := s.setRing ring { g with reads := g.reads.map (fun x => if x.slot = slot then { x with data := some b } else x) }
      s.takeReads ring g.reads.length)

/-- A descriptor read fails: tried again within the budget, then the ring stops fetching, with that slot to be fetched first (R278). -/
def execDescriptorFetchFail (ring slot : Nat) (s : State) : Res :=
  .next (let g := s.ring ring
    match g.reads.find? (fun x => x.slot == slot && x.data.isNone) with
    | none => s
    | some x =>
      if x.tries < s.fget PIP_RETRY_DMA.TRIES then
        s.setRing ring { g with reads := g.reads.map (fun y => if y.slot = slot then { y with tries := y.tries + 1 } else y) }
      else
        let keep := g.reads.takeWhile (fun y => y.slot != slot)
        let s := (s.setRing ring { g with reads := keep }).fset RNG_R_SQ.HEAD ring slot
        ((s.fset RNG_R_STAT.FETCH_ERR ring 1).signal 26 (leB 2 ring ++ leB 2 slot)).rngErr RNG_ERR.FETCH (s.ringHost ring) ring none)

/-- A TASK_CMD that waits is delivered once its entry, input 5 and the pool quota have room (R276). -/
def execTaskCmdDeliver (ring slot : Nat) (s : State) : Res :=
  .next (match s.desc ring slot with
    | some d => if d.st = .waitDeliver then s.deliverCmd ring slot else s
    | none => s)

/-! ### Ring lifecycle (R271, R272) -/

/-- Bytes of a ring's area at BASE. -/
def State.areaSize (s : State) (r : Nat) : Nat :=
  s.ringSize r * (if s.fget RNG_R_CFG.TYPE r = 0 then 64 else 2 ^ s.fget RNG_R_CFG.ESIZE_LOG2 r)

/-- The areas of a ring of host 2 lie inside the serial ring area. -/
def State.areasFit (s : State) (r : Nat) : Bool :=
  let n := s.fget RNG_SHP_SIZE.PAGES * 4096
  decide (s.areaAt RNG_R_BASE_LO.BASE_LO RNG_R_BASE_HI.BASE_HI r + s.areaSize r ≤ n)
    && (s.fget RNG_R_CFG.TYPE r == 1 || decide (s.areaAt RNG_R_CQ_LO.CQ_LO RNG_R_CQ_HI.CQ_HI r + s.ringSize r * 32 ≤ n))

/-- Turn a ring ON, or leave it OFF with RNG_ERR.ENABLE or RNG_ERR.HOST (R271). Both sides start from heads, tails 0 and phase 1 (R272). -/
def State.ringStart (s : State) (host r : Nat) : State :=
  let off := s.turnOff lifeRing r
  let h := s.ringHost r
  match s.ten.active.ringOwner r with
  | none => off.rngErr RNG_ERR.ENABLE host r (some 0x1100)
  | some tn =>
    if s.tenOn tn = false then off.rngErr RNG_ERR.ENABLE host r (some 0x1100)
    else if nbit (s.ten.active.ringMask r) h = false ∨ nbit (s.ten.active.hostMask tn) h = false then off.rngErr RNG_ERR.HOST host r (some 0x1100)
    else
      let t := s.fget RNG_R_TASK.TASK r
      let cmd := s.fget RNG_R_CFG.TYPE r == 0 && s.fbit RNG_R_TASK.VALID r
      let bad := (h == 2 && !s.areasFit r)
        || (cmd && (s.taskOwner t != some tn
          || decide (s.fget RNG_R_TASK.CMDA r * 64 + 64 * 2 ^ s.fget RNG_R_TASK.CMDA_LOG2 r > s.fget TSK_DATA.PAGES t * 4096)))
      if bad then off.rngErr RNG_ERR.ENABLE host r (some 0x1100)
      else
        let s := (s.turnOn lifeRing r).setRing r {}
        let s := (((s.fset RNG_R_SQ.HEAD r 0).fset RNG_R_SQ.TAIL r 0).fset RNG_R_CQ.HEAD r 0).fset RNG_R_CQ.TAIL r 0
        (((s.fset RNG_R_STAT.PHASE r 1).fset RNG_R_STAT.FETCH_ERR r 0).fset RNG_R_OUT.COUNT r 0).ringFeed r

/-- A delivered command leaves its task's input queue. -/
def State.unqueueCmd (s : State) (r slot : Nat) : State :=
  let t := s.fget RNG_R_TASK.TASK r
  let g := s.task t
  let q := tget [] g.queues 5
  let mine := fun (e : Evt) => e.src == 2051 && leAt e.pay 0 2 == r && leAt e.pay 2 2 == slot
  if q.any mine = false then s
  else
    let tn := (s.taskOwner t).getD 0
    let s := (s.setTask t { g with queues := tput [] g.queues 5 (q.filter (fun e => !mine e)) }).fsub TSK_IN.COUNT (8 * t + 5)
    ({ s with poolUse := tput 0 s.poolUse tn (s.poolHeld tn - 1) } : State).fsub SCB_POOL.USED 0

/-- The handler bound to a command goes on without it. -/
def State.unbindCmd (s : State) (r slot : Nat) : State :=
  { s with scb := { s.scb with ctxs := s.scb.ctxs.map (fun (e : Nat × Ctx) => (e.1, if e.2.cmd = some (r, slot) then { e.2 with cmd := none } else e.2)) } }

/-- A ring enters DRAINING (R30): reads in flight are dropped; readings not yet committed and commands not yet completed end with
CANCELLED; the rest completes by itself. -/
def State.ringDrain (s : State) (r : Nat) : State :=
  let g := s.ring r
  let s := s.setRing r { g with reads := [], stored := g.stored.filter (fun e => g.order.contains e.1) }
  let s := s.cancelPre (fun k _ => k / 65536 == r)
  let s := s.cancelTags (fun rd => match rd.origin with | .ring q _ _ => q == r | _ => false)
  let s := { s with rng := { s.rng with prio0 := s.rng.prio0.filter (fun e => e.2.1 != r) } }
  (s.ring r).order.foldl (fun s x =>
    match s.desc r x with
    | some d =>
      let ing := d.opcode == 1 && d.st == .running
      match d.st with
      | .waitCq _ _ => s
      | _ => if ing then s else ((s.unqueueCmd r x).unbindCmd r x).finishDesc r x 0x21
    | none => s) s

/-- A ring leaves DRAINING when nothing of its generation is outstanding. -/
def State.ringDrained (s : State) (r : Nat) : State :=
  if s.fget RNG_R_STAT.STATE r ≠ 1 ∨ (s.ring r).order ≠ [] then s else s.drainDone lifeRing r (fun s => s.ringStart s.supv r)

/-- RNG_R_CTRL.ENABLE (R271). -/
def execRingEnable (host value : Nat) (s : State) : Res :=
  .next (s.gateW host .rng 0 0x1100 (fun r s => s.enableWrite lifeRing r (nbit value 0) (fun s => s.ringStart host r) (fun s => s.ringDrain r)))

/-- RNG_R_CMD.CLR (R301). -/
def execRngRClr (host value : Nat) (s : State) : Res :=
  .next (s.gateW host .rng 0 0x1138 (fun r s => if nbit value 0 then (s.fset RNG_R_DONE.COUNT r 0).fset RNG_R_DROP.COUNT r 0 else s))

/-! ### Attachments UP and DOWN (R264, R265, R269) -/

/-- An attachment comes UP when ALLOW is 1, its condition holds and BOOT has ended (R264). -/
def State.hostUpIf (s : State) (h : Nat) : State :=
  if s.rng.attach ∧ s.fbit RNG_H_CTRL.ALLOW h ∧ (s.host h).cond ∧ s.fbit RNG_H_STAT.UP h = false then
    (s.fset RNG_H_STAT.UP h 1).signal 24 (leB 1 h ++ leB 1 1)
  else s

/-- An attachment goes DOWN (R265). -/
def State.hostDown (s : State) (h : Nat) : State :=
  if s.fbit RNG_H_STAT.UP h = false then s
  else
    let s := (s.fset RNG_H_STAT.UP h 0).fadd RNG_H_STAT.DOWNS h
    let rs := ((tget [] s.regs RNG_R_STAT.STATE.id).map (·.1)).filter (fun r => s.ringHost r == h)
    let s := rs.foldl (fun s r =>
      let on := s.fget RNG_R_STAT.STATE r == 2
      let s := ((s.fset RNG_R_STAT.STATE r 1).fset RNG_R_CTRL.ENABLE r 1).fset RNG_R_STAT.ENABLE_LATCHED r 1
      -- completions that wait for a slot fall due now and are discarded
      let s := if on then s.ringDrain r else s
      (s.ring r).order.foldl (fun s x => match s.desc r x with
        | some d => (match d.st with | .waitCq st res => s.postCpl r x st res | _ => s)
        | none => s) s) s
    (s.locksOfHost h).signal 24 (leB 1 h ++ leB 1 0)

/-- The attachment is one the device has: PCIe endpoint 1 only when the link is bifurcated (R263). -/
def State.hasHost (s : State) (h : Nat) : Bool := decide (h < 8) && (h != 1 || s.fbit RNG_INFO.BIFURCATED)

/-- The UP condition of a PCIe attachment begins to hold (R264). The other attachments' conditions follow from their own commands. -/
def execHostUp (host : Nat) (s : State) : Res :=
  .next (if s.hasHost host = false ∨ host > 1 then s else (s.setHost host { s.host host with cond := true }).hostUpIf host)

/-- The UP condition of a PCIe attachment ends (R265). -/
def execHostDown (host : Nat) (s : State) : Res :=
  .next (if s.hasHost host = false ∨ host > 1 then s else (s.setHost host { s.host host with cond := false }).hostDown host)

/-- No serial transaction has completed within RNG_SHP_CFG.TMO (R264). -/
def execShpIdleTimeout (s : State) : Res := .next ((s.setHost 2 { s.host 2 with cond := false }).hostDown 2)

/-- The supervisor host has stayed DOWN for WAIT seconds while the alternate is UP (R269). The role moves once. -/
def execSupvAltTakeover (s : State) : Res :=
  .next (let alt := s.fget RNG_SUPV.ALT
    if s.fbit RNG_SUPV.ALT_VALID = false ∨ s.supv ≠ s.fget RNG_SUPV.PRIMARY ∨ s.supv = alt ∨ s.fbit RNG_H_STAT.UP s.supv ∨ s.fbit RNG_H_STAT.UP alt = false then s
    else
      let s := s.fset CHIP_SUPV.HOST 0 alt
      (s.inkRec 0x40 0 (leB 1 alt)).signal 25 [])

/-- COAL_US passes after the first unsignalled completion or record (R288). -/
def execIrqCoalesceTimeout (ring : Nat) (s : State) : Res :=
  .next (let g := s.ring ring
    if g.coal = 0 ∨ s.fbit RNG_R_IRQ.EN ring = false ∨ s.fget RNG_R_IRQ.COAL_US ring = 0 then s
    else (s.setRing ring { g with coal := 0 }).irq (s.ringHost ring) (s.fget RNG_R_IRQ.VECTOR ring))

/-! ### Event routes (R289 to R291) -/

/-- The sources some block or task signals; every other number is never signalled (R39, R76, R124, R170, R208, R257, R291, R335, R368, R489, R507, R529). -/
def everSignalled (src : Nat) : Bool :=
  [(0, 9), (16, 22), (24, 30), (32, 43), (64, 70), (128, 138), (256, 264), (272, 281), (384, 453), (456, 460), (896, 904), (1024, 1030), (1152, 1161),
   (1280, 2047)].any (fun r => decide (r.1 ≤ src ∧ src ≤ r.2))
    || (decide (512 ≤ src ∧ src < 896) && decide (src % 64 ≤ 8)) || src == 575 || src == 895

/-- A source signals. -/
def execEventSignal (source : Nat) (payload : List (BitVec 8)) (s : State) : Res :=
  .next (if everSignalled source = false ∨ payload.length > 12 then s else s.signal source payload)

/-- The destinations of a route that pass the checks of R290: task, ring. -/
def State.routeOks (s : State) (src v : Nat) : Bool × Bool :=
  match ownerOf s.ten.active.event src with
  | none => (false, false)
  | some tn =>
    (s.taskOwner (nbits v 11 0) == some tn && nbits v 14 12 != 7,
     s.ten.active.ringOwner (nbits v 27 16) == some tn && s.fget RNG_R_CFG.TYPE (nbits v 27 16) == 1)

/-- A write of a route entry (R290). -/
def State.evtRouteWrite (s : State) (src v : Nat) : State :=
  let v := v % 2 ^ 29
  let (t, r) := s.routeOks src v
  if (nbit v 15 ∧ t = false) ∨ (nbit v 28 ∧ r = false) then s.errSet [EVT_ERR.ROUTE] (fun s => s.fset EVT_ERR_INFO.SOURCE 0 src)
  else { s with rng := { s.rng with routes := tput 0 s.rng.routes src v } }

/-- A write of the route table. -/
def execEvtRouteWrite (host off value : Nat) (s : State) : Res :=
  .next (s.gate host .evt off (fun s => if off < 0x10000 ∨ off ≥ 0x12000 ∨ off % 4 ≠ 0 then s else s.evtRouteWrite ((off - 0x10000) / 4) value))

/-- Every route is checked again at an epoch switch (R290). -/
def State.evtRecheck (s : State) : State :=
  s.rng.routes.foldl (fun s e =>
    let (t, r) := s.routeOks e.1 e.2
    let v := nsetBit e.2 15 (nbit e.2 15 && t)
    let v := nsetBit v 28 (nbit e.2 28 && r)
    if v = e.2 then s
    else ({ s with rng := { s.rng with routes := tput 0 s.rng.routes e.1 v } } : State).errSet [EVT_ERR.ROUTE] id) s

/-- EVT_S_CMD.CLR (R303). -/
def execEvtSClr (host value : Nat) (s : State) : Res :=
  .next (s.gateW host .evt 0 0x1108 (fun n s => if nbit value 0 then s.fset EVT_S_DROP.COUNT n 0 else s))

end Sys2Proof.Machine
end

