-- ==== Sys2Proof/Machine/Nodes.lean ====
section
/-! DEFINITION. The node table, its address index and the rules of writing it (R319 to R322, R344, R348). -/
namespace Sys2Proof.Machine
open Reg

/-- A node entry's 32 bytes. -/
def State.node (s : State) (n : Nat) : List Byte := fit 32 (tget [] s.plc.nodes n)

/-- Store a node entry. -/
def State.setNode (s : State) (n : Nat) (b : List Byte) : State :=
  let b := fit 32 b
  { s with plc := { s.plc with nodes := tput [] s.plc.nodes n (if b.all (· == 0) then [] else b) } }

/-- A field of a node entry. -/
def State.nf (s : State) (n off len : Nat) : Nat := leAt (s.node n) off len

/-- Set a field of a node entry. -/
def State.setNf (s : State) (n off len v : Nat) : State := s.setNode n (splice (s.node n) off (leB len v))

/-- Set bits msb:lsb of one byte of a node entry. -/
def State.setNb (s : State) (n off msb lsb v : Nat) : State :=
  let b := s.nf n off 1
  s.setNf n off 1 (b - nbits b msb lsb * 2 ^ lsb + v % 2 ^ (msb + 1 - lsb) * 2 ^ lsb)

/-- FLAGS.VALID. -/
def nodeValid (e : List Byte) : Bool := nbit (leAt e 0x0A 2) 0

/-- MEDIUM: 0 PLC, 1 radio 0, 2 radio 1. -/
def nodeMedium (e : List Byte) : Nat := nbits (leAt e 0x14 1) 5 4

/-- Index keys of an entry: KIND and value (R319, R348). -/
def State.nodeKeys (s : State) (e : List Byte) : List (Nat × Nat) :=
  if nodeValid e = false then []
  else
    let m := nodeMedium e
    let pan := if m = 0 then s.fget PLC_PAN.PAN_ID else s.fget RFM_PAN.PAN_ID
    let k := if m ≠ 0 ∧ nbits (leAt e 0x15 1) 4 3 ≠ 0 then 2 else 0
    (k, leAt e 0 8) :: (if nbit (leAt e 0x0A 2) 1 then [(1, pan + leAt e 8 2 * 2 ^ 16)] else [])

/-- The entry an address maps to. -/
def State.nodeAt (s : State) (kind addr : Nat) : Option Nat := (s.plc.nodes.find? (fun e => (s.nodeKeys (fit 32 e.2)).contains (kind, addr))).map (·.1)

/-- Valid entries, shown in PLC_NT_STAT. -/
def State.nodeCount (s : State) : State :=
  s.fset PLC_NT_STAT.VALID 0 (s.plc.nodes.filter (fun e => nodeValid e.2)).length

/-- A key's set of the address index. -/
def addrSet (k : Nat × Nat) : Nat := Config.addrHash k.1 k.2 % 16384

/-- Address of a node's replay record (R344). -/
def State.rplAddr (s : State) (n : Nat) : Nat := s.base RFM_RPL_LO.BASE_LO 19 RFM_RPL_HI.BASE_HI + 16 * n

/-- A node entry with its reserved bits 0, in the layout of its MEDIUM (R8, R319, R348). -/
def nodeMask (e : List Byte) : List Byte :=
  let m := if nodeMedium e = 0 then [(0x14, 0x3F), (0x16, 0x0F), (0x1B, 0)] else [(0x14, 0x3F), (0x15, 0x1F), (0x16, 0x1F), (0x19, 0x8F), (0x1B, 0)]
  m.foldl (fun e p => splice e p.1 (leB 1 (Nat.land (leAt e p.1 1) p.2))) (splice e 0x0A (leB 2 (leAt e 0x0A 2 % 32)))

/-- Store a whole entry as the hardware's index allows: PROTECTION for an address another entry has, NO_CREDIT for a full set (R321). A write
with VALID 1 clears the node's receive record, or its replay record. -/
def State.nodePut (s : State) (n : Nat) (e : List Byte) (flagsWritten : Bool) : Nat × State :=
  let keys := s.nodeKeys e
  let others := (s.plc.nodes.filter (fun x => x.1 != n)).flatMap (fun x => s.nodeKeys (fit 32 x.2))
  if keys.any (fun k => others.contains k) then (0x23, s)
  else if keys.any (fun k => decide (((keys ++ others).filter (fun o => addrSet o == addrSet k)).length > 4)) then (0x24, s)
  else
    let s := (s.setNode n (nodeMask e)).nodeCount
    if flagsWritten ∧ nodeValid e then
      let s : State := { s with plc := { s.plc with rx := tput {} s.plc.rx n {} } }
      if nodeMedium e = 0 then (0, s) else (0, s.mwrite (s.rplAddr n) (List.replicate 16 0))
    else (0, s)

/-- Bytes a tenant other than 0 may write (R321). -/
def tenantByte (b : Nat) : Bool := (0x0A ≤ b && b ≤ 0x13) || b == 0x1E || b == 0x1F

/-- A masked write of an entry by a tenant (R321). A tenant other than 0 does not write VALID, so the receive record stays (R320). -/
def State.nodeWriteBy (s : State) (tn n mask : Nat) (new : List Byte) : Nat × State :=
  let old := s.node n
  let e := (List.range 32).map (fun b => if nbit mask b then new.getD b 0 else old.getD b 0)
  if tn = 0 then s.nodePut n e (nbit mask 0x0A)
  else
    let f := leAt e 0x0A 2
    let fo := leAt old 0x0A 2
    let l := leAt e 0x0C 4
    let led := nbits mask 15 12 != 0
    let e := if led then splice e 0x0C (leB 4 (l - nbits l 30 21 * 2 ^ 21 + tn * 2 ^ 21)) else e
    if (List.range 32).any (fun b => nbit mask b && !tenantByte b)
        ∨ nsetBit (nsetBit f 2 false) 4 false ≠ nsetBit (nsetBit fo 2 false) 4 false
        ∨ (led ∧ s.ownsLedger tn (nbits l 20 0) = false) then (0x23, s)
    else s.nodePut n e false

/-- LEDGER of a node entry, if LEDGER_VALID: ledger and tenant. -/
def State.nodeLedger (s : State) (n : Nat) : Option (Nat × Nat) :=
  let l := s.nf n 0x0C 4
  if nbit l 31 then some (nbits l 20 0, nbits l 30 21) else none

/-- The neighbour a unicast to a node goes to first (R326). -/
def State.hopOf (s : State) (n : Nat) : Nat := let h := s.nf n 0x10 2; if nbit h 15 then nbits h 14 0 else n

/-- A radio or lane may transmit: the mode, and GRANT (R305, R338, R475). -/
def State.mayTransmit (s : State) : Bool := s.mode ∈ [5, 7, 8, 9] && s.fbit RES_PAIR_STAT.GRANT

/-- Insert into a transmit queue: URGENT ahead of every queued item, high priority ahead of the rest, else at the end (R327, R362). -/
def txInsert (q : List TxItem) (x : TxItem) (high : TxItem → Bool) : List TxItem :=
  if x.urgent then x :: q
  else if high x then q.takeWhile (fun y => y.urgent || high y) ++ [x] ++ q.dropWhile (fun y => y.urgent || high y)
  else q ++ [x]

/-- A signed 32-bit token bucket after an addition, saturating, and not above a depth in mJ. -/
def tokAdd (tok : Nat) (d : Int) (depthUj : Nat) : Nat :=
  let v := sval 32 tok + d
  sat32 (if v > (depthUj : Int) then (depthUj : Int) else v)

/-- Node-command status of a host, and the refusal recorded (R336). -/
def State.nodeRes (s : State) (host st : Nat) : State :=
  let s := s.fset PLC_NODE_RES.STATUS host st
  if st = 0 then s else s.errAt PLC_ERR.NODE 0x6C

/-- PLC_NODE_CMD with OP 1 (R336). -/
def execPlcNodeRead (host : Nat) (s : State) : Res :=
  .next (s.gate host .plc 0x6C (fun s =>
    let n := s.fget PLC_NODE_IDX.NODE host
    let r := tget ({} : RxRec) s.plc.rx n
    let s := (List.range 8).foldl (fun s k => s.fset PLC_NODE_D.DATA (8 * host + k) (s.nf n (4 * k) 4)) s
    let s := ((s.fset PLC_NODE_RX0.FRAME_CNT host r.cnt).fset PLC_NODE_RX1.DUP_AGE host r.age).fset PLC_NODE_RX1.DSN1 host r.dsn1
    (s.fset PLC_NODE_RX1.DSN0 host r.dsn0).nodeRes host 0))

/-- PLC_NODE_CMD with OP 2 (R321, R336): as tenant 0. -/
def execPlcNodeWrite (host : Nat) (s : State) : Res :=
  .next (s.gate host .plc 0x6C (fun s =>
    let n := s.fget PLC_NODE_IDX.NODE host
    let e := (List.range 8).flatMap (fun k => leB 4 (s.fget PLC_NODE_D.DATA (8 * host + k)))
    let (st, s) := s.nodeWriteBy 0 n (2 ^ 32 - 1) e
    s.nodeRes host st))

/-- PLC_NODE_CMD with OP 3 (R336). -/
def execPlcNodeClear (host : Nat) (s : State) : Res :=
  .next (s.gate host .plc 0x6C (fun s =>
    let n := s.fget PLC_NODE_IDX.NODE host
    (((s.setNode n []).nodeCount).nodeRes host 0)))

/-- The rebuild of an index set after a parity error ends (R321). -/
def execNodeIndexRepairDone (s : State) : Res := .next (s.fset PLC_NT_STAT.REPAIR 0 0)

end Sys2Proof.Machine
end

