-- ==== Sys2Proof/Machine/VaultCmds.lean ====
section
/-! DEFINITION. The vault and crypto rows of the table: fuses, provisioning, slot changes, the random source, and the work items of engines
0 to 4 (R374 to R402). -/
namespace Sys2Proof.Machine
open Reg

/-! ### Fuse commands -/

/-- KV_FUSE_CMD REREAD (R374). -/
def execReread (host : Nat) (dev : List FuseRead) (s : State) : Res :=
  .next (s.gate host .kv 0x94 (fun s => (s.fuseReadAll dev).fset KV_FUSE_RES.STATUS 0 0))

/-- The read of every 60 s. -/
def execFusePeriodicReread (dev : List FuseRead) (s : State) : Res := .next (s.fuseReadAll dev)

/-- A word may be programmed in the current mode (R375). -/
def State.fuseMay (s : State) (w : Nat) : Bool := if w < 48 then s.mode == 2 else decide (48 ≤ w ∧ w < 64)

/-- KV_FUSE_CMD PROGRAM (R375). -/
def execProgram (host confirm : Nat) (dev : List FuseRead) (s : State) : Res :=
  .next (s.gate host .kv 0x94 (fun s =>
    if confirm ≠ 0x4655 then s.errAt KV_ERR.CMD 0x94
    else
      let w := s.fget KV_FUSE_ADDR.WORD host
      if s.fuseMay w = false then (s.errAt KV_ERR.FUSE 0x94).fset KV_FUSE_RES.STATUS 0 0x23
      else
        let (ok, s) := s.fuseProgram dev w (s.fget KV_FUSE_DATA.DATA host)
        if ok then s.fset KV_FUSE_RES.STATUS 0 0 else (s.errAt KV_ERR.FUSE 0x94).fset KV_FUSE_RES.STATUS 0 0x40))

/-- KV_PROV_CMD LOCK (R376): ROOT_LOCK is programmed once DEV_ID is not 0. -/
def execLock (host confirm : Nat) (dev : List FuseRead) (s : State) : Res :=
  .next (s.gate host .kv 0xA4 (fun s =>
    if confirm ≠ 0x4C4B then s.errAt KV_ERR.CMD 0xA4
    else if s.mode ≠ 2 then s.errAt KV_ERR.MODE 0xA4
    else if tget 0 s.vault.acc 16 = 0 ∧ tget 0 s.vault.acc 17 = 0 then (s.errAt KV_ERR.FUSE 0xA4).fset KV_FUSE_RES.STATUS 0 0x23
    else
      let (ok, s) := s.fuseProgram dev 8 0xFFFFFFFF
      if ok then (s.fset KV_PROV_STAT.LOCKED 0 1).fset KV_STAT.LOCKED 0 1 else s.errAt KV_ERR.FUSE 0xA4))

/-! ### Slots -/

/-- A slot's sealed record is written and verified, or fails (R384, R386). -/
def execSealRecordDone (slot : Nat) (ok : Bool) (s : State) : Res := .next (s.chgDone slot ok)

/-- The last pin of an old-generation key is released: its cells are cleared and its pool entry is free (R383). -/
def execPinRelease (slot gen : Nat) (s : State) : Res :=
  let v := s.vslot slot
  .next ((s.setVslot slot { v with old := v.old.filter (fun o => !(o.gen == gen && o.pins == 0)) }).pinRegs slot)

/-- A slot is re-masked: new mask, same key (R382). -/
def execKeyRemask (slot : Nat) (s : State) : Res :=
  let v := s.vslot slot
  let (m, s) := s.draw v.cells.length
  .next (s.setVslot slot { v with cells := xorB v.secret m, mask := m })

/-- KV_S_CMD ERASE of the selected slot (R384, R402). -/
def execErase (host : Nat) (s : State) : Res :=
  .next (s.gateW host .kv 0 0x1114 (fun n s =>
    if s.fbit KV_S_RES.BUSY n then s.errAt KV_ERR.CMD 0x1114
    else (s.fset KV_S_RES.BUSY n 1).slotChange n { src := .reg, typ := 0 }))

/-! ### The random source (R399) -/

/-- A health test fails: 0 repetition count, 1 adaptive proportion. -/
def execTrngTestFail (which : Nat) (s : State) : Res :=
  let s := (s.fset KV_STAT.TRNG_OK 0 0).fsat KV_TRNG.FAILS 0
  let s := if which = 0 then s.fset KV_TRNG.RCT 0 1 else s.fset KV_TRNG.APT 0 1
  .next ((s.errSet [KV_ERR.TRNG] (fun s => s)).signal 259 [0])

/-- The start-up test of a failed source runs again; when it passes, TRNG_OK is set. -/
def execTrngRestartTest (pass : Bool) (s : State) : Res :=
  .next (if s.fbit KV_STAT.TRNG_OK = false ∧ pass then (s.fset KV_STAT.TRNG_OK 0 1).signal 259 [1] else s)

/-- The DRBG takes fresh entropy: later draws are unrelated to earlier ones, so the counter of free values advances. -/
def execDrbgReseed (s : State) : Res := .next (s.draw 48).2

/-! ### Work items: the common frame (R25, R239, R387, R396) -/

/-- Serve work item `n` if it is an untouched one of this engine and OP. The verdict of the check at issue and the block on keys come first;
`f` answers status, result word and state; none while the item goes on to a slot change. -/
def State.serve (s : State) (n engine op : Nat) (f : Item → State → Option (Nat × Nat) × State) : State :=
  match s.item n with
  | none => s
  | some it =>
    if it.engine ≠ engine ∨ it.op ≠ op ∨ it.done.isSome ∨ it.inService then s
    else if it.verdict ≠ 0 then s.itemDone n it.verdict 0
    else if engine ≠ 3 ∧ engine < 5 ∧ s.keysBlocked then s.itemDone n 0x15 0
    else
      match f it s with
      | (some (st, r), s') => s'.itemDone n st r
      | (none, s') => s'.setItem n (some { it with inService := true })

/-- An outcome with no output. -/
def only (s : State) (st : Nat) : Option (Nat × Nat) × State := (some (st, 0), s)

/-- The pinned key of an item, if it suits: AES or another class, and the attribute. NO_KEY without a pin, KEY_ATTR for another class or attribute. -/
def State.itKey (s : State) (it : Item) (types : List Nat) (attrs : List Nat) : Nat × KeyMat :=
  match it.pin with
  | none => (0x15, ⟨0, 0, [], []⟩)
  | some (n, g) =>
    match s.keyAt n g with
    | none => (0x15, ⟨0, 0, [], []⟩)
    | some k => if types.contains k.typ ∧ attrs.contains k.attr then (0, k) else (0x13, k)

/-- Finish with bytes at OUT. -/
def State.outDone (s : State) (it : Item) (b : List Byte) (r : Nat := 0) : Option (Nat × Nat) × State :=
  match s.itOut it b with
  | some s => (some (0, r), s)
  | none => only s 0x23

/-- Input, AAD and nonce of an AES item, its limits holding. -/
def State.aesIn (s : State) (it : Item) (extra : Nat) : Option (List Byte × List Byte × List Byte) :=
  match s.itIn it 0 (it.f 0x18 4 + extra), s.itAux it (it.f 0x1C 2) with
  | some d, some a => some (d, a, slice it.bytes 0x28 (it.f 3 1))
  | _, _ => none

/-- GCM limits: LEN ≤ 4,096, AAD ≤ 512, nonce 12, tag 4 to 16. -/
def gcmOk (it : Item) : Bool :=
  decide (it.f 0x18 4 ≤ 4096 ∧ it.f 0x1C 2 ≤ 512 ∧ it.f 3 1 = 12 ∧ 4 ≤ it.f 2 1 ∧ it.f 2 1 ≤ 16)

/-- CCM* limits: LEN + AAD ≤ 352, nonce 7 to 13, an even tag length of 4 to 16. -/
def ccmOk (it : Item) : Bool :=
  decide (it.f 0x18 4 + it.f 0x1C 2 ≤ 352 ∧ 7 ≤ it.f 3 1 ∧ it.f 3 1 ≤ 13 ∧ 4 ≤ it.f 2 1 ∧ it.f 2 1 ≤ 16 ∧ it.f 2 1 % 2 = 0)

/-! ### AES (engine 0) -/

/-- GCM encrypt. -/
def execGcmEncrypt (n : Nat) (s : State) : Res :=
  .next (s.serve n 0 0 (fun it s =>
    match s.itKey it [1, 2] [0] with
    | (0, k) =>
      if gcmOk it = false then only s 0x23
      else match s.aesIn it 0 with
        | some (d, a, nn) =>
          let c := gcmCrypt k.key nn d
          s.outDone it (c ++ (gcmTag k.key nn a c).take (it.f 2 1))
        | none => only s 0x23
    | (e, _) => only s e))

/-- GCM decrypt and verify: the tag stands at IN + LEN. -/
def execGcmDecrypt (n : Nat) (s : State) : Res :=
  .next (s.serve n 0 1 (fun it s =>
    match s.itKey it [1, 2] [1] with
    | (0, k) =>
      if gcmOk it = false then only s 0x23
      else match s.aesIn it (it.f 2 1) with
        | some (d, a, nn) =>
          let len := it.f 0x18 4
          if (gcmTag k.key nn a (d.take len)).take (it.f 2 1) = d.drop len then s.outDone it (gcmCrypt k.key nn (d.take len)) else only s 0x10
        | none => only s 0x23
    | (e, _) => only s e))

/-- CTR: nonce 16 is the initial counter block. -/
def execCtr (n : Nat) (s : State) : Res :=
  .next (s.serve n 0 2 (fun it s =>
    match s.itKey it [1, 2] [0] with
    | (0, k) =>
      if it.f 0x18 4 > 4096 ∨ it.f 3 1 ≠ 16 then only s 0x23
      else match s.itIn it 0 (it.f 0x18 4) with
        | some d => s.outDone it (aesCtr k.key (slice it.bytes 0x28 16) d)
        | none => only s 0x23
    | (e, _) => only s e))

/-- CCM* encrypt. -/
def execCcmEncrypt (n : Nat) (s : State) : Res :=
  .next (s.serve n 0 3 (fun it s =>
    match s.itKey it [1, 2] [0] with
    | (0, k) =>
      if ccmOk it = false then only s 0x23
      else match s.aesIn it 0 with
        | some (d, a, nn) => s.outDone it (ccmCrypt k.key nn d ++ ccmTag k.key nn a d (it.f 2 1))
        | none => only s 0x23
    | (e, _) => only s e))

/-- CCM* decrypt and verify. -/
def execCcmDecrypt (n : Nat) (s : State) : Res :=
  .next (s.serve n 0 4 (fun it s =>
    match s.itKey it [1, 2] [1] with
    | (0, k) =>
      if ccmOk it = false then only s 0x23
      else match s.aesIn it (it.f 2 1) with
        | some (d, a, nn) =>
          let p := ccmCrypt k.key nn (d.take (it.f 0x18 4))
          if ccmTag k.key nn a p (it.f 2 1) = d.drop (it.f 0x18 4) then s.outDone it p else only s 0x10
        | none => only s 0x23
    | (e, _) => only s e))

/-- CMAC generate: the MAC at OUT, its first 8 bytes in the result word. -/
def execCmacGenerate (n : Nat) (s : State) : Res :=
  .next (s.serve n 0 5 (fun it s =>
    match s.itKey it [1, 2] [0] with
    | (0, k) =>
      if it.f 0x18 4 > 768 ∨ it.f 2 1 < 4 ∨ it.f 2 1 > 16 then only s 0x23
      else match s.itIn it 0 (it.f 0x18 4) with
        | some d =>
          let m := (cmac k.key d).take (it.f 2 1)
          s.outDone it m (ofLe (m.take 8))
        | none => only s 0x23
    | (e, _) => only s e))

/-- CMAC verify: the MAC stands at AUX. -/
def execCmacVerify (n : Nat) (s : State) : Res :=
  .next (s.serve n 0 6 (fun it s =>
    match s.itKey it [1, 2] [1] with
    | (0, k) =>
      if it.f 0x18 4 > 768 ∨ it.f 2 1 < 4 ∨ it.f 2 1 > 16 then only s 0x23
      else match s.itIn it 0 (it.f 0x18 4), s.itAux it (it.f 2 1) with
        | some d, some m => only s (if (cmac k.key d).take (it.f 2 1) = m then 0 else 0x10)
        | _, _ => only s 0x23
    | (e, _) => only s e))

/-! ### ECC (engine 1) -/

/-- The curve P1 names. -/
def itCurve (it : Item) : Option Curve := if it.f 2 1 = 0 then some p256 else if it.f 2 1 = 1 then some p384 else none

/-- The TYPE of a scalar on the curve P1 names. -/
def itEcType (it : Item) : Nat := 4 + it.f 2 1

/-- ECDSA verify. -/
def execEcdsaVerify (n : Nat) (s : State) : Res :=
  .next (s.serve n 1 0 (fun it s =>
    match itCurve it with
    | none => only s 0x23
    | some c =>
      let len := it.f 0x18 4
      if len ≠ 32 ∧ len ≠ 48 then only s 0x23
      else match s.itIn it 0 (len + 2 * c.bytes), s.itAux it (2 * c.bytes) with
        | some d, some p => only s (if c.verify p (d.drop len) (d.take len) then 0 else 0x10)
        | _, _ => only s 0x23))

/-- ECDSA sign with the nonce of RFC 6979. -/
def execEcdsaSign (n : Nat) (s : State) : Res :=
  .next (s.serve n 1 1 (fun it s =>
    match itCurve it with
    | none => only s 0x23
    | some c =>
      match s.itKey it [itEcType it] [0] with
      | (0, k) =>
        let len := it.f 0x18 4
        if len ≠ 32 ∧ len ≠ 48 then only s 0x23
        else match s.itIn it 0 len with
          | some d => s.outDone it (c.sign (ofBe k.key) d)
          | none => only s 0x23
      | (e, _) => only s e))

/-- The destination handle is right (R385), no slot may be loaded in PROVISION (R376): status. -/
def State.destOk (s : State) (it : Item) : Nat :=
  let h := it.handle2
  if s.slotGen (hSlot h) ≠ hGen h then 0x15
  else if s.slotOwner (hSlot h) ≠ some it.tenant then 0x23
  else if s.mode = 2 then 0x23
  else 0

/-- Hand a new key to the destination slot; the item ends with the change. -/
def State.toSlot (s : State) (n : Nat) (it : Item) (typ attr : Nat) (key : List Byte) (out : List Byte := []) : Option (Nat × Nat) × State :=
  (none, s.slotChange (hSlot it.handle2) { src := .item n, typ := typ, attr := attr, key := key, out := out })

/-- Serve an item that may go on to a slot change: it is marked in service before the change starts. -/
def State.serveSlot (s : State) (n engine op : Nat) (f : Item → State → Option (Nat × Nat) × State) : State :=
  match s.item n with
  | none => s
  | some it =>
    if it.engine ≠ engine ∨ it.op ≠ op ∨ it.done.isSome ∨ it.inService then s
    else if it.verdict ≠ 0 then s.itemDone n it.verdict 0
    else if engine ≠ 3 ∧ engine < 5 ∧ s.keysBlocked then s.itemDone n 0x15 0
    else
      match f it (s.setItem n (some { it with inService := true })) with
      | (some (st, r), s') => s'.itemDone n st r
      | (none, s') => s'

/-- ECDH: the x-coordinate goes into HANDLE2 with attribute DERIVE. -/
def execEcdh (n : Nat) (s : State) : Res :=
  .next (s.serveSlot n 1 2 (fun it s =>
    match itCurve it with
    | none => only s 0x23
    | some c =>
      if s.fbit KV_STAT.TRNG_OK = false then only s 0xFF
      else match s.itKey it [itEcType it] [3] with
        | (0, k) =>
          match s.itAux it (2 * c.bytes) with
          | none => only s 0x23
          | some p =>
            if s.destOk it ≠ 0 then only s (s.destOk it)
            else match c.ecdh (ofBe k.key) p with
              | none => only s 0x10
              | some x => s.toSlot n it (if c.bytes = 32 then 3 else 6) 3 x
        | (e, _) => only s e))

/-- Key generation into HANDLE2 with P2 as attribute; the public key goes to OUT. -/
def execKeygen (n : Nat) (s : State) : Res :=
  .next (s.serveSlot n 1 3 (fun it s =>
    match itCurve it with
    | none => only s 0x23
    | some c =>
      if s.fbit KV_STAT.TRNG_OK = false then only s 0xFF
      else if attrOk (itEcType it) (it.f 3 1 % 4) = false then only s 0x23
      else if s.destOk it ≠ 0 then only s (s.destOk it)
      else
        let (d, s) := s.drawNat (c.n - 1)
        if (s.itOut it (c.pub (d + 1))).isNone then only s 0x23
        else s.toSlot n it (itEcType it) (it.f 3 1 % 4) (beB c.bytes (d + 1)) (c.pub (d + 1))))

/-- Public key of HANDLE. -/
def execPublicKey (n : Nat) (s : State) : Res :=
  .next (s.serve n 1 4 (fun it s =>
    match itCurve it with
    | none => only s 0x23
    | some c =>
      match s.itKey it [itEcType it] [0, 3] with
      | (0, k) => s.outDone it (c.pub (ofBe k.key))
      | (e, _) => only s e))

/-! ### SHA (engine 2) -/

/-- A digest of the input at OUT. -/
def State.digestItem (s : State) (n op : Nat) (h : List Byte → List Byte) : State :=
  s.serve n 2 op (fun it s =>
    if it.f 0x18 4 > 1048576 then only s 0x23
    else match s.itIn it 0 (it.f 0x18 4) with
      | some d => s.outDone it (h d)
      | none => only s 0x23)

/-- SHA-256. -/
def execSha256 (n : Nat) (s : State) : Res := .next (s.digestItem n 0 sha256)
/-- SHA-384. -/
def execSha384 (n : Nat) (s : State) : Res := .next (s.digestItem n 1 sha384)
/-- SHA-512. -/
def execSha512 (n : Nat) (s : State) : Res := .next (s.digestItem n 2 sha512)

/-- HMAC-SHA-256 generate. -/
def execHmacGenerate (n : Nat) (s : State) : Res :=
  .next (s.serve n 2 3 (fun it s =>
    match s.itKey it [3, 6] [0] with
    | (0, k) =>
      if it.f 0x18 4 > 1048576 then only s 0x23
      else match s.itIn it 0 (it.f 0x18 4) with
        | some d => s.outDone it (hmac256 k.key d)
        | none => only s 0x23
    | (e, _) => only s e))

/-- HMAC-SHA-256 verify: the MAC stands at AUX. -/
def execHmacVerify (n : Nat) (s : State) : Res :=
  .next (s.serve n 2 4 (fun it s =>
    match s.itKey it [3, 6] [1] with
    | (0, k) =>
      if it.f 0x18 4 > 1048576 then only s 0x23
      else match s.itIn it 0 (it.f 0x18 4), s.itAux it 32 with
        | some d, some m => only s (if hmac256 k.key d = m then 0 else 0x10)
        | _, _ => only s 0x23
    | (e, _) => only s e))

/-! ### TRNG (engine 3) -/

/-- Random bytes, 1 to 64. -/
def execRandomBytes (n : Nat) (s : State) : Res :=
  .next (s.serve n 3 0 (fun it s =>
    if s.fbit KV_STAT.TRNG_OK = false then only s 0xFF
    else if it.f 0x18 4 = 0 ∨ it.f 0x18 4 > 64 then only s 0x23
    else
      let (b, s) := s.draw (it.f 0x18 4)
      s.outDone it b))

/-! ### Vault operations (engine 4) -/

/-- ERASE HANDLE: an EMPTY slot or another generation is NO_KEY. -/
def execVaultErase (n : Nat) (s : State) : Res :=
  .next (s.serveSlot n 4 1 (fun it s =>
    if s.handleOk it.handle = false then only s 0x15
    else (none, s.slotChange (hSlot it.handle) { src := .item n, typ := 0 })))

/-- GENERATE a random key. -/
def execGenerate (n : Nat) (s : State) : Res :=
  .next (s.serveSlot n 4 2 (fun it s =>
    let typ := it.f 2 1
    if s.fbit KV_STAT.TRNG_OK = false then only s 0xFF
    else if [1, 2, 3, 6].contains typ = false ∨ attrOk typ (it.f 3 1 % 4) = false then only s 0x23
    else if s.destOk it ≠ 0 then only s (s.destOk it)
    else
      let (b, s) := s.draw (keyLen typ)
      s.toSlot n it typ (it.f 3 1 % 4) b))

/-- Label and context of a DERIVE at AUX: label of 1 to 16 bytes, a zero byte, the context. -/
def splitLabel (b : List Byte) : Option (List Byte × List Byte) :=
  let l := b.takeWhile (· != 0)
  if l.length = 0 ∨ l.length > 16 ∨ l.length = b.length then none else some (l, b.drop (l.length + 1))

/-- DERIVE (R379, R380): labels that begin with "SVX-" are refused. -/
def execDerive (n : Nat) (s : State) : Res :=
  .next (s.serveSlot n 4 3 (fun it s =>
    match s.itKey it [3, 6] [3] with
    | (0, k) =>
      let typ := it.f 2 1
      if it.f 0x1C 2 > 64 ∨ [1, 2, 3, 6].contains typ = false ∨ attrOk typ (it.f 3 1 % 4) = false then only s 0x23
      else match (s.itAux it (it.f 0x1C 2)).bind splitLabel with
        | none => only s 0x23
        | some (l, c) =>
          if l.take 4 = ascii "SVX-" then only s 0x23
          else if s.destOk it ≠ 0 then only s (s.destOk it)
          else s.toSlot n it typ (it.f 3 1 % 4) (kdf k.key l c (8 * keyLen typ))
    | (e, _) => only s e))

/-- REWRAP (R392): the blob of LEDGER moves from HANDLE to HANDLE2. -/
def execRewrap (n : Nat) (s : State) : Res :=
  .next (s.serve n 4 4 (fun it s =>
    let l := it.f 0x20 4 % 2 ^ 21
    let gen := it.f 0x23 1
    match s.itKey it [1, 2] [2], s.itKey { it with pin := it.pin2 } [1, 2] [2] with
    | (0, k), (0, k2) =>
      if s.fbit LDG_CFG.BLOB_VALID = false then only s 0x23
      else match blobOpen k (s.mread (s.blobAddr l) 64) none l it.tenant with
        | none => only s 0x15
        | some (p, suite, akMode) =>
          if blobFits suite akMode k2.ak.length = false then only s 0x23
          else if s.blobRoom l = false then only s 0x40
          else (some (0, gen), s.putBlob l (blobWrap k2 suite akMode gen l it.tenant p))
    | (0, _), (e, _) => only s e
    | (e, _), _ => only s e))

/-- The 32 bytes of INFO (R402). -/
def State.slotInfo (s : State) (n : Nat) : List Byte :=
  fit 32 (leB 4 (s.word .kv 0 0x1100 n) ++ leB 4 (s.fget KV_S_CNT_LO.CNT_LO n) ++ leB 4 (s.fget KV_S_CNT_HI.CNT_HI n)
    ++ leB 4 (s.fget KV_S_KCV.KCV n) ++ leB 4 (s.word .kv 0 0x1110 n))

/-- INFO of HANDLE's slot, any attribute. -/
def execInfo (n : Nat) (s : State) : Res :=
  .next (s.serve n 4 5 (fun it s =>
    if it.pin.isNone then only s 0x15 else s.outDone it (s.slotInfo (hSlot it.handle))))

/-- IDENT_SIGN over the 32 bytes at IN followed by DEV_ID; tenant 0 only. -/
def execIdentSign (n : Nat) (s : State) : Res :=
  .next (s.serve n 4 6 (fun it s =>
    if it.tenant ≠ 0 ∨ it.f 0x18 4 ≠ 32 then only s 0x23
    else if s.vault.identity = 0 then only s 0x15
    else match s.itIn it 0 32 with
      | some d => s.outDone it (p256.sign s.vault.identity (sha256 (d ++ s.devId)))
      | none => only s 0x23))

/-! ### KEY_UPDATE (R388, R389) -/

/-- R389 step 1: the fields are valid and consistent. -/
def kuForm (m : List Byte) : Bool :=
  let kind := leAt m 1 1
  let prot := leAt m 2 1
  let typ := leAt m 3 1
  let attr := leAt m 4 1
  let akLen := leAt m 5 1
  let len := leAt m 0x24 2
  decide (leAt m 0 1 = 1 ∧ 1 ≤ kind ∧ kind ≤ 3 ∧ prot ≤ 1 ∧ m.length = 48 + 64 * prot + len + 16 ∧ m.length ≤ 192)
    && (if kind = 1 then 1 ≤ typ && typ ≤ 6 && attrOk typ attr && decide (len = keyLen typ + akLen)
          && (if attr = 2 then akLen == 0 || akLen == 16 || akLen == 32 else akLen == 0)
        else if kind = 2 then len == 0 && akLen == 0
        else len == 32 && akLen == 0 && typ < 8 && typ % 4 < 3 && (typ % 4 != 2 || nbit typ 2))

/-- The message key of R380 for a PROT 0 message, after checks 4; or the status that refuses it. -/
def State.kuKek (s : State) (m : List Byte) (tenant : Nat) : Nat × KeyMat :=
  let h := leAt m 0x18 4 % 2 ^ 20
  if s.handleOk h = false then (0x15, ⟨0, 0, [], []⟩)
  else if s.slotOwner (hSlot h) ≠ some tenant then (0x23, ⟨0, 0, [], []⟩)
  else
    let k := s.slotKey (hSlot h)
    if k.typ = 3 ∧ k.attr = 3 then (0, k) else (0x13, k)

/-- Counter of the authority: the KEK slot's UPD_CNT, or KV_ECDH_CNT. -/
def State.kuCnt (s : State) (prot kek : Nat) : Nat :=
  if prot = 0 then s.get64 KV_S_CNT_LO.CNT_LO KV_S_CNT_HI.CNT_HI kek else s.get64 KV_ECDH_CNT_LO.CNT_LO KV_ECDH_CNT_HI.CNT_HI

/-- Check a key-update message in the order of R389: its status, and the plaintext. -/
def State.kuCheck (s : State) (m : List Byte) (issuer : Nat) : Nat × List Byte :=
  let kind := leAt m 1 1
  let prot := leAt m 2 1
  let tenant := leAt m 6 2 % 1024
  let target := leAt m 0x1C 4
  let len := leAt m 0x24 2
  if kuForm m = false then (0x23, [])
  else if slice m 8 8 ≠ s.devId then (0x23, [])
  else if (prot = 0 ∧ tenant ≠ issuer) ∨ (prot = 1 ∧ issuer ≠ 0) then (0x23, [])
  else
    let (e, kek) := if prot = 0 then s.kuKek m tenant else (0, ⟨3, 3, [], []⟩)
    if e ≠ 0 then (e, [])
    else if leAt m 0x10 8 ≤ s.kuCnt prot (hSlot (leAt m 0x18 4)) then (0x11, [])
    else if (kind ≠ 3 ∧ s.slotOwner (hSlot target) ≠ some tenant)
        ∨ (kind = 3 ∧ (s.slotOwner (hSlot (leAt m 0x20 4)) ≠ some tenant ∨ s.ownsLedger tenant (target % 2 ^ 21) = false)) then (0x23, [])
    else
      let secret := if prot = 0 then some kek.key else p256.ecdh s.vault.identity (slice m 0x30 64)
      match secret with
      | none => (0x10, [])
      | some x =>
        let key := kdf x (ascii "SVX-KUPD") (s.devId ++ leB 2 tenant ++ slice m 0x10 8) 256
        let hd := m.take (48 + 64 * prot)
        let ct := slice m (48 + 64 * prot) len
        let nonce := List.replicate 12 (0 : Byte)
        if gcmTag key nonce hd ct ≠ m.drop (48 + 64 * prot + len) then (0x10, [])
        else
          let plain := gcmCrypt key nonce ct
          if kind = 3 then
            let w := leAt m 0x20 4 % 2 ^ 20
            if s.handleOk w = false then (0x15, [])
            else
              let k := s.slotKey (hSlot w)
              if k.attr ≠ 2 then (0x13, [])
              else if blobFits (leAt m 3 1 % 4) (nbit (leAt m 3 1) 2) k.ak.length = false then (0x23, [])
              else (0, plain)
          else (0, plain)

/-- KEY_UPDATE: an accepted message stores its COUNTER and takes effect under R384, or writes its blob, if the blob area is configured and the blob
store can hold it (R392; log entry 97). -/
def execKeyUpdate (n : Nat) (s : State) : Res :=
  .next (s.serveSlot n 4 0 (fun it s =>
    if it.f 0x18 4 > 192 then only s 0x23
    else match s.itIn it 0 (it.f 0x18 4) with
      | none => only s 0x23
      | some m =>
        let (e, plain) := s.kuCheck m it.tenant
        let kind := leAt m 1 1
        let tenant := leAt m 6 2 % 1024
        let target := leAt m 0x1C 4
        let e := if e = 0 ∧ kind = 1 ∧ s.mode = 2 then 0x23
          else if e = 0 ∧ kind = 3 ∧ s.fbit LDG_CFG.BLOB_VALID = false then 0x23
          else if e = 0 ∧ kind = 3 ∧ s.blobRoom (target % 2 ^ 21) = false then 0x40 else e
        let auth := if leAt m 2 1 = 0 then hSlot (leAt m 0x18 4) else 4096
        if e ≠ 0 then only (s.signal 261 (leB 2 tenant ++ leB 1 kind ++ leB 1 e)) e
        else
          let cnt := leAt m 0x10 8
          let s := s.signal 260 (leB 2 tenant ++ leB 1 kind ++ leB 2 (hSlot target) ++ leB 1 0)
          let prev := s.authCnt auth
          let s := s.setAuthCnt auth cnt
          let typ := leAt m 3 1
          if kind = 1 then
            (none, s.slotChange (hSlot target)
              ⟨.item n, typ, leAt m 4 1, plain.take (keyLen typ), plain.drop (keyLen typ), some cnt, [], some auth, prev⟩)
          else if kind = 2 then (none, s.slotChange (hSlot target) ⟨.item n, 0, 0, [], [], some cnt, [], some auth, prev⟩)
          else
            let l := target % 2 ^ 21
            let k := s.slotKey (hSlot (leAt m 0x20 4))
            let s : State := { s with vault := { s.vault with cnts := tput 0 s.vault.cnts auth cnt } }
            (some (0, 0), s.putBlob l (blobWrap k (typ % 4) (nbit typ 2) (leAt m 4 1) l tenant plain))))

end Sys2Proof.Machine
end

