-- ==== Sys2Proof/Machine/Plc.lean ====
section
/-! DEFINITION. The PLC lanes: reception, transmission, scheduled frames and the PLC transmit engine (R305 to R337). -/
namespace Sys2Proof.Machine
open Reg

/-- A lane's record. -/
def State.lane (s : State) (n : Nat) : Lane := tget {} s.plc.lanes n

/-- Store a lane's record. -/
def State.setLane (s : State) (n : Nat) (v : Lane) : State := { s with plc := { s.plc with lanes := tput {} s.plc.lanes n v } }

/-- The lane is ON. -/
def State.laneOn (s : State) (n : Nat) : Bool := s.fget PLC_L_STAT.STATE n == 2

/-- Event source 512 + 64·n + k (R335). -/
def laneSrc (n k : Nat) : Nat := 512 + 64 * n + k

/-- Set a bit of PLC_L_ERR and signal it (R335, R564). -/
def State.laneErr (s : State) (f : Fld) (n : Nat) : State := let s := s.fset f n 1; s.signal (laneSrc n 7) (leB 4 (s.word .plc 0 0x11C0 n))

/-! ### Combining and the receiver (R308 to R313) -/

/-- The lanes that decode as one with a lane: the group when it takes effect, else the lane alone (R308). -/
def State.combined (s : State) (n : Nat) : List Nat :=
  let m := s.fget PLC_COMB.MASK
  let ls := (List.range 4).filter (fun k => nbit m k)
  let band := fun k => (s.fget PLC_L_CFG.BAND k, s.fget PLC_L_TMASK0.MASK k, s.fget PLC_L_TMASK1.MASK k, s.fget PLC_L_TMASK2.MASK k)
  if nbit m n ∧ ls.length ≥ 2 ∧ ls.all (fun k => band k == band n) then ls else [n]

/-- The lane that keeps the receiver of its group. -/
def State.lead (s : State) (n : Nat) : Nat := (s.combined n).headD n

/-- RXSTATE of a receiver: of every lane of its group. -/
def State.setRx (s : State) (n v : Nat) : State := (s.combined n).foldl (fun s k => s.fset PLC_L_STAT.RXSTATE k v) s

/-- RXSTATE. -/
def State.rxState (s : State) (n : Nat) : Nat := s.fget PLC_L_STAT.RXSTATE (s.lead n)

/-- A preamble on a lane, with its SNR in dB, and in a combining group the SNR of the combined metric of the lanes that contribute to it; `joined` when
it falls within PLC_COMB.WIN of the one its group is receiving (R309, R310, R313). -/
def execPreambleDetect (lane : Nat) (snr : Preamble) (joined : Bool) (s : State) : Res :=
  .next (if lane ≥ 4 ∨ s.laneOn lane = false then s
    else
      let l := s.lead lane
      let v := s.lane l
      let strength := if (s.combined lane).length > 1 then snr.metric else snr.snr
      let new : RxNow := { lane := lane, best := snr.snr, snr := strength }
      match v.now, s.rxState lane with
      | _, 4 => s
      | none, _ => (s.setLane l { v with now := some new }).setRx lane 1
      | some c, st =>
        if joined ∧ st = 1 ∧ (s.combined lane).length > 1 then
          s.setLane l { v with now := some { (if snr.snr > c.best then { c with lane := lane, best := snr.snr } else c) with snr := strength } }
        else if strength ≥ c.snr + s.fget PLC_L_CAP.MARGIN lane then
          ((s.fsat PLC_L_CAPLOST.COUNT c.lane).setLane l { v with now := some new }).setRx lane 1
        else s.fsat PLC_L_CAPIGN.COUNT lane)

/-- Back to IDLE. -/
def State.rxIdle (s : State) (n : Nat) : State := (s.setLane (s.lead n) { s.lane (s.lead n) with now := none }).setRx n 0

/-- SYNCM within two symbols, or not (R310). -/
def execSyncmFound (lane : Nat) (found : Bool) (s : State) : Res :=
  .next (if lane ≥ 4 ∨ s.rxState lane ≠ 1 then s else if found then s.setRx lane 2 else s.rxIdle lane)

/-- The frame control header passes or fails its check; its burst index comes from the SYNCM half-symbol (R310, R312). -/
def execFchDecode (lane : Nat) (ok burst2 : Bool) (fch : List (BitVec 8)) (s : State) : Res :=
  .next (if lane ≥ 4 ∨ s.rxState lane ≠ 2 then s
    else
      let l := s.lead lane
      match (s.lane l).now with
      | none => s
      | some c =>
        if ok then (s.setLane l { s.lane l with now := some { c with fch := fch, burst2 := burst2 } }).setRx lane 3
        else (s.fsat PLC_L_CRCERR.COUNT c.lane).rxIdle lane)

/-- A decode ends: a frame failing its FCS is counted; one that passes waits for R314. -/
def State.decode (s : State) (lane : Nat) (single fcs : Bool) : State :=
  if fcs = false then s.fsat PLC_L_CRCERR.COUNT lane
  else
    let s := if single then s.fsat PLC_L_SINGLE.COUNT lane else s
    s.setLane lane { s.lane lane with decoded := (s.lane lane).decoded ++ [⟨lane, single⟩] }

/-- The last symbol is received (R310 to R312): whether the frame is one of a DUAL pair, whether blanking erased it whole, and the outcome of
the FCS of the decode that follows, and of the held burst that gives way to it. -/
def execPayloadEnd (lane : Nat) (dual erased fcs fcsOld : Bool) (s : State) : Res :=
  .next (if lane ≥ 4 ∨ s.rxState lane ≠ 3 then s
    else
      let l := s.lead lane
      match (s.lane l).now with
      | none => s
      | some c =>
        let s := s.rxIdle lane
        if erased ∧ s.fbit PLC_L_BLANK.EN c.lane then s.fsat PLC_L_ERASED.COUNT c.lane
        else if dual = false then s.decode c.lane false fcs
        else
          let v := s.lane l
          if c.burst2 then
            match v.pairs.find? (fun p => p.fch == c.fch) with
            | some p => (s.setLane l { v with pairs := v.pairs.erase p }).decode (if p.best > c.best then p.lane else c.lane) false fcs
            | none => s.decode c.lane true fcs
          else
            match v.pairs with
            | p :: rest => if v.pairs.length ≥ 4 then (s.setLane l { v with pairs := rest ++ [c] }).decode p.lane true fcsOld
                           else s.setLane l { v with pairs := v.pairs ++ [c] }
            | [] => s.setLane l { v with pairs := [c] })

/-- The oldest held burst 1 of a lane or group passes PAIR_WAIT and is decoded alone (R312). -/
def execPairWaitExpiry (lane : Nat) (fcs : Bool) (s : State) : Res :=
  .next (if lane ≥ 4 then s
    else
      let l := s.lead lane
      match (s.lane l).pairs with
      | p :: rest => (s.setLane l { s.lane l with pairs := rest }).decode p.lane true fcs
      | [] => s)

/-- Lanes whose receivers a transmission of a lane mutes. -/
def State.mutes (s : State) (n : Nat) : List Nat := (List.range 4).filter (fun k => k == n || nbit (s.fget PLC_L_CFG.MUTE n) k)

/-- A transmission of lane `n` mutes a lane's receiver, or one of the group it decodes with. -/
def State.mutesRx (s : State) (n k : Nat) : Bool := (s.combined k).any (fun j => (s.mutes n).contains j)

/-- A lane starts to transmit: the receivers it mutes abandon their frames (R310). -/
def State.muteFor (s : State) (n : Nat) : State :=
  ((List.range 4).filter (fun k => s.lead k == k && s.mutesRx n k && (s.combined k).any (fun j => s.laneOn j))).foldl (fun s k =>
    let v := s.lane k
    let st := s.rxState k
    let s := if st = 1 ∨ st = 2 ∨ st = 3 then s.fsat PLC_L_RXPREEMPT.COUNT ((v.now.map (·.lane)).getD k) else s
    (s.setLane k { v with now := none }).setRx k 4) s

/-- The muting transmission has ended, plus 100 µs (R310). -/
def execMuteEnd (lane : Nat) (s : State) : Res :=
  .next (if lane ≥ 4 ∨ s.fget PLC_L_STAT.RXSTATE lane ≠ 4 ∨ (List.range 4).any (fun k => s.fbit PLC_L_STAT.TX_ON k && s.mutesRx k lane) then s
    else s.setRx lane 0)

/-! ### Link modes (R322 to R326) -/

/-- MODE of a node: 0 TONEMAP, 1 ROBO, 2 SROBO. -/
def State.linkMode (s : State) (n : Nat) : Nat := nbits (s.nf n 0x15 1) 1 0

/-- Change a node's MODE; a change signals k = 3 of a lane. -/
def State.setLinkMode (s : State) (lane n m : Nat) : State :=
  if s.linkMode n = m then s else (s.setNb n 0x15 1 0 m).signal (laneSrc lane 3) (leB 2 n ++ leB 1 m)

/-- An attempt to a neighbour gets no acknowledgement. -/
def State.linkFail (s : State) (lane n : Nat) : State :=
  let f := min 7 (nbits (s.nf n 0x15 1) 7 5 + 1)
  let s := s.setNb n 0x15 7 5 f
  let robo := s.fget PLC_L_MODE.FAIL_ROBO lane
  if f ≥ robo + s.fget PLC_L_MODE.FAIL_SROBO lane then s.setLinkMode lane n 2 else if f ≥ robo then s.setLinkMode lane n 1 else s

/-- TM_AGE of a neighbour reaches TTL (R322). -/
def execTmAgeExpiry (node : Nat) (s : State) : Res :=
  .next (let l := nbits (s.nf node 0x14 1) 1 0
    if nodeValid (s.node node) = false ∨ nodeMedium (s.node node) ≠ 0 ∨ s.nf node 0x1C 2 < s.fget PLC_L_TM.TTL l ∨ s.linkMode node ≠ 0 then s
    else s.setLinkMode l node 1)

/-- A tone map response from a node is applied (R322). -/
def State.tmApply (s : State) (lane n : Nat) (tm : Nat × Nat × Nat) : State :=
  let s := ((s.setNb n 0x15 4 2 tm.1).setNf n 0x18 3 tm.2.1).setNb n 0x16 3 0 tm.2.2
  let s := (s.setNf n 0x1C 2 0).setNb n 0x15 7 5 0
  (s.setLinkMode lane n 0).signal (laneSrc lane 2) (leB 2 n ++ leB 1 tm.1 ++ leB 3 tm.2.1)

/-- Groups of a lane's band: 6 of 6 carriers, or 24 of 3. A group is masked when all its carriers are (R324, R337). -/
def State.groups (s : State) (lane : Nat) : List Nat :=
  let fcc := s.fbit PLC_L_CFG.BAND lane
  let w := if fcc then 3 else 6
  let m := s.fget PLC_L_TMASK0.MASK lane + s.fget PLC_L_TMASK1.MASK lane * 2 ^ 32 + s.fget PLC_L_TMASK2.MASK lane * 2 ^ 64
  (List.range (if fcc then 24 else 6)).filter (fun g => nbits m (w * g + w - 1) (w * g) != 2 ^ w - 1)

/-- The tone map response of R324: MOD (3 for ROBO), TONEMAP, TXGAIN. SNR per group in 0.25 dB. -/
def State.toneMap (s : State) (lane : Nat) (snr : List Nat) : Nat × Nat × Nat :=
  let gs := s.groups lane
  let mg := 4 * s.fget PLC_L_TMSNR.MARGIN lane
  let thr := fun (m : Nat) => s.fget (if m = 2 then PLC_L_TMSNR.D8PSK else if m = 1 then PLC_L_TMSNR.DQPSK else PLC_L_TMSNR.DBPSK) lane
  let set := fun (m : Nat) => gs.filter (fun g => decide (snr.getD g 0 ≥ thr m + mg))
  let ok := fun (m : Nat) => decide ((set m).length ≥ s.fget PLC_L_TMSNR.MIN_GROUPS lane ∧ (set m).length > 0)
  let bits := fun (l : List Nat) => l.foldl (fun a g => a + 2 ^ g) 0
  let best := [0, 1, 2].foldl (fun (b : Option Nat) m =>
    if ok m = false then b
    else match b with
      | some k => if (m + 1) * (set m).length > (k + 1) * (set k).length then some m else b
      | none => some m) none
  match best with
  | none => (3, bits gs, 0)
  | some m =>
    let lo := (set m).foldl (fun a g => min a (snr.getD g 0)) (2 ^ 16)
    (m, bits (set m), min 15 ((lo - (thr m + mg + 24)) / 12))

/-- Debit both buckets. -/
def State.plcDebit (s : State) (lane : Nat) (d : Int) : State :=
  let s := s.fset PLC_L_TOKENS.UJ lane (tokAdd (s.fget PLC_L_TOKENS.UJ lane) (-d) (s.fget PLC_L_BUDGET.DEPTH lane * 1000))
  s.fset PLC_CHIP_TOKENS.UJ 0 (tokAdd (s.fget PLC_CHIP_TOKENS.UJ) (-d) (s.fget PLC_CHIP_BUDGET.DEPTH * 1000))

/-- Attenuation of a frame: the node's TXGAIN, raised to the smallest step that keeps the level within MAX, plus TRIM (R334). `amp` is the drive
amplitude at step 0, in 0.1 dBµV. -/
def State.txGain (s : State) (lane gain amp : Nat) : Nat :=
  let lim := s.fget PLC_L_LEVEL.MAX lane + s.fget PLC_L_LEVEL.CPL_LOSS lane
  max gain ((amp - lim + 29) / 30) + s.fget PLC_L_LEVEL.TRIM lane

/-- The estimate in µJ of a frame of `air` 100 µs whose drive amplitude is free (R333, R334), from a node's TXGAIN. -/
def State.freeEst (s : State) (lane gain air : Nat) : Nat × State :=
  let (amp, s) := s.drawNat (2 ^ 16)
  (s.fget PLC_L_PWR0.MW lane * air / (10 * 2 ^ s.txGain lane gain amp), s)

/-- A frame starts on air. -/
def State.onAir (s : State) (lane : Nat) (x : TxItem) : State :=
  let s := (s.plcDebit lane x.est).muteFor lane
  (s.setLane lane { s.lane lane with air := some x }).fset PLC_L_STAT.TX_ON lane 1

/-- A MAC acknowledgement (`what` 1) or a tone map response (2) goes on air: its debit may take a bucket below 0 (R333). -/
def State.plcReply (s : State) (lane what air node : Nat) (b : List Byte) : State :=
  let (est, s) := s.freeEst lane (nbits (s.nf node 0x16 1) 3 0) air
  (s.onAir lane { node := node, air := air, est := est, what := what }).emit (.mac 1 lane what node b)

/-- Within TMR_DELAY of the asking frame's end, the response is sent in ROBO (R324). -/
def execToneMapResponseSend (lane air : Nat) (s : State) : Res :=
  .next (match (s.lane lane).tmAsk with
    | [] => s
    | (snr, n) :: rest =>
      if (s.lane lane).air.isSome then s
      else
        let s := s.setLane lane { s.lane lane with tmAsk := rest }
        if s.laneOn lane = false ∨ s.mayTransmit = false then s
        else
          let (m, map, g) := s.toneMap lane snr
          s.plcReply lane 2 air n (leB 1 m ++ leB 3 map ++ leB 1 g))

/-! ### From frame to reading (R314 to R318) -/

/-- The PLC node an address maps to. -/
def State.plcNode (s : State) (kind addr : Nat) : Option Nat := (s.nodeAt kind addr).filter (fun n => nodeMedium (s.node n) == 0)

/-- How the duplicate check decides. -/
inductive DupRes where
  | accept | dup | replay
deriving DecidableEq, Repr

/-- The duplicate check of a frame of a known node (R316). -/
def RxRec.check (r : RxRec) (secured : Bool) (counter dsn win : Nat) : DupRes :=
  if secured then (if counter > r.cnt then .accept else if counter = r.cnt ∧ dsn = r.dsn0 then .dup else .replay)
  else if r.set ∧ (dsn = r.dsn0 ∨ dsn = r.dsn1) ∧ r.age ≤ win then .dup else .accept

/-- The check of a source without an entry against the recent-source cache, least recently used last (R316). -/
def State.recentCheck (s : State) (kind addr dsn win : Nat) : DupRes × State :=
  match s.plc.recent.find? (fun e => e.kind == kind && e.addr == addr) with
  | some e =>
    let rest := s.plc.recent.filter (fun x => !(x.kind == kind && x.addr == addr))
    if e.dsn0 = dsn ∧ e.age ≤ win then (.dup, { s with plc := { s.plc with recent := e :: rest } })
    else (.accept, { s with plc := { s.plc with recent := { e with dsn0 := dsn, dsn1 := e.dsn0, age := 0 } :: rest } })
  | none => (.accept, { s with plc := { s.plc with recent := (⟨kind, addr, dsn, 0, 0⟩ :: s.plc.recent).take 64 } })

/-- The key index of a secured frame is usable: VALID, its DECRYPT slot loaded, keys not blocked (R315). -/
def State.rxKeyOk (s : State) (valid slot : Fld) : Bool := s.fbit valid && s.fget KV_S_INFO.STATE (s.fget slot) == 1 && !s.keysBlocked

/-- The TX key that secures a lane's frames is VALID and may be used (R186, R329). -/
def State.txKeyOk (s : State) : Bool :=
  s.fbit (if s.fget PLC_KEY_TX.IDX = 0 then PLC_KEY0.VALID else PLC_KEY1.VALID) && !s.keysBlocked

/-- A destination is PLC_PAN.SHORT in PLC_PAN.PAN_ID (R317). -/
def State.isUs (s : State) (k : Nat × Nat) : Bool := k == (1, s.fget PLC_PAN.PAN_ID + s.fget PLC_PAN.SHORT * 2 ^ 16)

/-- A frame goes to a lane's slow path (R318). -/
def State.plcSlow (s : State) (lane : Nat) (single : Bool) (reason : Nat) (node : Option Nat) (lqi : Nat) (raw : List Byte) : State :=
  let v := s.lane lane
  let q := v.slowSeq
  let slot := q % 1024
  let a := s.base PLC_SLOW_LO.BASE_LO 21 PLC_SLOW_HI.BASE_HI + lane * 524288 + slot * 512
  let s := s.setLane lane { v with slowSeq := (q + 1) % 2 ^ 32 }
  let s := s.mwrite a (leB 4 q ++ leB 2 raw.length ++ leB 1 reason ++ leB 1 (b2n single) ++ leB 8 s.time.mpt ++ raw.take 496)
  s.signal (laneSrc lane 0) (leB 2 slot ++ leB 2 raw.length ++ leB 2 (node.getD 0xFFFF) ++ leB 1 reason ++ leB 1 lqi ++ leB 4 q)

/-- A field reading of a node, as it enters an ingest queue (R317, R346): the current time is its receipt time. -/
def State.fieldReading (s : State) (origin : Origin) (node ledger tenant lqi : Nat) (single : Bool) (apdu : List Byte) : Reading :=
  { node := some node, lqi := lqi, epoch := s.fget CHIP_EPOCH.EPOCH, origin := origin, ledger := some ledger, tenant := tenant, apdu := apdu, len := apdu.length, stage := 1
    flags := if single then 4 else 0, rxMpt := s.time.mpt
    rxTime := if s.fbit MPT_TIME_OK.CAL_OK then some (s.gridNow.1, s.gridNow.2 / 1000000) else none }

/-- The body of a phase report from a node of the node table goes to the balance engine (R203). -/
def State.reportFrom (s : State) (node : Nat) (b : List Byte) : State :=
  match (if nodeValid (s.node node) then s.nodeLedger node else none) with
  | some (l, _) => s.phaseReport l (leAt b 0 4) (leAt b 4 2)
  | none => s

/-- A received Thosa frame (R186): discarded and counted, a phase report for the balance engine, or a block-update frame for the lane's slow path with
reason 1 (R419). The spec gives a received cycle mark no other use: it takes the slow path too (log entry 114). -/
def State.thosaFrame (s : State) (lane : Nat) (single : Bool) (org : Option Nat) (f : PlcFrame) : State :=
  match s.thosaBody f.secured f.payload with
  | none => s.fsat BAL_TH_DROP.COUNT 0
  | some (2, b) => match org with | some n => s.reportFrom n b | none => s
  | some _ => s.plcSlow lane single 1 org f.lqi f.raw

/-- The fast-path test (R317), with the reason of the slow path; a Thosa frame for this unit is none of it (R186). -/
def State.plcPath (s : State) (lane : Nat) (single : Bool) (f : PlcFrame) : State :=
  let (ok, oa) := match f.mesh with | some (_, o) => o | none => (f.srcKind, f.src)
  let org := if f.parity then none else s.plcNode ok oa
  let elsewhere : Bool := f.mesh.any (fun m => !s.isUs m.1)
  let slow := fun (r : Nat) => s.plcSlow lane single r org f.lqi f.raw
  if f.kind = 0 ∧ elsewhere = false ∧ s.isThosa f.payload then s.thosaFrame lane single org f
  else if f.parity then (s.fset PLC_NT_STAT.REPAIR 0 1).plcSlow lane single 2 none f.lqi f.raw
  else if f.secured = false then slow 3
  else if elsewhere then slow 4
  else if f.kind ≠ 0 ∨ s.isUs f.dst = false ∨ f.frag ∨ f.port ≠ some (s.fget PLC_FP.PORT) ∨ f.wrapper = false then slow 1
  else
    match org.bind (fun n => s.nodeLedger n) with
    | none => slow 0
    | some (l, tn) => s.ingest lane (s.fieldReading (.lane lane) (org.getD 0) l tn f.lqi single f.apdu)

/-! ### Campaign frames on the lanes (R419, R422) -/

/-- A campaign's record. -/
def State.camp (s : State) (c : Nat) : Camp := tget {} s.upd.camps c

/-- Store a campaign's record. -/
def State.setCamp (s : State) (c : Nat) (v : Camp) : State := { s with upd := { s.upd with camps := tput {} s.upd.camps c v } }

/-- The DRAM address of a campaign's missing-block bitmap (R425). -/
def State.campMap (s : State) (c : Nat) : Nat := s.fget UPD_MAP_LO.BASE_LO * 2 ^ 17 + s.fget UPD_MAP_HI.BASE_HI * 2 ^ 32 + 8192 * c

/-- Block `k` is missing. -/
def State.campMissing (s : State) (c k : Nat) : Bool := nbit (s.mget (s.campMap c + k / 8)).toNat (k % 8)

/-- Set or clear a block's bit, keeping UPD_C_BLOCKS.MISSING. -/
def State.campBit (s : State) (c k : Nat) (v : Bool) : State :=
  if s.campMissing c k = v then s
  else
    let a := s.campMap c + k / 8
    let s := s.mput a (BitVec.ofNat 8 (nsetBit (s.mget a).toNat (k % 8) v))
    if v then s.fadd UPD_C_BLOCKS.MISSING c else s.fsub UPD_C_BLOCKS.MISSING c

/-- Bytes of a campaign's image; a byte never written reads 0 (R442). -/
def Camp.bytes (v : Camp) (off n : Nat) : List Byte := (List.range n).map (fun k => tget 0 v.data (off + k))

/-- The body of a campaign frame: BLK_ANNOUNCE, or the BLK_DATA of a block, the last padded with 0 (R419). -/
def State.campBody (s : State) (c : Nat) (blk : Option Nat) : Nat × List Byte :=
  let v := s.camp c
  let id := leB 4 (s.fget UPD_C_IMAGE.ID c)
  match blk with
  | none => (0x10, id ++ leB 4 v.size ++ leB 2 v.blk ++ leB 2 (s.fget UPD_C_BLOCKS.COUNT c) ++ leB 4 v.version ++ fit 32 v.hash)
  | some k => (0x11, id ++ leB 2 k ++ [0, 0] ++ fit v.blk (v.bytes (k * v.blk) (min v.blk (v.size - k * v.blk))))

/-- Hand the present frame of a SEND to each ON lane of the mask with room in its queue; the lanes that took it. -/
def State.campPush (s : State) (c : Nat) (blk : Option Nat) : List Nat × State :=
  let (typ, body) := s.campBody c blk
  let (fr, s) := s.thosa typ body
  (List.range 4).foldl (fun (p : List Nat × State) n =>
    let (ls, s) := p
    let v := s.lane n
    if nbit (s.camp c).lanes n = false ∨ s.laneOn n = false ∨ v.queue.length ≥ 64 then (ls, s)
    else (ls ++ [n], s.setLane n { v with queue := v.queue ++ [{ bcast := true, payload := fr, camp := some (c, blk) }] })) ([], s)

/-- End a SEND: frames of the campaign that still wait leave the lanes, and the item is answered with the blocks sent. -/
def State.campSendEnd (s : State) (c st : Nat) : State :=
  let v := s.camp c
  match v.send with
  | none => s
  | some d =>
    let s := (List.range 4).foldl (fun s n =>
      let l := s.lane n
      s.setLane n { l with queue := l.queue.filter (fun (x : TxItem) => x.camp.map (·.1) != some c) }) s
    (s.setCamp c { s.camp c with send := none }).itemDone d.item st d.sent

/-- The next frame of a SEND, or its end. -/
def State.campNext (s : State) (c : Nat) (d : CampSend) : State :=
  match d.todo with
  | [] => (s.setCamp c { s.camp c with send := some d }).campSendEnd c 0
  | k :: rest =>
    match s.campPush c (some k) with
    | ([], s) => (s.setCamp c { s.camp c with send := some d }).campSendEnd c 0x24
    | (ls, s) => s.setCamp c { s.camp c with send := some { d with lanes := ls, cur := some k, ok := false, todo := rest } }

/-- A lane has finished with the present frame of a SEND: a budget wait or a cancelled lane ends the SEND; once every lane has, a block sent by
one of them has its bit cleared and is counted. -/
def State.campFrame (s : State) (c lane st : Nat) : State :=
  let v := s.camp c
  match v.send with
  | none => s
  | some d =>
    if d.lanes.contains lane = false then s
    else if st = 0x24 ∨ st = 0x21 then s.campSendEnd c st
    else
      let d : CampSend := { d with lanes := d.lanes.filter (· != lane), ok := d.ok || st == 0 }
      if d.lanes ≠ [] then s.setCamp c { v with send := some d }
      else match d.ok, d.cur with
        | true, some k => ((s.campBit c k false).fsat UPD_C_SENT.COUNT c).campNext c { d with sent := d.sent + 1 }
        | _, _ => s.campNext c d

/-- Finish a transmit item: its work item is answered with the result word of R329. -/
def State.txDone (s : State) (lane : Nat) (x : TxItem) (st : Nat) : State :=
  let s := if x.what = 6 then (if st = 0 then s.fsat PLC_L_BCNSENT.COUNT lane else s)
    else if st = 0 then s.fsat PLC_L_TXOK.COUNT lane else s.fsat PLC_L_TXFAIL.COUNT lane
  match x.item with
  | none => match x.camp with
    | some (c, _) => s.campFrame c lane st
    | none => s
  | some n => s.itemDone n st (x.total + x.mode * 2 ^ 8 + x.mod * 2 ^ 10 + lane * 2 ^ 13 + x.air * 2 ^ 16 + x.energy * 2 ^ 32)

/-- An acknowledgement from the first hop of the frame that waits for one (R322, R327). -/
def State.plcAcked (s : State) (lane n : Nat) : State :=
  let v := s.lane lane
  match v.ack with
  | none => s
  | some x =>
    if s.hopOf x.node ≠ n then s
    else ((s.setLane lane { v with ack := none }).setNb n 0x15 7 5 0).txDone lane x 0

/-- A decoded frame is handled in the order of R314. -/
def execPlcFrameReceived (lane : Nat) (frame : PlcFrame) (s : State) : Res :=
  .next (let v := s.lane lane
    match v.decoded with
    | [] => s
    | d :: rest =>
      let s := (s.setLane lane { v with decoded := rest }).fsat PLC_L_RXOK.COUNT lane
      let f := frame
      let node := if f.parity then none else s.plcNode f.srcKind f.src
      let quiet := s.mode == 4
      if f.kind = 1 then (match node with | some n => s.plcAcked lane n | none => s)
      else if f.secured ∧ (f.tagOk = false ∨ s.rxKeyOk (if f.keyIdx = 0 then PLC_KEY0.VALID else PLC_KEY1.VALID) (if f.keyIdx = 0 then PLC_KEY0.RX_SLOT else PLC_KEY1.RX_SLOT) = false) then
        s.fsat PLC_L_SECFAIL.COUNT lane
      else if quiet then
        match node with
        | some n =>
          match (tget ({} : RxRec) s.plc.rx n).check f.secured f.counter f.dsn (s.fget PLC_L_DUPWIN.WIN lane) with
          | .accept => s.setNf n 0x17 1 f.lqi
          | .dup => s.fsat PLC_L_DUP.COUNT lane
          | .replay => s.fsat PLC_L_SECFAIL.COUNT lane
        | none => s
      else
        let win := s.fget PLC_L_DUPWIN.WIN lane
        let (res, s) : DupRes × State := match node with
          | some n =>
            let r := tget ({} : RxRec) s.plc.rx n
            let c := r.check f.secured f.counter f.dsn win
            (c, if c = DupRes.accept then { s with plc := { s.plc with rx := tput {} s.plc.rx n ⟨if f.secured then f.counter else r.cnt, f.dsn, r.dsn0, 0, true⟩ } } else s)
          | none => s.recentCheck f.srcKind f.src f.dsn win
        match res with
        | .replay => s.fsat PLC_L_SECFAIL.COUNT lane
        | _ =>
          let s := if s.isUs f.dst ∧ f.ackReq ∧ s.mayTransmit ∧ s.laneOn lane ∧ (s.lane lane).air = none then s.plcReply lane 1 f.ackAir (node.getD 0xFFFF) [] else s
          if res = DupRes.dup then s.fsat PLC_L_DUP.COUNT lane
          else
            let blocked := match node with | some n => nbit (s.nf n 0x0A 2) 4 | none => false
            let s := match node with
              | some n =>
                let s := (s.setNf n 0x17 1 f.lqi).setNb n 0x14 3 2 lane
                if nbit (s.nf n 0x0A 2) 3 ∨ s.laneOn lane = false then s else s.setNb n 0x14 1 0 lane
              | none => s
            if blocked then s
            else
              let s := if f.tmReq ∧ s.isUs f.dst then s.setLane lane { s.lane lane with tmAsk := (s.lane lane).tmAsk ++ [(f.snr, node.getD 0xFFFF)] } else s
              -- an unsecured frame is accepted on the slow path only (R315); a beacon request is answered all the same (R332, log entry 115)
              let s := if f.kind = 3 then s.setLane lane { s.lane lane with bcnAsk := true } else s
              if f.kind = 2 ∧ f.secured then (match node with | some n => if f.tmInTime then s.tmApply lane n f.tm else s | none => s)
              else if f.kind = 3 ∧ f.secured then s
              else s.plcPath lane d.single f)

/-- A received phase report (R186, R202 to R204): the node it came from, whether its G3 frame passed MAC security, and the Thosa frame. -/
def execPhaseReport (node : Nat) (secured : Bool) (frame : List (BitVec 8)) (s : State) : Res :=
  .next (match s.thosaBody secured frame with
    | some (2, b) => s.reportFrom node b
    | _ => s.fsat BAL_TH_DROP.COUNT 0)

/-! ### Transmission (R326 to R334) -/

/-- Both buckets of a lane hold an amount of µJ (R333). -/
def State.plcHolds (s : State) (lane amount : Nat) : Bool :=
  decide (sval 32 (s.fget PLC_L_TOKENS.UJ lane) ≥ (amount : Int)) && decide (sval 32 (s.fget PLC_CHIP_TOKENS.UJ) ≥ (amount : Int))

/-- Measured energy is added to the lane's and the chip's totals, fractions of a mJ kept (R333). -/
def State.plcEnergy (s : State) (lane uj : Nat) : State :=
  let v := s.lane lane
  let s := (s.fsat PLC_L_EJ.MJ lane ((v.ejFrac + uj) / 1000)).setLane lane { v with ejFrac := (v.ejFrac + uj) % 1000 }
  ({ s with plc := { s.plc with ejFrac := (s.plc.ejFrac + uj) % 1000 } } : State).fsat PLC_CHIP_EJ.MJ 0 ((s.plc.ejFrac + uj) / 1000)

/-- An item back in front of its queue, behind URGENT ones (R327). -/
def requeue (q : List TxItem) (x : TxItem) : List TxItem :=
  if x.urgent then x :: q else q.takeWhile (·.urgent) ++ [x] ++ q.dropWhile (·.urgent)

/-- Attempts of a frame: MAX_ATT where an acknowledgement is asked for, else one (R327). -/
def State.attempts (s : State) (lane : Nat) (x : TxItem) : Nat := if x.bcast ∨ nbit x.flags 1 then 1 else s.fget PLC_L_MAC.MAX_ATT lane

/-- An attempt has failed: the next attempt, the alternate first hop, or TIMEOUT (R326, R327). -/
def State.txRetry (s : State) (lane : Nat) (x : TxItem) : State :=
  let v := s.lane lane
  if s.laneOn lane = false then s.txDone lane x 0x21
  else if x.attempts < s.attempts lane x then s.setLane lane { v with queue := requeue v.queue x }
  else if x.bcast then s.txDone lane x 0x20
  else
    let h := s.nf x.node 0x10 2
    let a := s.nf x.node 0x12 2
    let old := s.hopOf x.node
    if nbit a 15 ∧ x.swapped = false then
      let s := ((s.setNf x.node 0x10 2 a).setNf x.node 0x12 2 h).setLane lane { v with queue := requeue v.queue { x with attempts := 0, swapped := true } }
      s.signal (laneSrc lane 1) (leB 2 x.node ++ leB 2 old)
    else (s.txDone lane x 0x20).signal (laneSrc lane 1) (leB 2 x.node ++ leB 2 old)

/-- Kind of a data frame: with the tone map request bit for a neighbour whose MODE is not TONEMAP or whose TM_AGE reaches REFRESH, or on request (R323). -/
def State.dataKind (s : State) (lane : Nat) (x : TxItem) : Nat :=
  let hop := s.hopOf x.node
  if x.what = 6 then 5 else if nbit x.flags 0 ∨ (x.bcast = false ∧ (s.linkMode hop ≠ 0 ∨ s.nf hop 0x1C 2 ≥ s.fget PLC_L_TM.REFRESH lane)) then 8 else 0

/-- The starts a lane keeps free (R330): the next targets of the armed compare units that trigger a mark or beacon of the lane, all on mains-phase
time (R71), and its pending burst 2. -/
def State.reserved (s : State) (lane : Nat) : List Nat :=
  let arms := fun (u : Nat) => s.fget MPT_CMP_STAT.STATE u == 2
    && ((s.fget MPT_CMP_CTRL.TRIG u == 4 && nbit (s.fget MPT_CMP_CTRL.ARG u) lane)
      || (s.fget MPT_CMP_CTRL.TRIG u == 3 && nbits (s.fget MPT_CMP_CTRL.ARG u) 1 0 == lane))
  ((List.range 64).filter arms).map (fun u => (tget {} s.time.cmps u).next)
    ++ (if (s.lane lane).mark2.isSome then [(s.lane lane).mark2At] else [])

/-- An ordinary frame of an air time in 100 µs would reach within 0x0400 pu of a start the lane keeps free (R330); the air time is taken to pu at
the mains frequency (log entry 122). -/
def State.txHeldOff (s : State) (lane air : Nat) : Bool :=
  (s.reserved lane).any (fun t =>
    let d := sval 64 (uval 64 ((t : Int) - (s.time.mpt : Int)))
    decide (-0x0400 ≤ d ∧ d ≤ (air * s.time.freq * 65536 / 10 ^ 7 + 0x0400 : Nat)))

/-- The frame at the head of a lane's queue gains the channel, or fails to. An URGENT frame does not wait for the acknowledgement of the frame before it,
whose attempt has then failed: the receiver is muted. It does not start where its air time would reach a start the lane keeps free
(R330). Then it starts if both buckets hold its estimate and those of the scheduled frames of the next two cycles, and waits for energy otherwise
(R327, R333). Air time in 100 µs, drive amplitude in 0.1 dBµV, the scheduled frames' estimates in µJ. -/
def execPlcTxStart (lane : Nat) (gained : Bool) (air amp sched : Nat) (s : State) : Res :=
  .next (let v := s.lane lane
    match v.queue with
    | [] => s
    | x :: rest =>
      if v.air.isSome ∨ (v.ack.isSome ∧ (x.urgent = false ∨ v.ack.any (·.second))) ∨ s.laneOn lane = false then s
      else if s.mayTransmit = false then (s.setLane lane { v with queue := rest }).txDone lane x 0x24
      else if gained = false then (s.setLane lane { v with queue := rest }).txRetry lane { x with attempts := x.attempts + 1, total := x.total + 1 }
      else if s.txHeldOff lane air then s
      else
        let hop := s.hopOf x.node
        let mode := if nbit x.flags 4 then 2 else if nbit x.flags 3 then 1 else if x.bcast then s.fget PLC_L_MODE.BCAST lane else s.linkMode hop
        let g := s.txGain lane (if x.bcast then 0 else nbits (s.nf hop 0x16 1) 3 0) amp
        let est := s.fget PLC_L_PWR0.MW lane * air / (10 * 2 ^ g)
        if s.plcHolds lane (est + sched) then
          let dual := nbit x.flags 2 || (mode != 0 && !x.bcast && nbit (s.nf hop 0x0A 2) 2)
          let x := { x with attempts := x.attempts + 1, total := x.total + 1, waiting := false, air := air, est := est, mode := mode, second := dual
                            mod := if x.bcast ∨ mode ≠ 0 then 0 else nbits (s.nf hop 0x15 1) 4 2 }
          let s := (s.setLane lane { v with queue := rest, ack := none }).onAir lane x
          let s := s.emit (.mac 1 lane (s.dataKind lane x) (if x.bcast then 0xFFFF else hop) x.payload)
          match v.ack with
          | some y => (s.linkFail lane (s.hopOf y.node)).txRetry lane y
          | none => s
        else
          let s := s.setLane lane { v with queue := { x with waiting := true } :: rest }
          match (if x.waiting then (false, s) else s.oncePerSec (2000 + lane)) with
          | (true, s) => s.signal (laneSrc lane 6) []
          | (false, s) => s)

/-- A scheduled frame starts if its lane is free and both buckets hold its estimate (R330, R333); the answer says whether it did. -/
def State.scheduled (s : State) (lane air what : Nat) (frame : List Byte) : Bool × State :=
  if s.laneOn lane = false ∨ s.mayTransmit = false ∨ s.fbit PLC_L_STAT.TX_ON lane then (false, s)
  else
    let (est, s) := s.freeEst lane 0 air
    if s.plcHolds lane est = false then (false, s)
    else (true, (s.onAir lane { bcast := true, air := air, est := est, what := what }).emit (.mac 1 lane what 0xFFFF frame))

/-- A scheduled frame is missed (k = 8): 0 burst 1, 1 burst 2, 2 beacon. -/
def State.missed (s : State) (lane what : Nat) : State := s.signal (laneSrc lane 8) (leB 1 what)

/-- A burst of a Thosa frame goes on air: it takes a valid TX group key too (R186). -/
def State.thosaBurst (s : State) (lane air what : Nat) (fr : List Byte) : Bool × State :=
  if s.txKeyOk then s.scheduled lane air what fr else (false, s)

/-- Burst 1 of a mark on a lane: sent, or skipped and counted (R331); without a valid TX key it is skipped (log entry 114). -/
def State.markBurst (s : State) (lane air : Nat) (fr : List Byte) : Bool × State :=
  match s.thosaBurst lane air 3 fr with
  | (true, s) => (true, (s.setLane lane { s.lane lane with mark2 := some fr, mark2At := s.time.mpt + s.fget BAL_CM_CFG.GAP * 65536 }).fsat PLC_L_CM1.COUNT lane)
  | (false, s) => (false, (s.fsat PLC_L_CMMISS.COUNT lane).missed lane 0)

/-- A mark becomes SENT once a lane has sent burst 1 (R189). -/
def State.markSent (s : State) (e : Nat) : State :=
  if s.fget BAL_MARK_ST.STATE e = 1 then (s.fset BAL_MARK_ST.STATE e 2).fadd BAL_CM_STAT.SENT 0 else s

/-- A campaign changes state; event 280. -/
def State.campState (s : State) (c st : Nat) : State := (s.fset UPD_C_STAT.STATE c st).signal 280 (leB 1 c ++ leB 1 st)

/-- A lane still waits with the BLK_ACTIVATE of a campaign. -/
def State.campWaits (s : State) (c : Nat) : Bool := (List.range 4).any (fun n => (s.lane n).mark1.any (fun m => m.camp == some c))

/-- A mark's or campaign's burst 1 goes to the ON lanes of a mask; a lane that transmits waits for the end of its frame (R330, R331). The answer
says whether any lane sent it. -/
def State.markLanes (s : State) (mask air : Nat) (fr : List Byte) (entry : Nat) (camp : Option Nat) : Bool × State :=
  (List.range 4).foldl (fun (p : Bool × State) n =>
    let (sent, s) := p
    if nbit mask n = false ∨ s.laneOn n = false then (sent, s)
    else if s.fbit PLC_L_STAT.TX_ON n then (sent, s.setLane n { s.lane n with mark1 := some ⟨fr, air, s.time.mpt, entry, camp⟩ })
    else
      let (ok, s) := s.markBurst n air fr
      (sent || ok, s)) (false, s)

/-- A campaign none of whose lanes sent or can still send its BLK_ACTIVATE is READY again (R423). -/
def State.campSkip (s : State) (c : Nat) : State :=
  if s.fget UPD_C_STAT.STATE c ≠ 3 ∨ s.campWaits c then s else (s.campState c 2).errSet [UPD_ERR.TRIG] id

/-- A burst 1 that waited for the lane's transmission in progress starts, or is skipped beyond 0x0400 pu of its trigger (R330, R331). A campaign none
of whose lanes sent it is READY again. -/
def State.markLate (s : State) (lane : Nat) : State :=
  match (s.lane lane).mark1 with
  | none => s
  | some m =>
    let s := s.setLane lane { s.lane lane with mark1 := none }
    let (sent, s) := if s.time.mpt - m.at_ > 0x0400 then (false, (s.fsat PLC_L_CMMISS.COUNT lane).missed lane 0) else s.markBurst lane m.air m.frame
    match m.camp with
    | none => if sent then s.markSent m.entry else s
    | some c =>
      if s.fget UPD_C_STAT.STATE c = 3 ∧ sent then s.campState c 4 else s.campSkip c

/-- A frame ends on air with its measured energy in µJ (R333). A broadcast or a frame without acknowledgement is done; a unicast waits for its
acknowledgement, a DUAL frame first for its burst 2. -/
def execPlcTxEnd (lane energy : Nat) (s : State) : Res :=
  .next (let v := s.lane lane
    match v.air with
    | none => s
    | some x =>
      let s := ((s.setLane lane { v with air := none }).fset PLC_L_STAT.TX_ON lane 0).plcDebit lane ((energy : Int) - (x.est : Int))
      let s := s.plcEnergy lane energy
      let x := { x with energy := x.energy + energy }
      let v := s.lane lane
      if x.what ≠ 0 ∧ x.what ≠ 6 then s.markLate lane
      else if x.second then (s.setLane lane { v with ack := some x }).markLate lane
      else if x.bcast ∨ nbit x.flags 1 then (s.txDone lane x 0).markLate lane
      else if s.laneOn lane = false then s.txDone lane x 0x21
      else (s.setLane lane { v with ack := some x }).markLate lane)

/-- ACK_TMO passes (R322, R327). -/
def execPlcAckTimeout (lane : Nat) (s : State) : Res :=
  .next (let v := s.lane lane
    match v.ack with
    | none => s
    | some x => if x.second then s else ((s.setLane lane { v with ack := none }).linkFail lane (s.hopOf x.node)).txRetry lane x)

/-- The measured level passes MAX + 2 dB for two symbols: the transmission is cut (R334). The energy measured until then is free. -/
def execLevelTrip (lane : Nat) (s : State) : Res :=
  .next (let v := s.lane lane
    match v.air with
    | none => s
    | some x =>
      let s := (s.setLane lane { v with air := none }).fset PLC_L_STAT.TX_ON lane 0
      let (energy, s) := s.drawNat (2 ^ 32)
      let s := (s.plcDebit lane ((energy : Int) - (x.est : Int))).plcEnergy lane energy
      let x := { x with energy := x.energy + energy }
      let s := (s.fsat PLC_L_LVLTRIP.COUNT lane).fset PLC_L_LEVEL.TRIM lane (min 15 (s.fget PLC_L_LEVEL.TRIM lane + 1))
      let s := if x.what = 0 ∨ x.what = 6 then s.txDone lane x 0xFF else s
      (s.laneErr PLC_L_ERR.LEVEL lane).signal (laneSrc lane 5) [])

/-- An ordinary frame has waited for energy longer than PLC_L_BWAIT (R333). -/
def execPlcEnergyWaitExpiry (lane : Nat) (s : State) : Res :=
  .next (let v := s.lane lane
    match v.queue with
    | x :: rest => if x.waiting then (s.setLane lane { v with queue := rest }).txDone lane x 0x24 else s
    | [] => s)

/-- Current mains-phase cycle and phase. -/
def State.cycleNow (s : State) : Nat := s.time.mpt / 65536
def State.phaseNow (s : State) : Nat := s.time.mpt % 65536

/-- A CYCLE_MARK trigger (R189, R331): the prepared mark goes to the lanes of the mask as burst 1; a lane that transmits waits for the end of its
frame (R330). `air` is a burst's air time. -/
def State.cycleMark (s : State) (mask air : Nat) : State :=
  let ws := s.fget BAL_CM_CFG.WS
  match (List.range 4).find? (fun e => s.fget BAL_MARK_ST.STATE e == 1 && s.fget BAL_MARK_ST.WS e == ws) with
  | none => s.errSet [BAL_ERR.CM] id
  | some e =>
    let gap := s.fget BAL_CM_CFG.GAP
    let delay := s.markCyc e - s.cycleNow
    if s.phaseNow < 0x27AB ∨ s.phaseNow > 0x2EAB ∨ delay < gap + 2 ∨ delay > 65535 then s.errSet [BAL_ERR.CM] id
    else
      let body := leB 4 (s.fget BAL_MARK_ID.ID e) ++ leB 2 delay ++ leB 1 gap ++ leB 1 (s.fget BAL_CM_CFG.PHASE_REQ) ++ leB 6 (s.markCyc e) ++ leB 6 (s.markUtc e)
      let (fr, s) := s.thosa 1 body
      let (sent, s) := s.markLanes mask air fr e none
      if sent then s.markSent e else s

/-- The time of a burst 2: of a mark, which is skipped if it cannot start in time (R331), or of a DUAL frame (R312). -/
def execBurst2Send (lane : Nat) (inTime : Bool) (air : Nat) (s : State) : Res :=
  .next (let v := s.lane lane
    match v.mark2 with
    | some fr =>
      if inTime ∧ s.fbit PLC_L_STAT.TX_ON lane then s
      else
        let s := s.setLane lane { v with mark2 := none }
        match (if inTime then s.thosaBurst lane air 4 fr else (false, s)) with
        | (true, s) => s.fsat PLC_L_CM2.COUNT lane
        | (false, s) => (s.fsat PLC_L_CMMISS.COUNT lane).missed lane 1
    | none =>
      match v.ack with
      | some x =>
        if x.second = false ∨ s.fbit PLC_L_STAT.TX_ON lane then s
        else if s.laneOn lane = false ∨ s.mayTransmit = false then (s.setLane lane { v with ack := none }).txDone lane x 0x24
        else if inTime then
          let s := (s.setLane lane { v with ack := none }).onAir lane { x with second := false, air := x.air + air }
          s.emit (.mac 1 lane (s.dataKind lane x) (if x.bcast then 0xFFFF else s.hopOf x.node) x.payload)
        else s.setLane lane { v with ack := if x.bcast ∨ nbit x.flags 1 then none else some { x with second := false } }
      | none => s)

/-- A BEACON trigger (R332). -/
def State.beaconTrigger (s : State) (lane : Nat) : State :=
  if s.laneOn lane = false ∨ (s.lane lane).beacon = [] then s.laneErr PLC_L_ERR.TRIG lane
  else s.setLane lane { s.lane lane with bcnDue := true }

/-- A scheduled beacon starts once the medium is free, or is dropped after its window (R332). -/
def execBeaconStart (lane : Nat) (inTime : Bool) (air : Nat) (s : State) : Res :=
  .next (let v := s.lane lane
    if v.bcnDue = false ∨ (inTime ∧ s.fbit PLC_L_STAT.TX_ON lane) then s
    else
      let s := s.setLane lane { v with bcnDue := false }
      match (if inTime then s.scheduled lane air 5 v.beacon else (false, s)) with
      | (true, s) => s
      | (false, s) => (s.fsat PLC_L_BCNMISS.COUNT lane).missed lane 2)

/-- A beacon request is answered under CSMA, like an ordinary frame (R332). -/
def execBeaconAnswer (lane : Nat) (s : State) : Res :=
  .next (let v := s.lane lane
    if v.bcnAsk = false then s
    else
      if s.laneOn lane = false ∨ s.mayTransmit = false ∨ v.queue.length ≥ 64 then s.setLane lane { v with bcnAsk := false }
      else s.setLane lane { v with bcnAsk := false, queue := v.queue ++ [{ bcast := true, payload := v.beacon, what := 6 }] })

/-! ### The PLC transmit engine (R328, R329) -/

/-- Bytes of an item's BUF in its task's window; none where they leave it. -/
def State.buf (s : State) (it : Item) (data : Bool) (len : Nat) : Option (List Byte) :=
  if s.winOk it.task data (it.f 8 8) len then some (s.winRead it.task data (it.f 8 8) len) else none

/-- OP 0: a MAC frame to a node, or a broadcast. -/
def execSend (n : Nat) (s : State) : Res :=
  .next (s.serve n 7 0 (fun it s =>
    let node := it.f 2 2 % 32768
    let bcast := nbit (it.f 2 2) 15
    let fl := it.f 6 1
    let len := it.f 4 2
    let lane := if nbit (it.f 1 1) 2 then nbits (s.nf node 0x14 1) 1 0 else it.f 1 1 % 4
    if len = 0 ∨ len > 400 ∨ s.laneOn lane = false
        ∨ (it.tenant ≠ 0 ∧ (bcast ∨ nbit fl 3 ∨ nbit fl 4 ∨ nbit fl 5)) then only s 0x23
    else match s.buf it false len with
    | none => only s 0x23
    | some p =>
      if s.mayTransmit = false then only s 0x24
      else if nbit fl 5 = false ∧ s.txKeyOk = false then only s 0x15
      else
        let v := s.lane lane
        if v.queue.length ≥ 64 then only s 0x24
        else (none, s.setLane lane { v with queue := txInsert v.queue { item := some n, node := node, bcast := bcast, payload := p, flags := fl, urgent := it.urgent } (fun y => nbit y.flags 6) })))

/-- OP 1: an APDU enters a lane's ingest queue as if received from the node. -/
def execReinject (n : Nat) (s : State) : Res :=
  .next (s.serve n 7 1 (fun it s =>
    let node := it.f 2 2 % 32768
    let len := it.f 4 2
    let lane := it.f 1 1 % 4
    if len = 0 ∨ len > 4096 then only s 0x23
    else match s.buf it false len, s.nodeLedger node with
    | some p, some (l, tn) =>
      if (tget [] s.pip.ingest lane).length ≥ ingestCap lane then only s 0x24
      else only (s.ingest lane (s.fieldReading (.lane lane) node l tn (s.nf node 0x17 1) false p)) 0
    | _, _ => only s 0x23))

/-- OP 2: an entry and its receive record. -/
def execNodeRd (n : Nat) (s : State) : Res :=
  .next (s.serve n 7 2 (fun it s =>
    let node := it.f 2 2 % 32768
    if s.winOk it.task true (it.f 8 8) 40 = false then only s 0x23
    else
      let r := tget ({} : RxRec) s.plc.rx node
      only (s.winWrite it.task true (it.f 8 8) (s.node node ++ leB 4 r.cnt ++ leB 1 r.dsn0 ++ leB 1 r.dsn1 ++ leB 2 r.age)) 0))

/-- OP 3: masked bytes of an entry. -/
def execNodeWr (n : Nat) (s : State) : Res :=
  .next (s.serve n 7 3 (fun it s =>
    let node := it.f 2 2 % 32768
    match s.buf it true 32 with
    | none => only s 0x23
    | some b => let (st, s) := s.nodeWriteBy it.tenant node (it.f 0x10 4) b; only s st))

/-- OP 4: the lane's beacon payload; tenant 0 only. -/
def execBeaconSet (n : Nat) (s : State) : Res :=
  .next (s.serve n 7 4 (fun it s =>
    let len := it.f 4 2
    let lane := it.f 1 1 % 4
    if it.tenant ≠ 0 ∨ len = 0 ∨ len > 64 ∨ s.laneOn lane = false then only s 0x23
    else match s.buf it false len with
    | none => only s 0x23
    | some p => only (s.setLane lane { s.lane lane with beacon := p }) 0))

/-! ### Lane lifecycle and register rows -/

/-- STATE of a lane changed (k = 4). -/
def State.laneSig (s : State) (n : Nat) : State := s.signal (laneSrc n 4) (leB 1 (s.fget PLC_L_STAT.STATE n))

/-- The other lanes of a lane's group that receive. -/
def State.rxPeers (s : State) (n : Nat) : List Nat := (s.combined n).filter (fun k => k != n && s.laneOn k)

/-- A lane's record with nothing in progress of its own; what its group has received is kept in it by the group's first lane. -/
def Lane.idle (v : Lane) (keep : Bool) : Lane :=
  { v with now := if keep then v.now else none, pairs := if keep then v.pairs else [], decoded := [], mark1 := none, mark2 := none, bcnDue := false, bcnAsk := false, tmAsk := [] }

/-- A lane turns ON: its receiver is IDLE, MUTED by a transmission in progress, or joins its group's receiver. -/
def State.laneStart (s : State) (n : Nat) : State :=
  let rx := match s.rxPeers n with
    | k :: _ => s.fget PLC_L_STAT.RXSTATE k
    | [] => if (List.range 4).any (fun k => s.fbit PLC_L_STAT.TX_ON k && s.mutesRx k n) then 4 else 0
  (((s.turnOn lifeLane n).setLane n ((s.lane n).idle (s.rxPeers n != []))).fset PLC_L_STAT.RXSTATE n rx).laneSig n

/-- A lane stops receiving (R305): a frame or held burst attributed to it is abandoned, with the receiver of its whole group back in IDLE for the frame;
what other lanes of its group receive goes on, and MUTED lasts as long as the transmission that mutes (R310). -/
def State.rxStop (s : State) (n : Nat) : State :=
  let l := s.lead n
  let v := s.lane l
  let own := fun (c : RxNow) => (s.rxPeers n).isEmpty || c.lane == n
  let s' := s.setLane l { v with now := v.now.filter (fun c => !own c), pairs := v.pairs.filter (fun c => !own c) }
  if s.rxState n ≠ 4 ∧ v.now.all own then s'.setRx n 0 else s'

/-- A lane enters DRAINING (R305). -/
def State.laneDrain (s : State) (n : Nat) : State :=
  let s := s.rxStop n
  let v := s.lane n
  let lost := (tget [] s.pip.ingest n).length
  let s := s.setLane n { v.idle true with queue := [], ack := none }
  let s := { s with pip := { s.pip with ingest := tput [] s.pip.ingest n [] } }
  let s := s.fsat PLC_L_DRAINDROP.COUNT n lost
  let s := match v.mark1 with
    | some { camp := some c, .. } => s.campSkip c
    | _ => s
  ((v.queue ++ v.ack.toList).foldl (fun s x => s.txDone n x 0x21) s).laneSig n

/-- A lane leaves DRAINING once nothing is on air. -/
def State.laneDrained (s : State) (n : Nat) : State :=
  if s.fget PLC_L_STAT.STATE n ≠ 1 ∨ (s.lane n).air.isSome then s
  else
    let s := s.drainDone lifeLane n (fun s => s.laneStart n)
    if s.fget PLC_L_STAT.STATE n = 0 then s.laneSig n else s

/-- PLC_L_CTRL.ENABLE (R305). -/
def execLaneEnable (host value : Nat) (s : State) : Res :=
  .next (s.gateW host .plc 0 0x1100 (fun n s =>
    if s.centre ∧ nbit value 0 then s.errAt PLC_ERR.ROLE 0x1100
    else s.enableWrite lifeLane n (nbit value 0) (fun s => s.laneStart n) (fun s => s.laneDrain n)))

/-- PLC_COMB (R308). -/
def execCombiningGroupWrite (host value : Nat) (s : State) : Res :=
  .next (s.gate host .plc 8 (fun s =>
    let m := Nat.lor (s.fget PLC_COMB.MASK) (nbits value 3 0)
    if (List.range 4).any (fun n => nbit m n && s.fget PLC_L_STAT.STATE n != 0) then
      s.errSet [PLC_ERR.BUSY, PLC_ERR.COMB] (fun s => s.fset PLC_ERR_INFO.OFFSET 0 8)
    else (s.writeReg host .plc 0 8 0 value).2))

/-- The counters of a lane, in register order. -/
def laneCounters : List Fld :=
  [PLC_L_RXOK.COUNT, PLC_L_SINGLE.COUNT, PLC_L_CRCERR.COUNT, PLC_L_DUP.COUNT, PLC_L_CAPLOST.COUNT, PLC_L_CAPIGN.COUNT, PLC_L_ERASED.COUNT,
   PLC_L_SECFAIL.COUNT, PLC_L_RXPREEMPT.COUNT, PLC_L_TXOK.COUNT, PLC_L_TXFAIL.COUNT, PLC_L_CM1.COUNT, PLC_L_CM2.COUNT, PLC_L_CMMISS.COUNT,
   PLC_L_BCNSENT.COUNT, PLC_L_BCNMISS.COUNT, PLC_L_LVLTRIP.COUNT, PLC_L_DRAINDROP.COUNT]

/-- PLC_L_CMD.CLR (R337). -/
def execPlcLClr (host value : Nat) (s : State) : Res :=
  .next (s.gateW host .plc 0 0x11C4 (fun n s => if nbit value 0 then laneCounters.foldl (fun s f => s.fset f n 0) s else s))

/-- PLC_L_CMD.CLR_TRIM (R337). -/
def execClrTrim (host value : Nat) (s : State) : Res :=
  .next (s.gateW host .plc 0 0x11C4 (fun n s => if nbit value 1 then s.fset PLC_L_LEVEL.TRIM n 0 else s))

end Sys2Proof.Machine
end

