-- ==== Sys2Proof/Machine/Radio.lean ====
section
/-! DEFINITION. The radios: reception, the connected-slot MAC, transmission and the radio engine (R338 to R370). -/
namespace Sys2Proof.Machine
open Reg

/-- A radio's record. -/
def State.radio (s : State) (n : Nat) : Radio := tget {} s.rfm.radios n

/-- Store a radio's record. -/
def State.setRadio (s : State) (n : Nat) (v : Radio) : State := { s with rfm := { s.rfm with radios := tput {} s.rfm.radios n v } }

/-- The radio is ON. -/
def State.radioOn (s : State) (n : Nat) : Bool := s.fget RFM_R_STAT.STATE n == 2

/-- RXSTATE of a radio (R341): 0 LISTEN, 1 SYNC, 2 PAYLOAD, 3 TX, 4 WINDOW. -/
def State.rx (s : State) (n : Nat) : Nat := s.fget RFM_R_STAT.RXSTATE n
def State.setRxs (s : State) (n v : Nat) : State := s.fset RFM_R_STAT.RXSTATE n v

/-- Event source 768 + 64·n + k (R368). -/
def radioSrc (n k : Nat) : Nat := 768 + 64 * n + k

/-- The slot clock moves on to a moment. -/
def State.clkTo (s : State) (now : Nat) : State := { s with rfm := { s.rfm with clk := max s.rfm.clk now } }

/-- STATE of a radio changed (k = 4). -/
def State.radioSig (s : State) (n : Nat) : State := s.signal (radioSrc n 4) (leB 1 (s.fget RFM_R_STAT.STATE n))

/-- RFM_R_ERR.CONN: a connection item is refused (k = 7). -/
def State.radioErr (s : State) (n : Nat) : State := let s := s.fset RFM_R_ERR.CONN n 1; s.signal (radioSrc n 7) (leB 4 (s.word .rfm 0 0x11C0 n))

/-! ### Connection records (R352, R361) -/

/-- Address of a connection record. -/
def State.connAddr (s : State) (k : Nat) : Nat := s.base RFM_CONN_LO.BASE_LO 18 RFM_CONN_HI.BASE_HI + 64 * k

/-- A field of a connection record. -/
def State.cf (s : State) (k off n : Nat) : Nat := ofLe (s.mread (s.connAddr k + off) n)

/-- Set a field of a connection record. -/
def State.setCf (s : State) (k off n v : Nat) : State := s.mwrite (s.connAddr k + off) (leB n v)

/-- STATE of a connection: 0 FREE, 1 CONNECTING, 2 CONNECTED, 3 UPDATING. -/
def State.connState (s : State) (k : Nat) : Nat := s.cf k 6 1 % 4

/-- What a connection holds beyond its record. -/
def State.connX (s : State) (k : Nat) : ConnX := (tget none s.rfm.conns k).getD {}

/-- Store it; none for FREE. -/
def State.setConnX (s : State) (k : Nat) (x : Option ConnX) : State := { s with rfm := { s.rfm with conns := tput none s.rfm.conns k x } }

/-- The radio a connection belongs to. -/
def connRadio (k : Nat) : Nat := k / 2048

/-- Set or clear a bit of FLAGS. -/
def State.setConnFlag (s : State) (k bit : Nat) (b : Bool) : State := s.setCf k 7 1 (nsetBit (s.cf k 7 1) bit b)

/-- Preamble and sync-word time T_PS in µs: 80 bits at the radio's rate, as in the worked window. -/
def State.tps (s : State) (n : Nat) : Nat := match s.fget RFM_R_CFG.RATE n with | 0 => 1600 | 1 => 800 | 2 => 533 | _ => 400

/-- U of R355, in ppm. -/
def State.connU (s : State) (k : Nat) : Nat :=
  if nbit (s.cf k 7 1) 0 then s.fget RFM_R_DRIFT.DRIFT_RES (connRadio k) else s.cf k 0x24 1 + s.fget RFM_R_DRIFT.LOCAL_PPM (connRadio k)

/-- The half width h of R355 for a time of `us` µs since the last anchor. -/
def State.connH (s : State) (k us : Nat) : Nat := (s.connU k * us + 999999) / 1000000 + s.fget RFM_R_WIN.JIT (connRadio k)

/-- The predicted anchor of the current event, times 256·10^6: T_LAST + the time since at the meter's clock, with the learned drift (R355, R358). -/
def State.predX (s : State) (k : Nat) : Int :=
  let x := s.connX k
  ((s.cf k 0x18 8 : Nat) + x.ofs) * 256000000 + (x.gone : Int) * (256000000 + sval 32 (s.cf k 0x20 4))

/-- The predicted anchor in whole µs. -/
def State.pred (s : State) (k : Nat) : Int := s.predX k / 256000000

/-- When the window of the current event opens. -/
def State.opens (s : State) (k : Nat) : Int := s.pred k - (s.connH k (s.connX k).gone : Nat) - (s.fget RFM_R_WIN.T_SET (connRadio k) : Nat)

/-- Connections of a radio that are not FREE. -/
def State.connsOf (s : State) (n : Nat) : List Nat := (s.rfm.conns.map (·.1)).filter (fun k => connRadio k == n)

/-- A connection's receive share times INTERVAL, in 0.1 % (R365). -/
def State.occTerm (s : State) (k : Nat) : Nat :=
  2 * s.connH k ((s.cf k 0x0C 1 + 1) * s.cf k 0x0A 2 * 1000) + s.fget RFM_R_WIN.T_SET (connRadio k) + s.tps (connRadio k)

/-- OCC of a radio as a fraction in 0.1 %. -/
def State.occ (s : State) (n : Nat) : Nat × Nat :=
  (s.connsOf n).foldl (fun (a : Nat × Nat) k => let i := max 1 (s.cf k 0x0A 2); (a.1 * i + s.occTerm k * a.2, a.2 * i)) (0, 1)

/-- RFM_R_OCC after a change. -/
def State.occSet (s : State) (n : Nat) : State :=
  let o := s.occ n
  (s.fset RFM_R_OCC.OCC n (min 1023 (o.1 / o.2))).fset RFM_R_OCC.CONNS n (s.connsOf n).length

/-- The channel of event `e` (R354). -/
def State.connChan (s : State) (k e : Nat) : Nat :=
  let nch := max 1 (s.fget RFM_R_CHSP.NCH (connRadio k))
  let m := s.cf k 0x10 8
  let u := s.cf k 0x0D 1 * (e + 1) % nch
  let on := (List.range 64).filter (fun c => nbit m c)
  if nbit m u then u else on.getD (u % max 1 on.length) 0

/-! ### Budgets and the transmitter (R340, R366) -/

/-- A radio's energy for an air time in 100 µs. -/
def State.radEst (s : State) (n air : Nat) : Nat := s.fget RFM_R_PWR0.MW n * air / 10

/-- Debit both buckets of a radio; the energy is added to RFM_R_EJ. -/
def State.radDebit (s : State) (n air : Nat) : State :=
  let est := s.radEst n air
  let s := s.fset RFM_R_TOKENS.UJ n (tokAdd (s.fget RFM_R_TOKENS.UJ n) (-(est : Int)) (s.fget RFM_R_BUDGET.DEPTH n * 1000))
  let s := s.fset RFM_R_AIRTOK.US n (tokAdd (s.fget RFM_R_AIRTOK.US n) (-(100 * air : Nat)) (s.fget RFM_R_DUTY.DUTY n * 3600000))
  let v := s.radio n
  (s.fsat RFM_R_EJ.MJ n ((v.ejFrac + est) / 1000)).setRadio n { v with ejFrac := (v.ejFrac + est) % 1000 }

/-- Both buckets hold a frame's debit. -/
def State.radHolds (s : State) (n air : Nat) : Bool :=
  decide (sval 32 (s.fget RFM_R_TOKENS.UJ n) ≥ (s.radEst n air : Int)) && decide (sval 32 (s.fget RFM_R_AIRTOK.US n) ≥ (100 * air : Nat))

/-- PA_EN falls where a PA is fitted, then LNA_EN rises: the receiver of an ON radio is on again (R340). -/
def State.paOff (s : State) (n : Nat) : State :=
  let s := if s.fbit RFM_R_CFG.EXT_PA n then s.emit (.pin 2 (4 + n) 0) else s
  if s.radioOn n then s.emit (.pin 2 (6 + n) 1) else s

/-- The transmitter starts: a frame in progress is abandoned, LNA_EN falls, PA_EN rises where a PA is fitted (R340, R341). -/
def State.radTx (s : State) (n air : Nat) (x : TxItem) : State :=
  let s := (s.radDebit n air)
  let s := s.setRadio n { s.radio n with now := none, air := some x }
  let s := (s.fset RFM_R_STAT.TX_ON n 1).setRxs n 3
  let s := if s.radioOn n then s.emit (.pin 2 (6 + n) 0) else s
  if s.fbit RFM_R_CFG.EXT_PA n then s.emit (.pin 2 (4 + n) 1) else s

/-- Answer a transmit item with the result word of R364. -/
def State.radDone (s : State) (n : Nat) (x : TxItem) (st : Nat) : State :=
  let s := if st = 0 then s.fsat RFM_R_TXOK.COUNT n else s.fsat RFM_R_TXFAIL.COUNT n
  match x.item with
  | none => s
  | some i => s.itemDone i st (x.total % 256 + x.mode * 2 ^ 8 + x.air % 2 ^ 16 * 2 ^ 16 + x.energy * 2 ^ 32)

/-! ### The end of a connection (R352) -/

/-- The item of an operation other than SEND is answered. -/
def State.connItem (s : State) (i : Option Nat) (st result : Nat) : State := match i with | some n => s.itemDone n st result | none => s

/-- A record returns to FREE: 0 meter TERMINATE, 1 own TERMINATE acknowledged, 2 supervision, 3 drain, 4 never connected, which signals nothing,
5 ended by a new CONNECT, which is signalled as 1. -/
def State.connFree (s : State) (k reason : Nat) : State :=
  let x := s.connX k
  let n := connRadio k
  let node := s.cf k 4 2 % 32768
  let s := (s.setCf k 6 1 0).setConnX k none
  let s := if nbits (s.nf node 0x18 2) 11 0 = k ∧ nbit (s.nf node 0x18 2) 15 then s.setNf node 0x18 2 (nsetBit (s.nf node 0x18 2) 15 false) else s
  let v := s.radio n
  let s := s.setRadio n { v with win := if v.win = some k then none else v.win, waiting := v.waiting.filter (· != k) }
  let s := if v.win = some k ∧ s.rx n ≠ 3 then (s.setRadio n { s.radio n with now := none }).setRxs n 0 else s
  let s := ((x.flight.bind (·.item)).toList ++ x.queue).foldl (fun s q => s.radDone n q 0x21) s
  let s := s.connItem (x.upd.map (·.item)) 0x21 0
  let s := s.connItem x.termItem (if reason = 1 ∨ reason = 2 then 0 else 0x21) 0
  let s := s.connItem x.item (if reason = 4 then 0x20 else 0x21) 0
  let s := if reason = 2 then s.fsat RFM_R_CONNLOST.COUNT n else s
  let s := s.occSet n
  if reason = 4 then s else s.signal (radioSrc n 2) (leB 2 node ++ leB 2 k ++ leB 1 (if reason = 5 then 1 else reason))

/-- The event after the current one becomes current. -/
def State.nextEvent (s : State) (k : Nat) : State :=
  let x := s.connX k
  let s := s.setCf k 8 2 (s.cf k 8 2 + 1)
  let s := s.setCf k 0x26 2 (min 65535 (s.cf k 0x26 2 + 1))
  s.setConnX k (some { x with gone := x.gone + s.cf k 0x0A 2 * 1000, anchored := false })

/-- The window of a connection closes: supervision is checked (R357), and the next event follows. -/
def State.closeWin (s : State) (n k : Nat) : State :=
  let s := s.setRadio n { s.radio n with win := none, now := none }
  let s := if s.rx n = 3 then s else s.setRxs n 0
  if s.connState k ≥ 2 ∧ s.rfm.clk - (s.connX k).lastRx ≥ s.cf k 0x0E 2 * 10000 then s.connFree k 2 else s.nextEvent k

/-- The current event is missed. -/
def State.missEvent (s : State) (n k : Nat) : State := (s.fsat RFM_R_WINMISS.COUNT n).closeWin n k

/-! ### The receiver (R341, R342) -/

/-- A preamble of a given RSSI in dBm. -/
def execRfPreambleDetect (radio : Nat) (rssi : Int) (s : State) : Res :=
  .next (let v := s.radio radio
    let new := fun (w : Bool) (s : State) => (s.setRadio radio { s.radio radio with now := some { rssi := rssi, win := w } }).setRxs radio 1
    if radio ≥ 2 ∨ s.radioOn radio = false then s
    else match s.rx radio, v.now with
      | 0, _ => new v.win.isSome s
      | 4, _ => new true s
      | 3, _ => s
      | _, some c =>
        if rssi ≥ c.rssi + (s.fget RFM_R_CAP.MARGIN radio : Nat) then
          let s := s.fsat RFM_R_CAPLOST.COUNT radio
          match v.win with
          | some k => new false (if (s.connX k).anchored then s.closeWin radio k else s.missEvent radio k)
          | none => new false s
        else s.fsat RFM_R_CAPIGN.COUNT radio
      | _, none => s)

/-- The sync word within two sync-word times, or not. -/
def execSyncWord (radio : Nat) (found : Bool) (s : State) : Res :=
  .next (let v := s.radio radio
    if s.rx radio ≠ 1 then s
    else if found then s.setRxs radio 2
    else
      let back := match v.win, v.now with | some k, some _ => if (s.connX k).anchored then 0 else 4 | _, _ => 0
      (s.setRadio radio { v with now := none }).setRxs radio back)

/-! ### Duplicates and replays (R344, R345) -/

/-- The check against a node's replay record; an accepted frame updates it. -/
def State.rplCheck (s : State) (node : Nat) (secured : Bool) (counter acc win : Nat) : DupRes × State :=
  let a := s.rplAddr node
  let r := s.mread a 16
  let high := leAt r 0 4
  let w := leAt r 4 8
  let fl := leAt r 0xD 1
  if secured then
    if nbit fl 0 = false ∨ counter > high then
      let w := if nbit fl 0 then w * 2 ^ min 64 (counter - high) + 1 else 1
      (.accept, s.mwrite a (leB 4 counter ++ leB 8 w ++ leB 1 (leAt r 0xC 1) ++ leB 1 (nsetBit fl 0 true)))
    else if counter + 63 < high then (.replay, s)
    else if nbit w (high - counter) then (.dup, s)
    else (.accept, s.mwrite (a + 4) (leB 8 (nsetBit w (high - counter) true)))
  else if nbit fl 1 ∧ leAt r 0xC 1 = acc % 256 ∧ leAt r 0xE 2 < win then (.dup, s)
  else (.accept, s.mwrite (a + 0xC) (leB 1 acc ++ leB 1 (nsetBit fl 1 true) ++ leB 2 0))

/-- The check of a source without an entry: the recent-source cache, as for lanes. -/
def State.rfRecent (s : State) (kind addr dsn win : Nat) : DupRes × State :=
  match s.rfm.recent.find? (fun e => e.kind == kind && e.addr == addr) with
  | some e =>
    let rest := s.rfm.recent.filter (fun x => !(x.kind == kind && x.addr == addr))
    if e.dsn0 = dsn ∧ e.age ≤ win then (.dup, { s with rfm := { s.rfm with recent := e :: rest } })
    else (.accept, { s with rfm := { s.rfm with recent := { e with dsn0 := dsn, dsn1 := e.dsn0, age := 0 } :: rest } })
  | none => (.accept, { s with rfm := { s.rfm with recent := (⟨kind, addr, dsn, 0, 0⟩ :: s.rfm.recent).take 64 } })

/-- The radio node an address maps to. -/
def State.radioNode (s : State) (kind addr : Nat) : Option Nat := (s.nodeAt kind addr).filter (fun n => nodeMedium (s.node n) != 0)

/-! ### Paths (R346, R347) -/

/-- The reception kind of a frame on a radio (R347): its personality's; which of C and T a frame of PERS 2 came in, the frame says. -/
def State.rxKind (s : State) (n : Nat) (f : RfFrame) : Nat :=
  if f.kind = 3 ∨ f.rx = 5 then 5 else match s.fget RFM_R_CFG.PERS n with | 0 => 0 | 1 => 1 | 2 => if f.rx = 3 then 3 else 2 | _ => 4

/-- A frame goes to a radio's slow path. Answers its SEQ. -/
def State.radioSlow (s : State) (n reason : Nat) (node : Option Nat) (f : RfFrame) : Nat × State :=
  let v := s.radio n
  let q := v.slowSeq
  let slot := q % 512
  let a := s.base RFM_SLOW_LO.BASE_LO 22 RFM_SLOW_HI.BASE_HI + n * 2097152 + slot * 4096
  let s := s.setRadio n { v with slowSeq := (q + 1) % 2 ^ 32 }
  let s := s.mwrite a (leB 4 q ++ leB 2 f.raw.length ++ leB 1 reason ++ leB 1 (s.rxKind n f) ++ leB 8 s.time.mpt ++ f.raw.take 4080)
  (q, s.signal (radioSrc n 0) (leB 2 slot ++ leB 2 f.raw.length ++ leB 2 (node.getD 0xFFFF) ++ leB 1 reason ++ leB 1 (uval 8 f.rssi) ++ leB 4 q))

/-- An APDU of a node enters the radio's ingest queue, or none without LEDGER_VALID. -/
def State.radioIngest (s : State) (n : Nat) (node : Option Nat) (lqi : Nat) (apdu : List Byte) : Option State :=
  (node.bind (fun k => s.nodeLedger k)).map (fun (l, tn) => s.ingest (4 + n) (s.fieldReading (.radio n) (node.getD 0) l tn lqi false apdu))

/-- A destination is RFM_PAN.SHORT in RFM_PAN.PAN_ID (R346). -/
def State.isRfUs (s : State) (k : Nat × Nat) : Bool := k == (1, s.fget RFM_PAN.PAN_ID + s.fget RFM_PAN.SHORT * 2 ^ 16)

/-- The fast-path test of an accepted SUN or wM-Bus frame. -/
def State.radioPath (s : State) (n : Nat) (f : RfFrame) : State :=
  let (ok, oa) := match f.mesh with | some (_, o) => o | none => (f.srcKind, f.src)
  let org := if f.parity then none else s.radioNode ok oa
  let slow := fun (r : Nat) => (s.radioSlow n r org f).2
  if f.parity then ((s.fset PLC_NT_STAT.REPAIR 0 1).radioSlow n 2 none f).2
  else if f.kind = 2 then
    if f.ci ≠ s.fget RFM_FP.CI then slow 1 else (s.radioIngest n org f.lqi f.apdu).getD (slow 0)
  else if f.secured = false then slow 3
  else if f.mesh.any (fun m => !s.isRfUs m.1) ∨ f.kind ≠ 0 ∨ (f.toEui = false ∧ s.isRfUs f.dst = false) ∨ f.frag ∨ f.port ≠ some (s.fget RFM_FP.PORT) ∨ f.wrapper = false then slow 1
  else (s.radioIngest n org f.lqi f.apdu).getD (slow 0)

/-! ### Connected-slot PDUs (R349, R350) -/

/-- The key of a radio key index: its reception or transmission slot, if VALID, loaded and not blocked. -/
def State.rfKey (s : State) (idx : Nat) (tx : Bool) : Option (List Byte) :=
  let valid := s.fbit (if idx = 0 then RFM_KEY0.VALID else RFM_KEY1.VALID)
  let slot := s.fget (if tx then (if idx = 0 then RFM_KEY0.TX_SLOT else RFM_KEY1.TX_SLOT) else (if idx = 0 then RFM_KEY0.RX_SLOT else RFM_KEY1.RX_SLOT))
  if valid ∧ s.keysBlocked = false then (s.keyAt slot (s.slotGen slot)).map (·.key) else none

/-- The CCM* nonce. -/
def csmNonce (access pcnt dir event : Nat) : List Byte := leB 4 access ++ leB 4 pcnt ++ leB 1 dir ++ leB 2 event ++ [0, 0]

/-- A PDU the device sends. -/
def csmPdu (key : List Byte) (access ctrl event pcnt : Nat) (payload : List Byte) : List Byte :=
  let hdr := leB 4 access ++ leB 1 ctrl ++ leB 1 payload.length
  let n := csmNonce access pcnt 1 event
  hdr ++ leB 4 pcnt ++ ccmCrypt key n payload ++ ccmTag key n hdr payload 4

/-- A received PDU: CTRL, PCNT and payload, if SEC is set and its MIC holds. -/
def State.csmOpen (s : State) (keyIdx access event : Nat) (pdu : List Byte) : Option (Nat × Nat × List Byte) :=
  let ctrl := leAt pdu 4 1
  let len := leAt pdu 5 1
  let pcnt := leAt pdu 6 4
  match s.rfKey keyIdx false with
  | none => none
  | some key =>
    let n := csmNonce access pcnt 0 event
    let p := ccmCrypt key n (slice pdu 10 len)
    if nbit ctrl 5 = false ∨ leAt pdu 0 4 ≠ access ∨ pdu.length ≠ 14 + len ∨ len > 250
        ∨ slice pdu (10 + len) 4 ≠ ccmTag key n (pdu.take 6) p 4 then none
    else some (ctrl, pcnt, p)

/-- LQI and RSSI of a node's last accepted frame. -/
def State.radioSeen (s : State) (node : Option Nat) (lqi : Nat) (rssi : Int) : State :=
  match node with | some n => (s.setNf n 0x17 1 lqi).setNf n 0x1A 1 (uval 8 rssi) | none => s

/-- A frame in STANDBY: only the counters, or LQI and RSSI of an accepted frame's node (R338). -/
def State.radioQuiet (s : State) (n : Nat) (node : Option Nat) (lqi : Nat) (rssi : Int) (secured : Bool) (counter acc : Nat) : State :=
  match node with
  | none => s
  | some k =>
    match (s.rplCheck k secured counter acc (s.fget RFM_R_DUPWIN.WIN n)).1 with
    | .accept => s.radioSeen node lqi rssi
    | .dup => s.fsat RFM_R_DUP.COUNT n
    | .replay => s.fsat RFM_R_REPLAY.COUNT n

/-- A JOIN_REQ on an advertising channel (R350, R351). -/
def State.joinReq (s : State) (n now : Nat) (f : RfFrame) : State :=
  match s.csmOpen f.keyIdx (s.fget RFM_CSM_AA.AA) 0 f.raw with
  | none => s.fsat RFM_R_SECFAIL.COUNT n
  | some (ctrl, pcnt, p) =>
    let eui := leAt p 1 8
    let node := if f.parity then none else s.radioNode 0 eui
    if ctrl % 4 ≠ 2 ∨ leAt p 0 1 ≠ 6 then s.fsat RFM_R_SECFAIL.COUNT n
    else if s.mode = 4 then s.radioQuiet n node f.lqi f.rssi true pcnt 0
    else
      let (res, s) : DupRes × State := match node with
        | some k => s.rplCheck k true pcnt 0 0
        | none => s.rfRecent 0 eui pcnt (s.fget RFM_R_DUPWIN.WIN n)
      match res with
      | .replay => s.fsat RFM_R_REPLAY.COUNT n
      | .dup => s.fsat RFM_R_DUP.COUNT n
      | .accept =>
        let s := s.radioSeen node f.lqi f.rssi
        let (q, s) := s.radioSlow n 4 node f
        let v := s.radio n
        s.setRadio n { v with joins := (v.joins ++ [(⟨q, f.chan, leAt p 9 1, leAt p 10 1, eui, now⟩ : Join)]).drop (v.joins.length - 511) }

/-- Hold back or let go a wM-Bus item once its meter is heard (R362). -/
def State.wmbHeard (s : State) (n node : Nat) : State :=
  let v := s.radio n
  if s.fget RFM_R_CFG.PERS n ≠ 2 ∨ v.resp.isSome then s
  else match v.held.find? (fun x => x.node == node) with
    | some x => s.setRadio n { v with held := v.held.erase x, resp := some { x with what := 7 } }
    | none => s

/-- The last byte of a frame outside a connection event, at a moment of the slot clock; FCS right or wrong (R341, R343). -/
def execRfFrameReceived (radio now : Nat) (fcs : Bool) (frame : RfFrame) (s : State) : Res :=
  .next (if radio ≥ 2 ∨ s.rx radio ≠ 2 ∨ (s.radio radio).win.isSome then s
    else
      let s := ((s.clkTo now).setRadio radio { s.radio radio with now := none }).setRxs radio 0
      if fcs = false then s.fsat RFM_R_CRCERR.COUNT radio
      else
        let s := s.fsat RFM_R_RXOK.COUNT radio
        let f := frame
        let node := if f.parity then none else s.radioNode f.srcKind f.src
        if f.kind = 3 then
          (if s.fbit RFM_R_CFG.CSM_EN radio ∧ s.fget RFM_R_CFG.PERS radio = 0 then s.joinReq radio now f else s.fsat RFM_R_SECFAIL.COUNT radio)
        else if f.kind = 1 then
          (match (s.radio radio).ack, node with
          | some x, some k => if x.node = k then ((s.setRadio radio { s.radio radio with ack := none }).setNb k 0x15 2 0 0).radDone radio x 0 else s
          | _, _ => s)
        else if f.secured ∧ f.kind ≠ 2 ∧ (f.tagOk = false ∨ (s.rfKey f.keyIdx false).isNone) then s.fsat RFM_R_SECFAIL.COUNT radio
        else if s.mode = 4 then s.radioQuiet radio node f.lqi f.rssi (f.secured && f.kind != 2) f.counter f.dsn
        else
          let win := s.fget RFM_R_DUPWIN.WIN radio
          let (res, s) : DupRes × State := match node with
            | some k => s.rplCheck k (f.secured && f.kind != 2) f.counter f.dsn win
            | none => s.rfRecent f.srcKind f.src f.dsn win
          if res = DupRes.replay then s.fsat RFM_R_REPLAY.COUNT radio
          else
            let s := if f.kind ≠ 2 ∧ (f.toEui ∨ s.isRfUs f.dst) ∧ f.ackReq ∧ s.mayTransmit ∧ s.radioOn radio ∧ (s.radio radio).air.isNone then
                (s.radTx radio f.ackAir { what := 9 }).emit (.mac 2 radio 1 (node.getD 0xFFFF) [])
              else s
            let s := match node with | some k => if f.kind = 2 then s.wmbHeard radio k else s | none => s
            if res = DupRes.dup then s.fsat RFM_R_DUP.COUNT radio
            else
              let s := s.radioSeen node f.lqi f.rssi
              if (match node with | some k => nbit (s.nf k 0x0A 2) 4 | none => false) then s else s.radioPath radio f)

/-! ### Connection set-up (R351, R352) -/

/-- Distance of two anchors on a circle of `per` µs. -/
def circDist (per : Nat) (a b : Int) : Nat := let d := ((a - b) % (per : Int)).toNat; min d (per - d)

/-- WIN_OFS: the first anchor as far as possible from those of the radio's connections of the same INTERVAL, the smallest value on a tie. -/
def State.winOfs (s : State) (k : Nat) (ended : Nat) : Nat :=
  let i := s.cf k 0x0A 2
  let others := ((s.connsOf (connRadio k)).filter (fun c => c != k && s.cf c 0x0A 2 == i && ((s.connX c).sent))).map (fun c => s.pred c)
  if others.isEmpty then 0
  else
    ((List.range i).foldl (fun (b : Nat × Nat) w =>
      let d := others.foldl (fun a o => min a (circDist (i * 1000) ((ended + (w + i) * 1000 : Nat) : Int) o)) (i * 1000)
      if d > b.2 then (w, d) else b) (0, 0)).1

/-- RESP_DELAY after the JOIN_REQ, CONNECT_IND is sent without CSMA at a moment of the slot clock (R351). The spec gives its PCNT no value: a free one. -/
def execConnectIndSend (conn now air : Nat) (s : State) : Res :=
  .next (let n := connRadio conn
    let x := s.connX conn
    if s.connState conn ≠ 1 ∨ x.sent ∨ s.radioOn n = false ∨ s.mayTransmit = false ∨ (s.radio n).air.isSome then s
    else match s.rfKey (s.fget RFM_KEY_TX.IDX) true with
      | none => s
      | some key =>
        let s := s.clkTo now
        let ended := now + 100 * air
        let w := s.winOfs conn ended
        let (pc, s) := s.drawNat (2 ^ 32)
        let node := s.cf conn 4 2 % 32768
        let body := leB 1 1 ++ leB 8 (s.nf node 0 8) ++ leB 4 (s.cf conn 0 4) ++ leB 2 (s.cf conn 0x0A 2) ++ leB 1 (s.cf conn 0x0C 1)
          ++ leB 1 (s.cf conn 0x0D 1) ++ leB 2 (s.cf conn 0x0E 2) ++ leB 8 (s.cf conn 0x10 8) ++ leB 2 w
        let s := (s.radTx n air { what := 9 }).emit (.frame 2 n (csmPdu key (s.fget RFM_CSM_AA.AA) 0x22 0 pc body))
        let s := (s.setCf conn 0x18 8 (ended + w * 1000)).setCf conn 0x26 2 1
        s.setConnX conn (some { x with sent := true, gone := s.cf conn 0x0A 2 * 1000, lastRx := ended }))

/-- No valid frame by 6 × INTERVAL after CONNECT_IND (R352). -/
def execConnectingTimeout (conn : Nat) (s : State) : Res := .next (if s.connState conn = 1 then s.connFree conn 4 else s)

/-! ### Windows and events (R353 to R359) -/

/-- INSTANT is reached: the new values apply (R358). -/
def State.updateNow (s : State) (k : Nat) : State :=
  let x := s.connX k
  match x.upd with
  | none => s
  | some u =>
    if s.connState k ≠ 3 ∨ s.cf k 8 2 ≠ s.cf k 0x30 2 then s
    else
      let n := connRadio k
      let s := if u.map then s.setCf k 0x10 8 u.chmap
        else ((s.setCf k 0x0A 2 u.interval).setCf k 0x0C 1 u.latency).setCf k 0x0E 2 u.sup
      let s := (s.setConnX k (some { x with upd := none, ofs := x.ofs + u.ofs })).setCf k 6 1 2
      ((s.occSet n).itemDone u.item 0 0).signal (radioSrc n 3) (leB 2 (s.cf k 4 2) ++ leB 2 k)

/-- UPDATE_INSTANT: event INSTANT is the current one. -/
def execUpdateInstant (conn : Nat) (s : State) : Res := .next (s.updateNow conn)

/-- A connection's window opens, or waits for the receiver; a waiting window is offered again once the receiver is free (R355, R359). -/
def execWindowOpen (conn now : Nat) (s : State) : Res :=
  .next (let n := connRadio conn
    let s := s.clkTo now
    if s.connState conn = 0 ∨ (s.connX conn).sent = false ∨ s.radioOn n = false then s
    else
      let s := s.updateNow conn
      let v := s.radio n
      if v.win.isSome ∨ s.rx n ≠ 0 then s.setRadio n { v with waiting := if v.win = some conn ∨ v.waiting.contains conn then v.waiting else v.waiting ++ [conn] }
      else if v.waiting.isEmpty = false ∧ v.waiting.head? ≠ some conn then
        s.setRadio n { v with waiting := if v.waiting.contains conn then v.waiting else v.waiting ++ [conn] }
      else
        let s := s.setRadio n { v with waiting := v.waiting.filter (· != conn) }
        if (now : Int) > s.pred conn + (s.connH conn (s.connX conn).gone : Nat) then
          let c := (s.connX conn).conflicts + 1
          let s := (s.setConnX conn (some { s.connX conn with conflicts := if c ≥ 3 then 0 else c })).fsat RFM_R_WINCONF.COUNT n
          let s := if c ≥ 3 then s.signal (radioSrc n 5) (leB 2 conn) else s
          s.nextEvent conn
        else
          let s := s.setConnX conn (some { s.connX conn with conflicts := 0 })
          (s.setRadio n { s.radio n with win := some conn }).setRxs n 4)

/-- A window closes with no sync word (R341, R357). -/
def execWindowClose (radio now : Nat) (s : State) : Res :=
  .next (match (s.radio radio).win with
    | none => s
    | some k => if s.rx radio ≠ 4 then s else (s.clkTo now).missEvent radio k)

/-- A quotient rounded to nearest. -/
def nearest (e : Int) (d : Nat) : Int := (2 * e + d) / (2 * d : Nat)

/-- The drift sample of an anchor (R356). -/
def State.driftSample (s : State) (k anchor : Nat) : State :=
  let n := connRadio k
  let x := s.connX k
  let e : Int := (anchor : Int) * 256000000 - s.predX k
  if x.gone = 0 then s
  else if e.natAbs > s.fget RFM_R_DRIFT.DRIFT_MAX n * 256 * x.gone then
    s.signal (radioSrc n 8) (leB 2 k ++ leB 4 (uval 32 (nearest e x.gone)))
  else
    let sm := s.cf k 0x25 1
    let d := if sm = 0 then nearest e x.gone else sval 32 (s.cf k 0x20 4) + nearest e (x.gone * 2 ^ s.fget RFM_R_DRIFT.LEARN_SHIFT n)
    let s := (s.setCf k 0x20 4 (uval 32 d)).setCf k 0x25 1 (min 255 (sm + 1))
    if sm + 1 ≥ s.fget RFM_R_DRIFT.LEARN_N n then (s.setConnFlag k 0 true).occSet n else s

/-- The first valid frame of an event sets the anchor (R353, R355, R356); in CONNECTING it connects (R352; log entry 25). -/
def State.anchorAt (s : State) (k anchor : Nat) : State :=
  let n := connRadio k
  let x := s.connX k
  let s := if s.connState k = 1 ∧ s.cf k 8 2 = 0 then s else s.driftSample k anchor
  let s := (s.setCf k 0x18 8 anchor).setCf k 0x26 2 0
  let s := s.setConnX k (some { x with gone := 0, ofs := 0, lastRx := max s.rfm.clk anchor, anchored := true })
  let s := s.fsat RFM_R_WINOK.COUNT n
  if s.connState k ≠ 1 then s
  else
    let node := s.cf k 4 2 % 32768
    let s := (s.setCf k 6 1 2).setNf node 0x18 2 (k + 2 ^ 15)
    let s := s.setConnX k (some { s.connX k with item := none })
    (s.connItem x.item 0 (k % 4096 + s.cf k 0 4 * 2 ^ 32)).signal (radioSrc n 1) (leB 2 node ++ leB 2 k)

/-- What the device says next on a connection: the unacknowledged PDU again, else TERMINATE, an update, data, or EMPTY (R360). -/
def State.nextPdu (s : State) (k : Nat) : Flight × State :=
  let x := s.connX k
  match x.flight with
  | some f => (f, s)
  | none =>
    let pc := (s.cf k 0x28 4 + 1) % 2 ^ 32
    let sn := nbits (s.cf k 7 1) 1 1
    let s := s.setCf k 0x28 4 pc
    let mk := fun (w t : Nat) (p : List Byte) (i : Option TxItem) => ({ what := w, sn := sn, pcnt := pc, typ := t, payload := p, item := i } : Flight)
    let f : Flight × ConnX :=
      if x.term then (mk 3 2 (leB 1 4 ++ leB 1 1) none, x)
      else match x.upd.filter (fun u => !u.acked) with
        | some u =>
          (mk 2 2 (if u.map then leB 1 2 ++ leB 8 u.chmap ++ leB 2 (s.cf k 0x30 2)
            else leB 1 3 ++ leB 2 u.interval ++ leB 1 u.latency ++ leB 2 u.sup ++ leB 2 (uval 16 u.ofs) ++ leB 2 (s.cf k 0x30 2)) none, x)
        | none =>
          match x.queue with
          | q :: rest => (mk 1 0 q.payload (some q), { x with queue := rest })
          | [] => (mk 0 1 [] none, x)
    (f.1, s.setConnX k (some { f.2 with flight := some f.1 }))

/-- The reply T_IFS after a meter frame, of an air time in 100 µs (R360). -/
def State.csmReply (s : State) (k air : Nat) : State :=
  let n := connRadio k
  match s.rfKey (s.fget RFM_KEY_TX.IDX) true with
  | none => s
  | some key =>
    if s.mayTransmit = false ∨ s.radioOn n = false ∨ (s.radio n).air.isSome then s
    else
      let (f, s) := s.nextPdu k
      let x := s.connX k
      let f := { f with item := f.item.map (fun q => { q with total := q.total + 1, air := q.air + air, energy := q.energy + s.radEst n air, mode := s.connChan k (s.cf k 8 2) }) }
      let s := s.setConnX k (some { x with flight := some f })
      let md := !x.queue.isEmpty
      let ctrl := f.typ + f.sn * 4 + nbits (s.cf k 7 1) 2 2 * 8 + b2n md * 16 + 32
      (s.radTx n air { what := 9 }).emit (.frame 2 n (csmPdu key (s.cf k 0 4) ctrl (s.cf k 8 2) f.pcnt f.payload))

/-- The peer's NESN acknowledges the PDU in flight (R360). Answers whether the connection ended. -/
def State.csmAcked (s : State) (k nesn : Nat) : Bool × State :=
  let x := s.connX k
  match x.flight with
  | none => (false, s)
  | some f =>
    if nesn = f.sn then (false, s)
    else
      let s := (s.setConnX k (some { x with flight := none, upd := if f.what = 2 then x.upd.map (fun u => { u with acked := true }) else x.upd })).setConnFlag k 1 (f.sn == 0)
      if f.what = 3 then (true, s.connFree k 1)
      else match f.item with
        | some q => (false, s.radDone (connRadio k) q 0)
        | none => (false, s)

/-- A meter frame in the window or the event of a connection, FCS right: the anchor or the frame's start and the moment of its end on the slot
clock, its key index and PDU, and the air time of the reply (R349, R356, R360). -/
def execCsmFrameExchange (radio anchor now keyIdx : Nat) (pdu : List (BitVec 8)) (lqi : Nat) (rssi : Int) (air : Nat) (s : State) : Res :=
  .next (match (s.radio radio).win with
    | none => s
    | some k =>
      if s.rx radio ≠ 2 then s
      else
        let s := ((s.clkTo now).setRadio radio { s.radio radio with now := none }).setRxs radio 0
        match s.csmOpen keyIdx (s.cf k 0 4) (s.cf k 8 2) pdu with
        | none => (s.fsat RFM_R_SECFAIL.COUNT radio).closeWin radio k
        | some (ctrl, pcnt, p) =>
          let s := s.fsat RFM_R_RXOK.COUNT radio
          let sn := nbits ctrl 2 2
          let x := s.connX k
          let node := s.cf k 4 2 % 32768
          let again := x.any && sn != nbits (s.cf k 7 1) 2 2
          if s.mode = 4 then s.radioSeen (some node) lqi rssi
          else if again = false ∧ pcnt ≤ s.cf k 0x2C 4 then s.fsat RFM_R_REPLAY.COUNT radio
          else
            let s := if x.anchored then s.setConnX k (some { x with lastRx := s.rfm.clk }) else s.anchorAt k anchor
            let (ended, s) := s.csmAcked k (nbits ctrl 3 3)
            if ended then
              if again ∨ ctrl % 4 ≠ 0 ∨ nbit (s.nf node 0x0A 2) 4 then s
              else (s.radioIngest radio (some node) lqi p).getD (s.radioSlow radio 0 (some node) { raw := pdu, rssi := rssi, rx := 5 }).2
            else if again then (s.fsat RFM_R_DUP.COUNT radio).csmReply k air
            else
              let s := ((s.setCf k 0x2C 4 pcnt).setConnFlag k 2 (sn == 0)).setConnX k (some { s.connX k with any := true })
              let s := s.radioSeen (some node) lqi rssi
              if ctrl % 4 = 2 ∧ leAt p 0 1 = 4 then (s.csmReply k air).connFree k 0
              else
                let s := s.csmReply k air
                if ctrl % 4 = 1 ∨ nbit (s.nf node 0x0A 2) 4 then s
                else if ctrl % 4 = 0 then
                  (s.radioIngest radio (some node) lqi p).getD (s.radioSlow radio 0 (some node) { raw := pdu, rssi := rssi, rx := 5 }).2
                else s.fsat RFM_R_SECFAIL.COUNT radio)

/-- A connection event ends: by a frame failing its FCS, by MD clear on both sides, by silence, or by CE_MAX (R360). -/
def execConnectionEventEnd (radio now : Nat) (fcsFail : Bool) (s : State) : Res :=
  .next (match (s.radio radio).win with
    | none => s
    | some k =>
      if s.rx radio = 4 ∨ (fcsFail ∧ s.rx radio ≠ 2) ∨ s.rx radio = 3 ∨ (fcsFail = false ∧ (s.connX k).anchored = false) then s
      else
        let s := if fcsFail then s.fsat RFM_R_CRCERR.COUNT radio else s
        (s.clkTo now).closeWin radio k)

/-! ### Transmission (R362, R366) -/

/-- An attempt has failed. -/
def State.radRetry (s : State) (n : Nat) (x : TxItem) : State :=
  let v := s.radio n
  if s.radioOn n = false then s.radDone n x 0x21
  else if x.attempts < s.fget RFM_R_MAC.MAX_ATT n then s.setRadio n { v with queue := requeue v.queue x }
  else s.radDone n x 0x20

/-- FAILS of a radio node, saturating at 7. -/
def State.radFail (s : State) (x : TxItem) : State :=
  if x.bcast then s else s.setNb x.node 0x15 2 0 (min 7 (nbits (s.nf x.node 0x15 1) 2 0 + 1))

/-- A due wM-Bus response, else the head of the queue, starts: it gains the channel or fails to, must not reach a window's opening, and needs both
buckets. `now` is on the slot clock, `air` in 100 µs. -/
def execRfTxStart (radio now : Nat) (gained : Bool) (air : Nat) (s : State) : Res :=
  .next (let s := s.clkTo now
    let v := s.radio radio
    let send := fun (s : State) (x : TxItem) =>
      let x := { x with attempts := x.attempts + 1, total := x.total + 1, waiting := false, air := air, est := s.radEst radio air, energy := x.energy + s.radEst radio air
                        mode := s.fget RFM_R_LISTEN.CH radio }
      (s.radTx radio air x).emit (.mac 2 radio 0 (if x.bcast then 0xFFFF else x.node) x.payload)
    if radio ≥ 2 ∨ s.radioOn radio = false ∨ v.air.isSome ∨ v.win.isSome then s
    else match v.resp with
      | some x =>
        let s := s.setRadio radio { v with resp := none }
        if s.mayTransmit = false then s.radDone radio x 0x24 else send s x
      | none =>
        match v.queue with
        | [] => s
        | x :: rest =>
          let out := s.setRadio radio { v with queue := rest }
          if v.ack.isSome then s
          else if s.mayTransmit = false then out.radDone radio x 0x24
          else if gained = false then (out.radFail x).radRetry radio { x with attempts := x.attempts + 1, total := x.total + 1 }
          else if (s.connsOf radio).any (fun k => (s.connX k).sent && decide (((now + 100 * air : Nat) : Int) ≥ s.opens k)) then s
          else if s.radHolds radio air then send out x
          else
            let s := s.setRadio radio { v with queue := { x with waiting := true } :: rest }
            match (if x.waiting then (false, s) else s.oncePerSec (2004 + radio)) with
            | (true, s) => s.signal (radioSrc radio 6) []
            | (false, s) => s)

/-- A transmission ends at the antenna (R340, R341). -/
def execRfTxEnd (radio : Nat) (s : State) : Res :=
  .next (let v := s.radio radio
    match v.air with
    | none => s
    | some x =>
      let s := ((s.setRadio radio { v with air := none }).fset RFM_R_STAT.TX_ON radio 0).setRxs radio 0
      let s := s.paOff radio
      if x.what = 9 then s
      else if x.bcast ∨ nbit x.flags 0 ∨ x.what = 7 then s.radDone radio x 0
      else if s.radioOn radio = false then s.radDone radio x 0x21
      else s.setRadio radio { s.radio radio with ack := some x })

/-- ACK_TMO passes. -/
def execRfAckTimeout (radio : Nat) (s : State) : Res :=
  .next (let v := s.radio radio
    match v.ack with
    | none => s
    | some x => ((s.setRadio radio { v with ack := none }).radFail x).radRetry radio x)

/-- A frame has waited for budget longer than RFM_R_BWAIT. -/
def execRfBudgetWaitExpiry (radio : Nat) (s : State) : Res :=
  .next (let v := s.radio radio
    match v.queue with
    | x :: rest => if x.waiting then (s.setRadio radio { v with queue := rest }).radDone radio x 0x24 else s
    | [] => s)

/-- A held wM-Bus item, or a connection's data, exceeds HOLD. -/
def execWmbHoldExpiry (radio item : Nat) (s : State) : Res :=
  .next (let v := s.radio radio
    match v.held.find? (fun x => x.item == some item) with
    | some x => (s.setRadio radio { v with held := v.held.erase x }).radDone radio x 0x20
    | none =>
      match (s.connsOf radio).find? (fun k => (s.connX k).queue.any (fun x => x.item == some item)) with
      | none => s
      | some k =>
        let x := s.connX k
        let s := s.setConnX k (some { x with queue := x.queue.filter (fun q => q.item != some item) })
        (x.queue.filter (fun q => q.item == some item)).foldl (fun s q => s.radDone radio q 0x20) s)

/-! ### The radio engine (R363, R364) -/

/-- Items a radio holds. -/
def State.radQueued (s : State) (n : Nat) : Nat :=
  let v := s.radio n
  v.queue.length + v.held.length + (s.connsOf n).foldl (fun a k => a + (s.connX k).queue.length) 0

/-- OP 0. -/
def execRfSend (n : Nat) (s : State) : Res :=
  .next (s.serve n 8 0 (fun it s =>
    let r := it.f 1 1 % 2
    let node := it.f 2 2 % 32768
    let bcast := nbit (it.f 2 2) 15
    let fl := it.f 6 1
    let len := it.f 4 2
    let kind := nbits (s.nf node 0x15 1) 4 3
    let csm := nbit fl 3
    let wmb := !csm && !bcast && kind != 0
    let lim := if csm then 250 else if wmb then 240 else 2000
    if len = 0 ∨ len > lim ∨ s.radioOn r = false
        ∨ (it.tenant ≠ 0 ∧ (bcast ∨ nbit fl 1 ∨ nbit fl 2)) ∨ (csm ∧ bcast) ∨ (wmb ∧ (kind = 3 ∨ s.fget RFM_R_CFG.PERS r ≠ 2)) then only s 0x23
    else match s.buf it false len with
    | none => only s 0x23
    | some p =>
      let x : TxItem := { item := some n, node := node, bcast := bcast, payload := p, flags := fl, urgent := it.urgent }
      let high := fun (y : TxItem) => nbit y.flags 2
      let v := s.radio r
      let c := s.nf node 0x18 2
      let k := nbits c 11 0
      if s.mayTransmit = false ∨ s.radQueued r ≥ 64 then only s 0x24
      else if csm then
        if nbit c 15 = false ∨ connRadio k ≠ r ∨ s.connState k < 2 then only s 0x24
        else if (s.rfKey (s.fget RFM_KEY_TX.IDX) true).isNone then only s 0x15
        else (none, s.setConnX k (some { s.connX k with queue := txInsert (s.connX k).queue { x with what := 8 } high }))
      else if wmb then (none, s.setRadio r { v with held := txInsert v.held x high })
      else if nbit fl 1 = false ∧ (s.rfKey (s.fget RFM_KEY_TX.IDX) true).isNone then only s 0x15
      else (none, s.setRadio r { v with queue := txInsert v.queue x high })))

/-- OP 1: as R329. -/
def execRfReinject (n : Nat) (s : State) : Res :=
  .next (s.serve n 8 1 (fun it s =>
    let r := it.f 1 1 % 2
    let node := it.f 2 2 % 32768
    let len := it.f 4 2
    if len = 0 ∨ len > 4096 ∨ s.radioOn r = false then only s 0x23
    else match s.buf it false len with
    | none => only s 0x23
    | some p =>
      if (tget [] s.pip.ingest (4 + r)).length ≥ ingestCap (4 + r) then only s 0x24
      else match s.radioIngest r (some node) (s.nf node 0x17 1) p with
        | some s => only s 0
        | none => only s 0x23))

/-- A channel map is legal: at least 2 channels, none at or above NCH (R354). -/
def State.chmapOk (s : State) (n m : Nat) : Bool :=
  decide (((List.range 64).filter (fun c => nbit m c)).length ≥ 2) && decide (m < 2 ^ s.fget RFM_R_CHSP.NCH n)

/-- INTERVAL, LATENCY and SUP_TMO are legal together (R357, R361, R367). -/
def paramOk (interval latency sup : Nat) : Bool :=
  decide (8 ≤ interval ∧ latency ≤ 63 ∧ 10 ≤ sup ∧ 2 * (latency + 1) * interval ≤ sup * 10)

/-- A connection item is refused with a status (RFM_R_ERR.CONN). -/
def State.connRefuse (s : State) (r st : Nat) : Option (Nat × Nat) × State := only (s.radioErr r) st

/-- Serve a connection item; one that the check at issue refused with PROTECTION is a refused connection item as well. -/
def State.serveConn (s : State) (n op : Nat) (f : Item → State → Option (Nat × Nat) × State) : State :=
  let r := match s.item n with
    | some it => if it.engine = 8 ∧ it.op = op ∧ it.done.isNone ∧ it.inService = false ∧ it.verdict = 0x23 then some (it.f 1 1 % 2) else none
    | none => none
  match r with
  | some r => (s.radioErr r).serve n 8 op f
  | none => s.serve n 8 op f

/-- A number into a rising list without repeats. -/
def insertNat (v : Nat) : List Nat → List Nat
  | [] => [v]
  | a :: t => if v < a then v :: a :: t else if v = a then a :: t else a :: insertNat v t

/-- The `v`-th number, from 0, that a rising list does not hold. -/
def skipUsed : Nat → List Nat → Nat
  | v, [] => v
  | v, a :: t => if v ≥ a then skipUsed (v + 1) t else v

/-- Draw an ACCESS other than RFM_CSM_AA and those in use (R351). -/
def State.drawAccess (s : State) : Nat × State :=
  let used := s.rfm.conns.foldl (fun l e => insertNat (s.cf e.1 0 4) l) [s.fget RFM_CSM_AA.AA]
  let (v, s) := s.drawNat (2 ^ 32 - used.length)
  (skipUsed v used, s)

/-- OP 2: a new connection for a JOIN_REQ (R351, R365). -/
def execConnect (n : Nat) (s : State) : Res :=
  .next (s.serveConn n 2 (fun it s =>
    let r := it.f 1 1 % 2
    let node := it.f 2 2 % 32768
    let i := it.f 0x12 2
    let lat := it.f 0x14 1
    let hop := it.f 0x15 1
    let sup := it.f 0x16 2
    let map := it.f 0x18 8
    if it.tenant ≠ 0 ∨ s.radioOn r = false ∨ paramOk i lat sup = false ∨ hop < 5 ∨ hop > 16
        ∨ s.chmapOk r map = false then s.connRefuse r 0x23
    else if s.fbit RFM_R_CFG.CSM_EN r = false ∨ s.fget RFM_R_CFG.PERS r ≠ 0 then s.connRefuse r 0x24
    else match (s.radio r).joins.find? (fun j => j.seq == it.f 0x24 4) with
    | none => only s 0x20
    | some j =>
      let due := j.ended + j.delay * 1000
      if s.rfm.clk + 1000 > due then only s 0x20
      else match (List.range 2048).find? (fun k => (tget none s.rfm.conns (2048 * r + k)).isNone) with
      | none => s.connRefuse r 0x24
      | some k0 =>
        let k := 2048 * r + k0
        let u := j.sca + s.fget RFM_R_DRIFT.LOCAL_PPM r
        let h := (u * ((lat + 1) * i * 1000) + 999999) / 1000000 + s.fget RFM_R_WIN.JIT r
        let o := s.occ r
        let term := 2 * h + s.fget RFM_R_WIN.T_SET r + s.tps r
        if o.1 * i + term * o.2 > s.fget RFM_R_WIN.OCC_MAX r * 10 * o.2 * i then s.connRefuse r 0x24
        else
          let c := s.nf node 0x18 2
          let s := if nbit c 15 then s.connFree (nbits c 11 0) 5 else s
          let (acc, s) := s.drawAccess
          let s := s.setRadio r { s.radio r with joins := (s.radio r).joins.erase j }
          let rec_ := leB 4 acc ++ leB 2 node ++ leB 1 1 ++ leB 1 (8 * r) ++ leB 2 0 ++ leB 2 i ++ leB 1 lat ++ leB 1 hop ++ leB 2 sup ++ leB 8 map
            ++ leB 8 0 ++ leB 4 0 ++ leB 1 j.sca ++ leB 1 0 ++ leB 2 0 ++ leB 4 0 ++ leB 4 0 ++ leB 2 0 ++ leB 14 0
          let s := (s.mwrite (s.connAddr k) rec_).setConnX k (some { item := some n, chan := j.chan, due := due })
          (none, s.occSet r)))

/-- The connection an item names, on its radio. -/
def Item.conn (it : Item) : Nat := it.f 0x10 2

/-- OP 3: CHMAP_IND or PARAM_IND (R358). -/
def execConnUpdate (n : Nat) (s : State) : Res :=
  .next (s.serveConn n 3 (fun it s =>
    let r := it.f 1 1 % 2
    let k := it.conn
    let map := nbit (it.f 6 1) 4
    if it.tenant ≠ 0 ∨ s.radioOn r = false ∨ k ≥ 4096 ∨ connRadio k ≠ r
        ∨ (map ∧ s.chmapOk r (it.f 0x18 8) = false) ∨ (map = false ∧ paramOk (it.f 0x12 2) (it.f 0x14 1) (it.f 0x16 2) = false) then s.connRefuse r 0x23
    else if s.connState k = 0 then only s 0x21
    else if s.connState k ≠ 2 then s.connRefuse r 0x24
    else
      let ahead := sval 16 (it.f 0x20 2 + 65536 - s.cf k 8 2)
      if ahead < ((s.cf k 0x0C 1 + 6 : Nat) : Int) then s.connRefuse r 0x23
      else
        let u : ConnUpd := { map := map, chmap := it.f 0x18 8, interval := it.f 0x12 2, latency := it.f 0x14 1, sup := it.f 0x16 2
                             ofs := if map then 0 else sval 16 (it.f 0x22 2), item := n }
        (none, ((s.setConnX k (some { s.connX k with upd := some u })).setCf k 0x30 2 (it.f 0x20 2)).setCf k 6 1 3)))

/-- OP 4: TERMINATE at the next event. -/
def execTerminate (n : Nat) (s : State) : Res :=
  .next (s.serveConn n 4 (fun it s =>
    let r := it.f 1 1 % 2
    let k := it.conn
    if it.tenant ≠ 0 ∨ s.radioOn r = false ∨ k ≥ 4096 ∨ connRadio k ≠ r then s.connRefuse r 0x23
    else if s.connState k < 2 ∨ (s.connX k).term then only s 0x21
    else (none, s.setConnX k (some { s.connX k with term := true, termItem := some n }))))

/-- OP 5: the 64-byte record. -/
def execConnRd (n : Nat) (s : State) : Res :=
  .next (s.serveConn n 5 (fun it s =>
    let r := it.f 1 1 % 2
    let k := it.conn
    if it.tenant ≠ 0 ∨ s.radioOn r = false ∨ k ≥ 4096 ∨ s.winOk it.task true (it.f 8 8) 64 = false then
      s.connRefuse r 0x23
    else only (s.winWrite it.task true (it.f 8 8) (s.mread (s.connAddr k) 64)) 0))

/-! ### Radio lifecycle (R338) -/

/-- A radio turns ON. -/
def State.radioStart (s : State) (n : Nat) : State :=
  let v := s.radio n
  ((((s.turnOn lifeRadio n).setRadio n { v with now := none, joins := [], win := none, waiting := [], resp := none }).setRxs n 0).emit (.pin 2 (6 + n) 1)).radioSig n

/-- A radio enters DRAINING. -/
def State.radioDrain (s : State) (n : Nat) : State :=
  let v := s.radio n
  let s := (s.connsOf n).foldl (fun s k => s.connFree k 3) s
  let lost := (tget [] s.pip.ingest (4 + n)).length
  let s := { s with pip := { s.pip with ingest := tput [] s.pip.ingest (4 + n) [] } }
  let s := s.setRadio n { s.radio n with now := none, queue := [], ack := none, held := [], resp := none, joins := [], win := none, waiting := [] }
  let s := (if s.rx n = 3 then s else (s.setRxs n 0).emit (.pin 2 (6 + n) 0)).fsat RFM_R_DRAINDROP.COUNT n lost
  ((v.queue ++ v.ack.toList ++ v.held ++ v.resp.toList).foldl (fun s x => s.radDone n x 0x21) s).radioSig n

/-- A radio leaves DRAINING once nothing is on air. -/
def State.radioDrained (s : State) (n : Nat) : State :=
  if s.fget RFM_R_STAT.STATE n ≠ 1 ∨ (s.radio n).air.isSome then s
  else
    let s := s.drainDone lifeRadio n (fun s => s.radioStart n)
    if s.fget RFM_R_STAT.STATE n = 0 then s.radioSig n else s

/-- RFM_R_CTRL.ENABLE (R338). -/
def execRadioEnable (host value : Nat) (s : State) : Res :=
  .next (s.gateW host .rfm 0 0x1100 (fun n s =>
    if s.centre ∧ nbit value 0 then s.errAt RFM_ERR.ROLE 0x1100
    else s.enableWrite lifeRadio n (nbit value 0) (fun s => s.radioStart n) (fun s => s.radioDrain n)))

/-- The counters of a radio. -/
def radioCounters : List Fld :=
  [RFM_R_RXOK.COUNT, RFM_R_CRCERR.COUNT, RFM_R_DUP.COUNT, RFM_R_REPLAY.COUNT, RFM_R_CAPLOST.COUNT, RFM_R_CAPIGN.COUNT, RFM_R_SECFAIL.COUNT,
   RFM_R_TXOK.COUNT, RFM_R_TXFAIL.COUNT, RFM_R_WINOK.COUNT, RFM_R_WINMISS.COUNT, RFM_R_WINCONF.COUNT, RFM_R_CONNLOST.COUNT, RFM_R_DRAINDROP.COUNT]

/-- RFM_R_CMD.CLR (R370). -/
def execRfmRClr (host value : Nat) (s : State) : Res :=
  .next (s.gateW host .rfm 0 0x11C4 (fun n s => if nbit value 0 then radioCounters.foldl (fun s f => s.fset f n 0) s else s))

end Sys2Proof.Machine
end

