-- ==== Sys2Proof/Machine/Ink.lean ====
section
/-! DEFINITION. The Inkwell recorder beyond the storing of one record: flush, freeze, snapshots, reads, work items (R458 to R462). -/
namespace Sys2Proof.Machine
open Reg

/-- Bytes of the records kept in one place. -/
def State.inkBytes (s : State) (p : InkPlace) : Nat := s.ink.recs.foldl (fun a r => if r.place = p then a + r.size else a) 0

/-- Drop the oldest records of one place until `need` bytes are freed. -/
def inkEvict (p : InkPlace) : Nat → List InkRec → List InkRec
  | _, [] => []
  | need, r :: t => if need = 0 then r :: t else if r.place = p then inkEvict p (need - r.size) t else r :: inkEvict p need t

/-- Make room in an area of `cap` bytes by erasing its oldest blocks of `unit` bytes (R459; log entry 32). -/
def State.inkTrim (s : State) (p : InkPlace) (cap unit : Nat) : State :=
  let n := s.inkBytes p
  if n ≤ cap ∨ unit = 0 then s else { s with ink := { s.ink with recs := inkEvict p ((n - cap + unit - 1) / unit * unit) s.ink.recs } }

/-- Bytes of the early Inkwell area (R429). -/
def earlyBytes : Nat := 16 * 65536

/-- Unflushed records go to the Inkwell area, or to the early area while STATE is not READY (R459). -/
def State.inkFlush (s : State) : State :=
  let pl := if s.nandReady then InkPlace.nand else InkPlace.early
  let s := { s with ink := { s.ink with recs := s.ink.recs.map (fun (r : InkRec) => if r.place = InkPlace.buffer then { r with place := pl } else r) } }
  let s := s.fset INK_STAT.USED 0 0
  if s.nandReady then s.inkTrim .nand (s.nand.inkBlocks * s.blockBytes) s.blockBytes else s.inkTrim .early earlyBytes 65536

/-- When STATE becomes READY, early-area records newer than the newest record in NAND are copied to NAND (R459). -/
def State.inkToNand (s : State) : State :=
  let newest := (s.ink.recs.filter (fun r => r.place == .nand)).getLast?
  let s := { s with ink := { s.ink with recs := s.ink.recs.map (fun (r : InkRec) =>
    if r.place = InkPlace.early ∧ (newest.all (fun (x : InkRec) => newer32 r.seq x.seq)) then { r with place := .nand } else r) } }
  s.inkTrim .nand (s.nand.inkBlocks * s.blockBytes) s.blockBytes

/-- A record reaches the recorder under a type of R457 (types of tasks come as work items). -/
def execInkwellRecord (typ tenant : Nat) (body : List Byte) (s : State) : Res :=
  .next (if typ ∈ [2, 3, 4, 0x10, 0x11, 0x12, 0x20, 0x21, 0x22, 0x30, 0x40, 0x50, 0x51, 0x60] ∧ body.length ≤ 1008 ∧ tenant < 1024
    then s.inkRec typ tenant body else s)

/-- A flush starts: on FLUSH_PCT, FLUSH_S or a CRIT record (R459). -/
def execInkwellFlush (s : State) : Res := .next s.inkFlush

/-! ### Freezing (R461) -/

/-- Request a freeze after `post` more records. -/
def State.inkFreeze (s : State) (post : Nat) : State :=
  if s.fget INK_STAT.FREEZE ≠ 0 then s
  else
    let s := s.fset INK_SUPP.COUNT 0 0
    let s := { s with ink := { s.ink with post := post, firstOp := 0, lastOp := 0 } }
    if post = 0 then (s.fset INK_STAT.FREEZE 0 2).signal 135 [0] else s.fset INK_STAT.FREEZE 0 1

/-- Release the freeze for a REASON: GAP record, then event 135. -/
def State.inkRelease (s : State) (reason : Nat) : State :=
  if s.fget INK_STAT.FREEZE = 0 then s
  else
    let s := s.fset INK_STAT.FREEZE 0 0
    let s := s.inkRec 1 0 (gapBody (s.fget INK_SUPP.COUNT) s.ink.firstOp s.ink.lastOp reason)
    s.signal 135 [BitVec.ofNat 8 reason]

/-- INK_CMD.FREEZE. -/
def execFreeze (host value : Nat) (s : State) : Res :=
  .next (s.gate host .sto 0x94 (fun s =>
    if nbit value 0 = false then s
    else if nbits value 28 16 > 4096 then s.errAt STO_ERR.RANGE 0x94
    else s.inkFreeze (nbits value 28 16)))

/-- INK_CMD.RELEASE. -/
def execInkRelease (host value : Nat) (s : State) : Res :=
  .next (s.gate host .sto 0x94 (fun s =>
    if nbit value 1 = false then s
    else if nbits value 28 16 > 4096 then s.errAt STO_ERR.RANGE 0x94
    else s.inkRelease 0))

/-- A freeze has lasted FREEZE_MAX seconds since it took effect. -/
def execFreezeMaxExpiry (s : State) : Res := .next (if s.fget INK_STAT.FREEZE = 2 then s.inkRelease 1 else s)

/-! ### Snapshots and reads (R460) -/

/-- OLDEST; with nothing retained, the next number. -/
def State.inkOldest (s : State) : Nat := match s.ink.recs with | r :: _ => r.seq | [] => s.fget INK_SEQ.SEQ

/-- NEWEST: every record is complete once it is stored. -/
def State.inkNewest (s : State) : Nat := (s.fget INK_SEQ.SEQ + 2 ^ 32 - 1) % 2 ^ 32

/-- Read one number: the status and the record. A number in range whose record is not retained reads as an evicted one (log entry 32). -/
def State.inkAt (s : State) (q : Nat) : Nat × Option InkRec :=
  if newer32 q s.inkNewest then (0x24, none)
  else
    match s.ink.recs.find? (fun r => r.seq == q) with
    | some r => (0, some r)
    | none => (0x31, s.ink.recs.head?)

/-- INK_SNAP_CMD.TAKE. -/
def execInkSnapTake (host value : Nat) (s : State) : Res :=
  .next (s.gate host .sto 0x98 (fun s =>
    if nbit value 0 then (s.fset INK_SNAP_OLD.SEQ host s.inkOldest).fset INK_SNAP_NEW.SEQ host s.inkNewest else s))

/-- A write of INK_RD_SEQ reads a record into the read window, zero beyond its length; `fails` is a failed NAND read. -/
def execInkRdSeq (host value : Nat) (fails : Bool) (s : State) : Res :=
  .next (s.gate host .sto 0xA4 (fun s =>
    let q := value % 2 ^ 32
    let s := s.fset INK_RD_SEQ.SEQ host q
    let (st, r) := s.inkAt q
    let bad := fails && (match r with | some x => x.place == .nand | none => false)
    let st := if bad then 0x40 else st
    let r : Option InkRec := if bad then none else r
    let s := s.fset INK_RD_RES.STATUS host st
    { s with ink := { s.ink with window := match r with | some x => x.bytes | none => [] } }))

/-! ### Work items (R462) -/

/-- OP 0: store a task's record. -/
def execInkItemWrite (n : Nat) (s : State) : Res :=
  .next (s.serve n 6 0 (fun it s =>
    let typ := it.f 2 2
    let len := it.f 4 2
    if typ < 0x1000 ∨ typ > 0x1FFF ∨ len < 8 ∨ len > 1008 then only s 0x23
    else match s.buf it false len with
    | none => only s 0x23
    | some b =>
      let supp := decide (s.fget INK_STAT.FREEZE = 2)
      let old := s.fget INK_SEQ.SEQ
      let s := s.inkRec typ it.tenant b
      let seq := if s.fget INK_SEQ.SEQ = old then old else (s.fget INK_SEQ.SEQ + 2 ^ 32 - 1) % 2 ^ 32
      (some (0, if supp then 2 ^ 32 else seq), s)))

/-- Copy records from a number onward: at most `n` are looked at. Answers the copied bytes, their number and the next number. -/
def inkTake (tenant count : Nat) : List InkRec → List Byte × Nat × Option Nat
  | [] => ([], 0, none)
  | r :: t =>
    if count = 0 then ([], 0, some r.seq)
    else if r.tenant = tenant ∨ tenant = 0 then
      let (b, k, nx) := inkTake tenant (count - 1) t
      (r.bytes ++ b, k + 1, nx)
    else inkTake tenant count t

/-- OP 1: copy up to COUNT records from SEQ on, the tenant's own unless it is tenant 0; `fails` is a failed NAND read. -/
def execInkItemRead (n : Nat) (fails : Bool) (s : State) : Res :=
  .next (s.serve n 6 1 (fun it s =>
    let q := it.f 0x10 4
    let (st, r) := s.inkAt q
    if st = 0x24 then only s 0x24
    else if fails then only s 0x40
    else
      let from_ := match r with | some x => x.seq | none => q
      let rs := s.ink.recs.dropWhile (fun x => x.seq != from_)
      let (b, k, nx) := inkTake it.tenant (it.f 0x14 4) rs
      if s.winOk it.task false (it.f 8 8) b.length then
        (some (st, k + (nx.getD (s.fget INK_SEQ.SEQ)) * 2 ^ 32), s.winWrite it.task false (it.f 8 8) b)
      else only s 0x23))

/-- OP 2: OLDEST and NEWEST. -/
def execInkItemSnap (n : Nat) (s : State) : Res :=
  .next (s.serve n 6 2 (fun _ s => (some (0, s.inkOldest + s.inkNewest * 2 ^ 32), s)))

/-- OP 3: FREEZE, for tenant 0. -/
def execInkItemFreeze (n : Nat) (s : State) : Res :=
  .next (s.serve n 6 3 (fun it s =>
    if it.tenant ≠ 0 ∨ it.f 0x18 2 > 4096 then only s 0x23 else (some (0, 0), s.inkFreeze (it.f 0x18 2))))

/-- OP 4: RELEASE, for tenant 0. -/
def execInkItemRelease (n : Nat) (s : State) : Res :=
  .next (s.serve n 6 4 (fun it s => if it.tenant ≠ 0 then only s 0x23 else (some (0, 0), s.inkRelease 0)))

end Sys2Proof.Machine
end

