-- ==== Sys2Proof/Machine/Storage.lean ====
section
/-! DEFINITION. Configuration memory, the NAND blocks, partitions and flash work items (R428 to R455). -/
namespace Sys2Proof.Machine
open Reg

/-! ### Configuration memory (R428 to R433) -/

/-- The regions of R429: first and last address. -/
def qRegions : List (Nat × Nat) :=
  [(0x0, 0xFFFF), (0x10000, 0x1FFFF), (0x20000, 0x2FFFF), (0x30000, 0x3FFFF), (0x40000, 0x4FFFF), (0x50000, 0xFFFFF),
   (0x100000, 0x2FFFFF), (0x300000, 0x3FFFFF), (0x400000, 0x9FFFFF), (0xA00000, 0xFFFFFF), (0x1000000, 0x1FFFFFF)]

/-- Bytes of the device found. -/
def State.qBytes (s : State) : Nat := s.fget STO_QSPI.MBIT * 131072

/-- The region an address range lies in, if one holds it whole. -/
def State.qRegion (s : State) (a n : Nat) : Option Nat :=
  if a + n > s.qBytes then none
  else (List.range 11).find? (fun k => match qRegions[k]? with | some (lo, hi) => decide (lo ≤ a ∧ a ≤ hi ∧ a + n ≤ hi + 1) | none => false)

/-- One byte of configuration memory; never programmed, 0xFF. -/
def State.qget (s : State) (a : Nat) : Byte := tget 0xFF s.nand.qspi a

/-- Bytes of configuration memory. -/
def State.qread (s : State) (a n : Nat) : List Byte := (List.range n).map (fun k => s.qget (a + k))

/-- Store bytes in configuration memory. -/
def State.qput (s : State) (a : Nat) : List Byte → State
  | [] => s
  | b :: t => ({ s with nand := { s.nand with qspi := tput 0xFF s.nand.qspi a b } } : State).qput (a + 1) t

/-- Erase a 64 KiB sector. -/
def State.qErase (s : State) (a : Nat) : State :=
  let a := a / 65536 * 65536
  { s with nand := { s.nand with qspi := s.nand.qspi.filter (fun e => decide (e.1 < a ∨ a + 65536 ≤ e.1)) } }

/-- Bytes of the command buffer. -/
def State.qbufRead (s : State) (n : Nat) : List Byte := (List.range n).map (fun k => tget 0 s.nand.qbuf k)

/-- Store bytes in a byte table from a place on. -/
def tabPut (t : Tab Byte) (a : Nat) : List Byte → Tab Byte
  | [] => t
  | b :: r => tabPut (tput 0 t a b) (a + 1) r

/-- A STO_QCMD command: its OP, whether it carries the confirmation, and what it does; the answer is its status (R433). -/
def State.qcmd (s : State) (host value op : Nat) (confirm : Bool) (f : State → Nat × State) : State :=
  s.gate host .sto 0x8 (fun s =>
    if nbits value 3 0 ≠ op then s
    else if confirm ∧ nbits value 31 16 ≠ 0x5153 then s.errAt STO_ERR.CMD 0x8
    else if s.fbit STO_QRES.BUSY then s.errAt STO_ERR.BUSY 0x8
    else
      let (st, s) := f s
      let s := s.fset STO_QRES.STATUS 0 st
      if st = 0x23 then s.errAt STO_ERR.QSPI 0x8 else s)

/-- READ: any region but the vault store. The bank status records and the early Inkwell area have no stated layout, so what they read as
is free (log entry 33). -/
def execQspiRead (host value : Nat) (s : State) : Res :=
  .next (s.qcmd host value 1 false (fun s =>
    let a := s.fget STO_QADDR.ADDR host
    let n := s.fget STO_QLEN.LEN host
    match s.qRegion a n with
    | none => (0x23, s)
    | some r =>
      if r = 6 then (0x23, s)
      else
        let (b, s) := if r = 2 ∨ r = 3 ∨ r = 7 then s.draw n else (s.qread a n, s)
        (0, { s with nand := { s.nand with qbuf := tabPut s.nand.qbuf 0 b } })))

/-- PROGRAM clears bits; a read-back that differs gives MEDIA_ERROR. -/
def execQspiProgram (host value : Nat) (s : State) : Res :=
  .next (s.qcmd host value 2 true (fun s =>
    let a := s.fget STO_QADDR.ADDR host
    let n := s.fget STO_QLEN.LEN host
    match s.qRegion a n with
    | none => (0x23, s)
    | some r =>
      if r ≠ 4 ∧ r ≠ 10 then (0x23, s)
      else
        let b := s.qbufRead n
        let w := (b.zip (s.qread a n)).map (fun e => e.1 &&& e.2)
        (if w = b then 0 else 0x40, s.qput a w)))

/-- ERASE of an aligned sector. -/
def execQspiErase (host value : Nat) (s : State) : Res :=
  .next (s.qcmd host value 3 true (fun s =>
    let a := s.fget STO_QADDR.ADDR host
    match s.qRegion a 1 with
    | none => (0x23, s)
    | some r => if (r ≠ 4 ∧ r ≠ 10) ∨ a % 65536 ≠ 0 then (0x23, s) else (0, s.qErase a)))

/-- A boot header copy's bytes, its CRC check and its SEQ (R430). -/
def State.bootHdr (s : State) (k : Nat) : List Byte := s.qread (k * 65536) 32

/-- A boot header copy's CRC passes, the one condition R430 sets. -/
def hdrOk (b : List Byte) : Bool := leAt b 0x1C 4 == crc32 (b.take 28)

/-- The copy BOOT uses: the valid one of the higher SEQ (R430). -/
def State.bootCopy (s : State) : Option Nat :=
  match hdrOk (s.bootHdr 0), hdrOk (s.bootHdr 1) with
  | true, true => some (if newer32 (leAt (s.bootHdr 1) 0x10 4) (leAt (s.bootHdr 0) 0x10 4) then 1 else 0)
  | true, false => some 0
  | false, true => some 1
  | false, false => none

/-- BOOTHDR writes the copy with the lower SEQ, one above the other's, with its CRC recomputed. With one valid copy the other is
written; with none, copy 0 with SEQ 0 (log entry 34). -/
def execBoothdr (host value : Nat) (s : State) : Res :=
  .next (s.qcmd host value 4 true (fun s =>
    if s.qBytes = 0 then (0x40, s)
    else
      let k := match s.bootCopy with | some c => 1 - c | none => 0
      let seq := match s.bootCopy with | some c => leAt (s.bootHdr c) 0x10 4 + 1 | none => 0
      let b := splice (s.qbufRead 32) 0x10 (leB 4 seq)
      let b := splice b 0x1C (leB 4 (crc32 (b.take 28)))
      (0, (s.qErase (k * 65536)).qput (k * 65536) b)))

/-- The vault store compacts: the newest record of each slot that lies in the oldest sector moves to the write point, and the sector is
erased (R432). It runs when fewer than two erased sectors remain. -/
def execVaultStoreCompact (s : State) : Res :=
  .next (match s.vault.used with
    | [] => s
    | sec :: rest =>
      if 32 - s.vault.used.length ≥ 2 ∨ rest = [] then s
      else
        let newest := fun (r : SealRec) => !(s.vault.store.any (fun x => x.slot == r.slot && decide (x.seq > r.seq)))
        let keep := s.vault.store.filter (fun r => r.sector == sec && newest r)
        let s := { s with vault := { s.vault with store := s.vault.store.filter (fun r => r.sector != sec) } }
        let s := keep.foldl (fun s r => s.storeRec r) s
        { s with vault := { s.vault with used := s.vault.used.filter (· != sec) } })

/-! ### NAND state, spare and retirement (R440, R444, R447) -/

/-- STATE of NAND changes: event 128; on READY the early records are copied (R459). -/
def State.setNand (s : State) (v : Nat) : State :=
  if s.fget STO_NAND_STAT.STATE = v then s
  else
    let s := (s.fset STO_NAND_STAT.STATE 0 v).signal 128 []
    if v = 4 then s.inkToNand else s

/-- Every NAND sink that is UP goes DOWN (R143, R447). -/
def State.nandSinksDown (s : State) : State :=
  (List.range 1024).foldl (fun s t =>
    if (s.upSinks t).contains 0 then
      ((((s.setSink t 0 false).inkRec 0x20 t (leB 1 0 ++ leB 7 0 ++ leB 8 (s.ackOf t 0))).jRelease t).postReady t) else s) s

/-- A die's free spare falls by one (R447). -/
def State.spareDown (s : State) (die : Nat) : State :=
  let f0 := s.fget D_SPARE.FREE die
  let r := s.fget D_SPARE.RESERVE die
  let s := (s.fsub D_SPARE.FREE die).fsub STO_NAND_STAT.SPARE 0
  let f := s.fget D_SPARE.FREE die
  let s := if f * 4 ≤ r ∧ f0 * 4 > r then
      ((s.fset STO_NAND_STAT.SPARE_LOW 0 1).inkRec 0x50 0 (leB 1 die ++ leB 7 0)).signal 129 [BitVec.ofNat 8 die] else s
  if f = 0 ∧ f0 ≠ 0 then (s.setNand 5).nandSinksDown else s

/-- A block becomes RETIRED: 0 erase, 1 program, 2 refresh failed (R444). -/
def State.retireMark (s : State) (b cause : Nat) : State :=
  let v := s.phys b
  let s := s.setPhys b { st := 6, erases := v.erases }
  let s := s.fsat D_BLOCKS.RETIRED (dieOf b)
  let pay := leB 1 (dieOf b) ++ leB 2 (b % 16384) ++ leB 1 cause
  (s.inkRec 0x50 0 (fit 8 pay)).signal 130 pay

/-- A retirement takes its replacement from its die's spare reserve (R447). -/
def State.retire (s : State) (b cause : Nat) : State := (s.retireMark b cause).spareDown (dieOf b)

/-- Largest and mean erase count of a die's usable blocks (R454). -/
def State.dieErases (s : State) (die : Nat) : State :=
  let es := (List.range (s.fget STO_NAND_GEOM.BPD)).filterMap (fun k => let v := s.phys (die * 16384 + k); if v.st = 7 then none else some v.erases)
  let m := es.foldl (fun a e => max a e) 0
  let s := s.fset D_ERASE.MAX die (max (s.fget D_ERASE.MAX die) (min m 65535))
  s.fset D_ERASE.MEAN die (min ((es.foldl (· + ·) 0) / max es.length 1) 65535)

/-- Everything that names block `a` names block `b` instead. -/
def State.moveRefs (s : State) (a b : Nat) : State :=
  let sw := fun (x : Nat) => if x = a then b else x
  let lg := fun (l : LogBlk) => { l with phys := sw l.phys }
  match (s.phys a).owner with
  | none => s
  | some p =>
    let v := s.part p
    let s := s.setPart p { v with logs := v.logs.map lg, merging := v.merging.map lg, chain := v.chain.map sw
                                  map := v.map.map (fun e => (e.1, e.2.map (fun (x : Nat × List Nat) => (sw x.1, x.2)))) }
    { s with nand := { s.nand with jobs := s.nand.jobs.map (fun (j : FlashJob) => { j with pages := j.pages.map (fun x => (sw x.1, x.2)) }) } }

/-- A block's content is moved to a new block of its die (R439, R444, R446): the old one is RELOCATING until every page has verified in the
new one, then STALE, or RETIRED after a program failure. -/
def State.relocate (s : State) (b : Nat) (retires : Bool) : State :=
  let v := s.phys b
  if v.st ≠ 1 ∧ v.st ≠ 2 ∧ v.st ≠ 3 then s
  else
    let s := s.setPhys b { v with st := 4 }
    match s.takeBlk (2 ^ dieOf b) v.owner with
    | none => s
    | some (c, s) =>
      let s := s.setPhys c { s.phys c with pages := v.pages, from_ := some (b, v.pages, retires) }
      s.moveRefs b c

/-! ### Pages (R446, R448) -/

/-- A page of an APPEND partition's block is full once HEAD has passed it; a page of another block is programmed full. -/
def State.pageFull (s : State) (b page : Nat) : Bool :=
  match (s.phys b).owner with
  | none => true
  | some p =>
    if s.fbit P_CFG.KIND p = false then true
    else match (s.part p).chain.findIdx? (· == b) with
      | none => true
      | some k => decide ((s.partTail p / s.blockBytes + k) * s.blockBytes + (page + 1) * s.pageBytes ≤ s.partHead p)

/-- Complete every flash item whose pages have all verified (R448). -/
def State.jobsDone (s : State) : State :=
  let ok := fun (j : FlashJob) => !j.held && j.todo.isEmpty && j.pages.isEmpty
  let fin := s.nand.jobs.filter ok
  let s := { s with nand := { s.nand with jobs := s.nand.jobs.filter (fun j => !ok j) } }
  fin.foldl (fun s j => s.itemDone j.item 0 j.result) s

/-- Count a programmed page for its partition (R465 P_WRITTEN). -/
def State.countPage (s : State) (p : Nat) : State :=
  let n := tget 0 s.nand.frac p + s.pageBytes
  ({ s with nand := { s.nand with frac := tput 0 s.nand.frac p (n % 2 ^ 20) } } : State).fsat P_WRITTEN.MIB p (n / 2 ^ 20)

/-- A page program fails (R446): the content goes to a new block, the items wait for it there, and the block retires. -/
def execProgramFailure (block : Nat) (s : State) : Res :=
  .next (if (s.phys block).st ≠ 1 then s else ((s.fsat D_FAIL.PROGRAM (dieOf block)).relocate block true))

/-- A codeword does not decode after read-retry (R439): a page of an OPEN or CLOSED block is rebuilt from cross-die parity where there is
more than one die (R445); any other page gives its reader MEDIA_ERROR, D_UNCORR and event 132. The block is relocated (R444). -/
def execUncorrectableRead (block : Nat) (item : Option Nat) (s : State) : Res :=
  .next (
    let v := s.phys block
    let p := v.owner.getD 255
    if (v.st = 1 ∨ v.st = 2) ∧ s.fget STO_INFO.DIES ≥ 2 then (if v.st = 2 then s.relocate block false else s)
    else
      let s := (s.fsat D_UNCORR.COUNT (dieOf block)).signal 132 (leB 1 p)
      let s := match item with
        | some n => (match s.item n with
          | some it => if it.engine = 5 ∧ it.op = 0 ∧ it.done.isNone then s.itemDone n 0x40 0 else s
          | none => s)
        | none => s
      if v.st = 3 then s.relocate block false else s)

/-- A mapping checkpoint is written, alternating between two slots (R448); none while STATE is READ_ONLY (R447). -/
def execMapCheckpoint (s : State) : Res :=
  .next (if s.nandReady then { s with nand := { s.nand with mapped := true, mapSlot := 1 - s.nand.mapSlot } } else s)

/-- The erase spread of a die exceeds WL_DELTA × 100: the data of its least-erased DATA block move to a FREE block (R455). -/
def execWearLevelMove (die : Nat) (s : State) : Res :=
  .next (if s.nandReady = false ∨ s.fget D_ERASE.MAX die ≤ s.fget D_ERASE.MEAN die + s.fget STO_NAND_CFG.WL_DELTA * 100 then s
    else match (List.range (s.fget STO_NAND_GEOM.BPD)).foldl (fun a k => if (s.phys (die * 16384 + k)).st = 3 then s.lesserWorn a (die * 16384 + k) else a) none with
      | some b => s.relocate b false
      | none => s)

/-! ### BLOCK partitions (R442, R443) -/

/-- Sectors of a block, and of a page. -/
def State.blkSectors (s : State) : Nat := s.blockBytes / 4096

/-- Log blocks of a BLOCK partition, 1 to 16: the 4-bit field holds 0 for 16 (log entry 36). -/
def State.partLog (s : State) (p : Nat) : Nat := if s.fget P_CFG.LOG p = 0 then 16 else s.fget P_CFG.LOG p

/-- Sectors of a BLOCK partition. -/
def State.partSectors (s : State) (p : Nat) : Nat := (s.fget P_SIZE.BLOCKS p - s.partLog p - 1) * s.blkSectors

/-- A sector is no longer current in its data block; a data block with none left is STALE (R444). -/
def State.dataDrop (s : State) (p l o : Nat) : State :=
  let v := s.part p
  match tget none v.map l with
  | none => s
  | some (b, live) =>
    let live := live.filter (· != o)
    if live.isEmpty then (s.stale b).setPart p { v with map := tput none v.map l none }
    else s.setPart p { v with map := tput none v.map l (some (b, live)) }

/-- Where the next sector of an item goes in a log block: a new item starts a new page. -/
def State.logPlace (s : State) (lb : LogBlk) (item : Option Nat) : Nat :=
  let spp := max (s.pageBytes / 4096) 1
  if lb.item = item ∧ item.isSome then lb.fill else (lb.fill + spp - 1) / spp * spp

/-- Find or take the log block of a logical block; none while its merge, or the merge that frees one, runs (R443). -/
def State.logFor (s : State) (p l : Nat) (item : Option Nat) : Option LogBlk × State :=
  let v := s.part p
  if v.merging.any (fun b => b.logical == l) then (none, s)
  else match v.logs.find? (fun b => b.logical == l) with
  | some lb =>
    if s.logPlace lb item < s.blkSectors then (some lb, s)
    else (none, s.setPart p { v with logs := v.logs.filter (fun b => b.logical != l), merging := v.merging ++ [lb] })
  | none =>
    if v.logs.length + v.merging.length < s.partLog p then
      match s.takeBlk (s.fget P_CFG.DIES p) (some p) with
      | none => (none, s)
      | some (b, s) =>
        let lb : LogBlk := { logical := l, phys := b }
        (some lb, s.setPart p { v with logs := v.logs ++ [lb] })
    else match v.logs with
      | lb :: rest => (none, s.setPart p { v with logs := rest, merging := v.merging ++ [lb] })
      | [] => (none, s)

/-- Write one sector through its log block; none where a merge must end first. Answers the page it goes to. -/
def State.sectorWrite (s : State) (p sec : Nat) (data : List Byte) (item : Option Nat) : Option (Nat × Nat) × State :=
  let l := sec / max s.blkSectors 1
  let o := sec % max s.blkSectors 1
  match s.logFor p l item with
  | (none, s) => (none, s)
  | (some lb, s) =>
    let at_ := s.logPlace lb item
    let page := at_ / max (s.pageBytes / 4096) 1
    let lb := { lb with sectors := lb.sectors ++ [o], fill := at_ + 1, item := item }
    let v := s.part p
    let rest := v.logs.filter (fun b => b.logical != l)
    let full := decide (lb.fill ≥ s.blkSectors)
    let s := s.setPart p { v with sectors := tput none v.sectors sec (some data)
                                  logs := if full then rest else rest ++ [lb], merging := if full then v.merging ++ [lb] else v.merging }
    let s := s.setPhys lb.phys { s.phys lb.phys with pages := max (s.phys lb.phys).pages (page + 1) }
    (some (lb.phys, page), s.dataDrop p l o)

/-- A merge of a partition ends (R443): a log block that holds its whole logical block in order becomes the data block; otherwise the
current sectors go to a new block. The old blocks become STALE. -/
def State.mergeEnd (s : State) (p : Nat) : State :=
  let v := s.part p
  match v.merging with
  | [] => s
  | lb :: rest =>
    let n := s.blkSectors
    let cur := (List.range n).filter (fun o => (tget none v.sectors (lb.logical * n + o)).isSome)
    let old := tget none v.map lb.logical
    let staleOld := fun (s : State) => match old with | some (b, _) => s.stale b | none => s
    if lb.sectors = List.range n then
      ((staleOld (s.setPart p { v with merging := rest, map := tput none v.map lb.logical (if cur.isEmpty then none else some (lb.phys, cur)) }))).partUsed p
    else if cur.isEmpty then
      ((staleOld (s.setPart p { v with merging := rest, map := tput none v.map lb.logical none })).stale lb.phys).partUsed p
    else match s.takeBlk (s.fget P_CFG.DIES p) (some p) with
      | none => s
      | some (c, s) =>
        let s := s.setPhys c { s.phys c with st := 3, pages := s.fget STO_NAND_GEOM.PPB }
        let s := s.setPart p { v with merging := rest, map := tput none v.map lb.logical (some (c, cur)) }
        (((staleOld s).stale lb.phys).fsat P_MERGES.COUNT p).partUsed p

/-! ### Flash work items (R449, R450) -/

/-- The partition an item names, and its kind (`append`): none where it is not laid out or is of the other kind. -/
def State.ftlPart (s : State) (it : Item) (append : Option Bool) : Option Nat :=
  let p := it.f 1 1
  if s.fbit P_CFG.VALID p ∧ (append.all (fun a => a == s.fbit P_CFG.KIND p)) then some p else none

/-- Writes and the rest, by the NAND state: READ_ONLY refuses writes, every other state but READY refuses all. -/
def State.ftlMedia (s : State) (writes : Bool) : Bool := s.nandReady || (!writes && s.fget STO_NAND_STAT.STATE == 5)

/-- An earlier item of the partition still waits to take effect. -/
def State.ftlBehind (s : State) (p : Nat) : Bool := s.nand.jobs.any (fun j => j.part == p && (j.held || !j.todo.isEmpty))

/-- Put a job at the end of the engine's list. -/
def State.addJob (s : State) (j : FlashJob) : State := { s with nand := { s.nand with jobs := s.nand.jobs ++ [j] } }

/-- Items of one partition take effect in issue order (R442): one behind a waiting item is held. -/
def State.ftlOrder (s : State) (n p : Nat) (f : State → Option (Nat × Nat) × State) : Option (Nat × Nat) × State :=
  if s.ftlBehind p then (none, s.addJob { item := n, part := p, held := true }) else f s

/-- READ: sectors never written read as zeros; an APPEND range must lie in [TAIL, HEAD). -/
def State.ftlRead (s : State) (it : Item) (p : Nat) : Option (Nat × Nat) × State :=
  let cnt := it.f 4 4
  let a := it.f 8 8
  if s.fbit P_CFG.KIND p then
    if cnt = 0 ∨ cnt > 65536 ∨ a < s.partTail p ∨ a + cnt > s.partHead p ∨ s.winOk it.task false (it.f 0x10 8) cnt = false then only s 0x23
    else (some (0, 0), s.winWrite it.task false (it.f 0x10 8) (((s.part p).bytes.drop (a - s.partTail p)).take cnt))
  else
    if cnt = 0 ∨ cnt > 16 ∨ a + cnt > s.partSectors p ∨ s.winOk it.task false (it.f 0x10 8) (cnt * 4096) = false then only s 0x23
    else (some (0, 0), (List.range cnt).foldl (fun s k =>
      s.winWrite it.task false (it.f 0x10 8 + 4096 * k) ((tget none (s.part p).sectors (a + k)).getD (List.replicate 4096 0))) s)

/-- Go on with a WRITE: place its sectors until one must wait for a merge. -/
def State.placeAll (s : State) (n : Nat) (it : Item) (p : Nat) : List Nat → List (Nat × Nat) → List Nat × List (Nat × Nat) × State
  | [], pages => ([], pages, s)
  | sec :: rest, pages =>
    match s.sectorWrite p sec (s.winRead it.task false (it.f 0x10 8 + 4096 * (sec - it.f 8 8)) 4096) (some n) with
    | (none, s) => (sec :: rest, pages, s)
    | (some x, s) => s.placeAll n it p rest (if pages.contains x then pages else pages ++ [x])

/-- WRITE: the sectors go through the log blocks; it completes once every page has verified (R443, R448). -/
def State.ftlWrite (s : State) (n : Nat) (it : Item) (p : Nat) : Option (Nat × Nat) × State :=
  let cnt := it.f 4 4
  let a := it.f 8 8
  if cnt = 0 ∨ cnt > 16 ∨ a + cnt > s.partSectors p ∨ s.winOk it.task false (it.f 0x10 8) (cnt * 4096) = false then only s 0x23
  else
    let (todo, pages, s) := s.placeAll n it p ((List.range cnt).map (fun k => a + k)) []
    (none, (s.partUsed p).addJob { item := n, part := p, todo := todo, pages := pages })

/-- APPEND at HEAD: the result word is the position of the first byte. -/
def State.ftlAppend (s : State) (n : Nat) (it : Item) (p : Nat) : Option (Nat × Nat) × State :=
  let cnt := it.f 4 4
  if cnt = 0 ∨ cnt > 65536 ∨ s.winOk it.task false (it.f 0x10 8) cnt = false then only s 0x23
  else
    let head := s.partHead p
    match s.appendPart p (s.winRead it.task false (it.f 0x10 8) cnt) with
    | (0, s) => (none, s.addJob { item := n, part := p, pages := s.appendPages p head cnt, result := head })
    | (st, s) => only s st

/-- TRIM marks sectors unwritten. -/
def State.ftlTrim (s : State) (it : Item) (p : Nat) : Option (Nat × Nat) × State :=
  let cnt := it.f 4 4
  let a := it.f 8 8
  if cnt = 0 ∨ cnt > 16 ∨ a + cnt > s.partSectors p then only s 0x23
  else
    let s := (List.range cnt).foldl (fun s k =>
      let v := s.part p
      (s.setPart p { v with sectors := tput none v.sectors (a + k) none }).dataDrop p ((a + k) / max s.blkSectors 1) ((a + k) % max s.blkSectors 1)) s
    (some (0, 0), s.partUsed p)

/-- RECLAIM sets TAIL to ADDR rounded down to a block boundary; ADDR lies in [TAIL, HEAD], and TAIL never moves back. -/
def State.ftlReclaim (s : State) (it : Item) (p : Nat) : Option (Nat × Nat) × State :=
  let a := it.f 8 8
  if a < s.partTail p ∨ a > s.partHead p then only s 0x23
  else
    let pos := max (a / max s.blockBytes 1 * max s.blockBytes 1) (s.partTail p)
    (some (0, pos), s.moveTail p pos)

/-- INFO: capacity and blocks in use. -/
def State.ftlInfo (s : State) (p : Nat) : Option (Nat × Nat) × State :=
  (some (0, (if s.fbit P_CFG.KIND p then s.fget P_SIZE.BLOCKS p else s.partSectors p) + s.fget P_USED.BLOCKS p * 2 ^ 32), s)

/-- An item's operation by its OP, once its turn in its partition has come. -/
def State.ftlOp (s : State) (n : Nat) (it : Item) (p : Nat) : Option (Nat × Nat) × State :=
  match it.op with
  | 0 => s.ftlRead it p
  | 1 => s.ftlWrite n it p
  | 2 => s.ftlAppend n it p
  | 3 => s.ftlTrim it p
  | 4 => s.ftlReclaim it p
  | _ => s.ftlInfo p

/-- Serve a flash item: the partition, the NAND state, its place behind earlier items, then its operation. -/
def State.ftlServe (s : State) (n op : Nat) (append : Option Bool) (writes : Bool) : State :=
  (s.serve n 5 op (fun it s =>
    if s.ftlMedia writes = false then only s 0x40
    else match s.ftlPart it append with
      | none => only s 0x23
      | some p => s.ftlOrder n p (fun s => s.ftlOp n it p))).jobsDone

/-- OP 0. -/
def execFtlRead (n : Nat) (s : State) : Res := .next (s.ftlServe n 0 none false)

/-- OP 1, on a BLOCK partition. -/
def execFtlWrite (n : Nat) (s : State) : Res := .next (s.ftlServe n 1 (some false) true)

/-- OP 2, on an APPEND partition. -/
def execAppend (n : Nat) (s : State) : Res := .next (s.ftlServe n 2 (some true) true)

/-- OP 3, on a BLOCK partition. -/
def execTrim (n : Nat) (s : State) : Res := .next (s.ftlServe n 3 (some false) true)

/-- OP 4, on an APPEND partition. -/
def execReclaim (n : Nat) (s : State) : Res := .next (s.ftlServe n 4 (some true) true)

/-- OP 5. -/
def execFtlInfo (n : Nat) (s : State) : Res := .next (s.ftlServe n 5 none false)

/-- After a merge, the partition's waiting items go on in issue order until one must wait again; at most `k` are looked at. -/
def State.ftlResume (s : State) (p : Nat) : Nat → State
  | 0 => s
  | k + 1 =>
    match s.nand.jobs.find? (fun j => j.part == p && (j.held || !j.todo.isEmpty)) with
    | none => s
    | some j =>
      match s.item j.item with
      | none => ({ s with nand := { s.nand with jobs := s.nand.jobs.filter (fun x => x.item != j.item) } } : State).ftlResume p k
      | some it =>
        let drop := fun (s : State) => ({ s with nand := { s.nand with jobs := s.nand.jobs.filter (fun x => x.item != j.item) } } : State)
        if j.held then
          match (drop s).ftlOp j.item it p with
          | (some (st, r), s) => (s.itemDone j.item st r).ftlResume p k
          | (none, s) => s.ftlResume p k
        else
          let (todo, pages, s) := s.placeAll j.item it p j.todo j.pages
          let s := { s with nand := { s.nand with jobs := s.nand.jobs.map (fun x => if x.item = j.item then { x with todo := todo, pages := pages } else x) } }
          if todo.isEmpty then s.ftlResume p k else s

/-- A merge ends, and the items that waited for it go on (R443). -/
def execMergeDone (part : Nat) (s : State) : Res :=
  .next (((s.mergeEnd part).ftlResume part (s.nand.jobs.length + 1)).jobsDone)

/-! ### Formatting and scrubbing (R440, R441, R451) -/

/-- Every content of NAND goes (R440): partitions, the journal and its checkpoints, blobs, the recorder's NAND records, HOLDUP images. -/
def State.nandWipe (s : State) : State :=
  let s := s.parts.foldl (fun s e => ((s.setHead e.1 0).setTail e.1 0)) s
  let s := (List.range 256).foldl (fun s p => (((s.setHead p 0).setTail p 0).fset P_USED.BLOCKS p 0).fset P_STAT.FULL p 0) s
  { s with parts := [], nand := { s.nand with jobs := [], hu := [] }, vault := { s.vault with blobs := [] }
           ink := { s.ink with recs := s.ink.recs.filter (fun (r : InkRec) => r.place != InkPlace.nand) }
           ldg := { s.ldg with ten := s.ldg.ten.map (fun (e : Nat × TenJ) => (e.1, { e.2 with nand := [], npos := [], slots := [] })) } }

/-- The areas of a die are laid out (R441): the spare reserve is SPARE_PCT per cent of its good blocks, those neither factory-bad nor retired. -/
def State.layDie (s : State) (d bpd : Nat) (bad : List Nat) : State :=
  let good := ((List.range bpd).filter (fun k => !bad.contains (d * 16384 + k) && (s.phys (d * 16384 + k)).st != 6)).length
  let res := (good * s.nand.sparePct + 99) / 100
  let fb := ((List.range bpd).filter (fun k => bad.contains (d * 16384 + k))).length
  (((s.fset D_BLOCKS.FACTORY_BAD d fb).fset D_SPARE.RESERVE d res).fset D_SPARE.FREE d res).dieErases d

/-- FORMAT (R440): factory-bad blocks are read, every other block but a RETIRED one is erased, blocks whose erase fails retire, and the
areas of R441 are laid out. `bad` and `fails` are the blocks found so. -/
def execFormat (host value : Nat) (bad fails : List Nat) (s : State) : Res :=
  .next (s.gate host .sto 0x28 (fun s =>
    if nbit value 0 = false then s
    else if nbits value 31 16 ≠ 0x464D ∨ (s.fget STO_NAND_STAT.STATE ≠ 1 ∧ s.nandReady = false) then s.errAt STO_ERR.CMD 0x28
    else
      let s := (s.setNand 2).nandWipe
      let dies := s.fget STO_INFO.DIES
      let bpd := s.fget STO_NAND_GEOM.BPD
      let blocks := (List.range dies).foldl (fun a d => a ++ (List.range bpd).map (fun k => d * 16384 + k)) []
      let s := blocks.foldl (fun s b =>
        let v := s.phys b
        if bad.contains b then s.setPhys b { st := 7, erases := v.erases }
        else if v.st = 6 then s
        else if fails.contains b then (s.fsat D_FAIL.ERASE (dieOf b)).retireMark b 0
        else s.setPhys b { erases := v.erases + 1 }) s
      let s := (List.range dies).foldl (fun s d => s.layDie d bpd (bad.filter (fun b => dieOf b == d))) s
      let s := s.fset STO_NAND_STAT.SPARE 0 ((List.range dies).foldl (fun a d => a + s.fget D_SPARE.FREE d) 0)
      let s := s.fset STO_NAND_STAT.SPARE_LOW 0 0
      ({ s with nand := { s.nand with mapped := true, mapSlot := 0 } } : State).setNand 4))

/-- Blocks that remain for the partitions once the areas of R441 are laid out. How many parity blocks are set aside is not stated: a free value
(log entry 35). -/
def State.partRoom (s : State) : Nat :=
  let dies := s.fget STO_INFO.DIES
  let bpd := s.fget STO_NAND_GEOM.BPD
  let good := (List.range dies).foldl (fun a d => a + (bpd - s.fget D_BLOCKS.FACTORY_BAD d
    - (s.fget D_BLOCKS.RETIRED d - (s.fget D_SPARE.RESERVE d - s.fget D_SPARE.FREE d)))) 0
  let spare := (List.range dies).foldl (fun a d => a + s.fget D_SPARE.RESERVE d) 0
  let pages := (2625536 + s.pageBytes - 1) / max s.pageBytes 1
  let perDie := (pages + dies - 1) / max dies 1
  let hu := 2 * dies * ((perDie + s.fget STO_NAND_GEOM.PPB - 1) / max (s.fget STO_NAND_GEOM.PPB) 1)
  let blob := (s.nand.blobLedgers * 64 + s.blockBytes - 1) / max s.blockBytes 1
  good - (spare + 4 + hu + (if dies ≥ 2 then Config.parityBlocks dies else 0) + s.nand.inkBlocks + blob)

/-- A PARTITIONS entry (R435, R441); false where it is refused. -/
def State.partEntry (s : State) (e : List Byte) : Bool × State :=
  let p := leAt e 0 1
  let kind := leAt e 1 1
  let wrap := leAt e 2 1 % 2
  let log := leAt e 3 1
  let size := leAt e 4 4
  let dies := leAt e 8 1
  let same := s.fbit P_CFG.VALID p && s.fget P_CFG.KIND p == kind && s.fget P_CFG.WRAP p == wrap && s.fget P_CFG.LOG p == log % 16
    && s.fget P_SIZE.BLOCKS p == size && s.fget P_CFG.DIES p == dies
  let sum := (List.range 256).foldl (fun a q => if q ≠ p ∧ s.fbit P_CFG.VALID q then a + s.fget P_SIZE.BLOCKS q else a) size
  let changes := s.fbit P_CFG.VALID p && (s.fget P_CFG.KIND p != kind || s.fget P_SIZE.BLOCKS p != size || s.fget P_CFG.DIES p != dies)
  if kind > 1 ∨ sum > s.partRoom ∨ (changes ∧ (s.partOwner p).isSome) ∨ (kind = 0 ∧ (size < log + 2 ∨ log < 1 ∨ log > 16))
      ∨ (kind = 1 ∧ size < 2) ∨ dies = 0 ∨ dies ≥ 2 ^ s.fget STO_INFO.DIES then (false, s)
  else if same then (true, s)
  else
    let v := s.part p
    let s := if changes then
        let s := (v.chain ++ v.logs.map (·.phys) ++ v.merging.map (·.phys) ++ v.map.filterMap (fun x => x.2.map (fun y => y.1))).foldl (fun s b => s.stale b) s
        ((((s.setPart p {}).setHead p 0).setTail p 0).fset P_USED.BLOCKS p 0)
      else s
    (true, (((((s.fset P_CFG.VALID p 1).fset P_CFG.KIND p kind).fset P_CFG.WRAP p wrap).fset P_CFG.LOG p log).fset P_CFG.DIES p dies).fset P_SIZE.BLOCKS p size)

/-- A released partition's scrub ends (R451): its blocks are erased, HEAD and TAIL are 0. -/
def State.partScrubbed (s : State) (p : Nat) : State :=
  let v := s.part p
  let bs := v.chain ++ v.logs.map (·.phys) ++ v.merging.map (·.phys) ++ v.map.filterMap (fun x => x.2.map (fun y => y.1))
  let s := bs.foldl (fun s b => let x := s.phys b; s.setPhys b { erases := x.erases + 1 }) s
  let s := (List.range 8).foldl (fun s d => if bs.any (fun b => dieOf b == d) then s.dieErases d else s) s
  (((((s.setPart p {}).setHead p 0).setTail p 0).fset P_USED.BLOCKS p 0).fset P_STAT.FULL p 0).fset P_STAT.SCRUB p 0

/-! ### The HOLDUP image (R452) -/

/-- The image of R452: the journal buffer's records by tenant, and the Inkwell records that are not yet in NAND. -/
def State.huImage (s : State) : HuImg :=
  { seq := s.nand.huSeq + 1, opsec := s.fget MPT_OPSEC.SECONDS, pcyc := s.fget MPT_PCYC.COUNT
    journal := s.ldg.ten.filterMap (fun (e : Nat × TenJ) => if e.2.buf.isEmpty then none else some (e.1, e.2.buf))
    ink := s.ink.recs.filter (fun (r : InkRec) => r.place != InkPlace.nand) }

/-- At T_ENTRY of HOLDUP the image is programmed to area AREA (R452); nothing can be programmed while NAND is absent or unformatted. -/
def execHoldupFlush (s : State) : Res :=
  .next (if s.mode ≠ 10 ∨ s.nand.flushed ∨ (s.fget STO_NAND_STAT.STATE ≠ 4 ∧ s.fget STO_NAND_STAT.STATE ≠ 5) then s
    else
      let a := s.fget STO_HU_STAT.AREA
      if (tget none s.nand.hu a).isSome then s
      else { s with nand := { s.nand with hu := tput none s.nand.hu a (some s.huImage), huSeq := s.nand.huSeq + 1, jobs := [] } })

/-- The flush-time bound of R452 in µs. -/
def State.huTime (s : State) : Nat :=
  let pages := (2625536 + s.pageBytes - 1) / max s.pageBytes 1
  (pages + s.fget STO_INFO.DIES - 1) / max (s.fget STO_INFO.DIES) 1 * s.fget STO_HU_TPROG.US + 1000

end Sys2Proof.Machine
end

