-- ==== Sys2Proof/Machine/Modes.lean ====
section
/-! DEFINITION. Mode changes, GRANT and the claim, sessions that close, detected faults, zeroize (R265, R294, R393, R475, R477, R479, R516 to R518). -/
namespace Sys2Proof.Machine
open Reg

/-! ### Mode changes (R516) -/

/-- The mode changes: PREV_MODE, CHANGES, an Inkwell record, event 0; readings are withheld in the modes that admit none (R91). -/
def State.setMode (s : State) (m : Nat) : State :=
  let old := s.mode
  if old = m then s
  else
    let s := ((s.fset CHIP_MODE.PREV_MODE 0 old).fset CHIP_MODE.MODE 0 m).fadd PWR_MODE_STAT.CHANGES 0
    let s := s.fset PIP_WITHHOLD.MODE 0 (b2n (!modeAdmits m))
    (s.inkRec 3 0 (leB 1 old ++ leB 1 m)).signal 0 (leB 1 old ++ leB 1 m)

/-! ### GRANT (R475) -/

/-- GRANT by its rule: 0 in HOLDUP and until role entry; otherwise 1 when unpaired, or ACTIVE with CLAIM_IN not asserted. -/
def State.grantNow (s : State) : Bool :=
  s.mode != 10 && s.pow.entered && (!s.pair.en || (s.fget RES_PAIR_STAT.STATE == 4 && !s.fbit RES_PAIR_STAT.CLAIM_IN))

/-- Frames on air are cut, their items CANCELLED, and a DUAL frame that waits for its burst 2 with them; a mark that waits for its lane is skipped
(R305, R331, R475). -/
def State.cutAir (s : State) : State :=
  let s := (List.range 4).foldl (fun (s : State) (n : Nat) =>
    let v := s.lane n
    let dual : Option TxItem := v.ack.filter (fun x => x.second)
    let cut := v.air.toList.filter (fun x => x.what == 0 || x.what == 6) ++ dual.toList
    let s : State := if v.air.isNone ∧ dual.isNone then s
      else (s.setLane n { v with air := none, ack := v.ack.filter (fun x => !x.second) }).fset PLC_L_STAT.TX_ON n 0
    (cut.foldl (fun s x => s.txDone n x 0x21) s).markLate n) s
  (List.range 2).foldl (fun (s : State) (n : Nat) =>
    let v := s.radio n
    match v.air with
    | none => s
    | some x =>
      let s := ((s.setRadio n { v with air := none }).fset RFM_R_STAT.TX_ON n 0).setRxs n 0
      let s := s.paOff n
      if x.what = 9 then s else s.radDone n x 0x21) s

/-- Drive the safety outputs; a changed one shows at its pin. -/
def State.safOuts (s : State) (m : Nat) : State :=
  let old := s.fget SAF_IO_STAT.OUT
  (List.range 4).foldl (fun s o => if nbit m o = nbit old o then s else s.emit (.pin 8 o (b2n (nbit m o)))) (s.fset SAF_IO_STAT.OUT 0 m)

/-- The safety outputs lose GRANT: every output is off (R503). -/
def State.safOff (s : State) : State := s.safOuts 0

/-- Bring RES_PAIR_STAT.GRANT up to date; when it falls, transmissions and safety outputs stop. -/
def State.grantUpdate (s : State) : State :=
  let g := s.grantNow
  if g = s.fbit RES_PAIR_STAT.GRANT then s
  else
    let s := s.fset RES_PAIR_STAT.GRANT 0 (b2n g)
    if g then s else s.cutAir.safOff

/-! ### Sessions (R265, R294) -/

/-- A session closes: its state is gone; an MRT attachment goes DOWN (R265); the pair's tenants fall to NONE (R481). -/
def State.mrtClose (s : State) (h : Nat) : State :=
  let a := s.host h
  if a.mrt.isOpen = false then s
  else
    let s := s.setHost h { a with mrt := {}, cond := false }
    if h = pairHost then
      let s := ({ s with pair := { s.pair with partnerSynced := false } } : State)
      let s := (s.fset RES_PAIR_STAT.LINK 0 0).signal 34 []
      s.partnerTenants.foldl (fun s t => s.setSync t 0) s
    else ((s.fset RNG_H_SESSION.SESSION h 0).fset RNG_H_RX_HELD.FRAMES h 0).hostDown h

/-! ### The claim (R474, R477, R479) -/

/-- The pair state changes: CLAIM_OUT toggles while CLAIMING or ACTIVE; becoming ACTIVE signals event 33. -/
def State.setPair (s : State) (v : Nat) : State :=
  let claim := b2n (v == 3 || v == 4)
  let s := if s.fget RES_PAIR_STAT.CLAIM_OUT = claim then s else (s.fset RES_PAIR_STAT.CLAIM_OUT 0 claim).emit (.pin 7 0 claim)
  let was := s.fget RES_PAIR_STAT.STATE
  let s := s.fset RES_PAIR_STAT.STATE 0 v
  let s := if v = 4 ∧ was ≠ 4 then s.signal 33 [] else s
  s.grantUpdate

/-- Send a NOTICE item: 1 RELEASE, 2 HOLDUP (R476). -/
def State.notice (s : State) (k : Nat) : State := s.mrtData pairHost (mrtItem 11 0 0 (leB 1 k))

/-- An ACTIVE unit gives up its claim: RELEASED, NOTICE, event 37. -/
def State.claimGone (s : State) (k : Nat) : State := ((s.setPair 5).notice k).signal 37 (leB 1 k)

/-- The role mode of CHIP_ROLE. -/
def State.roleMode (s : State) : Nat := if s.centre then 6 else 5

/-- A role mode. -/
def roleModes : List Nat := [5, 6, 7]

/-! ### Detected faults (R417, R479, R517, R518) -/

/-- Entry to DEGRADED: the return mode is recorded and the timer starts. Entry is a trial fault. -/
def State.degrade (s : State) : State :=
  let s := s.fset PWR_MODE_STAT.RETURN 0 s.mode
  let s := (s.fset PWR_DEG.LEFT 0 (s.fget PWR_DEG.DEG_MAX)).setMode 8
  ({ s with pow := { s.pow with timer := true, deg := 60 * s.fget PWR_DEG.DEG_MAX } } : State).trialFault

/-- An ACTIVE unit whose partner is a synced standby releases its claim for a fault (R479). -/
def State.mayRelease (s : State) : Bool :=
  s.pair.en && s.fget RES_PAIR_STAT.STATE == 4 && s.pair.heard && s.fget RES_PAIR_STAT.PARTNER_STATE == 2 && s.pair.partnerSynced

/-- A detected fault sets its bit and signals event 2; what follows depends on the mode. -/
def State.fault (s : State) (bit : Nat) : State :=
  let s := (s.fset PWR_FAULT.CAUSE 0 (nsetBit (s.fget PWR_FAULT.CAUSE) bit true)).signal 2 (leB 1 bit)
  if roleModes.contains s.mode then
    if s.mayRelease then ((s.claimGone 1).setMode 4).grantUpdate else s.degrade
  else if s.mode = 4 then { s with pair := { s.pair with faulty := true } }
  else if s.mode = 9 then { s with pow := { s.pow with updFault := true } }
  else s

/-! ### NAND operations that can end in READ_ONLY (R447, R518) -/

/-- A NAND that has become READ_ONLY since the state `old` is the detected fault NAND_RO. -/
def State.thenRo (old s : State) : State :=
  if s.fget STO_NAND_STAT.STATE = 5 ∧ old.fget STO_NAND_STAT.STATE ≠ 5 then s.fault 6 else s

/-- A page program ends and its read-back needs at most `bits` corrections in a codeword: items that waited for it go on; a full block
closes, and becomes DATA or is relocated (R444, R448). -/
def execPageProgramDone (block page bits : Nat) (s : State) : Res :=
  .next (s.thenRo (
    let v := s.phys block
    if v.st ≠ 1 ∨ page ≥ v.pages then s
    else
      let s := s.fset D_ECC.MAX_BITS (dieOf block) (max (s.fget D_ECC.MAX_BITS (dieOf block)) (min bits 255))
      let s := match v.owner with | some p => s.countPage p | none => s
      let full := s.pageFull block page && !v.done.contains page
      let v := { v with done := if full then v.done ++ [page] else v.done, worst := max v.worst bits }
      let s := s.setPhys block v
      let s := { s with nand := { s.nand with jobs := s.nand.jobs.map (fun (j : FlashJob) => { j with pages := j.pages.filter (· != (block, page)) }) } }
      let s := match v.from_ with
        | some (src, n, ret) =>
          if v.done.length < n then s
          else
            let s := s.setPhys block { v with from_ := none }
            if ret then s.retire src 1 else s.setPhys src { s.phys src with st := 5, owner := none }
        | none => s
      let v := s.phys block
      let s := if v.done.length < s.fget STO_NAND_GEOM.PPB then s
        else if v.worst ≤ s.fget STO_NAND_CFG.REFRESH_T then s.setPhys block { v with st := 3 }
        else (s.setPhys block { v with st := 2 }).relocate block false
      s.jobsDone))

/-- An erase of a STALE block ends (R444, R447). -/
def execBlockEraseDone (block : Nat) (ok : Bool) (s : State) : Res :=
  .next (s.thenRo (
    let v := s.phys block
    if v.st ≠ 5 then s
    else if ok then (s.setPhys block { erases := v.erases + 1 }).dieErases (dieOf block)
    else (s.fsat D_FAIL.ERASE (dieOf block)).retire block 0))

/-! ### Zeroize (R393) -/

/-- Every vault and crypto item in flight ends with KEY_DESTROYED (step 1); items of the random source go on. -/
def State.cryptoStop (s : State) : State :=
  s.scb.items.foldl (fun s e => match e.2 with
    | some it => if it.engine < 5 ∧ it.engine ≠ 3 ∧ it.done.isNone then s.itemDone e.1 0x14 0 else s
    | none => s) s

/-- Readings whose key fetch or decryption is in flight end with KEY_DESTROYED, and the hidden cache is cleared. -/
def State.readingsStop (s : State) : State :=
  let s := s.fillsDestroyed
  s.pip.tags.foldl (fun s e => if e.2.st = 1 ∧ e.2.key.isSome ∧ e.2.plain = [] then s.endTag e.1 0x14 0 else s) s

/-- Every slot becomes EMPTY at its next generation, its pins dropped; changes under way end with KEY_DESTROYED (step 3). -/
def State.slotsWipe (s : State) : State :=
  let s := s.vault.slots.foldl (fun s e => (e.2.current.toList ++ e.2.waiting).foldl (fun s c => s.chgEnd e.1 c 0x14) s) s
  let s := { s with vault := { s.vault with slots := [] } }
  let s := (List.range 4096).foldl (fun s n =>
    let s := ((s.fset KV_S_INFO.TYPE n 0).fset KV_S_INFO.ATTR n 0).fset KV_S_INFO.AK_LEN n 0
    let s := ((s.fset KV_S_INFO.STATE n 0).fadd KV_S_INFO.GEN n).fset KV_S_KCV.KCV n 0
    let s := (s.set64 KV_S_CNT_LO.CNT_LO KV_S_CNT_HI.CNT_HI n 0).fset KV_S_INFO.PINS n 0
    (s.fset KV_S_OLD.GENS n 0).fset KV_S_OLD.PINS n 0) s
  (s.fset KV_POOL.OLDGEN 0 0).fset KV_POOL.PINS 0 0

/-- The key registers of the lanes and the radios. -/
def keyRegs : List Fld :=
  [PLC_KEY0.VALID, PLC_KEY0.TX_SLOT, PLC_KEY0.RX_SLOT, PLC_KEY1.VALID, PLC_KEY1.TX_SLOT, PLC_KEY1.RX_SLOT,
   RFM_KEY0.VALID, RFM_KEY0.TX_SLOT, RFM_KEY0.RX_SLOT, RFM_KEY1.VALID, RFM_KEY1.TX_SLOT, RFM_KEY1.RX_SLOT]

/-- The mode becomes ZEROIZED; in HOLDUP it stays, and the next reset is a cold one (R520). -/
def State.zeroMode (s : State) : State :=
  if s.mode = 10 then { s with pow := { s.pow with cold := true } } else (s.setMode 11).grantUpdate

/-- Zeroize, steps 1 to 4; step 5 follows (ZEROIZE_FUSE_DONE). -/
def State.zeroize (s : State) (tamper : Bool) : State :=
  let s := s.cryptoStop.readingsStop
  let s := { s with vault := { s.vault with zeroPending := true, zeroTamper := tamper, zeroStep5 := true } }
  let s := s.slotsWipe
  let s := (List.range 9).foldl (fun s h => s.mrtClose h) s
  let s := keyRegs.foldl (fun s f => s.fset f 0 0) s
  let s := s.inkRec 4 0 (leB 1 (b2n tamper) ++ leB 7 0)
  s.zeroMode.signal 258 []

/-- Set bits of a word below 2^32. -/
def popcount (v : Nat) : Nat := ((List.range 32).filter (fun k => nbit v k)).length

/-- Zeroize, step 5 (R393): one further bit of ZCOUNT, and ROOT_KILL where KILL_ON_TAMPER and the tamper line say so or ZCOUNT is full. -/
def State.zeroFuse (s : State) (dev : List FuseRead) : State :=
  let z := tget 0 s.vault.acc 10
  let s := match (List.range 32).find? (fun k => !nbit z k) with
    | some k => (s.fuseProgram dev 10 (2 ^ k)).2
    | none => s
  let n := popcount (tget 0 s.vault.acc 10)
  let s := s.fset KV_ZCOUNT.COUNT 0 n
  let s := if (nbit (s.fuseVal 49) 0 ∧ s.vault.zeroTamper) ∨ n ≥ 32 then ((s.fuseProgram dev 9 0xFFFFFFFF).2).fset KV_STAT.KILLED 0 1 else s
  { s with vault := { s.vault with zeroPending := false, zeroTamper := false, zeroStep5 := false, cnts := [] } }

/-- The programming of step 5 ends. -/
def execZeroizeFuseDone (dev : List FuseRead) (s : State) : Res := .next (if s.vault.zeroStep5 then s.zeroFuse dev else s)

/-- KV_ZEROIZE with its confirmation value; any other value is discarded with KV_ERR.CMD (R402). -/
def execKvZeroize (host value : Nat) (s : State) : Res :=
  .next (s.gate host .kv 0x14 (fun s => if value % 2 ^ 32 = 0x5A45524F then s.zeroize false else s.errAt KV_ERR.CMD 0x14))

end Sys2Proof.Machine
end

