-- ==== Sys2Proof/Machine/Tenants.lean ====
section
/-! DEFINITION. Tenants, the protection table's pending bank, epoch switches and released resources (R17 to R33, R48, R565). -/
namespace Sys2Proof.Machine
open Reg

/-! ### The lock and the switch command (R7, R27) -/

/-- CHIP_LOCK.LOCK. -/
def execChipLock (host value : Nat) (s : State) : Res :=
  .next (s.gate host .chip 0x18 (fun s => if nbit value 0 then s.fset CHIP_LOCK.LOCK 0 1 else s))

/-- Start an epoch switch, or latch one while a switch is busy (R27). -/
def State.switchNow (s : State) : State :=
  if s.fbit CHIP_EPOCH_STAT.BUSY then s.fset CHIP_EPOCH_STAT.PENDING 0 1
  else ({ s with ten := { s.ten with phase := .checking } } : State).fset CHIP_EPOCH_STAT.BUSY 0 1

/-- CHIP_EPOCH_CMD.SWITCH. -/
def execSwitch (host : Nat) (s : State) : Res := .next (s.gate host .chip 0x24 State.switchNow)

/-! ### Writes to the pending bank (R18 to R23, R48, R565) -/

/-- Bits a tenant-record word stores. -/
def recMask : Nat → Nat
  | 0 => 0x1FFFFF | 2 => 0x1FFFFF | 4 => 0x1FFFFF | 6 => 0x1FFFFF
  | 1 => 0x3FFFFF | 3 => 0x3FFFFF | 5 => 0x3FFFFF | 7 => 0x3FFFFF
  | 8 => 0xFFFF7FFF | 9 => 0xFFFF7FFF | 10 => 0xFFFF | 11 => 0x1FFFF | 12 => 0x07FF1FFF | 13 => 0xFF | 14 => 7
  | _ => 0

/-- The ranges of a tenant of one kind: 0 ledgers, 1 nodes, 2 balance nodes; with the number of that resource. -/
def Bank.ranges (b : Bank) (t kind : Nat) : List (Nat × Nat) :=
  match kind with
  | 0 => (List.range 4).map (b.ldgRange t)
  | 1 => (List.range 2).map (b.nodeRange t)
  | _ => [b.balRange t]

/-- How many resources of a range kind there are (R17). -/
def kindSize : Nat → Nat
  | 0 => 2097152
  | 1 => 32768
  | _ => 65536

/-- The kind of range a record word belongs to. -/
def wordKind (w : Nat) : Option Nat := if w < 8 then some 0 else if w < 10 then some 1 else if w < 12 then some 2 else none

/-- A tenant's ranges of a kind overlap another tenant's or run past the end (R21, R23). -/
def Bank.overlaps (b : Bank) (t kind : Nat) : Bool :=
  (b.ranges t kind).any (fun r => (r.2 != 0 && decide (r.1 + r.2 > kindSize kind))
    || (List.range 1024).any (fun u => u != t && (b.ranges u kind).any (fun q => rangesMeet r q)))

/-- The shares of every tenant of a bank (R22). -/
def Bank.shareSum (b : Bank) : Nat := (List.range 1024).foldl (fun a t => a + b.share t) 0

/-- TEN_SHARE_SUM follows the pending bank. -/
def State.shareReg (s : State) : State := s.fset TEN_SHARE_SUM.SUM 0 s.ten.pend.shareSum

/-- Change the pending bank. -/
def State.setPend (s : State) (b : Bank) : State := ({ s with ten := { s.ten with pend := b } } : State).shareReg

/-- A refused write: every error bit that applies, and the offset once (R47). -/
def State.tenRefuse (s : State) (fs : List Fld) (off : Nat) : State := s.errSet fs (fun s => s.fset TEN_ERR_ADDR.OFFSET 0 off)

/-- Write one word of a tenant record. -/
def State.recWrite (s : State) (off value : Nat) : State :=
  let k := (off - 0x10000) / 4
  let t := k / 16
  let w := k % 16
  let v := Nat.land value (recMask w)
  let b : Bank := { s.ten.pend with recs := tput 0 s.ten.pend.recs k v }
  let clash := match wordKind w with | some kd => b.overlaps t kd | none => false
  let sum := decide (w = 12 ∧ b.shareSum > 4096)
  let scr := decide (w < 8) && (b.ranges t 0).any (fun r => !((s.ten.pend.ranges t 0).contains r) && s.scrubbing .ledgers r.1 r.2)
  let fs := (if clash then [TEN_ERR.OVERLAP] else []) ++ (if sum then [TEN_ERR.SHARE_SUM] else []) ++ (if scr then [TEN_ERR.SCRUBBING] else [])
  if fs ≠ [] then s.tenRefuse fs off
  else if w = 12 ∧ nbits v 26 16 > 1024 then s
  else s.setPend b

/-- Write one ring owner entry (R20). -/
def State.ringOwnerWrite (s : State) (off value : Nat) : State :=
  let r := (off - 0x20000) / 4
  if s.fget RNG_R_STAT.STATE r ≠ 0 then s.tenRefuse [TEN_ERR.OWNER_BUSY] off
  else s.setPend { s.ten.pend with ring := tput 0 s.ten.pend.ring r (Nat.land value 0x80FF03FF) }

/-- The 16-bit maps of R48: 0 task, 1 slot, 2 event, 3 calendar, 4 partition; with the map's first offset and entries. -/
def mapAt (off : Nat) : Option (Nat × Nat) :=
  if 0x24000 ≤ off ∧ off < 0x26000 then some (0, (off - 0x24000) / 2)
  else if 0x26000 ≤ off ∧ off < 0x28000 then some (1, (off - 0x26000) / 2)
  else if 0x28000 ≤ off ∧ off < 0x29000 then some (2, (off - 0x28000) / 2)
  else if 0x29000 ≤ off ∧ off < 0x2D000 then some (3, (off - 0x29000) / 2)
  else if 0x2D000 ≤ off ∧ off < 0x2D200 then some (4, (off - 0x2D000) / 2)
  else none

/-- A 16-bit map of a bank. -/
def Bank.map16 (b : Bank) : Nat → Tab Nat
  | 0 => b.task | 1 => b.slot | 2 => b.event | 3 => b.cal | _ => b.part

/-- Replace a 16-bit map of a bank. -/
def Bank.setMap16 (b : Bank) (m : Nat) (t : Tab Nat) : Bank :=
  match m with
  | 0 => { b with task := t } | 1 => { b with slot := t } | 2 => { b with event := t } | 3 => { b with cal := t } | _ => { b with part := t }

/-- The scrub kind of a 16-bit map's resources. -/
def mapScrub : Nat → Option ScrubKind
  | 1 => some .slot | 3 => some .calendar | 4 => some .partition | _ => none

/-- One 16-bit entry of a write: unchanged, not checked; refused, it keeps its value; the error bit is answered (R565). -/
def State.entryWrite (s : State) (m i v : Nat) : List Fld × State :=
  let v := Nat.land v 0x83FF
  if tget 0 (s.ten.pend.map16 m) i = v then ([], s)
  else if m = 0 ∧ s.fget TSK_STAT.STATE i ≠ 0 then ([TEN_ERR.OWNER_BUSY], s)
  else if nbit v 15 && (match mapScrub m with | some k => s.scrubbing k i 1 | none => false) then ([TEN_ERR.SCRUBBING], s)
  else ([], s.setPend (s.ten.pend.setMap16 m (tput 0 (s.ten.pend.map16 m) i v)))

/-- A write to the pending bank takes effect. Records and ring entries take 32-bit writes, the other maps 16-bit or 32-bit ones. -/
def State.pendWrite (s : State) (off bits value : Nat) : State :=
  if 0x10000 ≤ off ∧ off < 0x20000 then (if bits = 32 ∧ off % 4 = 0 then s.recWrite off value else s)
  else if 0x20000 ≤ off ∧ off < 0x24000 then (if bits = 32 ∧ off % 4 = 0 then s.ringOwnerWrite off value else s)
  else match mapAt off with
    | none => s
    | some (m, i) =>
      if bits = 16 ∧ off % 2 = 0 then
        let (e, s) := s.entryWrite m i (value % 65536)
        if e = [] then s else s.tenRefuse e off
      else if bits = 32 ∧ off % 4 = 0 then
        let (e, s) := s.entryWrite m i (value % 65536)
        let (f, s) := s.entryWrite m (i + 1) (value / 65536)
        if e ++ f = [] then s else s.tenRefuse (e ++ f.filter (fun x => !e.contains x)) off
      else s

/-- TEN_PENDING_WRITE: held from the SWITCH write to the end of the copy (R27). -/
def execTenPendingWrite (host off bits value : Nat) (s : State) : Res :=
  .next (s.gate host .ten off (fun s =>
    if off < 0x10000 ∨ off ≥ 0x2D200 then s
    else if s.ten.phase = .idle then s.pendWrite off bits value
    else { s with ten := { s.ten with held := s.ten.held ++ [(off, bits, value)] } }))

/-! ### The epoch switch (R19, R25, R27, R28) -/

/-- What is left of a range once another is taken out of it. -/
def subRange (a b : Nat × Nat) : List (Nat × Nat) :=
  if rangesMeet a b = false then [a]
  else (if a.1 < b.1 then [(a.1, b.1 - a.1)] else []) ++ (if b.1 + b.2 < a.1 + a.2 then [(b.1 + b.2, a.1 + a.2 - (b.1 + b.2))] else [])

/-- The parts of a tenant's ledger ranges that a new bank takes from it. -/
def lostRanges (old new : Bank) (t : Nat) : List (Nat × Nat) :=
  ((old.ranges t 0).filter (fun r => r.2 != 0)).flatMap (fun r =>
    (new.ranges t 0).foldl (fun rs q => rs.flatMap (fun x => subRange x q)) [r])

/-- Entries of a 16-bit map whose owner loses them. -/
def lostEntries (old new : Tab Nat) : List Nat :=
  (old.filter (fun e => nbit e.2 15 && ownerOf new e.1 != ownerOf old e.1)).map (fun e => e.1)

/-- The resources that leave their tenants when `new` replaces `old` (R19). -/
def lostAll (old new : Bank) : List Scrub :=
  (lostEntries old.slot new.slot).map (fun i => ⟨.slot, i, 1, false, 0⟩)
  ++ (List.range 1024).flatMap (fun t => (lostRanges old new t).map (fun r => ⟨.ledgers, r.1, r.2, false, t⟩))
  ++ (lostEntries old.cal new.cal).map (fun i => ⟨.calendar, i, 1, false, 0⟩)
  ++ (lostEntries old.part new.part).map (fun i => ⟨.partition, i, 1, false, 0⟩)

/-- TEN_SCRUB follows the list (R47). -/
def State.scrubReg (s : State) : State :=
  (s.fset TEN_SCRUB.ITEMS 0 (min s.ten.scrubs.length 65535)).fset TEN_SCRUB.BUSY 0 (b2n (!s.ten.scrubs.isEmpty))

/-- The shadow tables and the live ones exchange roles (R415). -/
def State.tableSwap (s : State) : State :=
  match s.upd.shadow with
  | none => s
  | some t =>
    { s with upd := { s.upd with shadow := none }
             pip := { s.pip with routes := t.routes, profiles := t.profiles, obis := t.obis }
             rng := { s.rng with routes := t.evt } }

/-- Steps 2 and 3 of a switch: the banks exchange roles, the epoch advances, and routes are checked against the new bank. -/
def State.bankExchange (s : State) : State :=
  let lost := lostAll s.ten.active s.ten.pend
  let s := { s with ten := { s.ten with active := s.ten.pend, pend := s.ten.active, phase := .copying, scrubs := s.ten.scrubs ++ lost } }
  let s := (s.fadd CHIP_EPOCH.EPOCH 0).scrubReg.shareReg
  s.tableSwap.routeRecheck.evtRecheck

/-- The last check point acknowledges. -/
def execEpochBankExchange (s : State) : Res := .next (if s.ten.phase = .checking then s.bankExchange else s)

/-- Steps 4 and 5: the copy is made, the held writes take effect, event 3 is signalled, and a pending switch starts. -/
def State.copyDone (s : State) (duration : Nat) : State :=
  let held := s.ten.held
  let s := ({ s with ten := { s.ten with pend := s.ten.active, phase := .idle, held := [] } } : State).shareReg
  let s := held.foldl (fun s w => s.pendWrite w.1 w.2.1 w.2.2) s
  let s := (s.fset CHIP_EPOCH_STAT.BUSY 0 0).fset CHIP_EPOCH_STAT.LAST_TIME 0 duration
  let s := s.signal 3 (leB 2 (s.fget CHIP_EPOCH.EPOCH) ++ leB 2 duration)
  if s.fbit CHIP_EPOCH_STAT.PENDING then (s.fset CHIP_EPOCH_STAT.PENDING 0 0).switchNow else s

/-- The copy of the active bank ends after `duration` units of 10 ns. -/
def execEpochCopyDone (duration : Nat) (s : State) : Res := .next (if s.ten.phase = .copying then s.copyDone duration else s)

/-! ### Released resources (R19, R28) -/

/-- No request of an old epoch still names a resource. -/
def State.mayScrub (s : State) (x : Scrub) : Bool :=
  match x.kind with
  | .slot => (s.vslot x.base).pins == 0 && (s.vslot x.base).old.all (fun o => o.pins == 0)
  | .ledgers => s.pip.ingest.all (fun e => e.2.all (fun r => r.ledger.all (fun l => !inRange (x.base, x.count) l)))
      && s.pip.pre.all (fun e => e.2.hint.all (fun l => !inRange (x.base, x.count) l))
      && s.scb.ctxs.all (fun e => match e.2.wait with | .ledger l _ _ => !inRange (x.base, x.count) l | _ => true)
      && s.pip.tags.all (fun e => e.2.st == 0 || e.2.ledger.all (fun l => !inRange (x.base, x.count) l))
      && s.ldg.txns.all (fun e => e.2.all (fun t => t.timedOut || !inRange (x.base, x.count) t.ledger))
      && s.scb.items.all (fun e => e.2.all (fun it => it.engine != 4 || it.op != 4 || it.done.isSome || it.verdict != 0
        || !inRange (x.base, x.count) (it.f 0x20 4 % 2 ^ 21)))
  | .calendar => true
  | .partition => s.nand.jobs.all (fun j => j.part != x.base)
      && s.scb.items.all (fun e => e.2.all (fun it => it.done.isSome || it.verdict != 0
        || !((it.engine == 5 && it.f 1 1 == x.base) || (it.engine == 9 && it.op == 0 && it.f 3 1 == x.base))))

/-- Replace an entry of the scrub list. -/
def State.setScrub (s : State) (i : Nat) (x : Scrub) : State := { s with ten := { s.ten with scrubs := s.ten.scrubs.set i x } }

/-- Every request that names a removed resource has completed: its clearing starts. -/
def execResourceRelease (index : Nat) (s : State) : Res :=
  .next (match s.ten.scrubs[index]? with
    | none => s
    | some x =>
      if x.released ∨ s.mayScrub x = false then s
      else
        let s := s.setScrub index { x with released := true }
        match x.kind with
        | .slot => s.slotChange x.base { src := .release, typ := 0 }
        | .partition => s.fset P_STAT.SCRUB x.base 1
        | _ => s)

/-- DRAM bytes of a range become 0. -/
def State.mzero (s : State) (a n : Nat) : State := { s with dram := s.dram.filter (fun c => decide (c.1 < a ∨ a + n ≤ c.1)) }

/-- The meter-ID entries, watch-list entries and cached lines of a range of ledgers go. -/
def State.ledgersForget (s : State) (base count : Nat) : State :=
  let out := fun (l : Nat) => !inRange (base, count) l
  let s := s.pip.buckets.foldl (fun (s : State) (e : Nat × List HashEnt) => s.setBucket e.1 (e.2.filter (fun h => out h.ledger))) s
  let s := ({ s with pip := { s.pip with stash := s.pip.stash.filter (fun h => out h.ledger) } } : State).hashCount
  let s := s.ldg.ledgers.foldl (fun (s : State) (e : Nat × Led) => if out e.1 then s else s.cacheForget e.1) s
  let s := { s with ldg := { s.ldg with watch := s.ldg.watch.filter out, lru := s.ldg.lru.map (fun (e : Nat × List Nat) => (e.1, e.2.filter out)) |>.filter (fun e => !e.2.isEmpty) } }
  if s.ldg.watch.length = s.fget LDG_PP_WATCH.USED then s
  else (s.fset LDG_PP_WATCH.USED 0 s.ldg.watch.length).fset LDG_PP_WATCH.FULL 0 0

/-- CLEAR of each ledger of a range that holds anything, in ascending order, journaled for the tenant that lost it while its journal has room
(R19, R132, R142). -/
def State.ledgersClear (s : State) (t base count : Nat) : State :=
  (sortBy (·.1) (s.ldg.ledgers.filter (fun (e : Nat × Led) => inRange (base, count) e.1))).foldl (fun (s : State) e =>
    match s.jRoom t 24 with
    | none => s
    | some s => (s.jAppend t 9 0 e.1 []).2.setLed e.1 []) s

/-- The ledger engine's scrub of a range to zero. -/
def State.ledgersZero (s : State) (base count : Nat) : State :=
  let out := fun (l : Nat) => !inRange (base, count) l
  let s := s.mzero (s.base LDG_BASE_LO.BASE_LO 20 LDG_BASE_HI.BASE_HI + 1024 * base) (1024 * count)
  { s with ldg := { s.ldg with ledgers := s.ldg.ledgers.filter (fun e => out e.1), lines := s.ldg.lines.filter (fun e => out e.1) } }

/-- A calendar's scrub to zero: both copies and the control word. -/
def State.calZero (s : State) (c : Nat) : State :=
  let s := s.mzero (s.base LDG_CAL_LO.BASE_LO 20 LDG_CAL_HI.BASE_HI + 8192 * c) 8192
  { s with ldg := { s.ldg with cals := tput {} s.ldg.cals c {}, pendList := s.ldg.pendList.filter (· != c) } }

/-- The clearing of a released resource ends. A slot's erase must have completed; a range of ledgers of which one still waits for journal room to be
cleared stays on the list (R142). -/
def State.scrubEnd (s : State) (index : Nat) : State :=
  match s.ten.scrubs[index]? with
  | none => s
  | some x =>
    if x.released = false ∨ (x.kind = .slot ∧ s.fget KV_S_INFO.STATE x.base = 2) then s
    else
      let s := if x.kind = .ledgers then (s.ledgersForget x.base x.count).ledgersClear x.tenant x.base x.count else s
      if x.kind = .ledgers ∧ s.ldg.ledgers.any (fun e => inRange (x.base, x.count) e.1) then s
      else
      let s := match x.kind with
        | .slot => s
        | .ledgers => s.ledgersZero x.base x.count
        | .calendar => s.calZero x.base
        | .partition => s.partScrubbed x.base
      ({ s with ten := { s.ten with scrubs := s.ten.scrubs.eraseIdx index } } : State).scrubReg

/-- RESOURCE_SCRUB_DONE. -/
def execResourceScrubDone (index : Nat) (s : State) : Res := .next (s.scrubEnd index)

/-- A released partition's blocks are erased (R451). -/
def execPartitionScrubDone (part : Nat) (s : State) : Res :=
  .next (match s.ten.scrubs.findIdx? (fun x => x.kind == .partition && x.base == part) with
    | some i => s.scrubEnd i
    | none => s)

/-! ### Tenants (R18, R29, R33) -/

/-- A unit of a draining tenant: ON enters DRAINING; the ENABLE bit is cleared in every state. -/
def State.unitOff (s : State) (u : Life) (i : Nat) (drain : State → State) : State :=
  let s := (s.fset u.en i 0).fset u.lat i 0
  if s.fget u.st i = 2 then drain (s.fset u.st i 1) else s

/-- Rings and tasks of a tenant in the active bank. -/
def State.tenRings (s : State) (t : Nat) : List Nat := (s.ten.active.ring.filter (fun e => nbit e.2 31 && nbits e.2 9 0 == t)).map (·.1)
/-- Tasks of a tenant. -/
def State.tenTasks (s : State) (t : Nat) : List Nat := (s.ten.active.task.filter (fun e => nbit e.2 15 && nbits e.2 9 0 == t)).map (·.1)

/-- The field readings of a tenant that wait for a tag are cancelled. -/
def State.cancelIngest (s : State) (t : Nat) : State :=
  s.pip.ingest.foldl (fun (s : State) (e : Nat × List Reading) =>
    let keep := e.2.filter (fun r => r.tenant != t)
    if keep.length = e.2.length then s
    else (List.range (e.2.length - keep.length)).foldl (fun (s : State) _ => s.countEnd t 0x21)
      { s with pip := { s.pip with ingest := tput [] s.pip.ingest e.1 keep } }) s

/-- A tenant enters DRAINING: its rings and tasks do so at the same moment, and its readings not yet committed are cancelled. -/
def State.tenDrain (s : State) (t : Nat) : State :=
  let s := (s.tenRings t).foldl (fun s r => s.unitOff lifeRing r (fun s => s.ringDrain r)) s
  let s := (s.tenTasks t).foldl (fun s k => s.unitOff lifeTask k (fun s => s.taskDrain k)) s
  ((s.cancelPre (fun _ r => r.tenant == t)).cancelIngest t).cancelTags (fun r => r.tenant == t)

/-- A tenant turns ON; one that is being rebuilt stays OFF, enabled, until its rebuild ends (R148). -/
def State.tenStart (s : State) (t : Nat) : State := if s.fbit LDG_T_STAT.REBUILD t then s.fset TEN_CTRL.ENABLE t 1 else s.turnOn lifeTen t

/-- A tenant leaves DRAINING when none of its rings, tasks and tags is left in flight. -/
def State.tenDrained (s : State) (t : Nat) : State :=
  if s.fget TEN_TAGS.IN_FLIGHT t ≠ 0 ∨ (s.tenRings t).any (fun r => s.fget RNG_R_STAT.STATE r == 1)
      ∨ (s.tenTasks t).any (fun k => s.fget TSK_STAT.STATE k == 1) then s
  else s.drainDone lifeTen t (fun s => s.tenStart t)

/-- TEN_CTRL.ENABLE. Tenant 0 is always ON (R18). -/
def execTenEnable (host value : Nat) (s : State) : Res :=
  .next (s.gateW host .ten 0 0x1100 (fun t s =>
    if t = 0 then (if nbit value 0 then s else s.tenRefuse [TEN_ERR.TENANT0] 0x1100)
    else s.enableWrite lifeTen t (nbit value 0) (fun s => s.tenStart t) (fun s => s.tenDrain t)))

end Sys2Proof.Machine
end

