-- ==== Sys2Proof/Machine/Reset.lean ====
section
/-! DEFINITION. What every reset does (R461, R505, R514, R522). -/
namespace Sys2Proof.Machine
open Reg

/-- Fields that no reset changes: the vault domain (R514), the bank status records (R410), what the NAND itself holds (R444, R446), the sequence
of Inkwell records (R458), and the measured values of the supplies and sensors. -/
def keptAlways : List Fld :=
  [MPT_OPSEC.SECONDS, MPT_PCYC.COUNT, MPT_VAULT.VBAT_LOST, MPT_VAULT.RAN, MPT_VAULT.VCLK_ON, MPT_VSECS.SECONDS,
   PWR_RST_CAUSE.BOOT_FAILS, SAF_TAMP_STAT.CAUSE, SAF_TAMP_CFG.MESH, SAF_TAMP_CFG.LOOP, UPD_BANK_A.STATE, UPD_BANK_A.BOOT_TRIES, UPD_BANK_B.STATE, UPD_BANK_B.BOOT_TRIES,
   INK_SUPP.COUNT, INK_SEQ.SEQ, PWR_RAIL_STAT.GOOD, PWR_VSYS.MV, PWR_HVIN.V, PWR_VBAT.LOW, PWR_VBAT.MV, PWR_TEMP.T, PWR_TJMAX.SENSOR, PWR_TJMAX.T,
   PWR_TBAND.BAND, P_CFG.VALID, P_CFG.KIND, P_CFG.WRAP, P_CFG.LOG, P_CFG.DIES, P_SIZE.BLOCKS, P_USED.BLOCKS, P_STAT.SCRUB, P_STAT.FULL,
   P_HEAD_LO.POS_LO, P_HEAD_HI.POS_HI, P_TAIL_LO.POS_LO, P_TAIL_HI.POS_HI, P_MERGES.COUNT, P_WRITTEN.MIB, D_BLOCKS.RETIRED, D_BLOCKS.FACTORY_BAD,
   D_SPARE.RESERVE, D_SPARE.FREE, D_ERASE.MAX, D_ERASE.MEAN, D_ECC.MAX_BITS, D_UNCORR.COUNT, D_FAIL.PROGRAM, D_FAIL.ERASE, D_PROJ.DAYS, D_TEMP.S]

/-- Further fields a warm reset keeps: the time bases, which run on (R522), the RO fields for which no reset value is given (R7), and every RWS field. -/
def keptWarm : List Fld :=
  [RNG_INFO.BIFURCATED, RNG_SUPV.ALT_VALID, RNG_SUPV.ALT, RNG_SUPV.PRIMARY, KV_STAT.KILLED, KV_STAT.LOCKED, KV_DEV_ID_LO.ID_LO, KV_DEV_ID_HI.ID_HI,
   KV_ZCOUNT.COUNT, KV_S_INFO.GEN, UPD_RUN.BANK, UPD_SET_VER.VER, UPD_SET_ID_LO.ID_LO, UPD_SET_ID_HI.ID_HI, UPD_LEDGER_ABI.ABI, UPD_SEC_FLOOR.FLOOR,
   STO_INFO.DIES, STO_QSPI.MBIT, STO_QSPI.SUSPEND, STO_QSPI.MODE, STO_NAND_GEOM.PAGE, STO_NAND_GEOM.PPB, STO_NAND_GEOM.BPD, STO_NAND_CFG.PSLC,
   STO_NAND_CFG.ECC_T, STO_HU_TIME.US, STO_HU_TPROG.US, PAD_BANK_STAT.GOOD, PAD_BANK_STAT.Q_LEVEL, PAD_BANK_STAT.G_LEVEL] ++
  [MPT_SRC.LOADED, MPT_SRC.ROTATION, MPT_SRC.PH_A_OK, MPT_SRC.PH_B_OK, MPT_SRC.PH_C_OK, MPT_SRC.STATE, MPT_FREQ.FREQ, MPT_PH_B.OFFSET, MPT_PH_C.OFFSET,
   MPT_TIME_OK.CAL_OK, MPT_TIME_OK.REASON, GT0_STAT.AGE, GT0_STAT.STEP_USED, GT0_STAT.STATE, GT1_STAT.AGE, GT1_STAT.STEP_USED, GT1_STAT.STATE]
  ++ (tabOf .pad).filter (fun f => f.acc == .rws)

/-- The safety channel's fields that stay in SAFE through a warm reset (R505). -/
def keptSafe : List Fld := [SAF_STAT.STATE, SAF_STAT.FAULT, SAF_STAT.KILL]

/-- The channel is SAFE after LOGIC, CLOCK or SUPPLY. -/
def State.safeStays (s : State) : Bool := s.fget SAF_STAT.STATE == 3 && [10, 11, 12].contains (s.fget SAF_STAT.FAULT)

/-- Register fields that a reset of a kind leaves. -/
def State.keptRegs (s : State) (warm : Bool) : Tab (Tab Nat) :=
  let ids := keptAlways.map (·.id) ++ (if warm then keptWarm.map (·.id) ++ (if s.safeStays then keptSafe.map (·.id) else []) else [])
  s.regs.filter (fun e => ids.contains e.1)

/-- A tenant's journal after a reset: what NAND holds of it, and the tags its records' completions carry (log entry 98). -/
def TenJ.kept (j : TenJ) : TenJ :=
  { nand := j.nand, npos := j.npos, slots := (j.slots.filter (fun (e : Nat × Ckpt) => e.2.complete)), nextSlot := j.nextSlot, tags := j.tags }

/-- The time bases after a reset: a warm reset lets them run on, any other starts them anew (R50, R58). Compare units are OFF. -/
def TimeS.kept (t : TimeS) (warm : Bool) : TimeS := if warm then { t with cmps := [] } else { saved := t.saved }

/-- The vault after a reset: fuse cells, the store and the counters in it, VAULT_SEQ, a pending zeroize, and the blob store. -/
def VaultS.kept (v : VaultS) : VaultS :=
  { store := v.store, wp := v.wp, used := v.used, cells := v.cells, zeroPending := v.zeroPending, zeroTamper := v.zeroTamper,
    zeroStep5 := false, vaultSeq := v.vaultSeq, blobs := v.blobs, cnts := v.cnts }

/-- The recorder after a reset: records outside the buffer, and the counts of a freeze that the reset releases (R461). -/
def State.inkKept (s : State) : InkS :=
  { recs := s.ink.recs.filter (fun (r : InkRec) => r.place != InkPlace.buffer), firstOp := s.ink.firstOp, lastOp := s.ink.lastOp,
    resetGap := s.ink.resetGap || s.fget INK_STAT.FREEZE != 0 }

/-- NAND and configuration memory after a reset. -/
def NandS.kept (n : NandS) : NandS := { n with jobs := [], flushed := false, qbuf := [] }

/-- The attachments after a reset: DOWN; a warm reset leaves the PCIe links trained (R522). -/
def State.hostsKept (s : State) (warm : Bool) : Tab HostA :=
  if warm then s.rng.hosts.filterMap (fun (e : Nat × HostA) => if e.1 < 2 ∧ e.2.cond then some (e.1, { cond := true }) else none) else []

/-- Field readings that a recovery counts as dropped: those HOLDUP cancelled, and those whose tag has not passed its commit point (R119, R120). -/
def State.fieldLost (s : State) : Nat :=
  s.pip.lost + (s.pip.tags.filter (fun (e : Nat × Reading) => e.2.st == 1 && (match e.2.origin with | .ring _ _ _ => false | _ => true))).length

/-- The machine after a reset of a kind (0 power-on, 1 cold, 2 warm), before its mode becomes BOOT. -/
def State.afterReset (s : State) (kind : Nat) : State :=
  let warm := kind == 2
  { State.reset with
    pending := s.pending
    regs := s.keptRegs warm
    dram := if warm then s.dram else []
    ldg := { ten := s.ldg.ten.filterMap (fun (e : Nat × TenJ) => if e.2.kept = {} then none else some (e.1, e.2.kept)) }
    parts := s.parts
    nand := s.nand.kept
    time := s.time.kept warm
    vault := s.vault.kept
    ink := s.inkKept
    saf := if warm ∧ s.safeStays then { faults := s.saf.faults, noRefresh := s.saf.noRefresh } else {}
    rng := { hosts := s.hostsKept warm }
    pip := { lost := s.fieldLost }
    pow := { hv := s.pow.hv, group := s.pow.group, fails := s.pow.fails, retry := s.pow.retry, stopped := s.pow.stopped, vsys := s.pow.vsys, kind := kind, hot := s.pow.hot, vbatGone := s.pow.vbatGone, railStart := s.pow.railStart,
             moved := if warm ∧ s.supv ≠ s.fget RNG_SUPV.PRIMARY then some s.supv else none }
    out := s.out
    freeCtr := s.freeCtr }

/-- STATE of a grid domain. -/
def gtSt (d : Nat) : Fld := if d = 0 then GT0_STAT.STATE else GT1_STAT.STATE

/-- CAL_OK and REASON follow the selected domain; a change of CAL_OK signals event 451. -/
def State.calUpdate (s : State) : State :=
  let st := s.fget (gtSt (s.fget MPT_GRID_SEL.DOMAIN))
  let ok := b2n (st == 1 || st == 2)
  let s := s.fset MPT_TIME_OK.REASON 0 (if st = 0 then 1 else if st = 3 then 2 else 0)
  if s.fget MPT_TIME_OK.CAL_OK = ok then s else (s.fset MPT_TIME_OK.CAL_OK 0 ok).signal 451 []

/-- A reset: the cause is recorded in the vault domain, SAF_KILL goes low unless it is low already, CLAIM_OUT stops, and the mode becomes BOOT. -/
def State.reboot (s : State) (kind cause : Nat) : State :=
  let r := ((s.afterReset kind).fset LDG_T_JBUF.QUOTA 0 64).fset PIP_LOST.COUNT 0 (min s.fieldLost (2 ^ 32 - 1))
  let r := { r with pip := {} }
  let r := (r.fset PWR_RST_CAUSE.CAUSE 0 cause).emit (.pin 1 0 0)
  let r := if s.fbit RES_PAIR_STAT.CLAIM_OUT then r.emit (.pin 7 0 0) else r
  ((r.fset CHIP_MODE.MODE 0 s.mode).setMode 1).calUpdate

end Sys2Proof.Machine
end

