-- ==== Sys2Proof/Machine/Update.lean ====
section
/-! DEFINITION. Version sets, staging, activation and restore, and meter campaigns (R403 to R427, R434 to R437). -/
namespace Sys2Proof.Machine
open Reg

/-! ### Version sets in configuration memory (R403 to R408) -/

/-- STATE and BOOT_TRIES of a bank. -/
def bankSt (b : Nat) : Fld := if b = 0 then UPD_BANK_A.STATE else UPD_BANK_B.STATE
def bankTries (b : Nat) : Fld := if b = 0 then UPD_BANK_A.BOOT_TRIES else UPD_BANK_B.BOOT_TRIES

/-- State of a bank (R410). -/
def State.bankState (s : State) (b : Nat) : Nat := s.fget (bankSt b)

/-- First address of a bank (R429), and its bytes. -/
def bankBase (b : Nat) : Nat := 0x400000 + 0x600000 * (b % 2)
def State.bankRead (s : State) (b off n : Nat) : List Byte := s.qread (bankBase b + off) n

/-- An image entry of a set descriptor (R405). -/
structure ImgEnt where
  kind : Nat
  inst : Nat
  off : Nat
  len : Nat
  ver : Nat
  hash : List (BitVec 8)
deriving DecidableEq, Repr

/-- The set descriptor's first 0x6A0 bytes. -/
def State.setDesc_ (s : State) (b : Nat) : List Byte := s.bankRead b 0 0x6A0

/-- The entries of a descriptor (R404). -/
def descEntries (d : List Byte) : List ImgEnt :=
  (List.range (min (leAt d 5 1) 32)).map (fun k =>
    let e := slice d (0x60 + 48 * k) 48
    ⟨leAt e 0 1, leAt e 1 1, leAt e 4 4, leAt e 8 4, leAt e 0xC 4, slice e 0x10 32⟩)

/-- The entries of a bank's set. -/
def State.setEntries (s : State) (b : Nat) : List ImgEnt := descEntries (s.setDesc_ b)

/-- An entry's kind and instance are ones of R403, and its place one of R405. -/
def ImgEnt.valid (e : ImgEnt) : Bool :=
  (match e.kind with | 1 => e.inst == 0 | 2 => true | 3 => e.inst == 0 | 4 => e.inst == 0 | 5 => e.inst == 0 | 6 => decide (e.inst < 4) | _ => false)
  && e.off % 65536 == 0 && e.off != 0 && decide (e.off + e.len ≤ 0x600000)

/-- Check 1 of R408. -/
def setCheck1 (d : List Byte) : Bool :=
  let es := descEntries d
  d.take 4 == [0x53, 0x56, 0x58, 0x53] && leAt d 4 1 == 1 && decide (1 ≤ leAt d 5 1 ∧ leAt d 5 1 ≤ 32) && es.all ImgEnt.valid
  && (es.filter (fun e => e.kind == 1)).length == 1
  && (List.range es.length).all (fun i => (List.range i).all (fun j => match es[i]?, es[j]? with
    | some a, some b => !(a.kind == b.kind && a.inst == b.inst) && !rangesMeet (a.off, a.len) (b.off, b.len)
    | _, _ => true))

/-- Check 2: the public key is the one whose hash the fuses hold, and the signature verifies (R371, R404). -/
def State.setCheck2 (s : State) (d : List Byte) : Bool :=
  let pub := slice d 0x20 64
  sha256 pub == (List.range 8).flatMap (fun k => leB 4 (s.fuseVal (26 + k))) && p256.verify pub (slice d 0x660 64) (sha256 (d.take 0x660))

/-- Blocks of an image, and where its payload begins (R406). -/
def imgBlocks (h : List Byte) : Nat := leAt h 0x10 2
def imgStart (h : List Byte) : Nat := (128 + 4 * imgBlocks h + 63) / 64 * 64

/-- The header of an image. -/
def State.imgHead (s : State) (b : Nat) (e : ImgEnt) : List Byte := s.bankRead b e.off 128

/-- Check 3: the hash, and the header against its entry (R406). -/
def State.setCheck3 (s : State) (b : Nat) (e : ImgEnt) : Bool :=
  let h := s.imgHead b e
  sha256 (s.bankRead b e.off e.len) == e.hash && h.take 4 == [0x53, 0x56, 0x58, 0x49] && leAt h 4 1 == e.kind && leAt h 5 1 == e.inst
  && leAt h 8 4 == e.ver && leAt h 6 2 == 128 + 4 * imgBlocks h && imgBlocks h == (leAt h 0xC 4 + 65535) / 65536 && decide (imgStart h + leAt h 0xC 4 ≤ e.len)

/-- The first bad block of an image (check 4). -/
def State.badBlock (s : State) (b : Nat) (e : ImgEnt) : Option Nat :=
  let h := s.imgHead b e
  (List.range (imgBlocks h)).find? (fun k =>
    crc32 (s.bankRead b (e.off + imgStart h + 65536 * k) (min 65536 (leAt h 0xC 4 - 65536 * k))) != leAt (s.bankRead b (e.off + 128 + 4 * k) 4) 0 4)

/-- A requirement of 12 bytes is met by a set (R407). -/
def reqMet (es : List ImgEnt) (r : List Byte) : Bool :=
  let xs := es.filter (fun e => e.kind == leAt r 0 1 && (leAt r 1 1 == 255 || e.inst == leAt r 1 1))
  (nbit (leAt r 2 1) 0 && xs.isEmpty) || (!xs.isEmpty && xs.all (fun e => decide (leAt r 4 4 ≤ e.ver ∧ e.ver ≤ leAt r 8 4)))

/-- Check 5: an image accepts the stepping and every one of its requirements is met. Stepping 0 is A0. -/
def State.imgAllowed (s : State) (es : List ImgEnt) (h : List Byte) : Bool :=
  nbit (leAt h 0x14 4) (s.fget CHIP_ID.STEPPING - 0xA0) && (List.range (min (leAt h 0x18 1) 8)).all (fun k => reqMet es (slice h (0x20 + 12 * k) 12))

/-- The payload of an image. -/
def State.payload (s : State) (b : Nat) (e : ImgEnt) : List Byte :=
  let h := s.imgHead b e
  s.bankRead b (e.off + imgStart h) (leAt h 0xC 4)

/-- Set bits of the rollback words, a doubtful one counting 32 (R409, R371). -/
def State.floorCount (s : State) : Nat :=
  (List.range 64).foldl (fun a k => a + (if nbit (tget 0x3F s.vault.wstat (64 + k)) 31 then 32 else popcount (tget 0 s.vault.acc (64 + k)))) 0

/-- The checks of R408 in order: status, REASON and first bad sector. Check 7 is skipped at BOOT. -/
def State.setCheck (s : State) (b : Nat) (boot : Bool) : Nat × Nat × Nat :=
  let d := s.setDesc_ b
  let es := descEntries d
  if setCheck1 d = false then (0x23, 1, 0)
  else if s.setCheck2 d = false then (0x10, 2, 0)
  else if es.all (fun e => s.setCheck3 b e) = false then (0x10, 3, 0)
  else match es.find? (fun e => (s.badBlock b e).isSome) with
  | some e => (0x40, 4, (e.off + imgStart (s.imgHead b e) + 65536 * (s.badBlock b e).getD 0) / 65536)
  | none =>
    if es.all (fun e => s.imgAllowed es (s.imgHead b e)) = false then (0x41, 5, 0)
    else if leAt d 0x14 2 < s.fget UPD_SEC_FLOOR.FLOOR then (0x41, 6, 0)
    else if boot = false ∧ (es.find? (fun e => e.kind == 1)).all (fun e => nbit (leAt (s.payload b e) 5 1) 0 != s.centre) then (0x41, 7, 0)
    else (0, 0, 0)

/-- The registers of the running set. -/
def State.runSet (s : State) (b : Nat) : State :=
  let d := s.setDesc_ b
  let s := (s.fset UPD_SET_VER.VER 0 (leAt d 0x10 4)).fset UPD_SET_ID_LO.ID_LO 0 (leAt d 8 4)
  (s.fset UPD_SET_ID_HI.ID_HI 0 (leAt d 0xC 4)).fset UPD_LEDGER_ABI.ABI 0 (leAt d 0x18 4)

/-! ### Staging commands (R410, R411, R425) -/

/-- A command of UPD_STAGE_CMD: its confirmation, BUSY, then `f` with the bank named; none means it is refused. -/
def State.stageCmd (s : State) (host value op : Nat) (confirm : Bool) (f : State → Nat → Option State) : State :=
  s.gate host .upd 0x28 (fun s =>
    if nbits value 3 0 ≠ op then s
    else if confirm ∧ nbits value 31 16 ≠ 0x5550 then s.errAt UPD_ERR.CMD 0x28
    else if s.fbit UPD_STAGE_RES.BUSY then s.errAt UPD_ERR.BUSY 0x28
    else
      let s := s.fset UPD_STAGE_CMD.BANK 0 (nbits value 8 8)
      match f s (nbits value 8 8) with
      | some s => s
      | none => s.errAt UPD_ERR.CMD 0x28)

/-- The result of a command that ends at once. -/
def State.stageOk (s : State) : State := (s.fset UPD_STAGE_RES.STATUS 0 0).fset UPD_STAGE_RES.REASON 0 0

/-- A bank is the running one: the one BOOT started (R410). -/
def State.runs (s : State) (b : Nat) : Bool := s.fget UPD_RUN.BANK == b && s.pow.booted && s.pow.boot.isNone

/-- OPEN: a bank that is not running becomes WRITING; an ARMED one returns to STAGED. -/
def execStageOpen (host value : Nat) (s : State) : Res :=
  .next (s.stageCmd host value 1 false (fun s b =>
    let st := s.bankState b
    if s.runs b then none
    else if st = 3 then some (s.stageOk.fset (bankSt b) 0 2)
    else if [0, 2, 6, 7].contains st then some (s.stageOk.fset (bankSt b) 0 1)
    else none))

/-- WRITE_BLOCK is accepted for a WRITING bank; it ends with STAGE_COMMAND_DONE. -/
def execWriteBlock (host value : Nat) (s : State) : Res :=
  .next (s.stageCmd host value 2 false (fun s b =>
    if s.bankState b ≠ 1 then none
    else some (({ s with upd := { s.upd with cmd := some ⟨2, b, s.fget UPD_STAGE_OFS.SECTOR host⟩ } } : State).fset UPD_STAGE_RES.BUSY 0 1)))

/-- VERIFY is accepted for a WRITING bank; it ends with STAGE_COMMAND_DONE. -/
def execVerify (host value : Nat) (s : State) : Res :=
  .next (s.stageCmd host value 3 false (fun s b =>
    if s.bankState b ≠ 1 then none
    else some (({ s with upd := { s.upd with cmd := some ⟨3, b, 0⟩ } } : State).fset UPD_STAGE_RES.BUSY 0 1)))

/-- The staging buffer. -/
def State.stageBuf (s : State) : List Byte := (List.range 65536).map (fun k => tget 0 s.upd.buf k)

/-- WRITE_BLOCK ends: the sector is erased and programmed, `faults` are the places whose read-back differs, with what is read there. -/
def State.writeBlockEnd (s : State) (b sector : Nat) (faults : List (Nat × Byte)) : State :=
  let want := s.stageBuf
  let got := faults.foldl (fun l f => if f.1 < 65536 then splice l f.1 [f.2] else l) want
  let s := (s.qErase (bankBase b + 65536 * sector)).qput (bankBase b + 65536 * sector) got
  let s := (s.fset UPD_STAGE_CRC.CRC 0 (crc32 got)).fset UPD_STAGE_RES.STATUS 0 (if got = want then 0 else 0x40)
  s.fset UPD_STAGE_RES.REASON 0 0

/-- VERIFY ends: a failed read gives MEDIA_ERROR with REASON 8, else the checks of R408 decide; event 272. -/
def State.verifyEnd (s : State) (b : Nat) (readFails : Bool) : State :=
  let (st, reason, sector) := if readFails then (0x40, 8, 0) else s.setCheck b false
  let s := (s.fset UPD_STAGE_RES.STATUS 0 st).fset UPD_STAGE_RES.REASON 0 reason
  let s := if reason = 4 then s.fset UPD_STAGE_RES.BLOCK 0 sector else s
  let s := if st = 0 then s.fset (bankSt b) 0 2 else s
  s.signal 272 (leB 1 b ++ leB 1 st ++ leB 1 reason)

/-- A WRITE_BLOCK or VERIFY ends. -/
def execStageCommandDone (readFails : Bool) (faults : List (Nat × Byte)) (s : State) : Res :=
  .next (match s.upd.cmd with
    | none => s
    | some c =>
      let s := ({ s with upd := { s.upd with cmd := none } } : State).fset UPD_STAGE_RES.BUSY 0 0
      if c.op = 2 then s.writeBlockEnd c.bank c.sector faults else s.verifyEnd c.bank readFails)

/-- ARM. -/
def execStageArm (host value : Nat) (s : State) : Res :=
  .next (s.stageCmd host value 4 false (fun s b => if s.bankState b ≠ 2 then none else some (s.stageOk.fset (bankSt b) 0 3)))

/-- DISARM of the ARMED bank. -/
def execDisarm (host value : Nat) (s : State) : Res :=
  .next (s.stageCmd host value 5 false (fun s _ => if s.bankIn 3 = 2 then none else some (s.stageOk.fset (bankSt (s.bankIn 3)) 0 2)))

/-! ### Units an image serves (R403, R415) -/

/-- The lifecycle of units of a kind: tasks of a bank, lanes, radios. No enable-able unit belongs to an engine (log entry 38). -/
def actLife (k : Nat) : Life := if k = 2 then lifeTask else if k = 4 then lifeLane else lifeRadio

/-- Drain, end of drain, and start of a unit of a kind. -/
def State.actDrain (s : State) (k i : Nat) : State := if k = 2 then s.taskDrain i else if k = 4 then s.laneDrain i else s.radioDrain i
def State.actDrained (s : State) (k i : Nat) : State := if k = 2 then s.taskDrained i else if k = 4 then s.laneDrained i else s.radioDrained i
def State.actStart (s : State) (k i : Nat) : State := if k = 2 then s.taskStart i else if k = 4 then s.laneStart i else s.radioStart i

/-- The units an image serves that are not OFF. -/
def State.actUnits (s : State) (img : Nat × Nat) : List (Nat × Nat) :=
  match img.1 with
  | 2 => (((tget [] s.regs TSK_STAT.STATE.id).map (·.1)).filter (fun t => s.fget TSK_STAT.STATE t != 0 && s.fget TSK_CFG.BANK t == img.2)).map (fun t => (2, t))
  | 4 => ((List.range 4).filter (fun n => s.fget PLC_L_STAT.STATE n != 0)).map (fun n => (4, n))
  | 5 => ((List.range 2).filter (fun n => s.fget RFM_R_STAT.STATE n != 0)).map (fun n => (5, n))
  | _ => []

/-- A unit enters DRAINING with its ENABLE value kept as the latched one, which a later write replaces (R415). -/
def State.keepDrain (s : State) (u : Nat × Nat) : State :=
  let f := actLife u.1
  if s.fget f.st u.2 ≠ 2 then s
  else (((s.fset f.en u.2 0).fset f.st u.2 1).actDrain u.1 u.2).fset f.lat u.2 1

/-- Step 1 for an image: its units drain. -/
def State.unitsDrain (s : State) (img : Nat × Nat) : List (Nat × Nat) × State :=
  let us := s.actUnits img
  (us, us.foldl (fun s u => s.keepDrain u) s)

/-- A drained unit goes OFF for the load. -/
def State.unitToOff (s : State) (u : Nat × Nat) : State := (s.fset (actLife u.1).lat u.2 0).actDrained u.1 u.2

/-- Every kept unit has drained. -/
def State.unitsIdle (s : State) (us : List (Nat × Nat)) : Bool := us.all (fun u => (s.unitToOff u).fget (actLife u.1).st u.2 == 0)

/-! ### Activation and restore (R414 to R417) -/

/-- Store the activation. -/
def State.setAct (s : State) (a : Option Act) : State := { s with upd := { s.upd with act := a } }

/-- Order of the kinds in an activation (R415). -/
def kindOrder : List Nat := [6, 4, 5, 3, 2, 1]

/-- Images in activation order. -/
def inOrder (es : List ImgEnt) : List ImgEnt :=
  kindOrder.flatMap (fun k => sortBy (fun (e : ImgEnt) => e.inst) (es.filter (fun e => e.kind == k)))

/-- The bank that holds the running set while another is activated: the LKG one, or with none the one BOOT started. -/
def State.runBank (s : State) : Nat := if s.bankIn 5 = 2 then s.fget UPD_RUN.BANK else s.bankIn 5

/-- The image of a kind and instance in a bank's set. -/
def State.imgIn (s : State) (b : Nat) (img : Nat × Nat) : Option ImgEnt := (s.setEntries b).find? (fun e => e.kind == img.1 && e.inst == img.2)

/-- DEGRADED is entered from UPDATE or from a failed restore, to return to `back` (R517). -/
def State.degradeFrom (s : State) (back : Nat) : State :=
  if back = 8 then s.setMode 8
  else
    let s := (s.fset PWR_MODE_STAT.RETURN 0 back).fset PWR_DEG.LEFT 0 (s.fget PWR_DEG.DEG_MAX)
    (({ s with pow := { s.pow with timer := true, deg := 60 * s.fget PWR_DEG.DEG_MAX } } : State).setMode 8).trialFault

/-- The mode after UPDATE: PREV_MODE, or DEGRADED where a fault was latched; a DEGRADED timer that ran out meanwhile takes effect now (R517, R518). -/
def State.updateLeave (s : State) (back : Nat) : State :=
  if s.mode ≠ 9 then s
  else
    let s := if s.pow.updFault then ({ s with pow := { s.pow with updFault := false } } : State).degradeFrom back else s.setMode back
    if s.pow.due then (({ s with pow := { s.pow with due := false } } : State).signal 7 []).reboot 2 6 else s

/-- An activation or restore ends. -/
def State.actEnd (s : State) (a : Act) : State :=
  let s := s.setAct none
  if a.restoring then
    ((s.updateLeave a.back).signal 276 (leB 1 a.why.1 ++ leB 1 a.why.2.1 ++ leB 1 a.why.2.2)).runSet s.runBank
  else
    let s := ((s.fset (bankSt a.bank) 0 4).fset (bankTries a.bank) 0 0).fset UPD_TRIAL_S.S 0 0
    ((s.runSet a.bank).signal 275 []).updateLeave a.back

/-- The next image's units drain; without one, the activation ends. -/
def State.actNext (s : State) (a : Act) : State :=
  match a.todo with
  | [] => s.actEnd a
  | img :: _ =>
    let (us, s) := s.unitsDrain img
    s.setAct (some { a with kept := us ++ a.owed.filter (fun u => !us.contains u), owed := [] })

/-- ACTIVATE in a mode that allows it: the mode becomes UPDATE, event 273, and the images whose HASH differs are activated in order. -/
def State.actBegin (s : State) (b : Nat) : State :=
  let run := s.runBank
  let todo := ((inOrder (s.setEntries b)).filter (fun e => match s.imgIn run (e.kind, e.inst) with
    | some o => o.hash != e.hash
    | none => true)).map (fun e => (e.kind, e.inst))
  let back := s.mode
  let s := (s.setMode 9).signal 273 (leB 1 b)
  let s := (s.fset UPD_ACT_PROG.TOTAL 0 todo.length).fset UPD_ACT_PROG.DONE 0 0
  s.actNext { bank := b, todo := todo, back := back }

/-- The mode and the banks allow an activation (R414). -/
def State.mayActivate (s : State) : Bool := [4, 5, 6, 7, 8].contains s.mode && s.bankIn 3 != 2 && s.upd.act.isNone

/-- The ACTIVATE trigger or command outside RESTRICTED (R414). -/
def State.activate (s : State) : State :=
  if [4, 5, 6, 7, 8].contains s.mode = false then s.errSet [UPD_ERR.MODE] id
  else if s.mayActivate = false then s.errSet [UPD_ERR.TRIG] id
  else s.actBegin (s.bankIn 3)

/-- ACTIVATE_NOW in RESTRICTED: the ARMED bank, else the STAGED one named, else the other STAGED one (R413). -/
def State.restrictedBank (s : State) (b : Nat) : Option Nat :=
  if s.bankIn 3 ≠ 2 then some (s.bankIn 3) else if s.bankState b = 2 then some b else if s.bankState (1 - b) = 2 then some (1 - b) else none

/-- ACTIVATE_NOW. -/
def execStageActivateNow (host value : Nat) (s : State) : Res :=
  .next (s.stageCmd host value 6 true (fun s b =>
    if s.mode = 3 then
      match s.restrictedBank b with
      | none => none
      | some b => some ((((s.fset (bankSt b) 0 4).fset (bankTries b) 0 0).fset UPD_TRIAL_S.S 0 0).reboot 2 7)
    else some (if s.mayActivate then s.stageOk.activate
      else if [4, 5, 6, 7, 8].contains s.mode then s.errAt UPD_ERR.TRIG 0x28 else s.errAt UPD_ERR.MODE 0x28)))

/-- The TRIAL bank becomes LKG and the former LKG bank OLD; event 277. -/
def State.bankConfirm (s : State) (b : Nat) : State :=
  let s := if s.bankIn 5 = 2 then s else s.fset (bankSt (s.bankIn 5)) 0 6
  (s.fset (bankSt b) 0 5).signal 277 (leB 1 b)

/-- CONFIRM. -/
def execStageConfirm (host value : Nat) (s : State) : Res :=
  .next (s.stageCmd host value 7 false (fun s _ => if s.bankIn 4 = 2 then none else some (s.stageOk.bankConfirm (s.bankIn 4))))

/-- CONFIRM_S seconds pass in TRIAL without a trial fault. -/
def execTrialConfirmExpiry (s : State) : Res :=
  .next (if s.bankIn 4 = 2 ∨ s.fget UPD_CFG.CONFIRM_S = 0 ∨ s.upd.trialFault then s else s.bankConfirm (s.bankIn 4))

/-- A restore begins: the bank is BAD, and the images are reloaded from the LKG bank, in reverse order of activation (R416, R417). -/
def State.restore (s : State) (b : Nat) (imgs : List (Nat × Nat)) (back : Nat) (why : Nat × Nat × Nat) (owed : List (Nat × Nat)) : State :=
  let s := (s.fset (bankSt b) 0 7).setAct none
  s.actNext { bank := b, todo := imgs, back := back, restoring := true, why := why, owed := owed }

/-- A trial fault or REVERT: every image of the TRIAL set that differs from the LKG set is restored (R417). -/
def State.trialRestore (s : State) : State :=
  let b := s.bankIn 4
  let s := { s with upd := { s.upd with trialFault := false } }
  if b = 2 then s
  else
    let imgs := ((inOrder (s.setEntries b)).filter (fun e => match s.imgIn s.runBank (e.kind, e.inst) with
      | some o => o.hash != e.hash
      | none => false)).map (fun e => (e.kind, e.inst))
    let (st, s) := s.drawFail
    s.restore b imgs.reverse s.mode (match imgs.head? with | some i => (i.1, i.2, st) | none => (0, 0, st)) []

/-- REVERT. -/
def execRevert (host value : Nat) (s : State) : Res :=
  .next (s.stageCmd host value 8 true (fun s _ => if s.bankIn 4 = 2 then none else some s.stageOk.trialRestore))

/-- The activation under way fails at its present image: that image and those activated are restored in reverse order. A restore that fails
is the detected fault RESTORE (R416, R518). `owed` are units that could not be turned back on. -/
def State.actFail (s : State) (st : Nat) (owed : List (Nat × Nat) := []) : State :=
  match s.upd.act with
  | none => s
  | some a =>
    let img := a.todo.headD (0, 0)
    if a.restoring then
      let s := (s.setAct none).fault 2
      let s := owed.foldl (fun s u => s.fset (actLife u.1).lat u.2 0) s
      let s := a.kept.foldl (fun s u => if s.fget (actLife u.1).st u.2 = 1 then s.actDrained u.1 u.2 else s) s
      ((if s.mode = 9 then s.updateLeave a.back else s).signal 276 (leB 1 img.1 ++ leB 1 img.2 ++ leB 1 st)).runSet s.runBank
    else s.restore a.bank (img :: a.done.reverse) a.back (img.1, img.2, st) owed

/-- An activation fails: configuration memory cannot be read, or a latched trial fault is due (R416, R417). -/
def execActivationFailure (s : State) : Res :=
  .next (if s.upd.trialFault ∧ s.upd.act.isNone then s.trialRestore else s.actFail 0x40)

/-- One image takes more than ACT_TMO ms. The status reported is not stated: a free value. -/
def execActTmoExpiry (s : State) : Res :=
  .next (if s.upd.act.isSome then let (st, s) := s.drawFail; s.actFail st else s)

/-- RAISE_FLOOR: of the LKG set that asks for it; fuse bits are programmed from the lowest clear one up to SEC_VER (R409). -/
def State.floorRaise (s : State) (dev : List FuseRead) (want : Nat) : State :=
  let p := (List.range 64).foldl (fun (p : Nat × State) k =>
    let (need, s) := p
    let w := 64 + k
    if need = 0 ∨ nbit (tget 0x3F s.vault.wstat w) 31 then (need, s)
    else
      let v := tget 0 s.vault.acc w
      let clear := ((List.range 32).filter (fun j => !nbit v j)).take need
      if clear.isEmpty then (need, s) else (need - clear.length, (s.fuseProgram dev w (clear.foldl (fun a j => a + 2 ^ j) 0)).2)) (want - s.floorCount, s)
  let s := p.2
  (s.fset UPD_SEC_FLOOR.FLOOR 0 (min s.floorCount 2048)).signal 281 (leB 2 s.floorCount)

/-- RAISE_FLOOR. -/
def execRaiseFloor (host value : Nat) (dev : List FuseRead) (s : State) : Res :=
  .next (s.stageCmd host value 9 true (fun s _ =>
    let b := s.bankIn 5
    if b = 2 ∨ nbit (leAt (s.setDesc_ b) 6 2) 0 = false then none
    else
      let v := leAt (s.setDesc_ b) 0x14 2
      if v ≤ s.fget UPD_SEC_FLOOR.FLOOR then some s.stageOk else some (s.stageOk.floorRaise dev v)))

/-! ### Applying a configuration image (R434 to R437) -/

/-- The sections of a configuration payload from an offset: TYPE and body. -/
def confSections (p : List Byte) : Nat → Nat → List (Nat × List Byte)
  | 0, _ => []
  | n + 1, off =>
    let len := leAt p (off + 4) 4
    if off + 8 + len > p.length then [] else (leAt p off 2, slice p (off + 8) len) :: confSections p n (off + 8 + (len + 7) / 8 * 8)

/-- Bytes of an entry of a section TYPE; SYSTEM is one entry. -/
def entrySize (t len : Nat) : Nat := match t with | 2 => 68 | 3 => 8 | 4 => 16 | 5 => 8 | _ => max len 1

/-- The entries of an image in order: index, TYPE, bytes. -/
def confEntries (p : List Byte) : List (Nat × Nat × List Byte) :=
  let es := (confSections p (min (leAt p 0x1C 4) 1024) 64).flatMap (fun (x : Nat × List Byte) =>
    let z := entrySize x.1 x.2.length
    (List.range (x.2.length / z)).map (fun k => (x.1, slice x.2 (z * k) z)))
  (List.range es.length).zip es

/-- A write of the configuration is refused (R436). -/
def State.confRefused (s : State) (index : Nat) : State :=
  let s := if s.fget STO_CFG_STAT.REFUSED = 0 then s.fset STO_CFG_STAT.FIRST 0 (min index 65535) else s
  ((s.fsat STO_CFG_STAT.REFUSED 0).inkRec 0x12 0 (leB 4 index)).signal 137 []

/-- The error bits of a block and of CHIP. -/
def errFlds (b : Blk) : List Fld :=
  ((tabOf b).filter (fun f => f.kind == 0 && f.off == errOff b && f.acc == .w1c)) ++ (if b = .chip then [] else (tabOf .chip).filter (fun f => f.off == 0x40 && f.acc == .w1c))

/-- Try a write: it was refused if it set an error bit of its block or of CHIP_ERR. -/
def State.tryWrite (s : State) (b : Blk) (f : State → State) : Bool × State :=
  let fs := errFlds b
  let was := fs.filter (fun g => s.fbit g)
  let s := f (was.foldl (fun s g => s.fset g 0 0) s)
  let bad := fs.any (fun g => s.fbit g)
  (bad, was.foldl (fun s g => s.fset g 0 1) s)

/-- Count a refused entry. -/
def State.confTry (s : State) (index : Nat) (b : Blk) (f : State → State) : State :=
  match s.tryWrite b f with
  | (true, s) => s.confRefused index
  | (false, s) => s

/-- A TENANTS entry: the whole record is judged at once. -/
def State.confTenant (s : State) (e : List Byte) : State :=
  let t := leAt e 0 2 % 1024
  let b : Bank := { s.ten.pend with recs := (List.range 16).foldl (fun (r : Tab Nat) w => tput 0 r (16 * t + w) (Nat.land (leAt e (4 + 4 * w) 4) (recMask w))) s.ten.pend.recs }
  let scr := (b.ranges t 0).any (fun r => !((s.ten.pend.ranges t 0).contains r) && s.scrubbing .ledgers r.1 r.2)
  let fs := (if (List.range 3).any (fun k => b.overlaps t k) then [TEN_ERR.OVERLAP] else []) ++ (if b.shareSum > 4096 ∨ b.tagQuota t > 1024 then [TEN_ERR.SHARE_SUM] else [])
    ++ (if scr then [TEN_ERR.SCRUBBING] else [])
  if leAt e 0 2 ≥ 1024 then s.tenRefuse [TEN_ERR.OVERLAP] 0x10000
  else if fs ≠ [] then s.tenRefuse fs (0x10000 + 64 * t) else s.setPend b

/-- An OWNERS entry. -/
def State.confOwner (s : State) (e : List Byte) : State :=
  let i := leAt e 2 2
  let v := leAt e 4 4
  let put16 := fun (base n : Nat) => if i < n then s.pendWrite (base + 2 * i) 16 (v % 65536) else s.tenRefuse [TEN_ERR.OWNER_BUSY] base
  match leAt e 0 1 with
  | 0 => if i < 4096 then s.pendWrite (0x20000 + 4 * i) 32 v else s.tenRefuse [TEN_ERR.OWNER_BUSY] 0x20000
  | 1 => put16 0x24000 4096
  | 2 => put16 0x26000 4096
  | 3 => put16 0x28000 2048
  | 4 => put16 0x29000 8192
  | 5 => put16 0x2D000 256
  | _ => s.tenRefuse [TEN_ERR.OWNER_BUSY] 0x24000

/-- An epoch switch made whole within one command; how long it took is free (log entry 39). -/
def State.epochNow (s : State) : State :=
  let (d, s) := s.drawNat 65536
  (s.switchNow.bankExchange).copyDone d

/-- Steps 3 to 5 of R436: TENANTS and OWNERS with one epoch switch, PARTITIONS, then PRESET through `wr`, each refused entry counted. A section of
an unlisted TYPE is counted as refused. -/
def State.confApply (wr : State → Nat → Nat → State) (p : List Byte) (s : State) : State :=
  let es := confEntries p
  let s := es.foldl (fun s (e : Nat × Nat × List Byte) =>
    if e.2.1 = 2 then s.confTry e.1 .ten (fun s => s.confTenant e.2.2)
    else if e.2.1 = 3 then
      if leAt e.2.2 0 1 = 6 then s.confTry e.1 .scb (fun s => s.pageSet (leAt e.2.2 2 2) (leAt e.2.2 4 4))
      else s.confTry e.1 .ten (fun s => s.confOwner e.2.2)
    else if e.2.1 = 0 ∨ e.2.1 > 5 then s.confRefused e.1 else s) s
  let s := s.epochNow
  let s := es.foldl (fun s (e : Nat × Nat × List Byte) => if e.2.1 = 4 then
      match s.partEntry e.2.2 with | (true, s) => s | (false, s) => s.confRefused e.1
    else s) s
  es.foldl (fun s (e : Nat × Nat × List Byte) => if e.2.1 = 5 then
      match blkAt (leAt e.2.2 0 4) with
      | some b => s.confTry e.1 b (fun s => wr s (leAt e.2.2 0 4) (leAt e.2.2 4 4))
      | none => s.confRefused e.1
    else s) s

/-! ### Loading an image (R415) -/

/-- Little-endian words of bytes from an offset, as a table. -/
def wordsOf (b : List Byte) (off n : Nat) : Tab Nat := (List.range n).foldl (fun t k => tput 0 t k (leAt b (off + 4 * k) 4)) []

/-- Words as a table stores them: reserved bits are 0 (R8). `mask` gives the bits word `k` has. -/
def maskWords (mask : Nat → Nat) (t : Tab Nat) : Tab Nat :=
  t.filterMap (fun e => let v := Nat.land e.2 (mask e.1); if v = 0 then none else some (e.1, v))

/-- The tables a TABLE payload holds: the PIP tables in the order of R127, then the EVT routes (log entry 40). -/
def tablesOf (p : List Byte) : Tables :=
  { routes := maskWords (fun k => routeMask (k % 8)) (wordsOf p 0 8192)
    profiles := maskWords (fun k => profileMask (k % 8)) (wordsOf p 0x8000 2048)
    obis := maskWords (fun k => obisMask (k % 2)) (wordsOf p 0xA000 32768)
    evt := maskWords (fun _ => 2 ^ 29 - 1) (wordsOf p 0x2A000 2048) }

/-- Load a BANK payload through OPEN and SEAL: BASE, LEN and CRC in its first three words, the instructions from byte 16 (log entry 40). -/
def State.bankLoad (s : State) (b : Nat) (p : List Byte) : Bool × State :=
  let len := leAt p 4 4
  if s.fget SCB_BANK_STAT.USERS b > 0 ∨ len = 0 ∨ len > 65536 then (false, s)
  else
    let s := if s.fget SCB_BANK_CTRL.STATE b = 0 then s else s.fset SCB_BANK_CTRL.STATE b 0
    let s := (((s.fset SCB_BANK_BASE.BASE b (leAt p 0 4)).fset SCB_BANK_LEN.LEN b len).fset SCB_BANK_CHECK.CRC b (leAt p 8 4)).bankOpen b
    if s.fget SCB_BANK_CTRL.STATE b ≠ 1 then (false, s)
    else
      let s := (List.range len).foldl (fun (s : State) k => s.istorePut (s.fget SCB_BANK_BASE.BASE b + k) (leAt p (16 + 4 * k) 4)) s
      let s := s.bankSeal b
      (s.fget SCB_BANK_CTRL.STATE b == 2, s)

/-- Load an image from a bank, its block CRCs checked as it is read; a status where it fails. A status the spec does not give is free. -/
def State.imgLoad (wr : State → Nat → Nat → State) (s : State) (bank : Nat) (e : ImgEnt) : Option Nat × State :=
  if (s.badBlock bank e).isSome then (some 0x40, s)
  else match e.kind with
  | 2 => match s.bankLoad e.inst (s.payload bank e) with
    | (true, s) => (none, s)
    | (false, s) => let (st, s) := s.drawFail; (some st, s)
  | 3 => (none, ({ s with upd := { s.upd with shadow := some (tablesOf (s.payload bank e)) } } : State).epochNow)
  | 1 => (none, s.confApply wr (s.payload bank e))
  | _ => (none, s)

/-- Steps 2 to 4 for the present image, its units drained: load it, turn its units back to their kept ENABLE, event 274. An image that the bank
to restore from does not hold is left in place. -/
def State.imgActivate (wr : State → Nat → Nat → State) (s : State) : State :=
  match s.upd.act with
  | none => s
  | some a =>
    match a.todo with
    | [] => s
    | img :: rest =>
      if s.unitsIdle a.kept = false ∨ s.ten.phase ≠ .idle then s
      else
        let src := if a.restoring then s.runBank else a.bank
        let want := a.kept.filter (fun u => s.fbit (actLife u.1).lat u.2)
        let s := a.kept.foldl (fun s u => s.unitToOff u) s
        let (bad, s) := match s.imgIn src img with
          | some e => s.imgLoad wr src e
          | none => (none, s)
        match bad with
        | some st => (want.foldl (fun s u => s.fset (actLife u.1).lat u.2 1) s).actFail st want
        | none =>
          let s := want.foldl (fun s u => s.actStart u.1 u.2) s
          let off := want.filter (fun u => s.fget (actLife u.1).st u.2 != 2)
          if off ≠ [] then
            let (st, s) := s.drawFail
            (off.foldl (fun s u => s.fset (actLife u.1).lat u.2 1) s).actFail st off
          else
            let s := s.signal 274 (leB 1 img.1 ++ leB 1 img.2)
            let s := if a.restoring then s else s.fadd UPD_ACT_PROG.DONE 0
            s.actNext { a with todo := rest, done := a.done ++ [img], kept := [] }

/-! ### Campaigns (R418 to R423) -/

/-- Serve a campaign item: only the tenant that opened it may issue it, and only in a state of the list (R422). -/
def State.campServe (s : State) (n op : Nat) (states : List Nat) (f : Nat → Item → State → Option (Nat × Nat) × State) : State :=
  s.serve n 9 op (fun it s =>
    let c := it.f 1 1 % 16
    let st := s.fget UPD_C_STAT.STATE c
    if states.contains st = false ∨ (st ≠ 0 ∧ s.fget UPD_C_STAT.TENANT c ≠ it.tenant) then only s 0x23 else f c it s)

/-- Bytes of a partition that neither its contents nor another campaign takes. -/
def State.campSpace (s : State) (p : Nat) : Nat :=
  let total := if s.fbit P_CFG.KIND p then s.fget P_SIZE.BLOCKS p * s.blockBytes - (s.partHead p - s.partTail p)
    else (s.partSectors p - (s.part p).sectors.length) * 4096
  total - (List.range 16).foldl (fun a c => if s.fget UPD_C_STAT.STATE c ≠ 0 ∧ s.fget UPD_C_STAT.PART c = p then a + (s.camp c).size else a) 0

/-- OP 0, OPEN. -/
def execCampOpen (n : Nat) (s : State) : Res :=
  .next (s.campServe n 0 [0] (fun c it s =>
    let size := it.f 0x1C 4
    let blk := it.f 0x20 2
    let cnt := (size + blk - 1) / max blk 1
    let part := it.f 3 1
    if size = 0 ∨ size > 2 ^ 24 ∨ blk % 16 ≠ 0 ∨ blk < 64 ∨ blk > 384 ∨ cnt > 65535 ∨ s.fbit P_CFG.VALID part = false then only s 0x23
    else match s.buf it false 32 with
    | none => only s 0x23
    | some h =>
      if s.campSpace part < size then only s 0x24
      else
        let s := s.setCamp c { hash := h, size := size, blk := blk, version := it.f 0x2C 4 }
        let s := ((s.fset UPD_C_STAT.TENANT c it.tenant).fset UPD_C_STAT.PART c part).fset UPD_C_IMAGE.ID c (it.f 0x18 4)
        let s := s.mwrite (s.campMap c) ((List.range 8192).map (fun k => BitVec.ofNat 8 (if 8 * k + 8 ≤ cnt then 255 else if 8 * k < cnt then 2 ^ (cnt - 8 * k) - 1 else 0)))
        let s := ((s.fset UPD_C_BLOCKS.MISSING c cnt).fset UPD_C_BLOCKS.COUNT c cnt).fset UPD_C_SENT.COUNT c 0
        only (s.campState c 1) 0))

/-- OP 1, WRITE. -/
def execCampWrite (n : Nat) (s : State) : Res :=
  .next (s.campServe n 1 [1] (fun c it s =>
    let v := s.camp c
    let ofs := it.f 0x10 4
    if ofs + it.f 4 4 > v.size then only s 0x23
    else match s.buf it false (it.f 4 4) with
    | none => only s 0x23
    | some b => if s.nandReady = false then only s 0x40 else only (s.setCamp c { v with data := tabPut v.data ofs b }) 0))

/-- OP 2, SEAL. -/
def execCampSeal (n : Nat) (s : State) : Res :=
  .next (s.campServe n 2 [1] (fun c _ s =>
    let v := s.camp c
    if s.ftlMedia false = false then only s 0x40
    else if sha256 (v.bytes 0 v.size) = v.hash then only (s.campState c 2) 0 else only s 0x10))

/-- OP 3, SEND. One SEND of a campaign runs at a time; a second waits. -/
def execCampSend (n : Nat) (s : State) : Res :=
  .next (if (match s.item n with | some it => it.engine == 9 && it.op == 3 && (s.camp (it.f 1 1 % 16)).send.isSome | none => false) then s
    else s.campServe n 3 [2, 3, 4, 5] (fun c it s =>
    let v := s.camp c
    let lanes := it.f 2 1 % 16
    if (List.range 4).all (fun k => !(nbit lanes k && s.laneOn k)) then only s 0x23
    else if s.mayTransmit = false then only s 0x24
    else if s.txKeyOk = false then only s 0x15
    else
      let todo := ((List.range (it.f 0x14 2)).map (fun k => it.f 0x10 4 + k)).filter (fun k => decide (k < s.fget UPD_C_BLOCKS.COUNT c) && s.campMissing c k)
      let s := s.setCamp c { v with lanes := lanes }
      match s.campPush c none with
      | ([], s) => only s 0x24
      | (ls, s) => (none, s.setCamp c { s.camp c with send := some { item := n, lanes := ls, todo := todo } })))

/-- OP 4, MERGE. -/
def execMerge (n : Nat) (s : State) : Res :=
  .next (s.campServe n 4 [2, 3, 4, 5] (fun c it s =>
    let cnt := it.f 0x14 2
    match s.buf it false ((cnt + 7) / 8) with
    | none => only s 0x23
    | some b => only ((List.range cnt).foldl (fun s k =>
        if nbit (leAt b (k / 8) 1) (k % 8) ∧ it.f 0x10 4 + k < s.fget UPD_C_BLOCKS.COUNT c then s.campBit c (it.f 0x10 4 + k) true else s) s) 0))

/-- OP 5, PREP_ACT. -/
def execPrepAct (n : Nat) (s : State) : Res :=
  .next (s.campServe n 5 [2] (fun c it s =>
    let t := it.f 0x24 6
    let gap := it.f 0x16 1
    if gap = 0 ∨ gap > 15 ∨ t < s.cycleNow + gap + 2 ∨ t > s.cycleNow + 65535 then only s 0x23
    else
      let s := s.setCamp c { s.camp c with mask := it.f 2 1 % 16, gap := gap, target := t }
      only (((s.fset UPD_C_TGT_LO.CYC_LO c t).fset UPD_C_TGT_HI.CYC_HI c (t / 2 ^ 32)).campState c 3) 0))

/-- OP 6, READ. -/
def execCampRead (n : Nat) (s : State) : Res :=
  .next (s.campServe n 6 [2, 3, 4, 5] (fun c it s =>
    let v := s.camp c
    let len := it.f 4 4
    if it.f 0x10 4 + len > v.size ∨ s.winOk it.task false (it.f 8 8) len = false then only s 0x23
    else if s.ftlMedia false = false then only s 0x40
    else only (s.winWrite it.task false (it.f 8 8) (v.bytes (it.f 0x10 4) len)) 0))

/-- OP 7, CLOSE: items in progress are CANCELLED. -/
def execCampClose (n : Nat) (s : State) : Res :=
  .next (s.campServe n 7 [1, 2, 3, 4, 5] (fun c _ s =>
    let s := (s.campSendEnd c 0x21).setCamp c {}
    let s := ((s.fset UPD_C_STAT.TENANT c 0).fset UPD_C_STAT.PART c 0).fset UPD_C_IMAGE.ID c 0
    let s := ((s.fset UPD_C_BLOCKS.MISSING c 0).fset UPD_C_BLOCKS.COUNT c 0).fset UPD_C_SENT.COUNT c 0
    only (((s.fset UPD_C_TGT_LO.CYC_LO c 0).fset UPD_C_TGT_HI.CYC_HI c 0).campState c 0) 0))

/-- The ACTIVATE trigger of a campaign: its lanes send BLK_ACTIVATE as a cycle mark, under the rules of R189 and R331 (R423). -/
def State.campTrigger (s : State) (c air : Nat) : State :=
  if s.fget UPD_C_STAT.STATE c ≠ 3 then s.errSet [UPD_ERR.TRIG] id
  else
    let v := s.camp c
    let delay := v.target - s.cycleNow
    let fail := fun (s : State) => (s.campState c 2).errSet [UPD_ERR.TRIG] id
    if s.phaseNow < 0x27AB ∨ s.phaseNow > 0x2EAB ∨ delay < v.gap + 2 ∨ delay > 65535 then fail s
    else
      let (fr, s) := s.thosa 0x14 (leB 4 (s.fget UPD_C_IMAGE.ID c) ++ leB 2 delay ++ leB 1 v.gap ++ [0] ++ leB 6 v.target ++ [0, 0])
      let (sent, s) := s.markLanes v.mask air fr 0 (some c)
      if sent then s.campState c 4 else if s.campWaits c then s else fail s

/-- The target cycle of a SENT campaign is reached. -/
def execCampaignTargetReached (camp : Nat) (s : State) : Res :=
  .next (if camp < 16 ∧ s.fget UPD_C_STAT.STATE camp = 4 then s.campState camp 5 else s)

/-- An ACTIVATE trigger with its ARG (R71). In RESTRICTED the trigger is ignored with UPD_ERR.MODE. -/
def State.updTrigger (s : State) (arg air : Nat) : State :=
  if nbit arg 0 then s.campTrigger (nbits arg 4 1) air else s.activate

end Sys2Proof.Machine
end

