-- ==== Sys2Proof/Machine/Time.lean ====
section
/-! DEFINITION. Mains-phase time, grid time, operating time and the compare units (R49 to R79, R566, R567). -/
namespace Sys2Proof.Machine
open Reg

/-! ### Triggers and firing (R67 to R74) -/

/-- Store the time bases. -/
def State.setTime (s : State) (t : TimeS) : State := { s with time := t }

/-- A compare unit that is armed. -/
def State.cmp (s : State) (u : Nat) : CmpU := tget {} s.time.cmps u
def State.setCmp (s : State) (u : Nat) (c : CmpU) : State := s.setTime { s.time with cmps := tput {} s.time.cmps u c }

/-- A grid domain's time in nanoseconds. -/
def State.gtNs (s : State) (d : Nat) : Nat := let g := if d = 0 then s.time.gt0.now else s.time.gt1.now; g.1 * 10 ^ 9 + g.2

/-- The value of a base over its full width: 0 mains-phase in pu, 1 GT0, 2 GT1 in ns, 3 operating seconds. -/
def State.baseNow (s : State) (base : Nat) : Nat :=
  match base with
  | 0 => s.time.mpt
  | 1 => s.gtNs 0
  | 2 => s.gtNs 1
  | _ => s.fget MPT_OPSEC.SECONDS

/-- The full-width difference target − now (R67); for mains-phase time it is taken in 64 bits. -/
def State.cmpDiff (s : State) (base target : Nat) : Int :=
  if base = 0 then sval 64 (uval 64 ((target : Int) - (s.time.mpt : Int))) else (target : Int) - (s.baseNow base : Int)

/-- The target the registers hold, over the full width of a base (R78). A nanoseconds field of 10^9 or more carries into the seconds (log
entry 101). -/
def State.cmpTarget (s : State) (u base : Nat) : Nat :=
  let lo := s.fget MPT_CMP_TGT_LO.TGT_LO u
  let hi := s.fget MPT_CMP_TGT_HI.TGT_HI u
  match base with
  | 0 => hi * 2 ^ 32 + lo
  | 3 => hi
  | _ => (s.fget MPT_CMP_TGT_X.TGT_X u * 2 ^ 32 + hi) * 10 ^ 9 + lo % 2 ^ 30

/-- A target as the three target registers show it (R567). -/
def tgtWords (base target : Nat) : Nat × Nat × Nat :=
  match base with
  | 0 => (target % 2 ^ 32, target / 2 ^ 32, 0)
  | 3 => (0, target, 0)
  | _ => (target % 10 ^ 9, target / 10 ^ 9 % 2 ^ 32, target / 10 ^ 9 / 2 ^ 32)

/-- The period of a unit. -/
def State.cmpPer (s : State) (u : Nat) : Nat := s.fget MPT_CMP_PER_LO.PER_LO u + s.fget MPT_CMP_PER_HI.PER_HI u * 2 ^ 32

/-- The base of a unit. -/
def State.cmpBase (s : State) (u : Nat) : Nat := s.fget MPT_CMP_CTRL.BASE u

/-- STEP_USED and AGE of a domain. -/
def gtUsed (d : Nat) : Fld := if d = 0 then GT0_STAT.STEP_USED else GT1_STAT.STEP_USED
def gtAge (d : Nat) : Fld := if d = 0 then GT0_STAT.AGE else GT1_STAT.AGE

/-- A unit on this base may fire: a grid domain must be VALID or HOLDOVER (R69). -/
def State.baseUsable (s : State) (base : Nat) : Bool :=
  match base with
  | 1 => s.fget (gtSt 0) == 1 || s.fget (gtSt 0) == 2
  | 2 => s.fget (gtSt 1) == 1 || s.fget (gtSt 1) == 2
  | _ => true

/-- A difference at or beyond the horizon of R67. -/
def beyond (base : Nat) (d : Int) : Bool :=
  match base with
  | 0 => decide (d ≥ 2 ^ 47 ∨ d ≤ -(2 ^ 47))
  | 3 => false
  | _ => decide (d ≥ 2 ^ 31 * 10 ^ 9 ∨ d ≤ -(2 ^ 31 * 10 ^ 9))

/-- The low-part comparison of R68: the target is reached. -/
def State.cmpReached (s : State) (base target : Nat) : Bool :=
  match base with
  | 0 => decide (sval 48 (uval 48 ((target : Int) - (s.time.mpt : Int))) ≤ 0)
  | 3 => decide ((target : Int) ≤ (s.baseNow 3 : Int))
  | _ =>
    let n := s.baseNow base
    let d := sval 32 (uval 32 ((target / 10 ^ 9 : Nat) - (n / 10 ^ 9 : Nat) : Int))
    decide (d < 0 ∨ (d = 0 ∧ target % 10 ^ 9 ≤ n % 10 ^ 9))

/-- Issue a trigger (R71). `air` is the air time of a frame it starts. -/
def State.trigger (s : State) (u target : Nat) (late : Bool) (pay : List Byte) (air : Nat) : State :=
  let arg := s.fget MPT_CMP_CTRL.ARG u
  match s.fget MPT_CMP_CTRL.TRIG u with
  | 1 => s.conversion (nbits arg 2 0) (target / 65536 % 2 ^ 48) (target % 65536) late
  | 2 => s.deliver (nbits arg 11 0) 0 (384 + u) pay
  | 3 => s.beaconTrigger (nbits arg 1 0)
  | 4 => s.cycleMark (nbits arg 3 0) air
  | 5 => s.updTrigger arg air
  | 6 => s.calTrigger (nbits arg 12 0)
  | _ => s

/-- Payload of a unit's event (R567). -/
def State.cmpPay (s : State) (u target : Nat) (late : Bool) : List Byte :=
  let w := tgtWords (s.cmpBase u) target
  leB 4 w.1 ++ leB 4 w.2.1 ++ leB 2 w.2.2 ++ leB 1 (s.fget MPT_CMP_STAT.GEN u) ++ leB 1 (b2n late)

/-- A unit fires (R70): its event, its trigger, LATE; a one-shot goes to OFF, a periodic one moves its target past now. -/
def State.cmpFire (s : State) (u : Nat) (late : Bool) (air : Nat) : State :=
  let base := s.cmpBase u
  let tgt := (s.cmp u).next
  let pay := s.cmpPay u tgt late
  let per := s.cmpPer u
  let periodic := s.fbit MPT_CMP_CTRL.PERIODIC u
  let s := (s.fset MPT_CMP_STAT.LATE u (b2n late)).fadd MPT_CMP_STAT.FIRED u
  let s := if periodic then s else (s.turnOff lifeCmp u).setCmp u {}
  let s := (s.signal (384 + u) pay).trigger u tgt late pay air
  if periodic = false ∨ s.fget MPT_CMP_STAT.STATE u ≠ 2 then s
  else
    let d := s.cmpDiff base (tgt + per)
    if d > 0 then s.setCmp u { next := tgt + per }
    else
      let m := (-d).toNat / per + 1
      (s.setCmp u { next := tgt + per + m * per }).fsat MPT_CMP_STAT.MISSED u m

/-- A unit is ON, its base is usable and its target reached (R68, R69). -/
def State.cmpDue (s : State) (u : Nat) : Bool :=
  s.fget MPT_CMP_STAT.STATE u == 2 && s.baseUsable (s.cmpBase u) && s.cmpReached (s.cmpBase u) (s.cmp u).next

/-- The due units below one fire first, in ascending order (R72). The air time of a frame so started is free. -/
def State.cmpBelow (s : State) (u : Nat) : State :=
  (List.range u).foldl (fun s k => if s.cmpDue k then let (air, s) := s.drawNat 65536; s.cmpFire k (s.cmp k).late air else s) s

/-- A unit that is ON reaches its target (R68, R70, R72). -/
def execCompareFire (unit air : Nat) (s : State) : Res :=
  .next (if unit ≥ 64 ∨ s.cmpDue unit = false then s
    else
      let s := s.cmpBelow unit
      if s.cmpDue unit then s.cmpFire unit (s.cmp unit).late air else s)

/-- A base has stepped: its armed units are evaluated in ascending order; one whose target is passed fires LATE, one at or beyond the horizon
goes to OFF with HORIZON, at the offset of MPT_CMP_CTRL (R74; log entry 101). The air time of a frame so started is free. -/
def State.baseStepped (s : State) (base : Nat) : State :=
  (List.range 64).foldl (fun s u =>
    if s.fget MPT_CMP_STAT.STATE u ≠ 2 ∨ s.cmpBase u ≠ base ∨ s.baseUsable base = false then s
    else
      let d := s.cmpDiff base (s.cmp u).next
      if beyond base d then ((s.turnOff lifeCmp u).setCmp u {}).errSet [MPT_ERR.HORIZON] (fun s => s.fset MPT_ERR_INFO.OFFSET 0 0x1100)
      else if d ≤ 0 then let (air, s) := s.drawNat 65536; s.cmpFire u true air
      else s) s

/-- Bases a TRIG code allows (R71), as a mask of BASE codes. -/
def trigBases (t : Nat) : Nat := match t with | 0 => 15 | 1 => 1 | 2 => 15 | 3 => 1 | 4 => 1 | 5 => 7 | 6 => 7 | _ => 0

/-- Smallest period of a base. -/
def minPer (base : Nat) : Nat := match base with | 0 => 256 | 3 => 1 | _ => 1000

/-- Arm a unit, or leave it OFF with every error that applies (R67). A target equal to now counts as passed, and ALIGN tests the target of any
base (log entry 101). -/
def State.cmpArm (s : State) (u : Nat) : State :=
  let base := s.cmpBase u
  let tgt := s.cmpTarget u base
  let trig := s.fget MPT_CMP_CTRL.TRIG u
  let d := s.cmpDiff base tgt
  let fs := (if beyond base d then [MPT_ERR.HORIZON] else [])
    ++ (if s.fbit MPT_CMP_CTRL.PERIODIC u ∧ s.cmpPer u < minPer base then [MPT_ERR.PERIOD] else [])
    ++ (if nbit (trigBases trig) base then [] else [MPT_ERR.TRIG_CODE])
    ++ (if trig = 1 ∧ tgt % 256 ≠ 0 then [MPT_ERR.ALIGN] else [])
  if fs ≠ [] then (s.turnOff lifeCmp u).errSet fs (fun s => s.fset MPT_ERR_INFO.OFFSET 0 0x1100)
  else (s.turnOn lifeCmp u).setCmp u { next := tgt, late := decide (d ≤ 0) && s.baseUsable base }

/-- MPT_CMP_CTRL (R73): a write that changes BASE, TRIG, ARG or PERIODIC of a unit that is not OFF is discarded whole; else ENABLE acts. A unit
due at the tick of an ENABLE = 0 write fires first. -/
def execCompareArm (host value : Nat) (s : State) : Res :=
  .next (s.gateW host .mpt 0 0x1100 (fun u s =>
    let cfg := [MPT_CMP_CTRL.ARG, MPT_CMP_CTRL.TRIG, MPT_CMP_CTRL.BASE, MPT_CMP_CTRL.PERIODIC]
    if s.fget MPT_CMP_STAT.STATE u ≠ 0 ∧ cfg.any (fun f => s.fget f u != f.of value) then s.errAt MPT_ERR.CMP_BUSY 0x1100
    else
      let s := cfg.foldl (fun s f => s.fset f u (f.of value)) s
      let s := if nbit value 0 = false ∧ s.cmpDue u then
          let s := s.cmpBelow u
          if s.cmpDue u then let (air, s) := s.drawNat 65536; s.cmpFire u (s.cmp u).late air else s
        else s
      s.enableWrite lifeCmp u (nbit value 0) (fun s => s.cmpArm u) id))

/-! ### Mains-phase time (R49 to R57) -/

/-- MPT_SRC.STATE changes; event 448. Where it leaves LOCKED, the open windows are DEGRADED (R179). -/
def State.srcState (s : State) (v : Nat) : State :=
  if s.fget MPT_SRC.STATE = v then s else (if s.coherent then s.balDegrade else s).fset MPT_SRC.STATE 0 v |>.signal 448 []

/-- A phase-OK bit changes; its loss signals event 452. -/
def State.phaseOk (s : State) (f : Fld) (v : Bool) : State :=
  if s.fbit f = v then s else if v then s.fset f 0 1 else (s.fset f 0 0).signal 452 []

/-- A crossing is missing or invalid (R51). -/
def State.crossMissing (s : State) : State :=
  if s.centre then s
  else
    let s := (s.setTime { s.time with good := 0, miss := s.time.miss + 1 }).phaseOk MPT_SRC.PH_A_OK false
    if s.time.miss ≥ 2 ∧ (s.fget MPT_SRC.STATE = 1 ∨ s.fget MPT_SRC.STATE = 2) then
      ((s.setTime { s.time with held := 0 }).fset MPT_FREQ.FREQ 0 0).srcState 3
    else s

/-- A crossing is valid: VA's RMS, in 0.1 V, is at or above MAINS_MIN per cent of the nominal phase voltage, and the measured period lies
between 1/65 s and 1/45 s (R51). -/
def State.crossValid (s : State) (rms freq : Nat) : Bool :=
  decide (s.fget MPT_CFG.MAINS_MIN * s.fget BAL_NOMV.VOLTS ≤ 100 * rms ∧ 45000 ≤ freq ∧ freq ≤ 65000)

/-- A positive-going VA crossing (R51, R52): VA's RMS in 0.1 V, its phase error in pu by the shorter way, and the frequency measured in mHz.
The correction of the cycle that follows is added to what is still to be made by rate. -/
def execZeroCrossing (rms : Nat) (err : Int) (freq : Nat) (s : State) : Res :=
  .next (if s.centre then s
    else if s.crossValid rms freq = false then s.crossMissing
    else
      let s := (s.setTime { s.time with good := s.time.good + 1, miss := 0 }).phaseOk MPT_SRC.PH_A_OK true
      let st := s.fget MPT_SRC.STATE
      let st' := if (st = 4 ∨ st = 3) ∧ s.time.good ≥ 8 then 1 else if st = 1 ∧ -16 ≤ err ∧ err ≤ 16 then 2 else st
      let s := if st' = 1 ∨ st' = 2 then
          let m : Int := s.fget MPT_SLEW.MAX_PU
          let c := if -err > m then m else if -err < -m then -m else -err
          (s.setTime { s.time with freq := freq, slew := s.time.slew + c }).fset MPT_FREQ.FREQ 0 freq
        else s
      s.srcState st')

/-- An expected crossing does not come. -/
def execCrossingMissing (s : State) : Res := .next s.crossMissing

/-- HOLD_CYCLES cycles have passed in HOLDOVER: the source becomes NOMINAL, and follows the selected grid domain where that is usable (R51). -/
def execHoldoverExpiry (s : State) : Res :=
  .next (if s.fget MPT_SRC.STATE = 3 ∧ s.centre = false ∧ s.time.held ≥ s.fget MPT_CFG.HOLD_CYCLES * 65536 then
      (s.setTime { s.time with follow := true }).srcState 4
    else s)

/-- A VB (1) or VC (2) crossing (R54): its lag, or that it is not valid. -/
def execPhaseCrossingBc (phase : Nat) (valid : Bool) (lag : Nat) (s : State) : Res :=
  .next (if s.centre ∨ (phase ≠ 1 ∧ phase ≠ 2) then s
    else
      let ok := if phase = 1 then MPT_SRC.PH_B_OK else MPT_SRC.PH_C_OK
      if valid = false then s.phaseOk ok false
      else
        let s := (s.phaseOk ok true).fset (if phase = 1 then MPT_PH_B.OFFSET else MPT_PH_C.OFFSET) 0 lag
        if phase ≠ 1 then s
        else
          let rot := b2n (decide (phaseDist lag 0xAAAB < phaseDist lag 0x5555))
          if s.fget MPT_SRC.ROTATION = rot then s else (s.fset MPT_SRC.ROTATION 0 rot).signal 452 [])

/-- MPT_LOAD_LO (R55). -/
def execMptLoadLo (host value : Nat) (s : State) : Res :=
  .next (s.gate host .mpt 0x20 (fun s =>
    if s.fbit MPT_SRC.LOADED ∨ s.centre then s.errAt MPT_ERR.LOAD_LATE 0x20
    else s.setTime { s.time with load := some (s.fget MPT_LOAD_HI.CYCLE_HI * 2 ^ 32 + value % 2 ^ 32) }))

/-- The next phase 0x0000 with a load waiting (R55). -/
def execCycleCountLoad (s : State) : Res :=
  .next (match s.time.load with
    | none => s
    | some c => ((s.setTime { s.time with mpt := c * 65536, frac := 0, load := none }).fset MPT_SRC.LOADED 0 1).baseStepped 0)

/-! ### The centre role's mains-phase time (R56, R57, R566) -/

/-- The nominal frequency. -/
def State.nominal (s : State) : Nat := if s.fbit MPT_CFG.NOMINAL_60 then 60 else 50

/-- The computed value of mains-phase time: floor(T · f · 65,536). -/
def State.mptComputed (s : State) : Nat := s.gtNs (s.fget MPT_GRID_SEL.DOMAIN) * s.nominal * 65536 / 10 ^ 9

/-- An event of R56: mains-phase time steps up to the computed value, or holds under R57. -/
def State.centreStep (s : State) : State :=
  if s.centre = false ∨ s.fget (gtSt (s.fget MPT_GRID_SEL.DOMAIN)) = 0 then s
  else
    let v := s.mptComputed
    let s := s.setTime { s.time with left := true }
    if v > s.time.mpt then (s.setTime { s.time with mpt := v, frac := 0 }).baseStepped 0 else s

/-- A write of MPT_CFG that changes NOMINAL_60 (R566). -/
def execNominal60Change (host value : Nat) (s : State) : Res :=
  .next (s.gate host .mpt 0x10 (fun s =>
    let was := s.fget MPT_CFG.NOMINAL_60
    let s := (s.writeReg host .mpt 0 0x10 0 value).2
    if s.fget MPT_CFG.NOMINAL_60 = was then s else s.centreStep))

/-! ### Grid time (R58 to R63) -/

/-- A PPS pulse of a domain ends (R562). -/
def State.ppsEnd (s : State) (d : Nat) : State :=
  if nbit s.time.pps d then (s.setTime { s.time with pps := nsetBit s.time.pps d false }).emit (.pin 3 d 0) else s

/-- A domain changes state: event 449 or 450; units it releases are late if their target has passed (R58, R69, R70). -/
def State.gtState (s : State) (d v : Nat) : State :=
  let old := s.fget (gtSt d)
  if old = v then s
  else
    let s := (s.fset (gtSt d) 0 v).signal (449 + d) (leB 1 v ++ leB 1 old)
    let s := if v = 1 ∨ v = 2 then s else s.ppsEnd d
    let s := if (old = 0 ∨ old = 3) ∧ (v = 1 ∨ v = 2) then
        (List.range 64).foldl (fun s u =>
          if s.fget MPT_CMP_STAT.STATE u = 2 ∧ s.cmpBase u = 1 + d ∧ s.cmpDiff (1 + d) (s.cmp u).next ≤ 0 then s.setCmp u { s.cmp u with late := true } else s) s
      else s
    if s.fget MPT_GRID_SEL.DOMAIN = d then s.calUpdate else s

/-- Offset of GTn_CMD, and the base of a domain's registers. -/
def gtOff (d off : Nat) : Nat := off + 0x40 * d

/-- GTn_CMD.INVALIDATE. -/
def State.invalidate (s : State) (d : Nat) : State := ((s.fset (gtUsed d) 0 0).gtState d 0).inkRec 0x30 0 (leB 1 d)

/-- Add nanoseconds to a domain's clock. -/
def State.gtAdd (s : State) (d : Nat) (ns : Int) : State :=
  let v := ((s.gtNs d : Int) + ns) % ((2 ^ 48 * 10 ^ 9 : Nat) : Int)
  let g : Nat × Nat := (v.toNat / 10 ^ 9, v.toNat % 10 ^ 9)
  if d = 0 then s.setTime { s.time with gt0 := { s.time.gt0 with now := g } } else s.setTime { s.time with gt1 := { s.time.gt1 with now := g } }

/-- GTn_CMD.STEP (R59, R74). -/
def State.gtStep (s : State) (d : Nat) : State :=
  let st := s.fget (gtSt d)
  if s.fbit (gtUsed d) ∨ (st ≠ 0 ∧ st ≠ 2) then s.errAt MPT_ERR.STEP_USED (gtOff d 0x9C)
  else
    let ofs := if d = 0 then s.get64 GT0_STEP_LO.OFS_LO GT0_STEP_HI.OFS_HI else s.get64 GT1_STEP_LO.OFS_LO GT1_STEP_HI.OFS_HI
    let s := s.ppsEnd d
    let s := (((s.gtAdd d (sval 64 ofs)).fset (gtUsed d) 0 1).fset (gtAge d) 0 0).gtState d 1
    let s := s.baseStepped (1 + d)
    if s.fget MPT_GRID_SEL.DOMAIN = d then s.centreStep else s

/-- GTn_CMD.CONFIRM (R60). -/
def State.gtConfirm (s : State) (d : Nat) : State :=
  if s.fget (gtSt d) = 0 then s
  else
    let ofs := sval 32 (s.fget (if d = 0 then GT0_CONFIRM_OFS.OFS else GT1_CONFIRM_OFS.OFS))
    let tol := s.fget (if d = 0 then GT0_TOL.TOL else GT1_TOL.TOL)
    if ofs.natAbs ≤ tol then (s.fset (gtAge d) 0 0).gtState d 1 else s.fsat (if d = 0 then GT0_CONF_REJ.COUNT else GT1_CONF_REJ.COUNT) 0

/-- A command of GTn_CMD. -/
def State.gtCmd (s : State) (host domain : Nat) (f : State → State) : State :=
  if domain > 1 then s else s.gate host .mpt (gtOff domain 0x9C) f

/-- INVALIDATE. -/
def execInvalidate (host domain : Nat) (s : State) : Res := .next (s.gtCmd host domain (fun s => s.invalidate domain))

/-- STEP. -/
def execStep (host domain : Nat) (s : State) : Res := .next (s.gtCmd host domain (fun s => s.gtStep domain))

/-- CONFIRM. -/
def execConfirm (host domain : Nat) (s : State) : Res := .next (s.gtCmd host domain (fun s => s.gtConfirm domain))

/-- CONFIRM_WIN and HOLD_LIMIT of a domain. -/
def gtWin (d : Nat) : Fld := if d = 0 then GT0_CFG.CONFIRM_WIN else GT1_CFG.CONFIRM_WIN
def gtLimit (d : Nat) : Fld := if d = 0 then GT0_CFG.HOLD_LIMIT else GT1_CFG.HOLD_LIMIT

/-- No CONFIRM was accepted for CONFIRM_WIN seconds (R58). -/
def execConfirmWinExpiry (domain : Nat) (s : State) : Res :=
  .next (if domain ≤ 1 ∧ s.fget (gtSt domain) = 1 ∧ s.fget (gtAge domain) ≥ s.fget (gtWin domain) then s.gtState domain 2 else s)

/-- AGE reaches HOLD_LIMIT (R58). -/
def execHoldLimitExpiry (domain : Nat) (s : State) : Res :=
  .next (if domain ≤ 1 ∧ s.fget (gtSt domain) = 2 ∧ s.fget (gtAge domain) ≥ s.fget (gtLimit domain) then s.gtState domain 3 else s)

/-- GTn_TRIM (R61). -/
def execGtTrimWrite (host domain value : Nat) (s : State) : Res :=
  .next (if domain > 1 then s
    else s.gate host .mpt (gtOff domain 0x90) (fun s =>
      if (sval 32 value).natAbs > 2147483 then s.errAt MPT_ERR.TRIM_RANGE (gtOff domain 0x90)
      else s.fset (if domain = 0 then GT0_TRIM.TRIM else GT1_TRIM.TRIM) 0 value))

/-- MPT_GRID_SEL (R62). -/
def execGridSelWrite (host value : Nat) (s : State) : Res :=
  .next (s.gate host .mpt 0x30 (fun s =>
    let d := value % 2
    if d = s.fget MPT_GRID_SEL.DOMAIN then s.fset MPT_GRID_SEL.TOL_US 0 (nbits value 31 16)
    else if s.fget (gtSt d) ≠ 1 ∨ ((s.gtNs 0 : Int) - (s.gtNs 1 : Int)).natAbs > s.fget MPT_GRID_SEL.TOL_US * 1000 then s.errAt MPT_ERR.DOMAIN_SW 0x30
    else (((s.fset MPT_GRID_SEL.DOMAIN 0 d).fset MPT_GRID_SEL.TOL_US 0 (nbits value 31 16)).calUpdate).centreStep))

/-! ### Snapshots (R75) -/

/-- MPT_SNAP_CMD.TAKE. -/
def execSnapTake (host value : Nat) (s : State) : Res :=
  .next (s.gate host .mpt 0x50 (fun s =>
    if nbit value 0 = false then s
    else
      let g := s.gridNow
      let s := (s.fset MPT_SNAP_MPT_LO.TIME_LO host s.time.mpt).fset MPT_SNAP_MPT_HI.TIME_HI host (s.time.mpt / 2 ^ 32)
      let s := (s.fset MPT_SNAP_GT_NS.NS host g.2).fset MPT_SNAP_GT_SEC_LO.SEC_LO host g.1
      (s.fset MPT_SNAP_GT_SEC_HI.SEC_HI host (g.1 / 2 ^ 32)).fset MPT_SNAP_OPSEC.SECONDS host (s.fget MPT_OPSEC.SECONDS)))

/-! ### The passage of one powered second -/

/-- A grid domain's clock after one second at the local rate corrected by its trim (R61). -/
def GridDom.second (g : GridDom) (trim : Int) : GridDom :=
  let x : Int := (g.frac : Int) + 10 ^ 9 * (2 ^ 32 + trim)
  let ns := g.now.2 + (x / 2 ^ 32).toNat
  { now := ((g.now.1 + ns / 10 ^ 9) % 2 ^ 48, ns % 10 ^ 9), frac := (x % 2 ^ 32).toNat }

/-- A value held between two bounds. -/
def clampInt (m v : Int) : Int := if v > m then m else if v < -m then -m else v

/-- Mains-phase time after one second (R49, R51, R52, R56): in the centre role, which a warm reset leaves in MPT_SRC.STATE, the computed value
where it is ahead; otherwise the rate of the source, with pending corrections made, at most MAX_PU for each cycle of the second. A frequency in mHz
moves it freq · 65.536 pu a second. -/
def State.mptSecond (s : State) : State :=
  let sel := s.fget MPT_GRID_SEL.DOMAIN
  let derived : Bool := s.centre || s.fget MPT_SRC.STATE == 5
  if derived ∧ s.fget (gtSt sel) ≠ 0 then s.setTime { s.time with mpt := max s.time.mpt s.mptComputed, frac := 0, left := true }
  else
    let f := if derived ∨ s.fget MPT_SRC.STATE = 4 then s.nominal * 1000 else s.time.freq
    let trim : Int := if derived = false ∧ s.fget MPT_SRC.STATE = 4 ∧ s.time.follow ∧ (s.fget (gtSt sel) = 1 ∨ s.fget (gtSt sel) = 2)
      then sval 32 (s.fget (if sel = 0 then GT0_TRIM.TRIM else GT1_TRIM.TRIM)) else 0
    let x : Int := (s.time.frac : Int) + (f : Int) * 65536 + (f : Int) * 65536 * trim / 2 ^ 32
    let c : Int := if derived then 0 else clampInt (s.fget MPT_SLEW.MAX_PU * (f / 1000) : Nat) s.time.slew
    let adv := (x / 1000 + c).toNat
    s.setTime { s.time with mpt := (s.time.mpt + adv) % 2 ^ 64, frac := (x % 1000).toNat, slew := if derived then 0 else s.time.slew - c,
                            held := if s.fget MPT_SRC.STATE = 3 then s.time.held + adv else s.time.held }

/-- The time bases after one powered second (R58, R64): the clocks, AGE of each domain (in INVALID too, log entry 106). -/
def State.timeSecond (s : State) : State :=
  let s := s.fsat MPT_OPSEC.SECONDS 0
  let s := s.setTime { s.time with gt0 := s.time.gt0.second (sval 32 (s.fget GT0_TRIM.TRIM)), gt1 := s.time.gt1.second (sval 32 (s.fget GT1_TRIM.TRIM)) }
  ((s.fsat (gtAge 0) 0).fsat (gtAge 1) 0).mptSecond

end Sys2Proof.Machine
end

