-- ==== Sys2Proof/Machine/Eth.lean ====
section
/-! DEFINITION. The Ethernet ports: lifecycle, forwarding table, PTP messages and PRP (R468 to R472, R491, R492). -/
namespace Sys2Proof.Machine
open Reg

/-- Store the Ethernet record. -/
def State.setEth (s : State) (e : EthS) : State := { s with eth := e }

/-! ### Ports (R468, R492) -/

/-- ETH_P_CTRL.ENABLE (R29). -/
def execEthPortEnable (host value : Nat) (s : State) : Res :=
  .next (s.gateW host .eth 0 0x1100 (fun p s => s.enableWrite lifePort p (nbit value 0) (fun s => s.turnOn lifePort p) id))

/-- A link comes up at a speed, or goes down (R492). -/
def execEthLinkChange (port : Nat) (up : Bool) (speed : Nat) (s : State) : Res :=
  .next (if port ≥ 3 then s
    else
      let s := s.fset ETH_P_STAT.LINK port (b2n up)
      let s := if up then s.fset ETH_P_STAT.SPEED_NOW port speed else s
      s.signal 456 (leB 1 port))

/-- A port's counters. -/
def portCounters : List Fld :=
  [ETH_P_RXOK.COUNT, ETH_P_RXERR.COUNT, ETH_P_RXDROP.COUNT, ETH_P_TXOK.COUNT, ETH_P_PAUSE.COUNT, ETH_P_PTP.COUNT]

/-- ETH_P_CMD.CLR. -/
def execEthPClr (host value : Nat) (s : State) : Res :=
  .next (s.gateW host .eth 0 0x1128 (fun p s => if nbit value 0 then portCounters.foldl (fun s f => s.fset f p 0) s else s))

/-! ### The forwarding table (R470, R246 to R250) -/

/-- Store the forwarding table; ENTRIES counts its valid entries. -/
def State.setFdb (s : State) (k : HTab) : State := (s.setEth { s.eth with fdb := k }).fset ETH_FDB_CFG.ENTRIES 0 k.ents.length

/-- The key of an address and VLAN ID. -/
def fdbKey (mac : List Byte) (vlan : Nat) : Nat := ofLe (mac.take 6) + vlan * 2 ^ 48

/-- The set of a key. -/
def State.fdbSet (s : State) (key : Nat) : Nat := Config.bucketHash s.eth.fdb.salt key 32 0 % 1024

/-- Entries of a set whose parity fails on this read (R250); the table has no number and no counter of its own (log entry 41). -/
def State.fdbParity (s : State) (set : Nat) (ways : List Nat) : State :=
  let k := s.eth.fdb
  let hit := k.ents.filter (fun e => e.bucket == set && ways.contains e.way && !e.bad)
  let ents := (k.ents.filter (fun e => !(hit.contains e && !e.isStatic))).map (fun e => if hit.contains e then { e with bad := true } else e)
  hit.foldl (fun s _ => let (b, s) := s.draw 2; s.signal 21 (b ++ leB 2 set)) (s.setFdb { k with ents := ents })

/-- Insert into a set (R248): lowest free way, else a random dynamic entry is evicted. -/
def State.fdbInsert (s : State) (set key value : Nat) (isStatic : Bool) : Nat × State :=
  let k := s.eth.fdb
  let here := k.ents.filter (fun e => e.bucket == set)
  let st := (here.filter (·.isStatic)).length
  if st = 4 ∨ (isStatic ∧ st ≥ 3) then (0x24, s)
  else
    let new := fun w : Nat => ({ key := key, value := value, isStatic := isStatic, hit := true, bucket := set, way := w } : TblEnt)
    match (List.range 4).find? (fun w => !here.any (fun e => e.way == w)) with
    | some w => (0, s.setFdb { k with ents := k.ents ++ [new w] })
    | none =>
      let dyn := here.filter (fun e => !e.isStatic)
      let (n, s) := s.drawNat dyn.length
      match dyn[n]? with
      | none => (0x24, s)
      | some v => (0x31, s.setFdb { k with ents := (k.ents.filter (fun e => !(e.bucket == set && e.way == v.way))) ++ [new v.way] })

/-- An operation of R247: 0 LOOKUP, 1 LEARN, 3 INSERT_STATIC, 4 DELETE. `bad` lists the ways of the key's set whose parity fails on this
read. Answers the status and the entry found before it. -/
def State.fdbOp (s : State) (op key value : Nat) (bad : List Nat) : Nat × Option TblEnt × State :=
  let set := s.fdbSet key
  let had := s.eth.fdb.ents.any (fun e => e.bucket == set && (e.bad || bad.contains e.way))
  let s := s.fdbParity set bad
  let s := if op = 3 ∨ op = 4 then s.setFdb { s.eth.fdb with ents := s.eth.fdb.ents.filter (fun e => !(e.bucket == set && e.bad)) } else s
  let upd := fun (f : TblEnt → TblEnt) => s.setFdb { s.eth.fdb with ents := s.eth.fdb.ents.map (fun e => if e.key = key ∧ e.bad = false then f e else e) }
  match s.eth.fdb.ents.find? (fun e => e.key == key && !e.bad) with
  | some e =>
    match op with
    | 0 => (0, some e, if e.isStatic then s else upd (fun e => { e with hit := true }))
    | 3 =>
      let st := (s.eth.fdb.ents.filter (fun x => x.bucket == set && x.isStatic)).length
      if e.isStatic = false ∧ st ≥ 3 then (0x24, some e, s) else (0, some e, upd (fun e => { e with isStatic := true, value := value }))
    | 4 => (0, some e, s.setFdb { s.eth.fdb with ents := s.eth.fdb.ents.filter (fun x => !(x.key == key && !x.bad)) })
    | _ => (0, some e, if e.isStatic then s else upd (fun e => { e with value := value, hit := true, age := 0 }))
  | none =>
    let (st, s) := if op = 0 ∨ op = 4 then (0, s) else s.fdbInsert set key value (op = 3)
    (if had ∧ (st = 0 ∨ st = 0x31) then 0x32 else st, none, s)

/-- The sweeper's visits of one powered second (R249, R470): the sets whose share of the period this second is. -/
def State.fdbSweep (s : State) (sec : Nat) : State :=
  let p := s.fget ETH_FDB_CFG.SWEEP_S
  if p = 0 ∨ s.fget ETH_CFG.MODE ≠ 1 then s
  else
    s.setFdb { s.eth.fdb with ents := s.eth.fdb.ents.filterMap (fun e =>
      if e.isStatic ∨ e.bucket * p / 1024 ≠ sec % p then some e
      else if e.hit then some { e with hit := false, age := 0 }
      else if e.age ≥ 1 then none
      else some { e with age := e.age + 1 }) }

/-- An ETH_FDB_CMD write with one OP: the result of an operation on the host's key goes to ETH_FDB_RES; a refused one sets ETH_ERR.FDB. -/
def State.fdbCmd (s : State) (host value op : Nat) (bad : List Nat) : State :=
  s.gate host .eth 0x50 (fun s =>
    if value % 8 ≠ op then s
    else
      let key := s.fget ETH_FDB_KEY_LO.MAC_LO host + s.fget ETH_FDB_KEY_HI.MAC_HI host * 2 ^ 32 + s.fget ETH_FDB_KEY_HI.VLAN host * 2 ^ 48
      let o := if op = 1 then 0 else if op = 2 then 3 else 4
      let (st, e, s) := s.fdbOp o key (s.fget ETH_FDB_VAL.PORTS host) bad
      let s := (s.fset ETH_FDB_RES.STATUS 0 st).fset ETH_FDB_RES.HIT 0 (b2n e.isSome)
      let s := s.fset ETH_FDB_RES.STATIC 0 (match e with | some e => b2n e.isStatic | none => 0)
      let s := match op, e with
        | 1, some e => s.fset ETH_FDB_VAL.PORTS host e.value
        | _, _ => s
      if st = 0x23 ∨ st = 0x24 then s.errAt ETH_ERR.FDB 0x50 else s)

/-- LOOKUP: the value found is left in ETH_FDB_VAL. -/
def execFdbLookup (host value : Nat) (bad : List Nat) (s : State) : Res := .next (s.fdbCmd host value 1 bad)

/-- INSERT_STATIC. -/
def execFdbInsertStatic (host value : Nat) (bad : List Nat) (s : State) : Res := .next (s.fdbCmd host value 2 bad)

/-- DELETE. -/
def execFdbDelete (host value : Nat) (bad : List Nat) (s : State) : Res := .next (s.fdbCmd host value 3 bad)

/-- FLUSH_DYNAMIC. -/
def execFlushDynamic (host value : Nat) (s : State) : Res :=
  .next (s.gate host .eth 0x50 (fun s =>
    if value % 8 ≠ 4 then s
    else
      let s := s.setFdb { s.eth.fdb with ents := s.eth.fdb.ents.filter (·.isStatic) }
      ((s.fset ETH_FDB_RES.STATUS 0 0).fset ETH_FDB_RES.HIT 0 0).fset ETH_FDB_RES.STATIC 0 0))

/-! ### PTP (R471); message layouts are those of IEEE 1588-2019 (log entry 6) -/

/-- A PTP message of a frame, and where it starts: EtherType 0x88F7, or UDP port 319 or 320 over IPv4. -/
def ptpOf (f : List Byte) : Option Nat :=
  let o := ethOff f
  if ethType f = 0x88F7 then some o
  else
    let ihl := (byteAt f o).toNat % 16 * 4
    if ethType f = 0x0800 ∧ (byteAt f o).toNat / 16 = 4 ∧ byteAt f (o + 9) = 17 ∧ [319, 320].contains (ofBe (slice f (o + ihl + 2) 2)) then some (o + ihl + 8)
    else none

/-- A message's type; types 0 to 3 are event messages. -/
def ptpType (m : List Byte) : Nat := (byteAt m 0).toNat % 16

/-- The message of a frame, cut to its messageLength. -/
def ptpMsg (f : List Byte) (o : Nat) : List Byte := let m := f.drop o; m.take (ofBe (slice m 2 2))

/-- The time of a port's grid domain in nanoseconds. -/
def State.portTime (s : State) (p : Nat) : Nat := s.gtNs (s.fget ETH_P_CFG.GT p)

/-- Write a message to the PTP area: the next of 256 slots, header and message, event 457 with the slot and SEQ. -/
def State.ptpSlot (s : State) (p : Nat) (sent : Bool) (ns : Nat) (m : List Byte) : State :=
  let k := s.eth.slot
  let q := s.eth.ptpSeq
  let base := s.fget ETH_PTP_LO.BASE_LO * 65536 + s.fget ETH_PTP_HI.BASE_HI * 2 ^ 32
  let hdr := leB 4 q ++ leB 2 m.length ++ leB 1 (p + (if sent then 128 else 0)) ++ [0] ++ leB 6 (ns / 10 ^ 9) ++ [0, 0] ++ leB 4 (ns % 10 ^ 9) ++ leB 4 0
  let s := s.setEth { s.eth with slot := (k + 1) % 256, ptpSeq := (q + 1) % 2 ^ 32 }
  ((s.mwrite (base + 256 * k) (hdr ++ m.take 232)).fsat ETH_P_PTP.COUNT p).signal 457 (leB 1 k ++ leB 3 0 ++ leB 4 q)

/-- clockIdentity of the device and its port number. -/
def State.ptpIdent (s : State) (p : Nat) : List Byte := let m := s.ownMac; m.take 3 ++ [0xFF, 0xFE] ++ m.drop 3 ++ beB 2 (p + 1)

/-- A message header: type, length, correction field, sequence number, control field. -/
def State.ptpHeader (s : State) (p typ dom len : Nat) (corr : List Byte) (seq ctl : Nat) : List Byte :=
  leB 1 typ ++ [0x12] ++ beB 2 len ++ leB 1 dom ++ [0, 0, 0] ++ fit 8 corr ++ leB 4 0 ++ s.ptpIdent p ++ beB 2 seq ++ leB 1 ctl ++ [0x7F]

/-- A timestamp in PTP form. -/
def ptpTime (ns : Nat) : List Byte := beB 6 (ns / 10 ^ 9) ++ beB 4 (ns % 10 ^ 9)

/-- Send an event message in an IEEE 802.3 frame and log it. -/
def State.ptpSend (s : State) (p : Nat) (dst : List Byte) (m : List Byte) : State :=
  let t := s.portTime p + s.fget ETH_P_LAT.TX p
  (s.ethTx p (fit 60 (dst ++ s.ownMac ++ [0x88, 0xF7] ++ m))).ptpSlot p true t m

/-- The destination of peer delay messages, and of the others. -/
def ptpPeerMac : List Byte := [0x01, 0x80, 0xC2, 0x00, 0x00, 0x0E]
def ptpMac : List Byte := [0x01, 0x1B, 0x19, 0x00, 0x00, 0x00]

/-- The port runs a PTP instance. -/
def State.ptpOn (s : State) (p : Nat) : Bool := decide (p < 2) && s.fget ETH_P_STAT.STATE p == 2 && s.fbit ETH_P_CFG.PTP_EN p

/-- Every 2^LOG_REQ s a port sends Delay_Req, or Pdelay_Req in a peer-delay profile, one-step. -/
def execPtpRequestSend (port : Nat) (s : State) : Res :=
  .next (if s.ptpOn port = false then s
    else
      let q := tget 0 s.eth.reqSeq port
      let s := s.setEth { s.eth with reqSeq := tput 0 s.eth.reqSeq port ((q + 1) % 65536) }
      let t := ptpTime (s.portTime port + s.fget ETH_P_LAT.TX port)
      let dom := s.fget ETH_PTP_CFG.DOMAIN
      if s.fget ETH_PTP_CFG.PROFILE = 0 then s.ptpSend port ptpMac (s.ptpHeader port 1 dom 44 [] q 1 ++ t)
      else s.ptpSend port ptpPeerMac (s.ptpHeader port 2 dom 54 [] q 5 ++ t ++ leB 10 0))

/-- The one's-complement checksum of an IPv4 header. -/
def ipSum (h : List Byte) : Nat :=
  let t := (chunks 2 h).foldl (fun a c => a + ofBe c) 0
  65535 - (t % 65536 + t / 65536) % 65535

/-- Pdelay_Resp to a Pdelay_Req, one-step: the turnaround time is added to the correction field, over the transport of the request. The
turnaround, and over UDP the device's IPv4 address, are free (log entry 4). -/
def State.ptpAnswer (s : State) (p : Nat) (f m : List Byte) : State :=
  let (turn, s) := s.drawNat (2 ^ 32)
  let corr := beB 8 (ofBe (slice m 8 8) + turn * 65536)
  let r := s.ptpHeader p 3 (byteAt m 4).toNat 54 corr (ofBe (slice m 30 2)) 5 ++ leB 10 0 ++ slice m 20 10
  if ethType f = 0x88F7 then s.ptpSend p ptpPeerMac r
  else
    let (ip, s) := s.draw 4
    let h := fun c : Nat => [0x45, 0] ++ beB 2 (28 + r.length) ++ beB 2 0 ++ beB 2 0 ++ [1, 17] ++ beB 2 c ++ ip ++ [224, 0, 0, 107]
    let udp := beB 2 319 ++ beB 2 319 ++ beB 2 (8 + r.length) ++ beB 2 0
    let fr := [0x01, 0x00, 0x5E, 0x00, 0x00, 0x6B] ++ s.ownMac ++ [0x08, 0x00] ++ h (ipSum (h 0)) ++ udp ++ r
    (s.ethTx p fr).ptpSlot p true (s.portTime p + s.fget ETH_P_LAT.TX p) r

/-- A PTP message is received: written to the area with its receive time (of a general message the spec states none: free), and a Pdelay_Req
is answered. -/
def State.ptpReceive (s : State) (p : Nat) (f : List Byte) (o : Nat) : State :=
  if s.ptpOn p = false then s
  else
    let m := ptpMsg f o
    let (fr, s) := if ptpType m < 4 then (0, s) else s.drawNat (2 ^ 62)
    let s := s.ptpSlot p false (if ptpType m < 4 then s.portTime p - s.fget ETH_P_LAT.RX p else fr) m
    if ptpType m = 2 then s.ptpAnswer p f m else s

/-- A forwarded event message of the transparent clock: its residence time, and for Sync in a peer-delay profile the arrival link's delay, join
its correction field; both are free (log entry 4). -/
def State.residence (s : State) (f : List Byte) : List Byte × State :=
  match ptpOf f with
  | none => (f, s)
  | some o =>
    if ptpType (f.drop o) ≥ 4 ∨ s.fbit ETH_PTP_CFG.TC_EN = false then (f, s)
    else
      let (t, s) := s.drawNat (2 ^ 40)
      let (l, s) := if ptpType (f.drop o) = 0 ∧ s.fget ETH_PTP_CFG.PROFILE ≠ 0 then s.drawNat (2 ^ 40) else (0, s)
      (splice f (o + 8) (beB 8 (ofBe (slice f (o + 8) 8) + t + l)), s)

/-! ### PRP (R472) -/

/-- The trailer of a frame, if valid: SeqNr and LanId. -/
def prpOf (f : List Byte) : Option (Nat × Nat) :=
  let t := f.drop (f.length - 6)
  let lan := (byteAt t 2).toNat / 16
  if f.length ≥ 66 ∧ slice t 4 2 = [0x88, 0xFB] ∧ (lan = 10 ∨ lan = 11) ∧ ofBe (slice t 2 2) % 4096 = (f.length - ethOff f) % 4096 then some (ofBe (slice t 0 2), lan)
  else none

/-- Store the node table. -/
def State.setNodes (s : State) (l : List PrpNode) : State := (s.setEth { s.eth with nodes := l }).fset ETH_PRP_NODE.NODES 0 l.length

/-- A frame arrives in PRP mode: whether it is accepted. -/
def State.prpReceive (s : State) (p : Nat) (f : List Byte) : Bool × State :=
  match prpOf f with
  | none => (true, s)
  | some (q, lan) =>
    let mac := ofLe (slice f 6 6)
    let wrong := lan != 10 + p
    let mark := fun (s : State) =>
      if wrong then
        let s := s.fsat ETH_PRP_WRONG.COUNT 0
        match s.oncePerSec 459 with
        | (true, s) => s.signal 459 (leB 1 lan)
        | (false, s) => s
      else s
    match s.eth.nodes.find? (fun n => n.mac == mac) with
    | none =>
      if s.eth.nodes.length ≥ 1024 then
        let s := s.fsat ETH_PRP_NOROOM.COUNT 0
        let s := match s.oncePerSec 458 with
          | (true, s) => s.signal 458 []
          | (false, s) => s
        (true, s)
      else (true, mark (s.setNodes (s.eth.nodes ++ [{ mac := mac, seqs := [(q, 0)] }])))
    | some n =>
      let n : PrpNode := if p = 0 then { n with ageA := 0 } else { n with ageB := 0 }
      let dup := n.seqs.any (fun e => e.1 == q && decide (e.2 ≤ s.fget ETH_PRP_CFG.ENTRY_MS))
      let n' : PrpNode := if dup then n else { n with seqs := (q, 0) :: n.seqs.filter (fun e => e.1 != q) }
      let s := s.setNodes (s.eth.nodes.map (fun x => if x.mac = mac then n' else x))
      if dup then (false, s.fsat ETH_PRP_DUP.COUNT 0) else (true, mark s)

/-- Every LIFE_MS supervision frames leave on both LANs (layout of IEC 62439-3, log entry 6). -/
def execPrpSupervision (s : State) : Res :=
  .next (if s.fget ETH_CFG.MODE ≠ 2 then s
    else
      let q := s.eth.supSeq
      let s := s.setEth { s.eth with supSeq := (q + 1) % 65536 }
      s.ethSend 0 ([0x01, 0x15, 0x4E, 0x00, 0x01, 0x00] ++ s.ownMac ++ [0x88, 0xFB] ++ beB 2 1 ++ beB 2 q ++ [20, 6] ++ s.ownMac ++ [0, 0]))

/-- A node unheard for FORGET_S is removed; with `lan`, the node has been silent on that LAN alone for 3 × LIFE_MS. -/
def execPrpNodeForget (node : Nat) (lan : Option Nat) (s : State) : Res :=
  .next (if !s.eth.nodes.any (fun n => n.mac == node) then s
    else match lan with
      | some l => s.signal 459 (leB 6 node ++ leB 1 l)
      | none => s.setNodes (s.eth.nodes.filter (fun n => n.mac != node)))

/-- A second passes for the PRP table. -/
def State.prpSecond (s : State) : State :=
  let w := s.fget ETH_PRP_CFG.ENTRY_MS
  s.setNodes (s.eth.nodes.map (fun n => { n with ageA := n.ageA + 1000, ageB := n.ageB + 1000, seqs := n.seqs.filterMap (fun e => if e.2 + 1000 ≤ w then some (e.1, e.2 + 1000) else none) }))

/-! ### Received frames (R468 to R470) -/

/-- The internal port receives a frame: PTP messages, MRT frames, and whatever is addressed to it. -/
def State.ethInternal (mrt : State → Nat → List Byte → State) (s : State) (p : Nat) (f : List Byte) : State :=
  match ptpOf f with
  | some o => s.ptpReceive p f o
  | none => if ethType f = s.fget RNG_MRT.ETYPE then mrt s p f else s

/-- Frames the internal port receives in every mode (R469). -/
def State.forUs (s : State) (f : List Byte) : Bool :=
  f.take 6 == s.ownMac || f.take 6 == List.replicate 6 0xFF || ethType f == s.fget RNG_MRT.ETYPE || (ptpOf f).isSome

/-- The bridge: the source is learned, the frame goes to its destination's ports or is flooded (R470). -/
def State.bridge (s : State) (p : Nat) (f : List Byte) (badSrc badDst : List Nat) : List Nat × State :=
  let vlan := if ethOff f = 18 then ofBe (slice f 14 2) % 4096 else 0
  let (_, _, s) := s.fdbOp 1 (fdbKey (slice f 6 6) vlan) (2 ^ p) badSrc
  let (st, e, s) := s.fdbOp 0 (fdbKey (f.take 6) vlan) 0 badDst
  let mask := match e with | some e => if st = 0x32 then 7 else e.value | none => 7
  ((List.range 3).filter (fun q => q != p && nbit mask q), s)

/-- A frame is received on a port. `f` starts with the destination address and has no FCS; `ok` says that the FCS was right. -/
def State.ethReceive (mrt pair : State → Nat → List Byte → State) (s : State) (p : Nat) (f : List Byte) (ok : Bool) (badSrc badDst : List Nat) : State :=
  if p ≥ 3 ∨ s.fget ETH_P_STAT.STATE p ≠ 2 then s
  else if ok = false ∨ f.length < 60 ∨ f.length > 9212 then s.fsat ETH_P_RXERR.COUNT p
  else
    let s := s.fsat ETH_P_RXOK.COUNT p
    if ethType f = 0x8808 then s.fsat ETH_P_PAUSE.COUNT p
    else if p = 2 then (if ethType f = s.fget RNG_MRT.ETYPE then pair s p f else s.fsat ETH_P_RXDROP.COUNT p)
    else if s.fget ETH_CFG.MODE = 1 then
      let (out, s) := s.bridge p f badSrc badDst
      let us := s.forUs f || out.contains 2
      let ext := out.filter (· != 2)
      let s := if us then s.ethInternal mrt p f else s
      let (g, s) := if ext.isEmpty then (f, s) else s.residence f
      let s := ext.foldl (fun s q => s.ethTx q g) s
      if us = false ∧ ext.isEmpty then s.fsat ETH_P_RXDROP.COUNT p else s
    else if s.fget ETH_CFG.MODE = 2 then
      let (acc, s) := s.prpReceive p f
      let g := if (prpOf f).isSome then f.take (f.length - 6) else f
      if acc = false then s
      else if s.forUs g then s.ethInternal mrt p g else s.fsat ETH_P_RXDROP.COUNT p
    else if s.forUs f then s.ethInternal mrt p f else s.fsat ETH_P_RXDROP.COUNT p

end Sys2Proof.Machine
end

