-- ==== Sys2Proof/Machine/Pair.lean ====
section
/-! DEFINITION. The active/standby pair: the claim, heartbeats, takeover, resynchronisation (R143, R473 to R481). -/
namespace Sys2Proof.Machine
open Reg

/-- Store the pair record. -/
def State.setPairS (s : State) (p : PairS) : State := { s with pair := p }

/-- The pair state's code (R477). -/
def State.pairState (s : State) : Nat := s.fget RES_PAIR_STAT.STATE

/-- A pair session is open. -/
def State.pairOpen (s : State) : Bool := (s.host pairHost).mrt.isOpen

/-- The partner's last heartbeat shows ACTIVE. -/
def State.partnerActive (s : State) : Bool := s.pair.heard && s.fget RES_PAIR_STAT.PARTNER_STATE == 4

/-- The partner's last heartbeat shows CLAIMING or ACTIVE. -/
def State.partnerClaims (s : State) : Bool := s.pair.heard && [3, 4].contains (s.fget RES_PAIR_STAT.PARTNER_STATE)

/-- Units that found equal UNIT values never claim while the link is up (R473). -/
def State.claimBarred (s : State) : Bool := s.pair.sameUnit && s.pairOpen

/-- A claim conflict: RES_ERR.CONFLICT and event 42. -/
def State.conflict (s : State) : State := (s.errSet [RES_ERR.CONFLICT] (fun s => s)).signal 42 []

/-- The mode after the claim is lost or released: STANDBY from a role mode or DEGRADED, whose timer stops (R517). -/
def State.standbyMode (s : State) : State :=
  if roleModes.contains s.mode ∨ s.mode = 8 then ({ s with pow := { s.pow with timer := false } } : State).setMode 4 else s

/-- Every tenant's sync state falls to NONE (R481). -/
def State.syncNone (s : State) : State :=
  let s := s.setPairS { s.pair with copied := 0 }
  s.partnerTenants.foldl (fun s t => s.setSync t 0) (s.fset RES_SYNC_MIB.MIB 0 0)

/-- A unit becomes STANDBY: conditions of an earlier standby are forgotten. -/
def State.toStandby (s : State) : State :=
  ((s.setPairS { s.pair with notice := false, take := false, refusedSig := false }).setPair 2).standbyMode

/-! ### Takeover (R478) -/

/-- Condition 1 of R478. -/
def State.takeCond (s : State) : Bool :=
  !s.fbit RES_PAIR_STAT.CLAIM_IN && (s.pair.notice || (s.pair.heard && !s.partnerClaims) || s.pair.hbMissing)

/-- Tenants whose copy this unit lacks are rebuilt under R148 after a TAKE. -/
def State.takeRebuild (s : State) : State :=
  if s.pair.partnerSynced then s
  else
    (s.partnerTenants.foldl (fun s t => s.rebuildStart t) s).rebuildBusy

/-- A STANDBY unit takes over once both conditions hold; while only the first does, the refusal is signalled once. -/
def State.takeover (s : State) : State :=
  if s.pairState ≠ 2 then s
  else if s.takeCond = false ∨ s.claimBarred then s.setPairS { s.pair with refusedSig := false }
  else if (s.pair.partnerSynced ∨ s.pair.take) ∧ s.pair.faulty = false then
    let s := s.fadd RES_PAIR_STAT.TAKEOVERS 0
    (s.takeRebuild.setPair 3).signal 36 [0]
  else if s.pair.refusedSig then s
  else ((s.setPairS { s.pair with refusedSig := true }).errSet [RES_ERR.UNSYNCED] (fun s => s)).signal 36 [1]

/-! ### The claim lines (R474, R475, R477) -/

/-- An edge on CLAIM_IN: asserted, GRANT falls, and the pair state follows R477. -/
def execClaimInEdge (s : State) : Res :=
  .next (if s.fbit RES_PAIR_STAT.CLAIM_IN then s
    else
      let s := (s.fset RES_PAIR_STAT.CLAIM_IN 0 1).grantUpdate
      let unit := s.fget RES_PAIR_CFG.UNIT
      match s.pairState with
      | 1 => if s.partnerActive then s.toStandby else s
      | 3 => if unit = 1 then s.setPair 1 else s
      | 4 => if unit = 1 then ((s.setPair 1).standbyMode.syncNone).signal 42 [] else s.signal 42 []
      | _ => s)

/-- 25 µs pass without an edge. -/
def execClaimInRelease (s : State) : Res := .next ((s.fset RES_PAIR_STAT.CLAIM_IN 0 0).grantUpdate.takeover)

/-- The safety sequencer's refresh has been missing for 1 ms: CLAIM_OUT stops toggling. -/
def execClaimRefreshMissing (s : State) : Res :=
  .next (if s.fbit RES_PAIR_STAT.CLAIM_OUT then (s.fset RES_PAIR_STAT.CLAIM_OUT 0 0).emit (.pin 7 0 0) else s)

/-- A refresh arrives: a unit that claims toggles CLAIM_OUT. -/
def State.claimRefresh (s : State) : State :=
  if (s.pairState = 3 ∨ s.pairState = 4) ∧ s.fbit RES_PAIR_STAT.CLAIM_OUT = false then (s.fset RES_PAIR_STAT.CLAIM_OUT 0 1).emit (.pin 7 0 1) else s

/-- LISTEN_MS pass in LISTEN with CLAIM_IN not asserted and no heartbeat showing a partner ACTIVE or CLAIMING. -/
def execListenTimeout (s : State) : Res :=
  .next (if s.pairState = 1 ∧ s.fbit RES_PAIR_STAT.CLAIM_IN = false ∧ (s.partnerClaims && !s.pair.hbMissing) = false ∧ s.claimBarred = false then s.setPair 3 else s)

/-- Functions with RESTART MANUAL start LATCHED (R503, R505). -/
def State.safLatch (s : State) : State :=
  s.fset SAF_STAT.LATCHED 0 ((List.range 8).foldl (fun a f => if s.fbit SAF_FN.EN f ∧ s.fbit SAF_FN.RESTART f then nsetBit a f true else a) (s.fget SAF_STAT.LATCHED))

/-- 50 µs pass in CLAIMING with CLAIM_IN not asserted: ACTIVE, GRANT, the role mode. -/
def execClaimSettle (s : State) : Res :=
  .next (if s.pairState = 3 ∧ s.fbit RES_PAIR_STAT.CLAIM_IN = false ∧ s.claimBarred = false then
      let s := if s.fget SAF_STAT.STATE = 1 ∨ s.fget SAF_STAT.STATE = 2 then s.safLatch else s
      let s := (s.setPair 4).syncNone
      if s.mode = 4 then s.setMode s.roleMode else s
    else s)

/-- The partner shows ACTIVE while CLAIM_IN has stayed not asserted for 1 ms. -/
def execConflictDetect (s : State) : Res :=
  .next (if (s.pairState = 1 ∨ s.pairState = 2) ∧ s.partnerActive ∧ s.pair.hbMissing = false ∧ s.fbit RES_PAIR_STAT.CLAIM_IN = false then (s.setPair 6).conflict else s)

/-- CLAIM_IN and the heartbeat have agreed for 10 ms. -/
def execConflictResolve (s : State) : Res :=
  .next (if s.pairState = 6 ∧ s.fbit RES_PAIR_STAT.CLAIM_IN = s.partnerClaims then s.setPair 1 else s)

/-- A RES_CLAIM_CMD write with a bit set: the confirmation value, then the command. -/
def State.claimCmd (s : State) (host value bit : Nat) (f : State → State) : State :=
  s.gate host .res 0x0C (fun s =>
    if nbit value bit = false then s
    else if nbits value 31 16 ≠ 0x434C then s.errAt RES_ERR.CMD 0x0C
    else f s)

/-- RELEASE: a planned release to a synced standby; otherwise refused (R477). -/
def execClaimRelease (host value : Nat) (s : State) : Res :=
  .next (s.claimCmd host value 0 (fun s =>
    if s.pairState = 4 ∧ s.pair.heard ∧ s.fget RES_PAIR_STAT.PARTNER_STATE = 2 ∧ s.pair.partnerSynced then
      ((s.setPair 1).notice 1).standbyMode.syncNone
    else s.errAt RES_ERR.CMD 0x0C))

/-- TAKE: an unsynced takeover is allowed (R478). -/
def execClaimTake (host value : Nat) (s : State) : Res :=
  .next (s.claimCmd host value 1 (fun s => if s.pairState = 2 then (s.setPairS { s.pair with take := true }).takeover else s))

/-! ### Resynchronisation, the active unit's side (R481) -/

/-- A tenant's copy starts: CKPT_BEGIN is journaled; the copy stands for every record before it. Needs room in the journal. -/
def State.copyStart (s : State) (t : Nat) : State :=
  match s.jRoom t 24 with
  | none => s
  | some s =>
    let (s0, s) := s.jAppend t 0x0A 0 (s.fget LDG_T_CKPT.PART t) []
    let s := if s0 > s.ackOf t 1 then s.setAck t 1 s0 else s
    let s := s.clearLost t 1
    (s.setTenJ t { s.tenJ t with syncS0 := s0 }).setSync t 1

/-- Resynchronisation goes on: the next tenant starts where the conditions hold, one tenant at a time. -/
def State.resyncStart (s : State) : State :=
  if s.pairState ≠ 4 ∨ s.pairOpen = false ∨ s.pair.heard = false ∨ s.fget RES_PAIR_STAT.PARTNER_STATE ≠ 2 then s
  else
    let ts := s.partnerTenants
    match ts.find? (fun t => (s.tenJ t).sync == 0) with
    | none => s
    | some t =>
      if s.pair.partnerAbi ≠ s.fget UPD_LEDGER_ABI.ABI then (if s.fbit RES_ERR.ABI then s else s.errSet [RES_ERR.ABI] (fun s => s))
      else if ts.any (fun t => (s.tenJ t).sync == 1 || (s.tenJ t).sync == 2) then s
      else s.copyStart t

/-- One RESYNC item of the copy stream: kind 0 a ledger, 1 a calendar pair, 2 a blob; tenant, index, contents (log entry 42). -/
def resyncItem (kind t index : Nat) (data : List Byte) : List Byte := mrtItem 10 0 0 (leB 1 kind ++ [0] ++ leB 2 t ++ leB 4 index ++ data)

/-- The bytes of a ledger line. -/
def ledBytes (l : Led) : List Byte := (List.range 16).flatMap (sectorBytes l)

/-- A calendar's control word as bytes. -/
def CalCtl.bytes (c : CalCtl) : List Byte := leB 1 (b2n c.activeB) ++ leB 1 (b2n c.activeValid) ++ leB 6 c.passive ++ leB 8 c.calSeq ++ leB 8 c.eff

/-- The items of a tenant's copy stream. -/
def State.copyStream (s : State) (t : Nat) : List (List Byte) :=
  (s.tenLedgers t).map (fun e => resyncItem 0 t e.1 (ledBytes e.2))
    ++ (s.vault.blobs.filter (fun e => s.ownsLedger t e.1)).map (fun e => resyncItem 2 t e.1 (fit 64 e.2))
    ++ (s.tenCals t).map (fun c => resyncItem 1 t c (s.calCopy c false ++ s.calCopy c true ++ (s.cal c).bytes))

/-- A tenant's copy stream ends: it has been sent, and the records from S0 onward follow; where one of them is no longer held the copy restarts. -/
def execResyncStreamEnd (tenant : Nat) (s : State) : Res :=
  .next (let j := s.tenJ tenant
    if j.sync ≠ 1 ∨ s.pairOpen = false then s
    else
      let old := j.nand.filter (fun r => !(j.buf.any (fun x => x.seq == r.seq)))
      let rs := sortBy (fun (r : JRec) => r.seq) ((old ++ j.buf).filter (fun r => decide (r.seq ≥ j.syncS0)))
      if rs.length + j.syncS0 < s.nextSeq tenant then (s.setTenJ tenant { j with sync := 0 }).copyStart tenant
      else
        let items := s.copyStream tenant
        let n := s.pair.copied + items.foldl (fun a i => a + i.length) 0
        let s := (s.setPairS { s.pair with copied := n }).fset RES_SYNC_MIB.MIB 0 (min (n / 2 ^ 20) (2 ^ 32 - 1))
        let s := items.foldl (fun s i => s.mrtData pairHost i) s
        let s := s.setSync tenant 2
        rs.foldl (fun s r => s.mrtData pairHost (mrtItem 9 0 0 r.bytes)) s)

/-- LDG_T_CMD.RESYNC_PTNR (R143, R481): the tenant goes to NONE and is resynchronised. -/
def execResyncPtnr (host : Nat) (s : State) : Res :=
  .next (s.ldgT host 0x1154 (fun t s =>
    if nbit (s.fget LDG_T_SINK.EN t) 1 = false then s
    else ((s.setSync t 0).clearLost t 1).resyncStart))

/-! ### Resynchronisation, the standby unit's side -/

/-- A journal record from its bytes. -/
def recOf (b : List Byte) : JRec := ⟨leAt b 0 8, leAt b 0x0A 1, leAt b 0x10 4 % 2 ^ 21, b.take (leAt b 8 2)⟩

/-- Pair resynchronisation has brought every tenant here, as the partner's SYNCED says: a rebuild that waits for it ends (R148; log entry 112). -/
def State.resynced (s : State) : State :=
  (s.partnerTenants.filter (fun t => s.fbit LDG_T_STAT.REBUILD t)).foldl (fun (s : State) t => s.rebuildEnd t (s.nextSeq t - 1)) s

/-- A JOURNAL item: the standby keeps the record in its own journal and applies it if it is newer than its target. -/
def State.journalTake (s : State) (data : List Byte) : State :=
  let r := recOf data
  let t := leAt data 0x0C 2 % 1024
  if s.pairState ≠ 2 ∨ r.crcOk = false then s
  else if r.seq < s.nextSeq t then s.replayRec t r
  else
    match s.jRoom t r.bytes.length with
    | none => s
    | some s =>
      let j := s.tenJ t
      let s := s.setTenJ t { j with buf := j.buf ++ [r], partial_ := j.partial_ || (s.upSinks t).contains 0 }
      let s := (s.set64 LDG_T_SEQ_LO.SEQ_LO LDG_T_SEQ_HI.SEQ_HI t (r.seq + 1)).jUsage t
      ((s.replayRec t r).pendRefill t).hostFeedAll t

/-- A received JOURNAL item; its acknowledgement goes with the next heartbeat. -/
def execJournal (data : List (BitVec 8)) (s : State) : Res := .next (s.journalTake data)

/-- A RESYNC item: a copied ledger or calendar newer than the unit's own replaces it; a blob is stored. -/
def State.resyncTake (s : State) (d : List Byte) : State :=
  if s.pairState ≠ 2 then s
  else
    let t := leAt d 2 2
    let i := leAt d 4 4
    let c := d.drop 8
    match leAt d 0 1 with
    | 0 =>
      let l : Led := (List.range 128).foldl (fun l k => tput 0 l k (leAt c (8 * k) 8)) []
      if lget l L.LAST_SEQ > lget (s.led i) L.LAST_SEQ then
        let s := if lstate (s.led i) 0 then s.hashRemove (ledTitle (s.led i)) t else s
        (s.setLed i l).rehash t i
      else s
    | 1 =>
      let k := c.drop 8192
      if leAt k 8 8 > (s.cal i).calSeq then
        let s := (s.mwrite (s.calAddr i false) (slice c 0 4096)).mwrite (s.calAddr i true) (slice c 4096 4096)
        (s.setCal i { activeB := leAt k 0 1 != 0, activeValid := leAt k 1 1 != 0, passive := leAt k 2 6, calSeq := leAt k 8 8, eff := leAt k 16 8 }).pendRefill t
      else s
    | 2 => s.putBlob i (fit 64 c)
    | _ => s

/-- A received RESYNC item. -/
def execResync (data : List (BitVec 8)) (s : State) : Res := .next (s.resyncTake data)

/-! ### Heartbeats and notices (R476, R478) -/

/-- Every tenant with PARTNER enabled is SYNCED; a standby repeats what its partner's heartbeat said (log entry 43). -/
def State.allSynced (s : State) : Bool :=
  if s.pairState = 4 then s.partnerTenants.all (fun t => (s.tenJ t).sync == 3) else s.pair.partnerSynced

/-- The body of a heartbeat, and a standby's acknowledgements by tenant (log entry 42). -/
def State.heartbeatBody (s : State) : List Byte :=
  let flags := s.fget RES_PAIR_CFG.UNIT + 2 * s.fget RES_PAIR_STAT.GRANT + 4 * b2n s.allSynced
  leB 1 s.pairState ++ leB 1 s.mode ++ leB 2 flags ++ leB 4 (s.fget UPD_LEDGER_ABI.ABI) ++ leB 8 s.time.mpt
    ++ (if s.pairState = 2 then s.partnerTenants.flatMap (fun t => leB 8 t ++ leB 8 (s.nextSeq t)) else [])

/-- The pair's frame key: that of the slot's secret (R476). -/
def State.pairKey (s : State) (session : Nat) (hn dn : List Byte) : List Byte := mrtKey (s.slotKey (s.fget RES_PAIR_KEY.SLOT)).key 0 session hn dn

/-- HELLO from unit 0, with a fresh nonce. -/
def State.pairHello (s : State) : State :=
  let (n, s) := s.draw 16
  let s := s.setHost pairHost { s.host pairHost with mrt := { hostNonce := n } }
  s.mrtOut pairHost 1 0 0 0 (s.pairKey 0 [] []) n

/-- Every 100 µs: a heartbeat over an open session; without one, unit 0 sends HELLO (log entry 44). -/
def execHeartbeatSend (s : State) : Res :=
  .next (if s.pair.en = false ∨ s.pairState = 0 then s
    else if s.pairOpen then s.mrtData pairHost (mrtItem 8 0 0 s.heartbeatBody)
    else if s.fbit RES_PAIR_CFG.UNIT ∨ s.slotLoaded (s.fget RES_PAIR_KEY.SLOT) = false ∨ s.keysBlocked then s
    else s.pairHello)

/-- Partner found with the same UNIT value. -/
def State.unitClash (s : State) : State := if s.pair.sameUnit then s else (s.setPairS { s.pair with sameUnit := true }).conflict

/-- A heartbeat's contents are taken over; a standby takes SYNCED from an ACTIVE partner only (log entry 43). -/
def State.heartbeatTake (s : State) (b : List Byte) : State :=
  let st := leAt b 0 1 % 8
  let md := leAt b 1 1 % 16
  let fl := leAt b 2 1
  let changed := st != s.fget RES_PAIR_STAT.PARTNER_STATE || md != s.fget RES_PAIR_STAT.PARTNER_MODE
  let s := (s.fset RES_PAIR_STAT.PARTNER_STATE 0 st).fset RES_PAIR_STAT.PARTNER_MODE 0 md
  let synced := if s.pairState = 2 ∧ st ≠ 4 then s.pair.partnerSynced else nbit fl 2
  let s := s.setPairS { s.pair with heard := true, hbMissing := false, partnerGrant := nbit fl 1, partnerSynced := synced, partnerAbi := leAt b 4 4, partnerMpt := leAt b 8 8 }
  let s := if changed then s.signal 35 [] else s
  let s := if synced ∧ s.pairState = 2 then s.resynced else s
  if (fl % 2 == s.fget RES_PAIR_CFG.UNIT) then s.unitClash else s

/-- A received heartbeat drives the pair state (R477, R478, R481). -/
def State.heartbeat (s : State) (b : List Byte) : State :=
  if s.pair.en = false ∨ s.pairState = 0 then s
  else
    let s := s.heartbeatTake b
    let s := if s.pairState = 1 ∧ s.fbit RES_PAIR_STAT.CLAIM_IN ∧ s.partnerActive then s.toStandby else s
    match s.pairState with
    | 2 =>
      let s : State := if s.fbit MPT_SRC.LOADED = false ∧ s.centre = false ∧ s.time.load.isNone ∧ s.partnerActive then
          s.setTime { s.time with load := some (s.pair.partnerMpt / 65536) } else s
      s.takeover
    | 4 =>
      let s := if s.fget RES_PAIR_STAT.PARTNER_STATE = 2 then s else s.syncNone
      let s := (chunks 16 (b.drop 16)).foldl (fun s c => if nbit (s.fget LDG_T_SINK.EN (leAt c 0 2)) 1 then s.jAck (leAt c 0 2) 1 (leAt c 8 8) else s) s
      s.resyncStart
    | _ => s

/-- A received HEARTBEAT item. -/
def execHeartbeat (body : List (BitVec 8)) (s : State) : Res := .next (s.heartbeat body)

/-- A received NOTICE: 1 RELEASE, 2 HOLDUP. -/
def State.noticeTake (s : State) : State := if s.pairState = 2 then (s.setPairS { s.pair with notice := true }).takeover else s

/-- A received NOTICE item. -/
def execNotice (s : State) : Res := .next s.noticeTake

/-- No valid heartbeat for HB_MISS × 100 µs (R478). -/
def execHeartbeatMiss (s : State) : Res :=
  .next (if s.pair.en = false then s else (s.setPairS { s.pair with hbMissing := true }).takeover)

/-- The items of a pair DATA frame, in order. -/
def State.pairItems : State → List Byte → Nat → State
  | s, _, 0 => s
  | s, b, n + 1 =>
    let len := leAt b 6 2
    let d := slice b 8 len
    let s := match leAt b 0 1 with
      | 8 => s.heartbeat d
      | 9 => s.journalTake d
      | 10 => s.resyncTake d
      | 11 => s.noticeTake
      | _ => s
    s.pairItems (b.drop (8 + (len + 7) / 8 * 8)) n

end Sys2Proof.Machine
end

