-- ==== Sys2Proof/Machine/Reservoir.lean ====
section
/-! DEFINITION. The Reservoir and HOLDUP (R120, R386, R452, R484 to R488, R520, R523). -/
namespace Sys2Proof.Machine
open Reg

/-- Store the power record. -/
def State.setPow (s : State) (p : PowS) : State := { s with pow := p }

/-! ### Energy and cost (R484 to R486) -/

/-- The capacitance in 0.1 µF: the lower of C_MEAS and C_NOM; C_NOM until a test has completed. -/
def State.capNow (s : State) : Nat :=
  let n := 10 * s.fget RES_HU_CAP.C_NOM
  if s.fbit RES_C_MEAS.VALID then min (s.fget RES_C_MEAS.C) n else n

/-- E_AVAIL in µJ: voltages in 10 mV, capacitance in 0.1 µF, so the divisor is 10 · 100 · 100 · 10,000 · 2. -/
def State.eAvail (s : State) : Nat :=
  let v := min (s.fget RES_V_NOW.V) (10 * s.fget RES_HU_CFG.V_PF)
  let m := 10 * s.fget RES_HU_CFG.V_MIN
  s.capNow * (100 - s.fget RES_HU_CAP.DERATE) * s.fget RES_HU_PWR.ETA * (v * v - m * m) / (10 * 100 * 100 * 10000 * 2)

/-- Open ledger transactions. -/
def State.openTxns (s : State) : Nat := (s.ldg.txns.filter (fun e => e.2.isSome)).length

/-- Inkwell bytes not yet in NAND. -/
def State.inkOutside (s : State) : Nat := s.ink.recs.foldl (fun a r => if r.place = .nand then a else a + r.size) 0

/-- The bytes to flush, *b* of R485. -/
def State.flushBytes (s : State) : Nat :=
  s.jUsed + s.inkOutside + 4096 + 104 * (s.pip.tags.filter (fun e => e.2.st == 1)).length + 1064 * s.openTxns

/-- Rounded-up division. -/
def ceilDiv (a b : Nat) : Nat := (a + b - 1) / b

/-- The flush cost in µJ for `b` bytes: the time in µs, then mW · µs · 100 / (ETA · 1000). -/
def State.eCost (s : State) (b : Nat) : Nat :=
  let p := ceilDiv (4096 + b) (max s.pageBytes 1)
  let us := ceilDiv p (max (s.fget STO_INFO.DIES) 1) * s.fget STO_HU_TPROG.US + 1000 + 100 * s.fget RES_HU_PWR.T_ENTRY
  ceilDiv (s.fget RES_HU_PWR.P_HU * us) (10 * s.fget RES_HU_PWR.ETA)

/-- UNCOVERED: EN is 0, or no test has completed since BOOT (R486, R487). -/
def State.uncovered (s : State) : State := s.fset RES_HU_STAT.UNCOVERED 0 (b2n (!(s.fbit RES_HU_CFG.EN && s.fbit RES_C_MEAS.VALID)))

/-- Withholding starts: new readings are refused; Inkwell and partial journal pages are flushed early. -/
def State.withholdStart (s : State) : State :=
  let s := (s.fset RES_HU_STAT.WITHHOLD 0 1).fset PIP_WITHHOLD.ACTIVE 0 1
  let s := (s.fset RES_HU_STAT.EARLY 0 1).fsat RES_HU_STAT.COUNT 0
  let s := (s.signal 39 []).signal 1025 []
  let s := s.inkFlush
  s.ldg.ten.foldl (fun s e => if e.2.partial_ then s.setTenJ e.1 { s.tenJ e.1 with partial_ := false } else s) s

/-- Withholding ends, and with it the early flush (event 40). -/
def State.withholdEnd (s : State) : State :=
  let s := (s.fset RES_HU_STAT.WITHHOLD 0 0).fset PIP_WITHHOLD.ACTIVE 0 0
  (((s.fset RES_HU_STAT.EARLY 0 0).signal 39 []).signal 1025 []).signal 40 []

/-- Every 10 µs, with the voltage and power measured: cost against energy, with hysteresis. -/
def execReservoirCostUpdate (v mw : Nat) (s : State) : Res :=
  .next (if s.mode = 0 then s
    else
      let s := (s.fset RES_V_NOW.V 0 v).fset RES_P_NOW.MW 0 mw
      let b := s.flushBytes
      let s := (s.fset RES_HU_BYTES.BYTES 0 b).fset RES_E_COST.UJ 0 (s.eCost b)
      let s := (s.fset RES_E_AVAIL.UJ 0 s.eAvail).uncovered
      let a : Int := s.fget RES_E_AVAIL.UJ
      let c : Int := s.fget RES_E_COST.UJ
      let g : Int := s.fget RES_HU_GUARD.GUARD
      let h : Int := s.fget RES_HU_GUARD.HYST
      let on := s.fbit RES_HU_STAT.WITHHOLD
      if s.fbit RES_HU_CFG.EN = false then (if on then s.withholdEnd else s)
      else if on = false ∧ c > a - g then s.withholdStart
      else if on ∧ c ≤ a - g - h then s.withholdEnd
      else s)

/-! ### The capacitance test (R487) -/

/-- A test starts, or is deferred. -/
def State.capStart (s : State) : State :=
  if s.fbit RES_HU_STAT.TESTING then s
  else if s.fbit RES_HU_STAT.WITHHOLD ∨ s.mode = 10 ∨ s.fget RES_V_NOW.V < 10 * s.fget RES_HU_CFG.V_PF + 10 * s.fget RES_HU_TEST.DV + 100 then
    s.setPow { s.pow with testWait := true }
  else ((s.setPow { s.pow with testWait := false }).fset RES_HU_STAT.TESTING 0 1).emit (.pin 0 0 0)

/-- RES_HU_CMD.TEST. -/
def execTest (host value : Nat) (s : State) : Res := .next (s.gate host .res 0x54 (fun s => if nbit value 0 then s.capStart else s))

/-- PERIOD_H hours have passed since the last test, or 60 s since a deferral. PERIOD_H 0 tests at BOOT only. -/
def execCapTestPeriod (s : State) : Res :=
  .next (if s.mode = 0 ∨ (s.fget RES_HU_TEST.PERIOD_H = 0 ∧ s.pow.testWait = false) then s else s.capStart)

/-- The result of a test from the energy drawn in µJ and the voltages before and after in 10 mV. -/
def State.capResult (s : State) (v1 v2 energy : Nat) : State :=
  let s := ((s.fset RES_HU_STAT.TESTING 0 0).fset RES_V_NOW.V 0 v2).emit (.pin 0 0 1)
  let n := s.fget RES_HU_CAP.C_NOM
  let c := if v1 < v2 + 25 then 10 * n else min (200000 * energy / (v1 * v1 - v2 * v2)) (2 ^ 20 - 1)
  let s := ((s.fset RES_C_MEAS.C 0 c).fset RES_C_MEAS.VALID 0 1).uncovered
  let s := s.signal 41 (leB 4 c)
  if 100 * c < s.fget RES_HU_CAP.C_MIN_PCT * 10 * n then s.errSet [RES_ERR.CAP] (fun s => s) else s

/-- A test ends. -/
def execCapTestEnd (v1 v2 energy : Nat) (s : State) : Res := .next (if s.fbit RES_HU_STAT.TESTING then s.capResult v1 v2 energy else s)

/-! ### HOLDUP (R488) -/

/-- Slot changes under way or waiting end with CANCELLED; the slots keep their state (R386). -/
def State.slotsCancel (s : State) : State :=
  s.vault.slots.foldl (fun s e =>
    if e.2.current.isNone then s
    else
      let cs := e.2.current.toList ++ e.2.waiting
      let s := (s.setVslot e.1 { s.vslot e.1 with current := none, waiting := [] }).fset KV_S_INFO.STATE e.1 (if s.slotLoaded e.1 then 1 else 0)
      cs.foldl (fun s c => s.chgEnd e.1 c 0x21) s) s

/-- The modes from which HOLDUP is entered (R517). -/
def holdupModes : List Nat := [4, 5, 6, 7, 8, 9, 11]

/-- HOLDUP is entered: the claim is released, GRANT falls, readings before their commit point are cancelled, lanes and radios drain. -/
def State.holdupEnter (s : State) (thermal : Bool) : State :=
  let cold := s.mode == 11
  let s := s.setPow { s.pow with thermal := thermal, cold := cold, timer := false, held := none }
  let s := { s with nand := { s.nand with flushed := false }, upd := { s.upd with act := none, trialFault := false } }
  let s := (s.setMode 10).signal 32 []
  let s := if s.pairState = 4 then s.claimGone 2 else s
  let s := s.grantUpdate.cutAir.safOff
  let s := (s.fset RES_HU_STAT.TESTING 0 0).inkRelease 2
  let s := { s with pip := { s.pip with lost := s.fieldLost } }
  let s := s.cancelTags (fun _ => true)
  let s := (List.range 4).foldl (fun s n => s.unitOff lifeLane n (fun s => s.laneDrain n)) s
  let s := (List.range 2).foldl (fun s n => s.unitOff lifeRadio n (fun s => s.radioDrain n)) s
  s.slotsCancel

/-- V_NOW has stayed below V_PF for 20 µs. -/
def execHoldupEntry (v : Nat) (s : State) : Res :=
  .next (if holdupModes.contains s.mode ∧ v < 10 * s.fget RES_HU_CFG.V_PF then (s.fset RES_V_NOW.V 0 v).holdupEnter false else s)

/-- Power is off: what remains is the vault domain and the contents of NAND and configuration memory. With the vault clock on, the selected
domain's time is kept, whatever its state (R64, R66). -/
def State.vaultEntry (s : State) : State :=
  let old := s.mode
  let s := s.setMode 0
  let d := s.fget MPT_GRID_SEL.DOMAIN
  let t : Option (Nat × Nat × Nat) :=
    if s.fbit MPT_VAULT.VCLK_ON then some (d, if d = 0 then s.time.gt0.now else s.time.gt1.now) else none
  let s := (s.setTime { s.time with saved := t }).afterReset 0
  (((s.fset CHIP_MODE.MODE 0 0).fset CHIP_MODE.PREV_MODE 0 old).emit (.pin 1 0 0))

/-- The flush is complete: a held reset takes effect; a thermal cause stops the buck stage (R517, R523). -/
def execHoldupFlushDone (s : State) : Res :=
  .next (if s.mode ≠ 10 ∨ s.nand.flushed then s
    else
      let s := { s with nand := { s.nand with flushed := true, jobs := [] } }
      match s.pow.held with
      | some (k, c) => s.reboot (if s.pow.cold then 1 else k) c
      | none => if s.pow.thermal then (s.setPow { s.pow with hot := true, vsys := false, group := 0 }).vaultEntry else s)

/-- After the flush V_NOW has stayed at V_PF + 2 V for 100 ms, with no thermal cause: a warm reset, or a cold one (R520). -/
def execHoldupReturn (v : Nat) (s : State) : Res :=
  .next (if s.mode = 10 ∧ s.nand.flushed ∧ s.pow.thermal = false ∧ v ≥ 10 * s.fget RES_HU_CFG.V_PF + 200 then
      (s.fset RES_V_NOW.V 0 v).reboot (if s.pow.cold then 1 else 2) 8
    else s)

end Sys2Proof.Machine
end

