-- ==== Sys2Proof/Machine/SafeChan.lean ====
section
/-! DEFINITION. The safety channel and physical tamper (R495 to R508). -/
namespace Sys2Proof.Machine
open Reg

/-- Store the channel's record. -/
def State.setSaf (s : State) (r : SafS) : State := { s with saf := r }

/-- SAF_STAT.STATE: 0 OFF, 1 RUN, 2 DEGRADED, 3 SAFE. -/
def State.safState (s : State) : Nat := s.fget SAF_STAT.STATE

/-- The channel changes state: event 64. -/
def State.safSet (s : State) (v : Nat) : State := if s.safState = v then s else (s.fset SAF_STAT.STATE 0 v).signal 64 (leB 1 v)

/-- Drive SAF_KILL low (true) or high. -/
def State.kill (s : State) (low : Bool) : State :=
  if s.fget SAF_STAT.KILL = b2n low ∧ low then s else (s.fset SAF_STAT.KILL 0 (b2n low)).emit (.pin 1 0 (b2n (!low)))

/-! ### Faults (R501, R502) -/

/-- A class A fault code. -/
def faultA (code : Nat) : Bool := [5, 10, 11, 12, 13].contains code
/-- A class B fault code. -/
def faultB (code : Nat) : Bool := [4, 6, 7].contains code

/-- Stop the DEG timer. -/
def State.degStop (s : State) : State := (s.setSaf { s.saf with deg := 0 }).fset SAF_DEG.LEFT 0 0

/-- The channel goes SAFE: outputs off, kill, DEGRADED requested. -/
def State.safSafe (s : State) : State := (((s.degStop.safOuts 0).kill true).safSet 3).fault 1

/-- Force inputs into demand until RESET. -/
def State.force (s : State) (m : Nat) : State := s.fset SAF_IO_STAT.FORCED 0 (Nat.lor (s.fget SAF_IO_STAT.FORCED) m)

/-- A fault is found, once until RESET: recorded, event 66, and its reaction by class. -/
def State.safFault (s : State) (code idx : Nat) : State :=
  if s.saf.faults.contains (code, idx) then s
  else
    let s := s.setSaf { s.saf with faults := s.saf.faults ++ [(code, idx)] }
    let s := if s.fget SAF_STAT.FAULT = 0 then s.fset SAF_STAT.FAULT 0 code else s
    let s := s.signal 66 (leB 1 code ++ leB 1 idx)
    let s := if code = 6 then s.setSaf { s.saf with heldOff := nsetBit s.saf.heldOff idx true } else s
    let s := if [10, 11, 12].contains code then s.setSaf { s.saf with noRefresh := true } else s
    if faultA code then (if s.safState = 1 ∨ s.safState = 2 then s.safSafe else if [10, 11, 12].contains code then (s.safOuts 0).kill true else s)
    else if faultB code ∧ s.safState = 1 then
      let h := s.fget SAF_DEG.DEG_MAX
      let s := (s.setSaf { s.saf with deg := 3600 * h }).fset SAF_DEG.LEFT 0 (60 * h)
      (s.safSet 2).fault 1
    else s

/-! ### The configuration CRC -/

/-- One configuration word: RO fields and reserved bits count as 0. -/
def State.safWord (s : State) (off : Nat) : Nat :=
  (fieldsAt .saf 0 off).foldl (fun a f => if f.1.acc == .rw then a + s.fget f.1 f.2 * 2 ^ f.1.lsb else a) 0

/-- The CRC-32 of the words at 0x10 to 0xBC. -/
def State.safCrc (s : State) : Nat := crc32 ((List.range 44).flatMap (fun k => leB 4 (s.safWord (0x10 + 4 * k))))

/-! ### The scan (R495 to R499) -/

/-- Test-pulse samples and source read-backs. -/
def State.safSamples (s : State) (c : SafScan) : State :=
  let own := fun i => s.fget SAF_IN_CFG.TPSRC i
  let s := c.samples.foldl (fun s (x : Nat × Nat × Bool × Bool) =>
    let (k, i, hi, around) := x
    if i ≥ 8 ∨ s.fbit SAF_IN_CFG.EN i = false then s
    else if own i = k + 1 then (if hi then (s.force (2 ^ i)).safFault 1 i else s)
    else if hi = false ∧ around then
      let m := (List.range 8).foldl (fun a j => if j = i ∨ own j = k + 1 then nsetBit a j true else a) 0
      (s.force m).safFault 2 i
    else s) s
  (List.range 4).foldl (fun s k => if nbit c.tpBad k then s.safFault 4 k else s) s

/-- Inputs in demand: low, or high, for FILTER µs changes an input. -/
def State.safInputs (s : State) (c : SafScan) : State :=
  let flt := s.fget SAF_TIMING.FILTER
  let old := s.fget SAF_IO_STAT.DEMAND
  let new := (List.range 8).foldl (fun a i =>
    match c.inputs[i]? with
    | some (hi, us) => if s.fbit SAF_IN_CFG.EN i = false then nsetBit a i false else if us < flt then a else nsetBit a i (!hi)
    | none => a) old
  let s := s.fset SAF_IO_STAT.DEMAND 0 new
  -- pairs that disagree
  [0, 2, 4, 6].foldl (fun s i =>
    if s.fbit SAF_IN_CFG.MODE i = false ∨ s.fbit SAF_IN_CFG.EN i = false then s
    else match c.inputs[i]?, c.inputs[i + 1]? with
      | some a, some b =>
        let d := if a.1 = b.1 then 0 else tget 0 s.saf.dis i + 250
        let s := s.setSaf { s.saf with dis := tput 0 s.saf.dis i d }
        if d > 1000 * s.fget SAF_IN_CFG.DISC i then (s.force (3 * 2 ^ i)).safFault 3 i else s
      | _, _ => s) s

/-- Inputs that count as in demand: qualified, forced, or through their pair. -/
def State.safDemand (s : State) : Nat :=
  let d := Nat.lor (s.fget SAF_IO_STAT.DEMAND) (s.fget SAF_IO_STAT.FORCED)
  [0, 2, 4, 6].foldl (fun a i => if s.fbit SAF_IN_CFG.MODE i ∧ (nbit d i ∨ nbit d (i + 1)) then Nat.lor a (3 * 2 ^ i) else a) d

/-- Functions enter and leave demand (R497): event 65; MANUAL leaves LATCHED, AUTO restarts (event 69). -/
def State.safFunctions (s : State) : State :=
  let d := s.safDemand
  (List.range 8).foldl (fun s f =>
    let was := nbit (s.fget SAF_STAT.DEMAND) f
    let now := s.fbit SAF_FN.EN f && Nat.land (s.fget SAF_FN.IN f) d != 0
    if was = now then s
    else
      let s := (s.fset SAF_STAT.DEMAND 0 (nsetBit (s.fget SAF_STAT.DEMAND) f now)).signal 65 (leB 1 f ++ leB 1 (b2n now))
      if now then s
      else if s.fbit SAF_FN.RESTART f then s.fset SAF_STAT.LATCHED 0 (nsetBit (s.fget SAF_STAT.LATCHED) f true)
      else s.signal 69 (leB 1 f)) s

/-- The outputs that are to be energized (R497). -/
def State.safTarget (s : State) : Nat :=
  if (s.safState ≠ 1 ∧ s.safState ≠ 2) ∨ s.fbit RES_PAIR_STAT.GRANT = false ∨ [5, 6, 7, 8, 9].contains s.mode = false then 0
  else
    let block := Nat.lor (s.fget SAF_STAT.DEMAND) (s.fget SAF_STAT.LATCHED)
    (List.range 4).foldl (fun a o =>
      let blocked := (List.range 8).any (fun f => s.fbit SAF_FN.EN f && nbit block f && nbit (s.fget SAF_FN.OUT f) o)
      nsetBit a o (s.fbit SAF_OUT_CFG.EN o && nbit (s.fget SAF_OUT_REQ.REQ) o && !blocked && !nbit s.saf.heldOff o)) 0

/-- Read-back of the outputs as the last scan drove them. -/
def State.safReadback (s : State) (rb : Nat) : State :=
  let out := s.fget SAF_IO_STAT.OUT
  (List.range 4).foldl (fun s o =>
    if s.fbit SAF_OUT_CFG.EN o = false ∨ (s.safState ≠ 1 ∧ s.safState ≠ 2) ∨ nbit out o = nbit rb o then s
    else if nbit out o then s.safFault 6 o else s.safFault 5 o) (s.fset SAF_IO_STAT.RB 0 rb)

/-- One scan. The claim refresh goes with it. -/
def State.safScan (s : State) (c : SafScan) : State :=
  let s := if s.saf.noRefresh then s else s.claimRefresh
  let s := c.self.foldl (fun s k => if [10, 11, 12].contains k then s.safFault k 0 else s) s
  let s := s.safReadback c.rb
  let running := s.safState == 1 || s.safState == 2
  let s := if running then s.safSamples c else s
  let s := if running ∧ s.safCrc ≠ s.fget SAF_CFG_CRC.CRC then s.safFault 13 0 else s
  let s := s.safInputs c
  let s := if running then s.safFunctions else s
  let old := s.fget SAF_IO_STAT.OUT
  let new := s.safTarget
  let s := if Nat.land old new = old then s else s.fset SAF_RESP.US 0 c.resp
  s.safOuts new

/-- Every 250 µs. -/
def execSafetyScan (scan : SafScan) (s : State) : Res := .next (if s.mode = 0 then s else s.safScan scan)

/-- Every OP_PERIOD an energized output is switched off for OP_WIDTH (R499): whether its read-back fell in the pulse and rose after it. -/
def execOffPulse (output : Nat) (fell rose : Bool) (s : State) : Res :=
  .next (if output ≥ 4 ∨ nbit (s.fget SAF_IO_STAT.OUT) output = false then s
    else
      let s := (s.emit (.pin 8 output 0)).emit (.pin 8 output 1)
      if fell = false then s.safFault 5 output
      else if rose = false then
        let s := s.safFault 6 output
        s.safOuts (nsetBit (s.fget SAF_IO_STAT.OUT) output false)
      else s)

/-- The kill test (R500): SAF_KILL low for 1 ms; `ok` when SAF_KILLRB followed. -/
def State.killTest (s : State) (ok : Bool) : State :=
  let s := (s.emit (.pin 1 0 0)).emit (.pin 1 0 1)
  if ok then s else s.safFault 7 0

/-- The hourly kill test, while every output has been off for 10 ms. -/
def execKillTest (ok : Bool) (s : State) : Res :=
  .next (if (s.safState = 1 ∨ s.safState = 2) ∧ s.fget SAF_IO_STAT.OUT = 0 then s.killTest ok else s)

/-! ### Commands (R497, R501) -/

/-- A SAF_CMD write that carries a command: the confirmation value, then the command. -/
def State.safCmd (s : State) (host value : Nat) (on : Bool) (f : State → State) : State :=
  s.gate host .saf 0x04 (fun s =>
    if on = false then s else if nbits value 31 16 ≠ 0x5346 then s.errAt SAF_ERR.CMD 0x04 else f s)

/-- ARM: from OFF, with the configuration CRC right, to RUN; every used MANUAL function starts LATCHED (R505). -/
def execSafArm (host value : Nat) (killOk : Bool) (s : State) : Res :=
  .next (s.safCmd host value (nbit value 0) (fun s =>
    if s.safState ≠ 0 then s
    else if s.safCrc ≠ s.fget SAF_CFG_CRC.CRC then s.errAt SAF_ERR.CRC 0x04
    else
      let s := ((s.setSaf { s.saf with dis := [] }).safLatch.kill false).safSet 1
      s.killTest killOk))

/-- What every RESET clears: the recorded faults, forced inputs, outputs held off. -/
def State.safClear (s : State) : State :=
  ((s.setSaf { s.saf with faults := [], heldOff := 0, dis := [] }).fset SAF_STAT.FAULT 0 0).fset SAF_IO_STAT.FORCED 0 0

/-- RESET: DEGRADED to RUN once the diagnostic has passed for 1 s (`passed`); SAFE to OFF unless LOGIC, CLOCK or SUPPLY caused it; in RUN it
ends forced inputs. -/
def execSafReset (host value : Nat) (passed : Bool) (s : State) : Res :=
  .next (s.safCmd host value (nbit value 1) (fun s =>
    match s.safState with
    | 2 => if passed then (s.safClear.degStop).safSet 1 else s.errAt SAF_ERR.CMD 0x04
    | 3 => if s.saf.faults.any (fun e => [10, 11, 12].contains e.1) then s.errAt SAF_ERR.CMD 0x04 else s.safClear.safSet 0
    | 1 => s.safClear
    | _ => s))

/-- RESTART ends LATCHED for the named functions (event 69). -/
def execRestart (host value : Nat) (s : State) : Res :=
  .next (s.safCmd host value (nbits value 15 8 != 0) (fun s =>
    (List.range 8).foldl (fun s f =>
      if nbit value (8 + f) ∧ nbit (s.fget SAF_STAT.LATCHED) f then
        (s.fset SAF_STAT.LATCHED 0 (nsetBit (s.fget SAF_STAT.LATCHED) f false)).signal 69 (leB 1 f)
      else s) s))

/-- The DEG timer expires. -/
def execDegTimerExpiry (s : State) : Res := .next (if s.safState = 2 then (s.signal 67 []).safSafe else s)

/-! ### Physical tamper (R506, R394) -/

/-- A tamper cause is detected: 0 to 3 loops, 4 the mesh. In VAULT it sets ZEROIZE_PENDING. -/
def State.tamper (s : State) (cause : Nat) : State :=
  let s := s.fset SAF_TAMP_STAT.CAUSE 0 (nsetBit (s.fget SAF_TAMP_STAT.CAUSE) cause true)
  if s.mode = 0 then { s with vault := { s.vault with zeroPending := true, zeroTamper := true } }
  else
    let s := s.signal 68 (leB 1 cause)
    if s.mode = 11 then s else s.zeroize true

/-- A loop opens, or the mesh fails, with its EN bit set. -/
def execTamperDetect (cause : Nat) (s : State) : Res :=
  .next (let en := s.fget SAF_TAMP_CFG.LOOP + 16 * s.fget SAF_TAMP_CFG.MESH
    if cause < 5 ∧ nbit en cause then s.tamper cause else s)

/-- A SAF_TAMP_CFG write sets EN bits; `broken` names the loops open, or the mesh failing, at that moment. -/
def execTampCfgWrite (host value broken : Nat) (s : State) : Res :=
  .next (s.gate host .saf 0xD0 (fun s =>
    let old := s.fget SAF_TAMP_CFG.LOOP + 16 * s.fget SAF_TAMP_CFG.MESH
    let s := (s.fset SAF_TAMP_CFG.LOOP 0 (Nat.lor (s.fget SAF_TAMP_CFG.LOOP) (value % 16))).fset SAF_TAMP_CFG.MESH 0
      (Nat.lor (s.fget SAF_TAMP_CFG.MESH) (nbits value 4 4))
    (List.range 5).foldl (fun s c => if nbit value c ∧ nbit old c = false ∧ nbit broken c then s.tamper c else s) s))

end Sys2Proof.Machine
end

