-- ==== Sys2Proof/Machine/Pads.lean ====
section
/-! DEFINITION. Pads, the PCIe reset pin, PPS outputs and the DRAM patrol scrubber (R548, R549, R560 to R562). -/
namespace Sys2Proof.Machine
open Reg

/-- PCIE_PERSTn_N low holds an endpoint in reset and takes its attachment DOWN. -/
def execPciePerst (endpoint : Nat) (s : State) : Res :=
  .next (if s.hasHost endpoint = false ∨ endpoint > 1 then s else (s.setHost endpoint { s.host endpoint with cond := false }).hostDown endpoint)

/-- The patrol scrubber reads a burst; `bad` is the address of one that cannot be corrected: in a ledger line that ledger is quarantined, anywhere
else it is the detected fault DRAM (R548, R154). -/
def execPatrolScrub (bad : Option Nat) (s : State) : Res :=
  .next (match bad with
    | none => s
    | some a =>
      let base := s.fget LDG_BASE_LO.BASE_LO * 2 ^ 20 + s.fget LDG_BASE_HI.BASE_HI * 2 ^ 32
      if s.fbit LDG_CFG.AREA_VALID ∧ base ≤ a ∧ a < base + 1024 * s.fget LDG_COUNT.COUNT then s.quarantine ((a - base) / 1024)
      else s.fault 3)

/-- A write of PAD_G_CFG: ALT is refused for a ball without one, PULL 3 for every ball; either discards the write. -/
def execPadFuncWrite (host value : Nat) (s : State) : Res :=
  .next (s.gateW host .pad 0 0x1100 (fun g s =>
    if nbits value 5 4 = 3 then s.errAt PAD_ERR.RANGE 0x1100
    else if nbit value 0 ∧ g ≥ 6 then s.errAt PAD_ERR.FUNC 0x1100
    else (s.fset PAD_G_CFG.PULL g (nbits value 5 4)).fset PAD_G_CFG.FUNC g (nbits value 0 0)))

/-- The level the device drives at a GP ball; none where it does not drive it. -/
def State.padDrive (s : State) (g : Nat) : Option Bool :=
  if s.fbit PAD_G_CFG.FUNC g then
    match g with
    | 1 => some (s.fget ETH_P_STAT.STATE 0 != 2)
    | 3 => some (s.fget ETH_P_STAT.STATE 1 != 2)
    | 4 => some (nbit s.time.pps 0)
    | 5 => some (nbit s.time.pps 1)
    | _ => none
  else if nbit (s.fget PAD_GP_OE.OE) g then some (nbit (s.fget PAD_GP_OUT.OUT) g) else none

/-- The level at a GP ball: the one driven, else its pull (log entry 45). -/
def State.padLevel (s : State) (g : Nat) : Bool :=
  match s.padDrive g with
  | some b => b
  | none => s.fget PAD_G_CFG.PULL g == 1

/-- A whole second of a domain that is VALID or HOLDOVER: its PPS output rises, if the ball has that function. -/
def execPpsPulse (domain : Nat) (s : State) : Res :=
  .next (if domain > 1 ∨ s.fbit PAD_G_CFG.FUNC (4 + domain) = false ∨ (s.fget (gtSt domain) ≠ 1 ∧ s.fget (gtSt domain) ≠ 2) then s
    else (s.setTime { s.time with pps := nsetBit s.time.pps domain true }).emit (.pin 3 domain 1))

/-- WIDTH ms after its rise a pulse ends. -/
def execPpsWidthEnd (domain : Nat) (s : State) : Res := .next (s.ppsEnd domain)

end Sys2Proof.Machine
end

