-- ==== Sys2Proof/Machine/Power.lean ====
section
/-! DEFINITION. The power chain, the vault domain's supply, mode requests, resets and temperature (R65, R509 to R528). -/
namespace Sys2Proof.Machine
open Reg

/-! ### The power chain (R509 to R512) -/

/-- HVIN passes 7.6 V, as measured in 10 mV: the controller starts the buck stage. -/
def execHvinRise (v : Nat) (s : State) : Res :=
  .next (let s := (s.fset PWR_HVIN.V 0 v).setPow { s.pow with hv := true }
    if s.mode = 0 ∧ s.pow.stopped = false ∧ s.pow.hot = false ∧ s.pow.vsys = false then s.setPow { s.pow with vsys := true, group := 0 } else s)

/-- HVIN falls below 7.2 V: the controller stops, and a stopped buck stage may start again at the next rise. -/
def execHvinFall (v : Nat) (s : State) : Res := .next ((s.fset PWR_HVIN.V 0 v).setPow { s.pow with hv := false, fails := 0, retry := false, stopped := false })

/-- Rails of groups 1 to n, as bits of PWR_RAIL_STAT. -/
def groupRails (n : Nat) : Nat := match n with | 0 => 0 | 1 => 3 | 2 => 7 | 3 => 31 | 4 => 63 | _ => 127

/-- Every rail of the groups enabled so far has been good for 1 ms: the next group is enabled. -/
def execRailGroupEnable (s : State) : Res :=
  .next (let p := s.pow
    if s.mode = 0 ∧ p.hv ∧ p.vsys ∧ p.stopped = false ∧ p.retry = false ∧ p.group < 5 then
      ((s.fset PWR_RAIL_STAT.GOOD 0 (128 + groupRails p.group)).emit (.pin 4 (p.group + 1) 1)).setPow { p with group := p.group + 1 }
    else s)

/-- Every enable goes low in descending group order. -/
def State.railsDown (s : State) : State :=
  let n := s.pow.group
  let s := (List.range n).foldl (fun s k => s.emit (.pin 4 (n - k) 0)) s
  (s.fset PWR_RAIL_STAT.GOOD 0 0).setPow { s.pow with group := 0 }

/-- The group enabled last is not good within 10 ms: a failed start; the third stops the buck stage and records RAIL. -/
def execFailedStart (s : State) : Res :=
  .next (let p := s.pow
    if s.mode ≠ 0 ∨ p.vsys = false ∨ p.stopped ∨ p.retry ∨ p.group = 0 then s
    else
      let s := s.railsDown
      if p.fails + 1 ≥ 3 then (s.fset PWR_RST_CAUSE.CAUSE 0 4).setPow { s.pow with fails := 3, stopped := true, vsys := false, railStart := true }
      else s.setPow { s.pow with fails := p.fails + 1, retry := true })

/-- 100 ms after a failed start the sequence starts again. -/
def execStartRetry (s : State) : Res := .next (if s.pow.retry then s.setPow { s.pow with retry := false } else s)

/-- VSYS falls below 4.5 V, as measured in mV: power-down in descending group order, and VAULT. -/
def execVsysFall (mv : Nat) (s : State) : Res :=
  .next (let s := (s.fset PWR_VSYS.MV 0 mv).railsDown
    let s := s.setPow { s.pow with vsys := false, retry := false }
    if s.mode = 0 then s else s.vaultEntry)

/-- A rail of groups 1 to 5 outside its tolerance for 20 µs: a cold reset with cause RAIL. -/
def execRailFault (rail : Nat) (s : State) : Res := .next (if rail < 7 ∧ s.mode ≠ 0 then s.reboot 1 4 else s)

/-- A rail outside two thirds of its tolerance for 1 ms: WARN, event 6, the detected fault RAIL_WARN. -/
def execRailWarn (rail : Nat) (s : State) : Res :=
  .next (if rail < 7 ∧ s.mode ≠ 0 then
      ((s.fset PWR_RAIL_STAT.WARN 0 (nsetBit (s.fget PWR_RAIL_STAT.WARN) rail true)).signal 6 (leB 1 rail)).fault 5
    else s)

/-! ### The vault domain's supply (R65, R513) -/

/-- VBAT reads a value in mV; below 2.2 V it is LOW and event 6 is signalled. The payload's rail has no number for VBAT: a free value. -/
def execVbatLow (mv : Nat) (s : State) : Res :=
  .next (if s.mode = 0 then s
    else if mv ≥ 2200 then (s.fset PWR_VBAT.MV 0 mv).fset PWR_VBAT.LOW 0 0
    else
      let (r, s) := ((s.fset PWR_VBAT.MV 0 mv).fset PWR_VBAT.LOW 0 1).drawNat 256
      s.signal 6 (leB 1 r))

/-- VBAT falls below 1.8 V while VSYS is off: the vault domain loses its contents. -/
def execVbatLost (s : State) : Res :=
  .next (if s.mode ≠ 0 ∨ s.pow.vsys then s
    else
      let s := [MPT_OPSEC.SECONDS, MPT_PCYC.COUNT, MPT_VAULT.VCLK_ON, SAF_TAMP_STAT.CAUSE, SAF_TAMP_CFG.MESH, SAF_TAMP_CFG.LOOP,
        INK_SUPP.COUNT, PWR_RST_CAUSE.BOOT_FAILS, PWR_RST_CAUSE.CAUSE].foldl (fun s f => s.fset f 0 0) s
      let s := s.setTime { s.time with saved := none }
      let s := { s with vault := { s.vault with vaultSeq := none, zeroPending := false, zeroTamper := false } }
      let s := { s with ink := { s.ink with firstOp := 0, lastOp := 0, resetGap := false } }
      s.setPow { s.pow with vbatGone := true })

/-! ### Mode requests (R518, R519) -/

/-- PWR_MODE_REQ with an OP: a wrong confirmation value sets PWR_ERR.CMD. The row acts on its own OP. -/
def State.modeReq (s : State) (host value op : Nat) (f : State → State) : State :=
  s.gate host .pwr 0 (fun s =>
    if nbits value 3 0 ≠ op then s
    else if nbits value 31 16 ≠ 0x4D44 then s.errAt PWR_ERR.CMD 0
    else f s)

/-- A request that is not valid in the mode. -/
def State.modeErr (s : State) (off : Nat) : State := s.errAt PWR_ERR.MODE off

/-- ISLAND. -/
def execIsland (host value : Nat) (s : State) : Res :=
  .next (s.modeReq host value 1 (fun s => if s.centre = false ∧ s.mode = 5 then s.setMode 7 else s.modeErr 0))

/-- CONNECT. -/
def execConnectReq (host value : Nat) (s : State) : Res :=
  .next (s.modeReq host value 2 (fun s => if s.centre = false ∧ s.mode = 7 then s.setMode 5 else s.modeErr 0))

/-- DEGRADE: the detected fault SUPERVISOR. -/
def execDegrade (host value : Nat) (s : State) : Res :=
  .next (s.modeReq host value 3 (fun s => if 4 ≤ s.mode ∧ s.mode ≤ 9 then s.fault 4 else s.modeErr 0))

/-- What keeps RESUME refused: a rail in warning, NAND READ_ONLY, the safety channel in DEGRADED or SAFE. -/
def State.resumeBarred (s : State) : Bool :=
  s.fget PWR_RAIL_STAT.WARN != 0 || s.fget STO_NAND_STAT.STATE == 5 || s.safState == 2 || s.safState == 3

/-- RESUME: PWR_FAULT is cleared; DEGRADED ends in the return mode; a STANDBY unit may take over again. -/
def execResume (host value : Nat) (s : State) : Res :=
  .next (s.modeReq host value 4 (fun s =>
    if s.mode ≠ 8 ∧ s.mode ≠ 4 then s.modeErr 0
    else if s.resumeBarred then s.errAt PWR_ERR.RESUME 0
    else
      let s := s.fset PWR_FAULT.CAUSE 0 0
      if s.mode = 8 then
        let s := s.setPow { s.pow with timer := false, deg := 0 }
        (s.fset PWR_DEG.LEFT 0 0).setMode (s.fget PWR_MODE_STAT.RETURN)
      else ({ s with pair := { s.pair with faulty := false } } : State).takeover))

/-- A cause of R518 is detected. -/
def execDetectedFault (bit : Nat) (s : State) : Res := .next (if bit < 7 ∧ s.mode ≠ 0 then s.fault bit else s)

/-- A host of PWR_ISL.HOSTS is UP. -/
def State.backhaulUp (s : State) : Bool := (List.range 8).any (fun h => nbit (s.fget PWR_ISL.HOSTS) h && s.fbit RNG_H_STAT.UP h)

/-- DELAY_S passed with every backhaul host DOWN, or with one UP. -/
def execIslandDelayExpiry (up : Bool) (s : State) : Res :=
  .next (if s.centre ∨ s.fbit PWR_ISL.EN = false ∨ s.backhaulUp ≠ up then s
    else if up then (if s.mode = 7 then s.setMode 5 else s)
    else if s.mode = 5 then s.setMode 7 else s)

/-- The DEGRADED timer expires: a warm reset, held until UPDATE ends (R517, R518). -/
def execDegradedTimerExpiry (s : State) : Res :=
  .next (if s.pow.timer = false then s
    else if s.mode = 8 then (s.signal 7 []).reboot 2 6
    else if s.mode = 9 then s.setPow { s.pow with timer := false, due := true, deg := 0 }
    else s)

/-! ### Resets (R522, R523) -/

/-- A reset of a kind and cause; in HOLDUP it is held until the flush is complete, a cold one before a warm one. -/
def State.resetReq (s : State) (kind cause : Nat) : State :=
  if s.mode = 0 then s
  else if s.mode = 10 ∧ s.nand.flushed = false then
    match s.pow.held with
    | some (1, _) => s
    | _ => s.setPow { s.pow with held := some (kind, cause) }
  else s.reboot (if s.mode = 10 ∧ s.pow.cold then 1 else kind) cause

/-- PWR_RESET with an OP. -/
def State.resetCmd (s : State) (host value op : Nat) (f : State → State) : State :=
  s.gate host .pwr 0x14 (fun s =>
    if nbits value 1 0 ≠ op then s
    else if nbits value 31 16 ≠ 0x5253 then s.errAt PWR_ERR.CMD 0x14
    else f s)

/-- PWR_RESET.OP WARM; in ZEROIZED it is discarded. -/
def execWarm (host value : Nat) (s : State) : Res :=
  .next (s.resetCmd host value 1 (fun s => if s.mode = 11 then s.modeErr 0x14 else s.resetReq 2 3))

/-- PWR_RESET.OP COLD. -/
def execCold (host value : Nat) (s : State) : Res := .next (s.resetCmd host value 2 (fun s => s.resetReq 1 2))

/-- RST_N low for 10 µs. -/
def execRstNLow (s : State) : Res := .next (s.resetReq 1 1)

/-! ### Temperature (R526 to R528) -/

/-- The sensors' readings in 0.1 °C, as signed values; TJ_MAX is the highest of sensors 0 to 7. -/
def execThermalSample (temps : List Int) (s : State) : Res :=
  .next (if s.mode = 0 then s
    else
      let t : List Int := (temps ++ List.replicate 9 0).take 9
      let s := (List.range 9).foldl (fun s k => s.fset PWR_TEMP.T k (uval 16 (t.getD k 0))) s
      let m := (List.range 8).foldl (fun (a : Nat) k => if t.getD k 0 > t.getD a 0 then k else a) 0
      (s.fset PWR_TJMAX.SENSOR 0 m).fset PWR_TJMAX.T 0 (uval 16 (t.getD m 0)))

/-- TJ_MAX in 0.1 °C. -/
def State.tjMax (s : State) : Int := sval 16 (s.fget PWR_TJMAX.T)

/-- Threshold TH`k` in 0.1 °C. -/
def State.thr (s : State) (k : Nat) : Int :=
  10 * sval 8 (s.fget (match k with | 0 => PWR_THR_A.TH0 | 1 => PWR_THR_A.TH1 | 2 => PWR_THR_A.TH2 | 3 => PWR_THR_B.TH3 | 4 => PWR_THR_B.TH4 | _ => PWR_THR_B.TH5))

/-- The band becomes `b`: recorded once, event 1, the fuses re-read, the throttle, and at CRIT HOLDUP with a thermal cause. -/
def State.bandTo (s : State) (b : Nat) (dev : List FuseRead) : State :=
  let s := (s.fset PWR_TBAND.BAND 0 b).fadd PWR_TBAND.CROSSINGS 0
  let pay := leB 1 b ++ leB 1 (s.fget PWR_TJMAX.SENSOR)
  let s := ((s.inkRec 0x60 0 pay).signal 1 pay).fuseReadAll dev
  let s := s.fset PWR_THROTTLE.ACTIVE 0 (b2n (decide (b ≥ 5) && s.fbit PWR_THERM_CFG.THROTTLE_EN))
  if b = 6 ∧ holdupModes.contains s.mode then s.holdupEnter true else s

/-- A crossing of TH`k` has held for 2 s: upward at or above it, downward more than 3 °C below it. -/
def execThermalCrossing (k : Nat) (up : Bool) (dev : List FuseRead) (s : State) : Res :=
  .next (if s.mode = 0 ∨ k > 5 then s
    else if up then (if s.fget PWR_TBAND.BAND = k ∧ s.tjMax ≥ s.thr k then s.bandTo (k + 1) dev else s)
    else if s.fget PWR_TBAND.BAND = k + 1 ∧ s.tjMax < s.thr k - 30 then s.bandTo k dev
    else s)

/-- RESTART_S seconds after a thermal HOLDUP the buck stage starts again (R517). -/
def execThermalRestart (s : State) : Res :=
  .next (if s.mode = 0 ∧ s.pow.hot ∧ s.pow.vsys = false ∧ s.pow.hv then s.setPow { s.pow with vsys := true, group := 0 } else s)

/-! ### Role entry and the end of BOOT (R517, R524, R525, R528) -/

/-- BOOT has not reached its end within TMO_S: a cold reset; the timer pauses while role entry waits for the thermal band. -/
def execBootTimeout (s : State) : Res :=
  .next (if s.mode ≠ 1 ∨ s.fget PWR_RST_CAUSE.BOOT_FAILS ≥ 3 ∨ (s.pow.booted ∧ s.pow.dram ∧ (s.fget PWR_TBAND.BAND > 4 ∨ s.pow.hot)) then s
    else (s.fsat PWR_RST_CAUSE.BOOT_FAILS 0).reboot 1 5)

/-- Training and ECC initialisation, or the exit from self-refresh, end. -/
def execDramInitDone (s : State) : Res := .next (if s.mode = 1 then s.setPow { s.pow with dram := true } else s)

/-- Attachments may come UP. -/
def State.attachAll (s : State) : State :=
  (List.range 8).foldl (fun s h => s.hostUpIf h) ({ s with rng := { s.rng with attach := true } } : State)

/-- BOOT reaches the mode `m` after `ms` milliseconds: LAST_MS, the Inkwell BOOT record and event 9. -/
def State.bootEnds (s : State) (m ms : Nat) : State :=
  let s := s.fset PWR_BOOT.LAST_MS 0 (min ms 65535)
  let b := s.fget UPD_RUN.BANK
  let s := s.inkRec 2 0 (leB 4 (s.fget UPD_SET_ID_LO.ID_LO) ++ leB 4 (s.fget UPD_SET_ID_HI.ID_HI) ++ leB 1 b ++ leB 1 m)
  s.signal 9 (leB 1 (s.fget PWR_RST_CAUSE.CAUSE) ++ leB 2 (min ms 65535))

/-- Role entry: the role mode, or STANDBY with the pair in LISTEN. -/
def execRoleEntry (ms : Nat) (s : State) : Res :=
  .next (if s.mode ≠ 1 ∨ s.pow.booted = false ∨ s.pow.dram = false ∨ s.pow.boot.isSome ∨ s.fget PWR_TBAND.BAND > 4
      ∨ (s.pow.hot ∧ s.tjMax ≥ s.thr 4 - 30) ∨ s.fbit RES_HU_STAT.TESTING then s
    else
      let s := (s.fset PWR_RST_CAUSE.BOOT_FAILS 0 0).setPow { s.pow with entered := true, hot := false }
      let s := if s.pair.en then (s.setMode 4).setPair 1 else s.setMode s.roleMode
      let s := s.grantUpdate.attachAll
      s.bootEnds s.mode ms)

end Sys2Proof.Machine
end

