-- ==== Sys2Proof/Machine/Drains.lean ====
section
/-! DEFINITION. The end of DRAINING of every enable-able unit, and a drain that overruns (R29 to R33). -/
namespace Sys2Proof.Machine
open Reg

/-- A unit's lifecycle fields, its index, and its kind's number in records and events. -/
def unitLife : DrainUnit → Life × Nat × Nat
  | .tenant t => (lifeTen, t, 0)
  | .ring r => (lifeRing, r, 1)
  | .task t => (lifeTask, t, 2)
  | .queue q => (lifeQueue, q, 3)
  | .table t => (lifeTable, t, 4)
  | .lockGroup g => (lifeLock, g, 5)
  | .lane n => (lifeLane, n, 6)
  | .radio n => (lifeRadio, n, 7)
  | .metrology => (lifeMet, 0, 8)
  | .node n => (lifeNode, n, 9)
  | .port p => (lifePort, p, 10)
  | .compare u => (lifeCmp, u, 11)

/-- The unit is DRAINING. -/
def State.draining (s : State) (u : DrainUnit) : Bool := s.fget (unitLife u).1.st (unitLife u).2.1 == 1

/-- A unit an activation keeps drained until its image is loaded (R415). -/
def State.keptByAct (s : State) (u : DrainUnit) : Bool :=
  match s.upd.act with
  | none => false
  | some a => match u with
    | .task t => a.kept.contains (2, t)
    | .lane n => a.kept.contains (4, n)
    | .radio n => a.kept.contains (5, n)
    | _ => false

/-- A unit's DRAINING ends if nothing of its generation is left. -/
def State.drained (s : State) (u : DrainUnit) : State :=
  match u with
  | .tenant t => s.tenDrained t
  | .ring r => s.ringDrained r
  | .task t => s.taskDrained t
  | .queue q => s.qDrained q
  | .table t => s.tDrained t
  | .lockGroup g => s.lockDrained g
  | .lane n => s.laneDrained n
  | .radio n => s.radioDrained n
  | .metrology => s.metDrained
  | .node n => s.nodeDrained n
  | .port p => s.drainDone lifePort p (fun s => s.turnOn lifePort p)
  | .compare n => s.drainDone lifeCmp n (fun s => s.cmpArm n)

/-- The last completion of a draining unit has been delivered. A unit that an activation keeps waits for its image. -/
def execDrainEnd (unit : DrainUnit) (s : State) : Res :=
  .next (if s.draining unit ∧ s.keptByAct unit = false then s.drained unit else s)

/-- A unit is still DRAINING after 10 ms: Inkwell record, event 4, the detected fault DRAIN; a trial fault, and the end of an activation
that waits for it. The status of that failed activation is not stated: a free value. The record's body and the numbers of the unit kinds are the
model's (log entry 77). -/
def execDrainOverrun (unit : DrainUnit) (s : State) : Res :=
  .next (if s.draining unit = false then s
    else
      let u := unitLife unit
      let pay := leB 1 u.2.2 ++ leB 2 u.2.1
      let kept := s.keptByAct unit
      let s := ((s.inkRec 0x11 0 pay).signal 4 pay).fault 0
      let s := s.trialFault
      if kept then
        let (st, s) := s.drawFail
        s.actFail st
      else s)

end Sys2Proof.Machine
end

