-- ==== Sys2Proof/Machine/Reads.lean ====
section
/-! DEFINITION. What a read of BAR0 or BAR2 returns, and which reads are refused (R7 to R9, R34 to R38, R48, R127, R173, R260, R284, R304, R427, R467). -/
namespace Sys2Proof.Machine
open Reg

/-! ### Fields as they read -/

/-- Which instance of a field a host's access reaches: a per-host register has one copy per host, a window register one per instance. -/
def instAt (f : Fld) (k host inst : Nat) : Nat := (if f.kind = 9 then host else inst) * f.cnt + k

/-- Fields of the register at an offset; a direct offset may hold per-host registers. -/
def fieldsOf (b : Blk) (kind off : Nat) : List (Fld × Nat) := fieldsAt b kind off ++ (if off < 0x1000 then fieldsAt b 9 off else [])

/-- The stored value of a register; a WO field reads 0 (R7), reserved bits read 0 (R8), an offset without register reads 0 (R9). -/
def State.storedWord (s : State) (b : Blk) (kind off host inst : Nat) : Nat :=
  (fieldsOf b kind off).foldl (fun a f => if f.1.acc = .wo then a else a + s.fget f.1 (instAt f.1 f.2 host inst) * 2 ^ f.1.lsb) 0

/-! ### Registers computed when they are read -/

/-- The tag query registers (R125). -/
def State.tagInfo (s : State) (host : Nat) : Nat :=
  let r := s.tag (s.fget PIP_TAG_QUERY.INDEX host)
  r.st * 2 ^ 30 + r.stage % 16 * 2 ^ 26 + r.gen % 256 * 2 ^ 18 + r.tenant * 2 ^ 8 + r.status

/-- The lock query registers (R261). -/
def State.lockInfo (s : State) (host : Nat) : Nat :=
  let l := s.plock (s.fget PRM_LOCK_QUERY.LOCK host)
  let held := l.st != 0
  l.st * 2 ^ 30 + b2n (held && l.host.isSome) * 2 ^ 29 + (if held then l.host.getD 0 else 0) * 2 ^ 26
    + (if held then l.tenant else 0) * 2 ^ 16 + min l.waiters.length 255 * 2 ^ 8

/-- PRM_LOCK_OWNER. -/
def State.lockOwner (s : State) (host : Nat) : Nat :=
  let l := s.plock (s.fget PRM_LOCK_QUERY.LOCK host)
  if l.st = 0 then 0 else l.ctx % 512 * 2 ^ 12 + l.task % 4096

/-- RFM_CONN_INFO, RFM_CONN_EVT and RFM_CONN_DRIFT of the connection named (R361, R369). -/
def State.connInfo (s : State) (k off : Nat) : Nat :=
  match off with
  | 0x44 => s.connState k * 2 ^ 30 + nbits (s.cf k 7 1) 3 3 * 2 ^ 29 + nbits (s.cf k 7 1) 0 0 * 2 ^ 28 + s.cf k 4 2 % 2 ^ 15
  | 0x48 => s.cf k 0x26 2 * 2 ^ 16 + s.cf k 8 2
  | _ => s.cf k 0x20 4

/-- The LO half of an energy accumulator stands at an offset (R209). -/
def isEnergyLo (off : Nat) : Bool := [BAL_EAI.LO, BAL_EAE.LO, BAL_ERI.LO, BAL_ERE.LO].any (fun f => (List.range 3).any (fun p => f.off + 64 * p == off))

/-- What a direct register shows beyond what is stored; none for an ordinary one. -/
def State.directView (s : State) (b : Blk) (off host : Nat) : Option Nat :=
  match b, off with
  | .chip, 0x14 => some host
  | .pip, 0x114 => some (s.tagInfo host)
  | .pip, 0x118 => some (((s.tag (s.fget PIP_TAG_QUERY.INDEX host)).ledger).getD 0)
  | .prm, 0x14 => some (s.lockInfo host)
  | .prm, 0x18 => some (s.lockOwner host)
  | .bal, 0x44 => some (s.storedWord .bal 0 0x44 host 0 + b2n (s.fget MPT_SRC.STATE == 2) * 8)
  | .bal, 0x704 => some (s.memb (s.fget BAL_MEMB_IDX.LEDGER host))
  | .bal, o => if o ≥ 4 ∧ isEnergyLo (o - 4) then some (tget 0 s.bal.energyHi o) else none
  | .rfm, 0x44 => some (s.connInfo (s.fget RFM_CONN_IDX.CONN host) 0x44)
  | .rfm, 0x48 => some (s.connInfo (s.fget RFM_CONN_IDX.CONN host) 0x48)
  | .rfm, 0x4C => some (s.connInfo (s.fget RFM_CONN_IDX.CONN host) 0x4C)
  | .mpt, 0x00 => some (s.time.mpt % 2 ^ 32)
  | .mpt, 0x80 => some s.time.gt0.now.2
  | .mpt, 0xC0 => some s.time.gt1.now.2
  | .kv, 0x04 => some (s.storedWord .kv 0 0x04 host 0 + b2n s.keysBlocked * 2)
  | .kv, 0x8C => let w := s.fget KV_FUSE_ADDR.WORD host; some (if w < 16 then 0 else tget 0 s.vault.acc w)
  | .kv, 0x90 => let w := tget 0x3F s.vault.wstat (s.fget KV_FUSE_ADDR.WORD host); some (nbits w 31 31 * 2 ^ 31 + w % 64)
  | .kv, 0xA0 => some (s.storedWord .kv 0 0xA0 host 0 + b2n (s.mode == 2))
  | .pad, 0x10 => some ((List.range 16).foldl (fun a g => a + b2n (s.padLevel g) * 2 ^ g) 0)
  | .scb, 0x24 => some (s.storedWord .scb 0 0x24 host (s.bankOf host))
  | .scb, 0x28 => some (s.storedWord .scb 0 0x28 host (s.bankOf host))
  | .scb, 0x2C => some (s.storedWord .scb 0 0x2C host (s.bankOf host))
  | .scb, 0x30 => some (s.storedWord .scb 0 0x30 host (s.bankOf host))
  | .scb, 0x38 => some (s.storedWord .scb 0 0x38 host (s.bankOf host))
  | _, _ => none

/-- TYPE of an attachment: 0 absent, 1 PCIe, 2 serial, 3 MRT (R302). -/
def State.hostType (s : State) (h : Nat) : Nat := if s.hasHost h = false then 0 else if h < 2 then 1 else if h = 2 then 2 else 3

/-- What a window register of an instance shows beyond what is stored. -/
def State.windowView (s : State) (b : Blk) (kind off inst : Nat) : Option Nat :=
  let w := s.storedWord b kind off 0 inst
  match b, kind, off with
  | .ten, _, 0x1100 => if inst = 0 then some 1 else none
  | .ten, _, 0x1104 => if inst = 0 then some (w / 4 * 4 + 2) else none
  | .scb, _, 0x1104 => some (w + b2n (s.readyTask inst) * 8)
  | .scb, _, 0x115C => some (s.task inst).cycHi
  | .plc, _, 0x1104 => some (w + b2n (decide ((s.combined inst).length ≥ 2)) * 8)
  | .bal, _, 0x1128 => some (s.members inst 0)
  | .bal, _, 0x112C => some (s.members inst 1)
  | .bal, _, 0x1130 => some (s.members inst 2)
  | .bal, _, 0x1134 => some (s.members inst 3)
  | .mpt, _, 0x1108 => if s.fget MPT_CMP_STAT.STATE inst = 2 then some (tgtWords (s.cmpBase inst) (s.cmp inst).next).1 else none
  | .mpt, _, 0x110C => if s.fget MPT_CMP_STAT.STATE inst = 2 then some (tgtWords (s.cmpBase inst) (s.cmp inst).next).2.1 else none
  | .mpt, _, 0x1110 => if s.fget MPT_CMP_STAT.STATE inst = 2 then some (tgtWords (s.cmpBase inst) (s.cmp inst).next).2.2 else none
  | .pad, _, 0x1104 => some (b2n (s.padDrive inst).isSome * 2 + b2n (s.padLevel inst))
  | .eth, _, 0x1108 => if inst = 2 then some (w / 2 ^ 11 * 2 ^ 11 + 2 ^ 8 + w % 2 ^ 8) else none
  | .rng, 0, 0x1104 => some (w + b2n (s.waitsCq inst) * 8)
  | .rng, 1, 0x1104 => some (w + s.hostType inst * 16 + b2n (s.supv == inst) * 2)
  | .rng, 1, _ => if off ≥ 0x1120 ∧ inst < 3 then some 0 else none
  | _, _, _ => none

/-! ### Tables -/

/-- A word of a 16-bit map. -/
def pairWord (m : Tab Nat) (i : Nat) : Nat := tget 0 m i + tget 0 m (i + 1) * 2 ^ 16

/-- A word of a bank of the protection table at an offset below 0x1D200 (R48). -/
def Bank.tableWord (b : Bank) (o : Nat) : Nat :=
  if o < 0x10000 then tget 0 b.recs (o / 4)
  else if o < 0x14000 then tget 0 b.ring ((o - 0x10000) / 4)
  else if o < 0x16000 then pairWord b.task ((o - 0x14000) / 2)
  else if o < 0x18000 then pairWord b.slot ((o - 0x16000) / 2)
  else if o < 0x19000 then pairWord b.event ((o - 0x18000) / 2)
  else if o < 0x1D000 then pairWord b.cal ((o - 0x19000) / 2)
  else pairWord b.part ((o - 0x1D000) / 2)

/-- A word of the calendar control table (R173). -/
def CalCtl.word (c : CalCtl) (k : Nat) : Nat :=
  match k with
  | 0 => b2n c.activeB + 2 * b2n c.activeValid + 4 * (c.passive % 4)
  | 1 => 0
  | 2 => c.calSeq % 2 ^ 32
  | _ => c.calSeq / 2 ^ 32 % 2 ^ 32

/-- Four bytes of a byte table. -/
def bytesWord (t : Tab (BitVec 8)) (i : Nat) : Nat := ofLe ((List.range 4).map (fun k => tget 0 t (i + k)))

/-- A word of a block's tables (offsets from 0x1_0000). -/
def State.tableWord (s : State) (b : Blk) (off host : Nat) : Nat :=
  match b with
  | .ten => if off < 0x2D200 then s.ten.pend.tableWord (off - 0x10000)
            else if 0x50000 ≤ off ∧ off < 0x6D200 then s.ten.active.tableWord (off - 0x50000) else 0
  | .pip => if off < 0x18000 then tget 0 s.pip.routes ((off - 0x10000) / 4)
            else if 0x20000 ≤ off ∧ off < 0x22000 then tget 0 s.pip.profiles ((off - 0x20000) / 4)
            else if 0x30000 ≤ off ∧ off < 0x50000 then tget 0 s.pip.obis ((off - 0x30000) / 4) else 0
  | .ldg => if off < 0x30000 then (tget {} s.ldg.cals ((off - 0x10000) / 16) : CalCtl).word (off / 4 % 4)
            else if off < 0x31000 then
              (match tget none s.ldg.quar ((off - 0x30000) / 4) with | some q => q.1 + q.2 * 2 ^ 22 + 2 ^ 31 | none => 0)
            else 0
  | .scb => if off < 0x90000 then tget 0 s.scb.istore ((off - 0x10000) / 4)
            else if off < 0x90200 then pairWord s.scb.pages ((off - 0x90000) / 2)
            else if 0x91000 ≤ off ∧ off < 0x92000 then s.poolQuota ((off - 0x91000) / 4)
            else if 0xA0000 ≤ off ∧ off < 0xA1000 then bytesWord s.dstore (4096 * s.fget SCB_PAGE_IDX.PAGE host + off - 0xA0000)
            else 0
  | .evt => if off < 0x12000 then tget 0 s.rng.routes ((off - 0x10000) / 4) else 0
  | .upd => if off < 0x20000 then bytesWord s.upd.buf (off - 0x10000) else 0
  | .sto => if off < 0x11000 then bytesWord s.nand.qbuf (off - 0x10000)
            else if 0x20000 ≤ off ∧ off < 0x20400 then leAt s.ink.window (off - 0x20000) 4 else 0
  | _ => 0

/-! ### Which reads are allowed (R37, R38) -/

/-- The tenant that owns the instance of a window: the owner in the active bank, or the OWNER the unit's own register names. An instance for
which the spec names no owner is tenant 0's (log entry 100). -/
def State.windowOwner (s : State) (b : Blk) (kind inst : Nat) : Option Nat :=
  match b with
  | .ten => some inst
  | .pip => some inst
  | .ldg => some inst
  | .bal => s.balOwner inst
  | .scb => s.taskOwner inst
  | .prm => some (if kind = 0 then s.fget Q_CFG.OWNER inst else if kind = 1 then s.fget T_CFG.OWNER inst else s.fget L_CFG.OWNER inst)
  | .rng => if kind = 0 then s.ten.active.ringOwner inst else some 0
  | .evt => ownerOf s.ten.active.event inst
  | .kv => s.slotOwner inst
  | .sto => if kind = 0 then s.partOwner inst else some 0
  | .upd => some (s.fget UPD_C_STAT.TENANT inst)
  | _ => some 0

/-- A host other than the supervisor may read this offset (R38). -/
def State.mayRead (s : State) (host : Nat) (b : Blk) (off : Nat) : Bool :=
  (b == .chip && [0x00, 0x08, 0x0C, 0x14, 0x20].contains off)
  || (off == 0x1000 && b.selMask != 0)
  || (decide (0x1100 ≤ off ∧ off < 0x2000) && (match s.instOf b host with
      | some (k, i) => (match s.windowOwner b k i with | some t => nbit (s.ten.active.hostMask t) host | none => false)
      | none => false))

/-- A selector-range refusal: a window access of a block with a selector whose copy is at or above the count. -/
def State.selBad (s : State) (host : Nat) (b : Blk) (off : Nat) : Bool :=
  decide (0x1100 ≤ off ∧ off < 0x2000) && b.selMask != 0 && (s.instOf b host).isNone

/-- A register's value at an offset, once the access is allowed. -/
def State.readReg (s : State) (host : Nat) (b : Blk) (off : Nat) : Nat :=
  if off ≥ 0x10000 then s.tableWord b off host
  else if off = 0x1000 then s.sel b host
  else if off < 0x1000 then (s.directView b off host).getD (s.storedWord b 0 off host 0)
  else if off < 0x1100 then 0
  else match s.instOf b host with
    | some (k, i) => (s.windowView b k off i).getD (s.storedWord b k off host i)
    | none => 0

/-- A read of MPT_NOW_LO or of a domain's nanoseconds latches the words above it for the reading host (R75); one of an energy accumulator's LO or of
TSK_CYC_LO latches its HI (R209, R259). -/
def State.readLatch (s : State) (host : Nat) (b : Blk) (off : Nat) : State :=
  match b, off with
  | .mpt, 0x00 => s.fset MPT_NOW_HI.TIME_HI host (s.time.mpt / 2 ^ 32)
  | .mpt, 0x80 => (s.fset GT0_SEC_LO.SEC_LO host s.time.gt0.now.1).fset GT0_SEC_HI.SEC_HI host (s.time.gt0.now.1 / 2 ^ 32)
  | .mpt, 0xC0 => (s.fset GT1_SEC_LO.SEC_LO host s.time.gt1.now.1).fset GT1_SEC_HI.SEC_HI host (s.time.gt1.now.1 / 2 ^ 32)
  | .scb, 0x1158 => match s.instOf .scb host with
    | some (_, t) => s.setTask t { s.task t with cycHi := s.fget TSK_CYC_HI.CYC_HI t }
    | none => s
  | .bal, o => if isEnergyLo o then { s with bal := { s.bal with energyHi := tput 0 s.bal.energyHi (o + 4) (s.storedWord .bal 0 (o + 4) host 0) } } else s
  | _, _ => s

/-- A BAR0 read by a host: the word returned, and the state with what the read records (R37, R38). -/
def State.bar0Read (s : State) (host addr : Nat) : Nat × State :=
  match blkAt addr with
  | none => if host = s.supv then (0, s) else (0, s.chipErr CHIP_ERR.WINDOW_PROT host addr)
  | some b =>
    let off := addr % 0x100000
    if s.silent b then (0, s)
    else if s.selBad host b off then (0, s.chipErr CHIP_ERR.SEL_RANGE host addr)
    else if host ≠ s.supv ∧ s.mayRead host b off = false then (0, s.chipErr CHIP_ERR.WINDOW_PROT host addr)
    else (s.readReg host b off, s.readLatch host b off)

/-- A read of MPT_NOW_LO: the low word, MPT_NOW_HI latched for the reading host (R75). A host that may not read it gets R38's answer. -/
def execMptNowRead (host : Nat) (s : State) : Res :=
  .next (if host ≥ 8 ∨ s.silent .mpt then s else let r := s.bar0Read host (Blk.mpt.addr 0x00); r.2.emit (.reply host [r.1]))

/-- A read of GTn_NS: the nanoseconds, the seconds latched for the reading host (R75). A host that may not read it gets R38's answer. -/
def execGtNsRead (host domain : Nat) (s : State) : Res :=
  .next (if host ≥ 8 ∨ domain > 1 ∨ s.silent .mpt then s
    else let r := s.bar0Read host (Blk.mpt.addr (gtOff domain 0x80)); r.2.emit (.reply host [r.1]))

/-- A BAR2 read of a doorbell page (R284, R285): DB_FETCH and DB_STAT for the ring's own host; any other host reads 0. -/
def State.bar2Read (s : State) (host ring off : Nat) : Nat :=
  if ring ≥ 4096 ∨ s.ringHost ring ≠ host then 0
  else match off with
    | 8 => if s.fbit RNG_R_CFG.TYPE ring then s.fget RNG_R_CQ.TAIL ring else s.fget RNG_R_SQ.HEAD ring
    | 12 => s.fget RNG_R_STAT.GEN ring * 2 ^ 16 + s.fget RNG_R_STAT.STATE ring
    | _ => 0

/-- A refused read of a window, or of an offset the host may not read: it returns 0 and sets SEL_RANGE or WINDOW_PROT (R37, R38). An
access that is not refused is none of this command's. -/
def execWindowReadRefused (host addr : Nat) (s : State) : Res :=
  .next (if s.mode = 0 then s
    else match blkAt addr with
      | none => if host = s.supv then s else (s.chipErr CHIP_ERR.WINDOW_PROT host addr).emit (.reply host [0])
      | some b =>
        let off := addr % 0x100000
        if s.silent b then s
        else if s.selBad host b off ∨ (host ≠ s.supv ∧ s.mayRead host b off = false) then
          let r := s.bar0Read host addr
          r.2.emit (.reply host [r.1])
        else s)

end Sys2Proof.Machine
end

