-- ==== Sys2Proof/Machine/Writes.lean ====
section
/-! DEFINITION. What a BAR0 or BAR2 write does, register by register (R7 to R9, R34 to R38, R563): the rows that have a register of their
own, the conditions a configuration write must meet, and the plain registers. -/
namespace Sys2Proof.Machine
open Reg

/-! ### Shared judgements -/

/-- The state a row's own meaning leaves. -/
def State.viaRow (s : State) (f : State → Res) : State :=
  match f s with
  | .next t => t
  | _ => s

/-- A plain write of a register of an instance. -/
def State.putReg (s : State) (host : Nat) (b : Blk) (kind off inst w : Nat) : State := (s.writeReg host b kind off inst w).2

/-- A plain write of a direct register; a per-host one stores the writing host's copy. -/
def State.putDirect (s : State) (host : Nat) (b : Blk) (off w : Nat) : State :=
  if (fieldsAt b 9 off).isEmpty then s.putReg host b 0 off 0 w else s.putReg host b 9 off host w

/-- A write that would leave every field but one as it is. -/
def State.sameBut (s : State) (b : Blk) (kind off inst : Nat) (keep : Fld) (w : Nat) : Bool :=
  (fieldsAt b kind off).all (fun f => f.1.id == keep.id || s.fget f.1 (inst * f.1.cnt + f.2) == f.1.of w)

/-- Keep a write's result only if it meets a condition; else record an error at the offset (R563). -/
def State.putIf (s : State) (host : Nat) (b : Blk) (kind off inst w : Nat) (ok : State → Bool) (bad : State → State) : State :=
  let r := s.writeReg host b kind off inst w
  if r.1 = false ∨ ok r.2 then r.2 else bad (s.rwlReport host b kind off inst w)

/-- A command register whose code the table does not define: out of range (log entry 46). Code 0 does nothing. -/
def State.opRange (s : State) (b : Blk) (host off op : Nat) : State := if op = 0 then s else s.rangeFault b host off

/-- No two of a list of areas, base and bytes, overlap. -/
def areasApart : List (Nat × Nat) → Bool
  | [] => true
  | a :: t => t.all (fun b => !overlaps a.1 a.2 b.1 b.2) && areasApart t

/-- The areas of a list that hold anything. -/
def liveAreas (l : List (Nat × Nat)) : List (Nat × Nat) := l.filter (fun a => a.2 != 0)

/-! ### CHIP, TEN, RNG, EVT -/

/-- A write to CHIP (R46). -/
def State.chipWrite (s : State) (host off w : Nat) : State :=
  if off = 0x18 then s.viaRow (execChipLock host w)
  else if off = 0x24 then (if nbit w 0 then s.viaRow (execSwitch host) else s)
  else s.putDirect host .chip off w

/-- A write to TEN (R47, R48). -/
def State.tenWrite (s : State) (host off w : Nat) : State :=
  if off = 0x1100 then s.viaRow (execTenEnable host w)
  else if off ≥ 0x10000 then s.viaRow (execTenPendingWrite host off 32 w)
  else s.putDirect host .ten off w

/-- A write in the window of a ring (R271, R301). -/
def State.ringWindow (s : State) (host r off w : Nat) : State :=
  if off = 0x1100 then s.viaRow (execRingEnable host w)
  else if off = 0x1138 then s.viaRow (execRngRClr host w)
  else
    let conf : Bool := decide (0x1108 ≤ off ∧ off ≤ 0x1120)
    let free : Bool := off == 0x1108 && s.sameBut .rng 0 off r RNG_R_CFG.PRIO w
    if conf ∧ s.fget RNG_R_STAT.STATE r ≠ 0 ∧ free = false then s.rngErr RNG_ERR.BUSY host r (some off)
    else s.putReg host .rng 0 off r w

/-- A write in the window of a host attachment (R264, R302). MRT registers exist for hosts 3 to 7. -/
def State.hostWindow (s : State) (host h off w : Nat) : State :=
  if off ≥ 0x1120 ∧ h < 3 then s
  else
    let s := s.putReg host .rng 1 off h w
    if off ≠ 0x1100 then s else if s.fbit RNG_H_CTRL.ALLOW h then s.hostUpIf h else s.hostDown h

/-- A write to EVT (R290, R303). -/
def State.evtWrite (s : State) (host off w : Nat) : State :=
  if off = 0x1108 then s.viaRow (execEvtSClr host w)
  else if off ≥ 0x10000 then s.viaRow (execEvtRouteWrite host off w)
  else s.putDirect host .evt off w

/-! ### SCB, PRM -/

/-- A write of BANK_CTRL, BANK_BASE or BANK_LEN of the bank the host's SCB_BANK_IDX names (R230). -/
def State.bankWrite (s : State) (host off w : Nat) : State :=
  let b := s.bankOf host
  let st := s.fget SCB_BANK_CTRL.STATE b
  if st > 1 then s.errAt SCB_ERR.BANK_BUSY off
  else if off = 0x24 then
    s.putIf host .scb 0 off b w (fun t => !t.fbit SCB_BANK_CTRL.SHARED b || t.fget SCB_BANK_CTRL.OWNER b == 0) (fun s => s.errAt SCB_ERR.RANGE off)
  else
    s.putIf host .scb 0 off b w
      (fun t =>
        let base := t.fget SCB_BANK_BASE.BASE b
        let len := t.fget SCB_BANK_LEN.LEN b
        decide (base + len ≤ 131072) && (st == 0 || t.bankClear b base len))
      (fun s => s.errAt SCB_ERR.OVERLAP off)

/-- A write of SCB_BANK_CMD. -/
def State.bankCmd (s : State) (host w : Nat) : State :=
  match w % 4 with
  | 1 => s.viaRow (execOpen host)
  | 2 => s.viaRow (execSeal host)
  | 3 => s.viaRow (execRelease host)
  | _ => s

/-- The queues' event pool: one tenant's quota (R219). -/
def State.quotaWrite (s : State) (t off w : Nat) : State :=
  let q := w % 2 ^ 17
  let others : Nat := (s.poolQ.filter (fun e => e.1 != t)).foldl (fun (a : Nat) (e : Nat × Nat) => a + e.2) 0
  if others + q > 65536 then s.errAt SCB_ERR.QUOTA off else { s with poolQ := tput 0 s.poolQ t q }

/-- A write in the window of a task (R214, R259). -/
def State.taskWindow (s : State) (host t off w : Nat) : State :=
  if off = 0x1100 then s.viaRow (execTaskEnable host w)
  else if off = 0x1160 then s.viaRow (execTskCmdClr host w)
  else
    let free : Bool := off == 0x1108 && s.sameBut .scb 0 off t TSK_CFG.PRIO w
    if 0x1108 ≤ off ∧ off ≤ 0x112C ∧ s.fget TSK_STAT.STATE t ≠ 0 ∧ free = false then s.errAt SCB_ERR.BUSY off
    else s.putReg host .scb 0 off t w

/-- A write to SCB's tables (R219, R230, R231, R258). -/
def State.scbTable (s : State) (host off w : Nat) : State :=
  if off < 0x90000 then s.viaRow (execInstructionStoreWrite host off w)
  else if off < 0x90200 then s.viaRow (execPageOwnerWrite host off 32 w)
  else if 0x91000 ≤ off ∧ off < 0x92000 then s.quotaWrite ((off - 0x91000) / 4) off w
  else if 0xA0000 ≤ off ∧ off < 0xA1000 then
    let a := 4096 * s.fget SCB_PAGE_IDX.PAGE host + (off - 0xA0000)
    { s with dstore := (List.range 4).foldl (fun (m : Tab Byte) k => tput 0 m (a + k) (BitVec.ofNat 8 (w / 2 ^ (8 * k)))) s.dstore }
  else s

/-- A write to SCB's direct registers. -/
def State.scbWrite (s : State) (host off w : Nat) : State :=
  if off = 0x24 ∨ off = 0x28 ∨ off = 0x2C then s.bankWrite host off w
  else if off = 0x30 then s.putReg host .scb 0 off (s.bankOf host) w
  else if off = 0x34 then s.bankCmd host w
  else s.putDirect host .scb off w

/-- A write in the window of a queue (R241, R245). A new place must be inside the store, aligned and free. -/
def State.queueWindow (s : State) (host q off w : Nat) : State :=
  if off = 0x1100 then s.viaRow (execQueueEnable host w)
  else if off = 0x1120 then (s.viaRow (execFlush host w)).viaRow (execClrHigh host w)
  else if 0x1108 ≤ off ∧ off ≤ 0x1114 then
    if s.fget Q_STAT.STATE q ≠ 0 then s.errAt PRM_ERR.BUSY off
    else if off = 0x1108 ∨ off = 0x110C then
      s.putIf host .prm 0 off q w (fun t => t.qPlaceOk q (t.fget Q_BASE.BASE q) (t.qDepth q)) (fun s => s.errAt PRM_ERR.OVERLAP off)
    else s.putReg host .prm 0 off q w
  else s.putReg host .prm 0 off q w

/-- A write in the window of a hashed table (R246, R251). -/
def State.htabWindow (s : State) (host t off w : Nat) : State :=
  if off = 0x1100 then s.viaRow (execTableEnable host w)
  else if off = 0x1138 then ((s.viaRow (execSweepNow host { value := w })).viaRow (execTClr host w)).viaRow (execScrubBad host w)
  else if off = 0x1108 ∨ off = 0x110C then
    if s.fget T_STAT.STATE t ≠ 0 then s.errAt PRM_ERR.BUSY off
    else s.putIf host .prm 1 off t w (fun u => u.tPlaceOk t (u.fget T_BASE.BASE t) (u.tSets t)) (fun s => s.errAt PRM_ERR.OVERLAP off)
  else s.putReg host .prm 1 off t w

/-- A write in the window of a lock group (R252). -/
def State.lockWindow (s : State) (host g off w : Nat) : State :=
  if off = 0x1100 then s.viaRow (execLockGroupEnable host w)
  else if off = 0x1108 ∧ s.fget L_STAT.STATE g ≠ 0 then s.errAt PRM_ERR.BUSY off
  else s.putReg host .prm 2 off g w

/-! ### PIP, LDG, BAL -/

/-- The retry budget (R117). -/
def State.retryBudget (s : State) : Nat :=
  s.fget PIP_RETRY_DMA.TRIES * s.fget PIP_RETRY_DMA.TMO + s.fget PIP_RETRY_KEY.TRIES * s.fget PIP_RETRY_KEY.TMO
    + s.fget PIP_RETRY_LDG.TRIES * s.fget PIP_RETRY_LDG.TMO

/-- A write to PIP (R117, R126, R127). -/
def State.pipWrite (s : State) (host off w : Nat) : State :=
  if off = 0x04 then
    s.putIf host .pip 0 off 0 w (fun t => decide (t.fget PIP_TMO.TMO ≥ t.retryBudget + 10)) (fun s => s.errAt PIP_ERR.TMO_SHORT off)
  else if off = 0x08 ∨ off = 0x0C ∨ off = 0x10 then
    let s : State := s.putIf host .pip 0 off 0 w (fun t => decide (t.retryBudget + 10 ≤ t.fget PIP_TMO.TMO)) (fun s => s.errAt PIP_ERR.RETRY_LONG off)
    s.fset PIP_BUDGET.SUM 0 s.retryBudget
  else if off = 0x11FC then s.viaRow (execClear host w)
  else if off = 0x00 then (s.putDirect host .pip off w).lowCheck
  else s.putDirect host .pip off w

/-- A write to PIP's tables: routes, profiles, OBIS entries (R87, R94, R96, R127). -/
def State.pipTable (s : State) (host off w : Nat) : State :=
  if off < 0x18000 then s.viaRow (execRouteEntryWrite host off w)
  else if 0x20000 ≤ off ∧ off < 0x22000 then
    let k := (off - 0x20000) / 4
    { s with pip := { s.pip with profiles := tput 0 s.pip.profiles k (Nat.land w (profileMask (k % 8))) } }
  else if 0x30000 ≤ off ∧ off < 0x50000 then
    let k := (off - 0x30000) / 4
    { s with pip := { s.pip with obis := tput 0 s.pip.obis k (Nat.land w (obisMask (k % 2))) } }
  else s

/-- LDG's configured areas. -/
def State.ldgAreas (s : State) : List (Nat × Nat) :=
  (if s.fbit LDG_CFG.AREA_VALID then [(s.base LDG_BASE_LO.BASE_LO 20 LDG_BASE_HI.BASE_HI, s.fget LDG_COUNT.COUNT * 1024),
      (s.base LDG_WATCH_LO.BASE_LO 20 LDG_WATCH_HI.BASE_HI, 65536 * 4)] else [])
  ++ (if s.fbit LDG_CFG.BLOB_VALID then [(s.base LDG_BLOB_LO.BASE_LO 20 LDG_BLOB_HI.BASE_HI, s.fget LDG_COUNT.COUNT * 64)] else [])
  ++ (if s.fbit LDG_CFG.CAL_VALID then [(s.base LDG_CAL_LO.BASE_LO 20 LDG_CAL_HI.BASE_HI, 16384 * 4096)] else [])

/-- BAL's configured areas. -/
def State.balAreas (s : State) : List (Nat × Nat) :=
  (if s.fbit BAL_CFG.AREA_VALID then [(s.base BAL_AREA_LO.BASE_LO 20 BAL_AREA_HI.BASE_HI, 65536 * 640)] else [])
  ++ (if s.fbit BAL_CFG.MEMB_VALID then [(s.base BAL_MEMB_LO.BASE_LO 20 BAL_MEMB_HI.BASE_HI, 2097152 * 2)] else [])

/-- A write of an area register: a base that is not aligned, or areas that would overlap, discard it with AREA. `lo`: the register holds
the low part of a base whose alignment is 2^lo. -/
def State.areaWrite (s : State) (host : Nat) (b : Blk) (off w lo : Nat) (areas : State → List (Nat × Nat)) (err : Fld) : State :=
  if s.locked then s.putDirect host b off w
  else if w % 2 ^ lo ≠ 0 then s.errAt err off
  else s.putIf host b 0 off 0 w (fun t => areasApart (liveAreas (areas t))) (fun s => s.errAt err off)

/-- A write of LDG_QUAR_CMD (R154). -/
def State.quarCmd (s : State) (host w : Nat) : State :=
  let l := w % 2 ^ 21
  match nbits w 25 24 with
  | 1 => s.viaRow (execRebuild host l true)
  | 2 => s.viaRow (execQuarClear host l)
  | 3 => s.viaRow (execRequar host l)
  | _ => s

/-- A write of LDG_CAL_CMD (R131). -/
def State.calCmd (s : State) (host w : Nat) : State :=
  let c := w % 2 ^ 13
  match nbits w 17 16 with
  | 1 => s.viaRow (execArm host c)
  | 2 => s.viaRow (execCancel host c)
  | 3 => s.viaRow (execActivateNow host c)
  | _ => s

/-- A write to LDG's direct registers (R172). -/
def State.ldgWrite (s : State) (host off w : Nat) : State :=
  if off = 0x44 then s.quarCmd host w
  else if off = 0x70 then s.calCmd host w
  else if [0x08, 0x10, 0x18, 0x60].contains off then s.areaWrite host .ldg off w 20 State.ldgAreas LDG_ERR.AREA
  else if [0x00, 0x04, 0x0C, 0x14, 0x1C, 0x64].contains off then s.areaWrite host .ldg off w 0 State.ldgAreas LDG_ERR.AREA
  else s.putDirect host .ldg off w

/-- What a tenant's sink registers may name: a partition or ring it owns (R138, R172). -/
def State.sinkOk (s : State) (t off : Nat) : Bool :=
  match off with
  | 0x1100 => s.partOwner (s.fget LDG_T_SINK.JPART t) == some t
  | 0x1104 => !s.fbit LDG_T_HRING.VALID t || s.ten.active.ringOwner (s.fget LDG_T_HRING.RING t) == some t
  | 0x110C => !s.fbit LDG_T_CKPT.VALID t || s.partOwner (s.fget LDG_T_CKPT.PART t) == some t
  | _ => true

/-- The journal buffer quotas of all tenants together, in KiB (R142). -/
def State.jbufSum (s : State) : Nat := (List.range 1024).foldl (fun a t => a + s.fget LDG_T_JBUF.QUOTA t) 0

/-- A write in the ledger window of a tenant (R142, R173). -/
def State.ldgWindow (s : State) (host t off w : Nat) : State :=
  if off = 0x1110 then (if nbit w 0 then s.viaRow (execTake host) else s)
  else if off = 0x1154 then
    let s : State := if nbit w 0 then s.viaRow (execResyncNand host) else s
    let s : State := if nbit w 1 then s.viaRow (execResyncPtnr host) else s
    let s : State := if nbit w 2 then s.viaRow (execResyncHost host) else s
    if nbit w 3 then s.viaRow (execRebuildDone host) else s
  else if off = 0x1140 then
    let s : State := s.putIf host .ldg 0 off t w (fun u => decide (u.jbufSum ≤ 2048)) (fun s => s.errAt LDG_ERR.SINK_CFG off)
    s.fset LDG_JBUF.QUOTA_SUM 0 s.jbufSum
  else
    let old := s.fget LDG_T_SINK.EN t
    let ring := s.fget LDG_T_HRING.RING t
    let s : State := s.putIf host .ldg 0 off t w (fun u => u.sinkOk t off) (fun s => s.errAt LDG_ERR.SINK_CFG off)
    if off = 0x1100 then s.sinkChange t old else if off = 0x1104 then (if s.fget LDG_T_HRING.RING t = ring then s else s.hostStale t).hostFeedAll t else s

/-- A write to BAL's direct registers (R209). -/
def State.balWrite (s : State) (host off w : Nat) : State :=
  if off = 0x40 then s.viaRow (execMetrologyEnable host w)
  else if 0x400 ≤ off ∧ off < 0x500 ∧ off % 32 = 0 then s.wsEnable host off w
  else if 0x400 ≤ off ∧ off < 0x500 ∧ (off % 32 = 4 ∨ off % 32 = 8) then s.wsWrite host off w
  else if 0x540 ≤ off ∧ off < 0x580 then s.viaRow (execMarkTableWrite host off w)
  else if off = 0x704 then s.viaRow (execMembValWrite host w)
  else if off = 0x04 ∨ off = 0x0C then s.areaWrite host .bal off w 20 State.balAreas BAL_ERR.AREA
  else if off = 0x00 ∨ off = 0x08 ∨ off = 0x10 then s.areaWrite host .bal off w 0 State.balAreas BAL_ERR.AREA
  else s.putDirect host .bal off w

/-- A write in the window of a node (R197). -/
def State.balWindow (s : State) (host n off w : Nat) : State :=
  if off = 0x1100 then s.viaRow (execBalNodeEnable host w)
  else if 0x1108 ≤ off ∧ off ≤ 0x1124 then s.nodeWrite host n off w
  else s.putReg host .bal 0 off n w

/-! ### MPT, PLC, RFM -/

/-- A write to MPT (R75 to R77). -/
def State.mptWrite (s : State) (host off w : Nat) : State :=
  match off with
  | 0x10 => s.viaRow (execNominal60Change host w)
  | 0x20 => s.viaRow (execMptLoadLo host w)
  | 0x30 => s.viaRow (execGridSelWrite host w)
  | 0x50 => s.viaRow (execSnapTake host w)
  | 0x90 => s.viaRow (execGtTrimWrite host 0 w)
  | 0xD0 => s.viaRow (execGtTrimWrite host 1 w)
  | _ =>
    if off = 0x9C ∨ off = 0xDC then
      let d := if off = 0x9C then 0 else 1
      let s : State := if nbit w 2 then s.viaRow (execInvalidate host d) else s
      let s : State := if nbit w 0 then s.viaRow (execStep host d) else s
      if nbit w 1 then s.viaRow (execConfirm host d) else s
    else s.putDirect host .mpt off w

/-- A write in the window of a compare unit (R68). -/
def State.cmpWindow (s : State) (host u off w : Nat) : State :=
  if off = 0x1100 then s.viaRow (execCompareArm host w)
  else if 0x1108 ≤ off ∧ off ≤ 0x1118 ∧ s.fget MPT_CMP_STAT.STATE u ≠ 0 then s.errAt MPT_ERR.CMP_BUSY off
  else s.putReg host .mpt 0 off u w

/-- A slot of tenant 0 that holds a key with an attribute. -/
def State.slotIs (s : State) (n attr : Nat) : Bool :=
  s.slotOwner n == some 0 && s.fget KV_S_INFO.STATE n != 0 && s.fget KV_S_INFO.ATTR n == attr

/-- A link key register: with VALID, TX_SLOT an ENCRYPT and RX_SLOT a DECRYPT slot of tenant 0 (R336, R369). -/
def State.keyWrite (s : State) (host : Nat) (b : Blk) (off w : Nat) (err : Fld) : State :=
  if s.locked then s.putDirect host b off w
  else if nbit w 31 ∧ (s.slotIs (nbits w 27 16) 0 = false ∨ s.slotIs (nbits w 11 0) 1 = false) then s.errAt err off else s.putDirect host b off w

/-- A write of PLC_NODE_CMD. -/
def State.plcNodeCmd (s : State) (host w : Nat) : State :=
  match w % 4 with
  | 1 => s.viaRow (execPlcNodeRead host)
  | 2 => s.viaRow (execPlcNodeWrite host)
  | 3 => s.viaRow (execPlcNodeClear host)
  | _ => s

/-- A write to PLC's direct registers (R336). -/
def State.plcWrite (s : State) (host off w : Nat) : State :=
  match off with
  | 0x08 => s.viaRow (execCombiningGroupWrite host w)
  | 0x0C => s.keyWrite host .plc off w PLC_ERR.KEY
  | 0x10 => s.keyWrite host .plc off w PLC_ERR.KEY
  | 0x6C => s.plcNodeCmd host w
  | _ => s.putDirect host .plc off w

/-- The conditions between the fields of a lane's registers (R322, R323, R337). -/
def State.laneOk (s : State) (n off : Nat) : Bool :=
  match off with
  | 0x1124 => decide (s.fget PLC_L_TM.REFRESH n < s.fget PLC_L_TM.TTL n)
  | 0x1128 => decide (s.fget PLC_L_MODE.FAIL_ROBO n + s.fget PLC_L_MODE.FAIL_SROBO n ≤ 7)
  | 0x1130 => decide (s.fget PLC_L_MAC.BE_MIN n ≤ s.fget PLC_L_MAC.BE_MAX n)
  | _ => true

/-- A refused lane setting also sets PLC_L_ERR.CFG of the lane (R337; log entry 85). -/
def State.laneCfgErr (s : State) (n : Nat) : State := s.laneErr PLC_L_ERR.CFG n

/-- A write in the window of a lane (R337). -/
def State.laneWindow (s : State) (host n off w : Nat) : State :=
  if off = 0x1100 then s.viaRow (execLaneEnable host w)
  else if off = 0x11C4 then (s.viaRow (execPlcLClr host w)).viaRow (execClrTrim host w)
  else if 0x1108 ≤ off ∧ off ≤ 0x1114 ∧ s.fget PLC_L_STAT.STATE n ≠ 0 then (s.errAt PLC_ERR.BUSY off).laneCfgErr n
  else
    let r := s.writeReg host .plc 0 off n w
    if r.1 = false then r.2.laneCfgErr n else if r.2.laneOk n off then r.2 else (s.errAt PLC_ERR.RANGE off).laneCfgErr n

/-- The area an RFM base register places, and the other two (R340, R361, R346). -/
def State.rfmAreas (s : State) (off : Nat) : List (Nat × Nat) × List (Nat × Nat) :=
  let slow := (s.base RFM_SLOW_LO.BASE_LO 22 RFM_SLOW_HI.BASE_HI, 4194304)
  let conn := (s.base RFM_CONN_LO.BASE_LO 18 RFM_CONN_HI.BASE_HI, 262144)
  let rpl := (s.base RFM_RPL_LO.BASE_LO 19 RFM_RPL_HI.BASE_HI, 524288)
  if off < 0x20 then ([slow], [conn, rpl]) else if off < 0x28 then ([conn], [slow, rpl]) else ([rpl], [slow, conn])

/-- A write of an RFM base register: the area it places must be aligned and apart from the others. -/
def State.rfmArea (s : State) (host off w : Nat) : State :=
  let lo := if off = 0x18 then 22 else if off = 0x20 then 18 else if off = 0x28 then 19 else 0
  if s.locked then s.putDirect host .rfm off w
  else if w % 2 ^ lo ≠ 0 then s.errAt RFM_ERR.AREA off
  else s.putIf host .rfm 0 off 0 w (fun t => (t.rfmAreas off).1.all (fun a => (t.rfmAreas off).2.all (fun b => !overlaps a.1 a.2 b.1 b.2)))
    (fun s => s.errAt RFM_ERR.AREA off)

/-- A write to RFM's direct registers (R369). -/
def State.rfmWrite (s : State) (host off w : Nat) : State :=
  if off = 0x08 ∨ off = 0x0C then s.keyWrite host .rfm off w RFM_ERR.KEY
  else if 0x18 ≤ off ∧ off < 0x30 then s.rfmArea host off w
  else s.putDirect host .rfm off w

/-- RFM_R_ERR.CFG, which signals source 768 + 64n + 7 (R368). -/
def State.radioCfgErr (s : State) (n : Nat) : State :=
  let s := s.fset RFM_R_ERR.CFG n 1
  s.signal (radioSrc n 7) (leB 4 (s.word .rfm 0 0x11C0 n))

/-- The conditions on a radio's personality, channel plan and back-off (R339, R340, R350, R370). The answer is whether the fault is CFG's. -/
def State.radioOk (s : State) (n off : Nat) : Bool :=
  match off with
  | 0x1108 => !s.fbit RFM_R_CFG.CSM_EN n || s.fget RFM_R_CFG.PERS n == 0
  | 0x110C => decide (400000000 ≤ s.fget RFM_R_CH0.HZ n ∧ s.fget RFM_R_CH0.HZ n + (s.fget RFM_R_CHSP.NCH n - 1) * s.fget RFM_R_CHSP.HZ n ≤ 960000000)
  | 0x1110 => decide (400000000 ≤ s.fget RFM_R_CH0.HZ n ∧ s.fget RFM_R_CH0.HZ n + (s.fget RFM_R_CHSP.NCH n - 1) * s.fget RFM_R_CHSP.HZ n ≤ 960000000)
  | _ => true

/-- A write in the window of a radio (R339, R370). -/
def State.radioWindow (s : State) (host n off w : Nat) : State :=
  if off = 0x1100 then s.viaRow (execRadioEnable host w)
  else if off = 0x11C4 then s.viaRow (execRfmRClr host w)
  else if 0x1108 ≤ off ∧ off ≤ 0x1114 ∧ s.fget RFM_R_STAT.STATE n ≠ 0 then s.errAt RFM_ERR.BUSY off
  else if off = 0x1124 then
    s.putIf host .rfm 0 off n w (fun t => decide (t.fget RFM_R_MAC.BE_MIN n ≤ t.fget RFM_R_MAC.BE_MAX n)) (fun s => s.errAt RFM_ERR.RANGE off)
  else s.putIf host .rfm 0 off n w (fun t => t.radioOk n off) (fun s => s.radioCfgErr n)

/-! ### KV, UPD, STO -/

/-- A write to KV's direct registers (R401), the device's fuses reading as its cells. -/
def State.kvWrite (s : State) (host off w : Nat) : State :=
  match off with
  | 0x14 => s.viaRow (execKvZeroize host w)
  | 0x94 =>
    match w % 4 with
    | 1 => s.viaRow (execReread host [])
    | 2 => s.viaRow (execProgram host (nbits w 31 16) [])
    | op => s.opRange .kv host off op
  | 0xA4 => if nbit w 0 then s.viaRow (execLock host (nbits w 31 16) []) else s
  | _ => s.putDirect host .kv off w

/-- A write of UPD_STAGE_CMD (R408 to R420). -/
def State.stageWrite (s : State) (host w : Nat) : State :=
  match w % 16 with
  | 0 => s
  | 1 => s.viaRow (execStageOpen host w)
  | 2 => s.viaRow (execWriteBlock host w)
  | 3 => s.viaRow (execVerify host w)
  | 4 => s.viaRow (execStageArm host w)
  | 5 => s.viaRow (execDisarm host w)
  | 6 => s.viaRow (execStageActivateNow host w)
  | 7 => s.viaRow (execStageConfirm host w)
  | 8 => s.viaRow (execRevert host w)
  | 9 => s.viaRow (execRaiseFloor host w [])
  | _ => s.errAt UPD_ERR.CMD 0x28

/-- Four bytes stored to a byte table. -/
def putBytes (m : Tab Byte) (a w : Nat) : Tab Byte := (List.range 4).foldl (fun (m : Tab Byte) k => tput 0 m (a + k) (BitVec.ofNat 8 (w / 2 ^ (8 * k)))) m

/-- A write to the staging buffer: accepted while the bank the last STAGE_CMD named is WRITING (R421). -/
def State.stageBufWrite (s : State) (off w : Nat) : State :=
  if s.fget (if s.fbit UPD_STAGE_CMD.BANK then UPD_BANK_B.STATE else UPD_BANK_A.STATE) ≠ 1 then s.errAt UPD_ERR.CMD off
  else { s with upd := { s.upd with buf := putBytes s.upd.buf (off - 0x10000) w } }

/-- A write to UPD (R421). -/
def State.updWrite (s : State) (host off w : Nat) : State :=
  if off = 0x28 then s.stageWrite host w
  else if 0x10000 ≤ off ∧ off < 0x20000 then s.stageBufWrite off w
  else s.putDirect host .upd off w

/-- A write to STO's direct registers and command buffer (R464, R467). -/
def State.stoWrite (s : State) (host off w : Nat) : State :=
  match off with
  | 0x08 =>
    match w % 16 with
    | 1 => s.viaRow (execQspiRead host w)
    | 2 => s.viaRow (execQspiProgram host w)
    | 3 => s.viaRow (execQspiErase host w)
    | 4 => s.viaRow (execBoothdr host w)
    | op => s.opRange .sto host off op
  | 0x28 => s.viaRow (execFormat host w [] [])
  | 0x94 => (s.viaRow (execFreeze host w)).viaRow (execInkRelease host w)
  | 0x98 => s.viaRow (execInkSnapTake host w)
  | 0xA4 => s.viaRow (execInkRdSeq host w false)
  | _ =>
    if 0x10000 ≤ off then (if off < 0x11000 then { s with nand := { s.nand with qbuf := putBytes s.nand.qbuf (off - 0x10000) w } } else s)
    else s.putDirect host .sto off w

/-! ### RES, ETH, SAF, PWR, PAD -/

/-- A write to RES (R482, R490). -/
def State.resWrite (s : State) (host off w : Nat) : State :=
  match off with
  | 0x04 => if s.locked ∨ s.slotIs (w % 4096) 3 then s.putDirect host .res off w else s.errAt RES_ERR.KEY off
  | 0x0C => (s.viaRow (execClaimRelease host w)).viaRow (execClaimTake host w)
  | 0x40 =>
    let s : State := s.putIf host .res 0 off 0 w (fun t => decide (t.fget RES_HU_CFG.V_PF ≥ t.fget RES_HU_CFG.V_MIN + 40)) (fun s => s.errAt RES_ERR.RANGE off)
    s.uncovered
  | 0x48 => s.putIf host .res 0 off 0 w (fun t => decide (100 * t.fget RES_HU_PWR.T_ENTRY ≥ t.fget STO_HU_TPROG.US + 100)) (fun s => s.errAt RES_ERR.RANGE off)
  | 0x54 => s.viaRow (execTest host w)
  | _ => s.putDirect host .res off w

/-- A write of ETH_CFG (R469, R470): entering BRIDGE gives the forwarding table a new salt and no entries. -/
def State.ethMode (s : State) (host w : Nat) : State :=
  if s.locked then s.putDirect host .eth 0x04 w
  else if s.fget ETH_P_STAT.STATE 0 ≠ 0 ∨ s.fget ETH_P_STAT.STATE 1 ≠ 0 then s.errAt ETH_ERR.MODE 0x04
  else
    let was := s.fget ETH_CFG.MODE
    let s : State := s.putDirect host .eth 0x04 w
    if was ≠ 1 ∧ s.fget ETH_CFG.MODE = 1 then
      let r := s.drawNat (2 ^ 64)
      r.2.setFdb { salt := r.1 }
    else s

/-- A write of ETH_FDB_CMD (R470). -/
def State.fdbWrite (s : State) (host w : Nat) : State :=
  match w % 8 with
  | 0 => s
  | 1 => s.viaRow (execFdbLookup host w [])
  | 2 => s.viaRow (execFdbInsertStatic host w [])
  | 3 => s.viaRow (execFdbDelete host w [])
  | 4 => s.viaRow (execFlushDynamic host w)
  | _ => s.errAt ETH_ERR.FDB 0x50

/-- A write to ETH's direct registers (R491). -/
def State.ethWrite (s : State) (host off w : Nat) : State :=
  if off = 0x04 then s.ethMode host w else if off = 0x50 then s.fdbWrite host w else s.putDirect host .eth off w

/-- A write in the window of a port (R468, R492). -/
def State.portWindow (s : State) (host p off w : Nat) : State :=
  if off = 0x1100 then s.viaRow (execEthPortEnable host w)
  else if off = 0x1128 then s.viaRow (execEthPClr host w)
  else if off = 0x1108 ∧ s.fget ETH_P_STAT.STATE p ≠ 0 then s.errAt ETH_ERR.BUSY off
  else
    let keep := s.fget ETH_P_CFG.SPEED p
    let s : State := s.putReg host .eth 0 off p w
    if p = 2 ∧ off = 0x1108 then s.fset ETH_P_CFG.SPEED p keep else s

/-- A write to SAF (R496, R500, R508). -/
def State.safWrite (s : State) (host off w : Nat) : State :=
  if off = 0x04 then ((s.viaRow (execSafArm host w true)).viaRow (execSafReset host w true)).viaRow (execRestart host w)
  else if off = 0xD0 then s.viaRow (execTampCfgWrite host w 0)
  else if 0x0C ≤ off ∧ off < 0xC0 then
    if s.safState ≠ 0 then (if (fieldsAt .saf 0 off).isEmpty then s else s.errAt SAF_ERR.BUSY off)
    else
      s.putIf host .saf 0 off 0 w
        (fun t => decide (t.fget SAF_TIMING.TP_WIDTH + 100 ≤ t.fget SAF_TIMING.FILTER) && (List.range 4).all (fun j => !t.fbit SAF_IN_CFG.MODE (2 * j + 1)))
        (fun s => s.errAt SAF_ERR.RANGE off)
  else s.putDirect host .saf off w

/-- The thermal thresholds ascend by at least 6 °C, and the last does not exceed 125 °C (R527). -/
def State.thrOk (s : State) : Bool :=
  let l : List Int := [PWR_THR_A.TH0, PWR_THR_A.TH1, PWR_THR_A.TH2, PWR_THR_B.TH3, PWR_THR_B.TH4, PWR_THR_B.TH5].map (fun f => sval 8 (s.fget f))
  (List.range 5).all (fun k => decide (l.getD k 0 + 6 ≤ l.getD (k + 1) 0)) && decide (l.getD 5 0 ≤ 125)

/-- A write of PWR_MODE_REQ (R517 to R519). -/
def State.modeReqWrite (s : State) (host w : Nat) : State :=
  match w % 16 with
  | 0 => s
  | 1 => s.viaRow (execIsland host w)
  | 2 => s.viaRow (execConnectReq host w)
  | 3 => s.viaRow (execDegrade host w)
  | 4 => s.viaRow (execResume host w)
  | _ => s.errAt PWR_ERR.CMD 0x00

/-- A write of PWR_RESET (R523). -/
def State.resetWrite (s : State) (host w : Nat) : State :=
  match w % 4 with
  | 0 => s
  | 1 => s.viaRow (execWarm host w)
  | 2 => s.viaRow (execCold host w)
  | _ => s.errAt PWR_ERR.CMD 0x14

/-- A write to PWR (R530). -/
def State.pwrWrite (s : State) (host off w : Nat) : State :=
  match off with
  | 0x00 => s.modeReqWrite host w
  | 0x10 => if s.locked = false ∧ s.centre ∧ nbit w 31 then s.errAt PWR_ERR.MODE off else s.putDirect host .pwr off w
  | 0x14 => s.resetWrite host w
  | 0x70 => s.putIf host .pwr 0 off 0 w State.thrOk (fun s => s.errAt PWR_ERR.RANGE off)
  | 0x74 => s.putIf host .pwr 0 off 0 w State.thrOk (fun s => s.errAt PWR_ERR.RANGE off)
  | 0x78 =>
    let s : State := s.putDirect host .pwr off w
    s.fset PWR_THROTTLE.ACTIVE 0 (b2n (decide (s.fget PWR_TBAND.BAND ≥ 5) && s.fbit PWR_THERM_CFG.THROTTLE_EN))
  | _ => s.putDirect host .pwr off w

/-- Report the GP balls whose drive changed between two states. -/
def State.padChanges (old s : State) : State :=
  (List.range 16).foldl (fun s g => if old.padDrive g = s.padDrive g then s else match s.padDrive g with
    | some l => s.emit (.pin 9 g (b2n l))
    | none => s) s

/-- A write to PAD (R560 to R562). -/
def State.padWrite (s : State) (host off w : Nat) : State :=
  let t : State := if off = 0x1100 then s.viaRow (execPadFuncWrite host w) else s.putDirect host .pad off w
  s.padChanges t

/-! ### The dispatch -/

/-- A write in the window of the instance the host's selector names. -/
def State.windowWrite (s : State) (host : Nat) (b : Blk) (kind inst off w : Nat) : State :=
  match b with
  | .ten => s.tenWrite host off w
  | .rng => if kind = 0 then s.ringWindow host inst off w else s.hostWindow host inst off w
  | .evt => s.evtWrite host off w
  | .scb => s.taskWindow host inst off w
  | .prm => if kind = 0 then s.queueWindow host inst off w else if kind = 1 then s.htabWindow host inst off w else s.lockWindow host inst off w
  | .pip => if off = 0x11FC then s.pipWrite host off w else s.putReg host .pip 0 off inst w
  | .ldg => s.ldgWindow host inst off w
  | .bal => s.balWindow host inst off w
  | .mpt => s.cmpWindow host inst off w
  | .plc => s.laneWindow host inst off w
  | .rfm => s.radioWindow host inst off w
  | .kv => if off = 0x1114 then (if nbit w 0 then s.viaRow (execErase host) else s) else s.putReg host .kv 0 off inst w
  | .eth => s.portWindow host inst off w
  | .pad => s.padWrite host off w
  | .upd => s.putReg host .upd 0 off inst w
  | .sto => s.putReg host .sto kind off inst w
  | .chip => s
  | .res => s
  | .saf => s
  | .pwr => s
  | .db => s

/-- A write of a direct register or a table. -/
def State.directWrite (s : State) (host : Nat) (b : Blk) (off w : Nat) : State :=
  match b with
  | .chip => s.chipWrite host off w
  | .ten => s.tenWrite host off w
  | .rng => if off ≥ 0x10000 then s else s.putDirect host .rng off w
  | .evt => s.evtWrite host off w
  | .scb => if off ≥ 0x10000 then s.scbTable host off w else s.scbWrite host off w
  | .prm => s.putDirect host .prm off w
  | .pip => if off ≥ 0x10000 then s.pipTable host off w else s.pipWrite host off w
  | .ldg => s.ldgWrite host off w
  | .bal => s.balWrite host off w
  | .mpt => s.mptWrite host off w
  | .plc => s.plcWrite host off w
  | .rfm => s.rfmWrite host off w
  | .kv => s.kvWrite host off w
  | .upd => s.updWrite host off w
  | .sto => s.stoWrite host off w
  | .res => s.resWrite host off w
  | .eth => s.ethWrite host off w
  | .saf => s.safWrite host off w
  | .pwr => s.pwrWrite host off w
  | .pad => s.padWrite host off w
  | .db => s

/-- A 32-bit BAR0 write by a host: the selectors every host may write, the supervisor check, the selector's range, then the register
(R34 to R38). An address in no block has no effect. -/
def State.bar0Write (s : State) (host addr w : Nat) : State :=
  match blkAt addr with
  | none => if s.mode = 0 ∨ host = s.supv then s else s.chipErr CHIP_ERR.NOT_SUPV host addr
  | some b =>
    let off := addr % 0x100000
    if s.silent b then s
    else if off = 0x1000 ∧ b.selMask ≠ 0 then s.setSel b host w
    else if host ≠ s.supv then s.chipErr CHIP_ERR.NOT_SUPV host addr
    else if 0x1100 ≤ off ∧ off < 0x2000 ∧ b.selMask ≠ 0 then
      match s.instOf b host with
      | none => s.chipErr CHIP_ERR.SEL_RANGE host addr
      | some (k, i) => s.windowWrite host b k i off w
    else s.directWrite host b off w

/-- A BAR2 write: the doorbell page of a ring (R284). -/
def State.bar2Write (s : State) (host ring off w : Nat) : State :=
  if s.mode = 0 ∨ ring ≥ 4096 then s
  else if off = 0 then s.viaRow (execDoorbellSqTail host ring w)
  else if off = 4 then s.viaRow (execDoorbellHead host ring w)
  else s

/-- A BAR0 write to a register that has no row of its own, judged field by field (R563). Through this row a register that has one acts
with an environment in which nothing fails (log entry 46). -/
def execRegisterWrite (host addr value : Nat) (s : State) : Res :=
  .next (if host ≥ 8 then s else s.bar0Write host (addr % 2 ^ 25) (value % 2 ^ 32))

/-- A host writes its own copy of a block's selector (R35, R36); an address that holds none is no selector's. -/
def execSelectorWrite (host addr value : Nat) (s : State) : Res :=
  .next (match blkAt addr with
    | none => s
    | some b => if host ≥ 8 ∨ s.silent b ∨ addr % 0x100000 ≠ 0x1000 ∨ b.selMask = 0 then s else s.setSel b host value)

end Sys2Proof.Machine
end

