-- ==== Sys2Proof/Machine/Tick.lean ====
section
/-! DEFINITION. One powered second with no command waiting: everything the spec has run by the clock (log entry 1). -/
namespace Sys2Proof.Machine
open Reg

/-- The ages that receivers and caches keep in milliseconds (R316, R320, R345). -/
def State.agesSecond (s : State) : State :=
  let old := fun (a : Nat) => min 65535 (a + 1000)
  let s : State := { s with plc := { s.plc with
    rx := s.plc.rx.map (fun e => (e.1, ({ e.2 with age := old e.2.age } : RxRec))), recent := s.plc.recent.map (fun r => { r with age := old r.age }) } }
  { s with rfm := { s.rfm with clk := s.rfm.clk + 1000000, recent := s.rfm.recent.map (fun r => { r with age := old r.age }) } }

/-- TM_AGE of a powerline neighbour; ACC_AGE in the replay record of a radio node (R319, R344, R348). -/
def State.nodeSecond (s : State) (n : Nat) : State :=
  if nodeValid (s.node n) = false then s
  else if nodeMedium (s.node n) = 0 then s.setNf n 0x1C 2 (min 65535 (s.nf n 0x1C 2 + 1))
  else
    let a := s.rplAddr n
    if nbit (leAt (s.mread (a + 0xD) 1) 0 1) 1 then s.mwrite (a + 0xE) (leB 2 (min 65535 (leAt (s.mread (a + 0xE) 2) 0 2 + 1000))) else s

/-- The energy and air-time buckets fill (R333, R366). -/
def State.bucketsSecond (s : State) : State :=
  let s : State := (List.range 4).foldl (fun (s : State) n => s.fset PLC_L_TOKENS.UJ n
    (tokAdd (s.fget PLC_L_TOKENS.UJ n) (s.fget PLC_L_BUDGET.RATE n * 1000 : Nat) (s.fget PLC_L_BUDGET.DEPTH n * 1000))) s
  let s : State := s.fset PLC_CHIP_TOKENS.UJ 0
    (tokAdd (s.fget PLC_CHIP_TOKENS.UJ) (s.fget PLC_CHIP_BUDGET.RATE * 1000 : Nat) (s.fget PLC_CHIP_BUDGET.DEPTH * 1000))
  (List.range 2).foldl (fun (s : State) n =>
    let s : State := s.fset RFM_R_TOKENS.UJ n
      (tokAdd (s.fget RFM_R_TOKENS.UJ n) (s.fget RFM_R_BUDGET.RATE n * 1000 : Nat) (s.fget RFM_R_BUDGET.DEPTH n * 1000))
    s.fset RFM_R_AIRTOK.US n (tokAdd (s.fget RFM_R_AIRTOK.US n) (s.fget RFM_R_DUTY.DUTY n * 1000 : Nat) (s.fget RFM_R_DUTY.DUTY n * 3600000))) s

/-- The temperature bin of a reading in 0.1 °C (R454). -/
def tempBin (t : Int) : Nat := if t < -400 then 0 else min 15 ((t + 400) / 100).toNat

/-- Erases of a die's blocks in all. -/
def State.dieTotal (s : State) (die : Nat) : Nat := s.nand.phys.foldl (fun (a : Nat) (e : Nat × Phys) => if dieOf e.1 = die then a + e.2.erases else a) 0

/-- The end of a powered day for a die: its total joins the last seven, and D_PROJ is computed from the erase rate over them (R455). -/
def State.dieDay (s : State) (die : Nat) : State :=
  let total := s.dieTotal die
  let h := (total :: tget [] s.nand.hist die).take 8
  let s : State := { s with nand := { s.nand with hist := tput [] s.nand.hist die h } }
  let days := h.length - 1
  let rate := total - h.getD days total
  let life := (if s.fget STO_NAND_ENDUR.CYCLES = 0 then s.nand.endur else s.fget STO_NAND_ENDUR.CYCLES) * s.fget STO_NAND_GEOM.BPD
  s.fset D_PROJ.DAYS die (if days = 0 ∨ rate = 0 then 65535 else min 65535 ((life - total) * days / rate))

/-- A powered second of each NAND die (R454, R455). -/
def State.diesSecond (s : State) : State :=
  let bin := tempBin (sval 16 (s.fget PWR_TEMP.T (min 8 (s.fget STO_NAND_CFG.TSENS))))
  (List.range (s.fget STO_INFO.DIES)).foldl (fun (s : State) d =>
    let s : State := s.fsat D_TEMP.S (16 * d + bin)
    if s.fget MPT_OPSEC.SECONDS % 86400 = 0 then s.dieDay d else s) s

/-- The timers of a trial, of a fuse read, and of the two DEGRADED states, shown in minutes (R374, R416, R500, R518). -/
def State.timersSecond (s : State) : State :=
  let s : State := if s.bankIn 4 = 2 then s else s.fsat UPD_TRIAL_S.S 0
  let s : State := s.fsat KV_FUSE_AGE.S 0
  let s : State := if s.pow.timer then { s with pow := { s.pow with deg := s.pow.deg - 1 } } else s
  let s : State := s.fset PWR_DEG.LEFT 0 (if s.pow.timer then (s.pow.deg + 59) / 60 else 0)
  if s.saf.deg = 0 then s
  else
    let d := s.saf.deg - 1
    (s.setSaf { s.saf with deg := d }).fset SAF_DEG.LEFT 0 ((d + 59) / 60)

/-- The block with no command waiting: in VAULT nothing runs; otherwise one powered second passes, after a restore that is due has begun. -/
def State.tick (s : State) : State :=
  if s.mode = 0 then s
  else
    let s : State := if s.upd.trialFault ∧ s.upd.act.isNone then s.trialRestore else s
    let s : State := s.timeSecond.timersSecond.agesSecond.bucketsSecond.diesSecond
    let s : State := (s.plc.nodes.map (fun (e : Nat × List (BitVec 8)) => e.1)).foldl (fun (s : State) n => s.nodeSecond n) s
    (s.fdbSweep (s.fget MPT_OPSEC.SECONDS)).prpSecond

end Sys2Proof.Machine
end

