-- ==== Sys2Proof/Machine/Boot.lean ====
section
/-! DEFINITION. BOOT: the steps from a reset or VAULT exit to role entry, PROVISION or RESTRICTED (R65, R66, R373, R376, R386, R412, R428 to R437, R453, R524). -/
namespace Sys2Proof.Machine
open Reg

/-! ### Exit from VAULT (R64 to R66, R511) -/

/-- The power-down's length: with the vault clock on throughout, the domain that was selected returns in HOLDOVER with the AGE of the power-down
(R66). DOMAIN itself has its reset value (log entry 102). -/
def State.vaultClock (s : State) (secs : Option Nat) (saved : Option (Nat × Nat × Nat)) : State :=
  match secs with
  | none => (s.fset MPT_VAULT.RAN 0 0).fset MPT_VSECS.SECONDS 0 0xFFFFFFFF
  | some n =>
    let s : State := (s.fset MPT_VAULT.RAN 0 1).fset MPT_VSECS.SECONDS 0 n
    match saved with
    | none => s
    | some (d, sec, ns) =>
      let g : GridDom := { now := ((sec + n) % 2 ^ 48, ns) }
      let s : State := if d = 0 then s.setTime { s.time with gt0 := g } else s.setTime { s.time with gt1 := g }
      (s.fset (gtAge d) 0 (min n 1048575)).gtState d 2

/-- Power-on from VAULT: a reset of kind 0 with its cause, the power-cycle count, what became of the vault domain and the grid time. -/
def State.vaultExit (s : State) (secs : Option Nat) : State :=
  let p := s.pow
  let cause := if p.hot then 9 else if p.railStart then 4 else 0
  let saved := s.time.saved
  let secs : Option Nat := if s.fbit MPT_VAULT.VCLK_ON ∧ p.vbatGone = false then secs else none
  let s : State := (s.setPow { p with railStart := false, vbatGone := false }).reboot 0 cause
  let s : State := (s.setTime { s.time with saved := none }).fsat MPT_PCYC.COUNT 0
  ((s.fset MPT_VAULT.VBAT_LOST 0 (b2n p.vbatGone)).fset PWR_RAIL_STAT.GOOD 0 255).vaultClock secs saved

/-! ### Step 2: fuses (R371 to R377, R394) -/

/-- The full read of BOOT puts the accepted values in use; a doubtful CONFIG word takes its default (R373). -/
def State.bootFuses (s : State) (dev : List FuseRead) : State :=
  let s : State := s.fuseReadAll dev
  let doubt := s.fuseDoubt
  let vals : Tab Nat := (List.range 128).foldl (fun (t : Tab Nat) w =>
    tput 0 t w (if doubt.contains w then (if w < 48 then 0 else fuseDefault w) else tget 0 s.vault.acc w)) []
  let s : State := { s with vault := { s.vault with fuse := vals } }
  let s : State := (s.fset KV_DEV_ID_LO.ID_LO 0 (s.fuseVal 16)).fset KV_DEV_ID_HI.ID_HI 0 (s.fuseVal 17)
  let s : State := (s.fset KV_ZCOUNT.COUNT 0 (popcount (s.fuseVal 10))).fset KV_STAT.KILLED 0 (b2n (s.fuseVal 9 != 0))
  let s : State := s.fset KV_STAT.LOCKED 0 (b2n (s.fuseVal 8 != 0))
  s.fset KV_FUSE_STAT.RESTRICT 0 (b2n (doubt.any (fun w => decide (w < 48))))

/-- Steps 1 to 3 of PROVISION (R376): the root is drawn unless one is there, and the identity key derived. False where the source fails its start-up
tests or a word its read-back. -/
def State.provision (s : State) (dev : List FuseRead) (trng : Bool) : Bool × State :=
  if trng = false then (false, s)
  else
    let blank := (List.range 8).all (fun w => tget 0 s.vault.acc w == 0)
    let r : Bool × State :=
      if blank = false then (true, s)
      else
        let d := s.draw 32
        (List.range 8).foldl (fun (p : Bool × State) w =>
          let q := p.2.fuseProgram dev w (leAt d.1 (4 * w) 4)
          (p.1 && q.1, q.2)) (true, d.2)
    if r.1 = false then (false, r.2)
    else (true, ((r.2.deriveIdentity).fset KV_PROV_STAT.ROOT_READY 0 1).signal 257 [])

/-! ### Step 3: boot header and SFDP (R428, R430) -/

/-- The configuration memory's density, suspend support and read mode. -/
def State.bootQspi (s : State) (mbit : Nat) (suspend : Bool) : State :=
  let s : State := (s.fset STO_QSPI.MBIT 0 mbit).fset STO_QSPI.SUSPEND 0 (b2n suspend)
  s.fset STO_QSPI.MODE 0 (match s.bootCopy with | some c => leAt (s.bootHdr c) 5 1 | none => 0)

/-- The pad banks' supplies; VIOA and VIOB are sensed at every power-on and cold reset (R538). -/
def State.senseBanks (s : State) (pads : Nat) : State :=
  let s : State := s.fset PAD_BANK_STAT.GOOD 0 (pads % 128)
  if s.pow.kind = 2 then s else (s.fset PAD_BANK_STAT.Q_LEVEL 0 (nbits pads 17 16)).fset PAD_BANK_STAT.G_LEVEL 0 (nbits pads 19 18)

/-- The density that SFDP gives, 0 for none: configuration memory is unusable at a bank Q level of neither supply (R428, R538). -/
def State.bootMbit (s : State) (mbit : Nat) : Nat := if s.fget PAD_BANK_STAT.Q_LEVEL = 3 then 0 else mbit

/-- The fallback supervisor host (R412). -/
def State.fallback (s : State) : Nat := match s.bootCopy with | some c => leAt (s.bootHdr c) 8 1 % 8 | none => 2

/-- BOOT ends in PROVISION or RESTRICTED: the boot header's supervisor, ring 0 its ring (R376, R412; the attachment is allowed, log entry 50). -/
def State.bootStop (s : State) (m ms : Nat) (limited : Bool) : State :=
  let h := s.fallback
  let s : State := ((s.fset CHIP_SUPV.HOST 0 h).fset RNG_SUPV.PRIMARY 0 h).fset RNG_H_CTRL.ALLOW h 1
  let own := fun (b : Bank) => ({ b with ring := tput 0 b.ring 0 (2 ^ 31) } : Bank)
  let s : State := { s with ten := { s.ten with active := own s.ten.active, pend := own s.ten.pend } }
  let s : State := (s.setPow { s.pow with booted := true, boot := some m, limited := limited }).setMode m
  s.attachAll.bootEnds m ms

/-! ### Step 4: the set (R412) -/

/-- The bank BOOT starts: the TRIAL bank with tries left, else the LKG bank; an ARMED bank not chosen returns to STAGED. -/
def State.chooseSet (s : State) : Option Nat × State :=
  let t := s.bankIn 4
  let bad := fun (s : State) => (s.fset (bankSt t) 0 7).signal 278 []
  let r : Option Nat × State :=
    if t = 2 then (none, s)
    else if s.fget (bankTries t) ≥ 2 then (none, bad s)
    else
      let s : State := s.fadd (bankTries t) 0
      if (s.setCheck t true).1 = 0 then (some t, s) else (none, bad s)
  let l := r.2.bankIn 5
  let r : Option Nat × State := match r.1 with
    | some b => (some b, r.2)
    | none => if l ≠ 2 ∧ (r.2.setCheck l true).1 = 0 then (some l, r.2) else (none, r.2.signal 278 [])
  (r.1, (List.range 2).foldl (fun (s : State) b => if s.fget (bankSt b) = 3 ∧ r.1 ≠ some b then s.fset (bankSt b) 0 2 else s) r.2)

/-- The payload of the first image of a KIND in the running set. -/
def State.imageOf (s : State) (b kind : Nat) : List Byte :=
  match (s.setEntries b).find? (fun e => e.kind == kind) with
  | some e => s.payload b e
  | none => []

/-! ### Step 5: the vault store (R386) -/

/-- The slot owners a configuration image names: the last OWNERS entry of map 2 for a slot. -/
def confSlotOwner (p : List Byte) (slot : Nat) : Option Nat :=
  match ((confEntries p).filter (fun e => e.2.1 == 3 && leAt e.2.2 0 1 == 2 && leAt e.2.2 2 2 == slot)).reverse.head? with
  | some e => let v := leAt e.2.2 4 4; if nbit v 15 then some (nbits v 9 0) else none
  | none => none

/-- Each slot is loaded from its newest record that opens, if its owner is the configuration's. A store older than VAULT_SEQ is refused; without a
VAULT_SEQ it is loaded unchecked. The highest sequence number is taken over every record of the store (log entry 49). -/
def State.vaultLoad (s : State) (owner : Nat → Option Nat) : State :=
  let recs := s.vault.store
  let top := recs.foldl (fun (a : Nat) (r : SealRec) => max a r.seq) 0
  let last := s.vault.vaultSeq.getD top
  let s : State := (s.fset KV_SEAL.SEQ 0 (max top last)).fset KV_STAT.ROLLBACK_UNCHECKED 0 (b2n s.vault.vaultSeq.isNone)
  let s : State := { s with vault := { s.vault with vaultSeq := some last } }
  if top < last then (s.fset KV_STAT.ROLLBACK 0 1).signal 264 []
  else
    let open_ := recs.filter (fun (r : SealRec) => r.zcount == s.fget KV_ZCOUNT.COUNT)
    let newest := open_.filter (fun (r : SealRec) => !(open_.any (fun x => x.slot == r.slot && decide (x.seq > r.seq))))
    let s : State := newest.foldl (fun (s : State) (r : SealRec) =>
      if owner r.slot = some r.owner then s.loadSlot r.slot r.typ r.attr r.gen r.key r.ak (max r.cnt (tget 0 s.vault.cnts r.slot)) else s) s
    (s.set64 KV_ECDH_CNT_LO.CNT_LO KV_ECDH_CNT_HI.CNT_HI 0 (tget 0 s.vault.cnts 4096)).fset KV_STAT.READY 0 1

/-! ### Step 6: NAND and configuration (R434 to R441, R448) -/

/-- The header settings (R434). After a warm reset a supervisor role that had moved stays (R269). -/
def State.confHeader (s : State) (h : List Byte) : State :=
  let dev := leAt h 5 1
  let sup := leAt h 6 1
  let allow := leAt h 7 1
  let s : State := (s.fset CHIP_ROLE.CENTRE 0 (dev % 2)).fset MPT_CFG.NOMINAL_60 0 (nbits dev 1 1)
  let s : State := (s.fset MPT_VAULT.VCLK_ON 0 (nbits dev 2 2)).fset RNG_INFO.BIFURCATED 0 (nbits dev 3 3)
  let s : State := (s.fset RNG_SUPV.PRIMARY 0 (sup % 8)).fset RNG_SUPV.ALT_VALID 0 (nbits sup 3 3)
  let s : State := (s.fset RNG_SUPV.ALT 0 (nbits sup 6 4)).fset CHIP_SUPV.HOST 0 (s.pow.moved.getD (sup % 8))
  let s : State := (List.range 8).foldl (fun (s : State) k => s.fset RNG_H_CTRL.ALLOW k (nbits allow k k)) s
  let s : State := { s with rng := { s.rng with pcieId := slice h 8 16 } }
  let s : State := s.fset STO_NAND_CFG.PSLC 0 (nbits (leAt h 0x18 4) 16 16)
  if s.centre then (s.fset MPT_SRC.STATE 0 5).centreStep else s

/-- The SYSTEM section (R435). -/
def State.confSystem (s : State) (p : List Byte) : State :=
  match (confEntries p).find? (fun e => e.2.1 == 1) with
  | none => s
  | some e =>
    let b := e.2.2
    let s : State := s.fset STO_NAND_CFG.ECC_T 0 (leAt b 1 1)
    { s with nand := { s.nand with sparePct := leAt b 0 1, inkBlocks := leAt b 4 4, blobLedgers := leAt b 8 4 } }

/-- NAND bring-up and the mapping rebuild (R438, R440, R447, R448): ABSENT without a usable part, UNFORMATTED without a mapping checkpoint. -/
def State.nandUp (s : State) (nand : Option NandId) (mapMs scan : Nat) : State :=
  match nand with
  | none => s.fset STO_INFO.DIES 0 0
  | some g =>
    let s : State := ((s.fset STO_INFO.DIES 0 g.dies).fset STO_NAND_GEOM.PAGE 0 g.page).fset STO_NAND_GEOM.PPB 0 g.ppb
    let s : State := (s.fset STO_NAND_GEOM.BPD 0 g.bpd).fset STO_HU_TPROG.US 0 g.tprog
    let s : State := { s with nand := { s.nand with endur := g.endur } }
    let s : State := s.fset STO_HU_TIME.US 0 s.huTime
    if s.nand.mapped = false then s.setNand 1
    else
      let dies := List.range g.dies
      let s : State := (s.setNand 3).fset STO_MAP_TIME.MS 0 mapMs
      let s : State := s.fset STO_NAND_STAT.SPARE 0 (dies.foldl (fun (a : Nat) d => a + s.fget D_SPARE.FREE d) 0)
      let s : State := s.fset STO_NAND_STAT.SPARE_LOW 0 (b2n (dies.any (fun d => decide (4 * s.fget D_SPARE.FREE d ≤ s.fget D_SPARE.RESERVE d))))
      let s : State := (s.setNand (if dies.any (fun d => s.fget D_SPARE.FREE d == 0) then 5 else 4)).signal 133 (leB 4 scan)
      if s.fget STO_NAND_STAT.STATE = 5 then s.fault 6 else s

/-- The banks of the running set are loaded and sealed. -/
def State.bootBanks (s : State) (b : Nat) : State :=
  ((s.setEntries b).filter (fun e => e.kind == 2)).foldl (fun (s : State) e => (s.bankLoad e.inst (s.payload b e)).2) s

/-- The configuration image of a set, in the order of R436. -/
def State.bootConfig (s : State) (b : Nat) (nand : Option NandId) (mapMs scan : Nat) : State :=
  let p := s.imageOf b 1
  let good : Bool := p.take 4 == [0x53, 0x56, 0x58, 0x43]
  let s : State := if good then (s.confHeader p).confSystem p else s
  let s : State := (s.nandUp nand mapMs scan).bootBanks b
  let s : State := if good then s.confApply (fun s a v => s.bar0Write s.supv a v) p else s
  let t := s.imageOf b 3
  let s : State := if t = [] then s
    else ({ s with upd := { s.upd with shadow := some (tablesOf t) } } : State).tableSwap
  let s : State := if good ∧ nbit (leAt p 5 1) 4 then s.fset CHIP_LOCK.LOCK 0 1 else s
  s.fset STO_CFG_STAT.LOADED 0 (b2n good)

/-! ### Step 7: the HOLDUP image (R453), and what a reset left for BOOT -/

/-- The newest HOLDUP image is consumed: journal records for the rebuilds, Inkwell records before any new one, both areas erased. `cut` names
the tenants whose records end early at a page that cannot be read. -/
def State.huConsume (s : State) (cut : List (Nat × Nat)) : State :=
  let imgs := s.nand.hu.filterMap (fun (e : Nat × Option HuImg) => e.2)
  let best := imgs.foldl (fun (a : Option HuImg) i => match a with | some j => if j.seq < i.seq then some i else some j | none => some i) none
  match best with
  | none => s
  | some i =>
    if i.seq ≤ s.nand.huUsed ∨ (s.fget STO_NAND_STAT.STATE ≠ 4 ∧ s.fget STO_NAND_STAT.STATE ≠ 5) then s
    else
      let s : State := i.journal.foldl (fun (s : State) (e : Nat × List JRec) =>
        let keep := match cut.find? (fun c => c.1 == e.1) with | some c => e.2.take c.2 | none => e.2
        s.setTenJ e.1 { s.tenJ e.1 with holdup := keep }) s
      let has := fun (r : InkRec) => i.ink.any (fun x => x.seq == r.seq)
      let (olds, news) := (s.ink.recs.filter (fun r => !has r)).partition (fun (r : InkRec) => r.place != InkPlace.buffer)
      let s : State := { s with ink := { s.ink with recs := olds ++ i.ink.map (fun (r : InkRec) => { r with place := InkPlace.nand }) ++ news }
                                nand := { s.nand with hu := [], huUsed := i.seq, huSeq := max s.nand.huSeq i.seq } }
      let s : State := (s.fset STO_HU_STAT.FOUND 0 1).signal 134 [1, if cut = [] then 0 else 1]
      if cut = [] then s else (s.fset STO_HU_STAT.PARTIAL 0 1).inkRec 0x51 0 []

/-- A freeze that a reset released: its GAP record with REASON 3, and event 135 (R461). -/
def State.gapAtBoot (s : State) : State :=
  if s.ink.resetGap = false then s
  else
    let s : State := { s with ink := { s.ink with resetGap := false } }
    (s.inkRec 1 0 (gapBody (s.fget INK_SUPP.COUNT) s.ink.firstOp s.ink.lastOp 3)).signal 135 [3]

/-- Every tenant with ledgers or a complete checkpoint waits for its rebuild, and is OFF until it ends; each tenant's numbers continue from its
journal (R139, R146, R148). -/
def State.rebuildAll (s : State) : State :=
  let ts := (List.range 1024).filter (fun t => (s.ten.active.ranges t 0).any (fun r => r.2 != 0) || (s.tenJ t).newest.isSome)
  let s : State := s.ldg.ten.foldl (fun (s : State) e => s.seqContinue e.1) s
  (ts.foldl (fun (s : State) t => s.rebuildStart t) s).rebuildBusy

/-! ### The whole -/

/-- Steps 4 to 8 for a set that can be started. -/
def State.bootSet (s : State) (b : Nat) (env : BootEnv) : State :=
  let s : State := (s.fset UPD_RUN.BANK 0 b).runSet b
  let s : State := s.vaultLoad (confSlotOwner (s.imageOf b 1))
  let s : State := (s.bootConfig b env.nand env.mapMs env.scan).huConsume env.huCut
  let s : State := s.gapAtBoot.rebuildAll.uncovered
  let s : State := { s with pair := { s.pair with en := s.fbit RES_PAIR_CFG.EN } }
  ((s.setPow { s.pow with booted := true, boot := none }).fset RES_V_NOW.V 0 env.volts).capStart

/-- BOOT from a mode of BOOT that has not run its steps: each way it can end. -/
def State.bootRun (s : State) (env : BootEnv) : State :=
  let s : State := s.bootFuses env.dev
  let s : State := if env.trng then s.fset KV_STAT.TRNG_OK 0 1 else (s.fsat KV_TRNG.FAILS 0).signal 259 [0]
  let s : State := if s.vault.zeroPending then s.zeroFuse env.dev else s
  let s : State := s.senseBanks env.pads
  let s : State := s.bootQspi (s.bootMbit env.mbit) env.suspend
  if s.fbit KV_FUSE_STAT.RESTRICT ∨ s.fget PWR_RST_CAUSE.BOOT_FAILS ≥ 3 ∨ s.bootMbit env.mbit = 0 ∨ s.fbit KV_STAT.KILLED then s.bootStop 3 env.ms false
  else if s.fbit KV_STAT.LOCKED = false then
    match s.provision env.dev env.trng with
    | (true, s) => s.bootStop 2 env.ms false
    | (false, s) => s.bootStop 3 env.ms false
  else
    let s : State := s.deriveIdentity.fset UPD_SEC_FLOOR.FLOOR 0 s.floorCount
    match s.chooseSet with
    | (some b, s) => s.bootSet b env
    | (none, s) => s.bootStop 3 env.ms true

/-- BOOT: from VAULT once every rail is up, or in mode BOOT; its steps run once (R524). Role entry is a command of its own. -/
def execBoot (env : BootEnv) (s : State) : Res :=
  .next (if s.mode = 0 then
      (if s.pow.hv ∧ s.pow.vsys ∧ s.pow.group = 5 ∧ s.pow.stopped = false then (s.vaultExit env.vsecs).bootRun env else s)
    else if s.mode = 1 ∧ s.pow.booted = false then s.bootRun env
    else s)

/-- The present image's units have drained: the image is read, loaded, and its units turned back on (R415). A latched trial fault is restored
first (R417). -/
def execImageActivate (s : State) : Res :=
  .next (if s.upd.trialFault ∧ s.upd.act.isNone then s.trialRestore
    else s.imgActivate (fun s a v => s.bar0Write s.supv a v))

end Sys2Proof.Machine
end

