-- ==== Sys2Proof/Machine/Serial.lean ====
section
/-! DEFINITION. The serial host port: transactions of host 2 (R264, R268). -/
namespace Sys2Proof.Machine
open Reg

/-- An unmasked vector of host 2 is pending. -/
def State.shpPending (s : State) : Bool := (s.host 2).pend.any (fun e => (List.range 32).any (fun k => nbit e.2 k && !nbit (tget 0 (s.host 2).mask e.1) k))

/-- Run a change of the interrupt words; SHP_IRQ follows (low while an unmasked vector is pending). -/
def State.shpWith (s : State) (f : State → State) : State :=
  let t := f s
  if s.shpPending = t.shpPending then t else t.emit (.pin 5 0 (b2n !t.shpPending))

/-- A transaction completes: STATUS bit 2 falls, and the attachment is UP for the next TMO ms (R264). -/
def State.shpDone (s : State) : State := (s.setHost 2 { s.host 2 with cond := true, refused := false }).hostUpIf 2

/-- A refused transaction has no effect. -/
def State.shpRefuse (s : State) : State := s.setHost 2 { s.host 2 with refused := true }

/-- A transaction of `bytes` data bytes at an address is refused: misaligned, not whole words, or outside the serial ring area. -/
def State.shpBad (s : State) (addr bytes : Nat) : Bool :=
  addr % 4 != 0 || bytes % 4 != 0
    || (addr / 2 ^ 30 % 4 == 2 && decide (addr % 2 ^ 26 + bytes > s.fget RNG_SHP_SIZE.PAGES * 4096))

/-- One word written: a space by address bits 31:30. A word of the ring area is stored in the order of DRAM; pending words are not written
(log entry 48). -/
def State.shpWriteWord (s : State) (addr w : Nat) : State :=
  match addr / 2 ^ 30 % 4 with
  | 0 => s.bar0Write 2 (addr % 2 ^ 25) w
  | 1 => s.bar2Write 2 (addr % 2 ^ 24 / 4096) (addr % 4096) w
  | 2 =>
    let off := addr % 2 ^ 26
    ((List.range 4).foldl (fun (s : State) k => s.shpSettle (off + k)) s).mwrite (s.shpBase + off) (leB 4 w)
  | _ =>
    let n := addr % 2 ^ 30 / 4
    if 256 ≤ n ∧ n < 320 then s.shpWith (fun s => let a := s.host 2; s.setHost 2 { a with mask := tput 0 a.mask (n - 256) w }) else s

/-- The words of a WRITE, in order. -/
def State.shpWrite : State → Nat → List (List Byte) → State
  | s, _, [] => s
  | s, addr, b :: t => (s.shpWriteWord addr (ofBe b)).shpWrite (addr + 4) t

/-- One word read; a pending word's read clears its bits. -/
def State.shpReadWord (s : State) (addr : Nat) : Nat × State :=
  match addr / 2 ^ 30 % 4 with
  | 0 => s.bar0Read 2 (addr % 2 ^ 25)
  | 1 => (s.bar2Read 2 (addr % 2 ^ 24 / 4096) (addr % 4096), s)
  | 2 => (ofLe (s.shpBytes (addr % 2 ^ 26) 4), s)
  | _ =>
    let n := addr % 2 ^ 30 / 4
    let a := s.host 2
    if n < 64 then (tget 0 a.pend n, s.shpWith (fun s => s.setHost 2 { a with pend := tput 0 a.pend n 0 }))
    else if 256 ≤ n ∧ n < 320 then (tget 0 a.mask (n - 256), s)
    else (0, s)

/-- The words of a READ, in order. -/
def State.shpRead : State → Nat → Nat → List Nat × State
  | s, _, 0 => ([], s)
  | s, addr, n + 1 =>
    let (w, s) := s.shpReadWord addr
    let (t, s) := s.shpRead (addr + 4) n
    (w :: t, s)

/-- A serial WRITE: 4 address bytes, then data. -/
def execWrite (addr : Nat) (data : List (BitVec 8)) (s : State) : Res :=
  .next (if s.mode = 0 then s
    else
      let addr := addr % 2 ^ 32
      if s.shpBad addr data.length then s.shpRefuse else (s.shpWrite addr (chunks 4 data)).shpDone)

/-- A serial READ of `words` words. -/
def execRead (addr words : Nat) (s : State) : Res :=
  .next (if s.mode = 0 then s
    else
      let addr := addr % 2 ^ 32
      if s.shpBad addr (4 * words) then s.shpRefuse
      else
        let (l, s) := s.shpRead addr words
        (s.emit (.reply 2 l)).shpDone)

/-- A serial STATUS: [0] UP, [1] an unmasked vector is pending, [2] the last transaction was refused. -/
def execStatus (s : State) : Res :=
  .next (if s.mode = 0 then s
    else (s.emit (.reply 2 [s.fget RNG_H_STAT.UP 2 + 2 * b2n s.shpPending + 4 * b2n (s.host 2).refused])).shpDone)

/-- A serial IDENT returns CHIP_ID. -/
def execIdent (s : State) : Res := .next (if s.mode = 0 then s else (s.emit (.reply 2 [s.storedWord .chip 0 0 2 0])).shpDone)

end Sys2Proof.Machine
end

