-- ==== Sys2Proof/Machine/Mrt.lean ====
section
/-! DEFINITION. The Myvor Ring Transport: frames from MRT hosts and from the pair's partner, and received Ethernet frames (R292 to R298, R468 to
R470, R476). -/
namespace Sys2Proof.Machine
open Reg

/-- Store an attachment's session. -/
def State.setMrt (s : State) (h : Nat) (m : Mrt) : State := s.setHost h { s.host h with mrt := m }

/-! ### The sender's window (R296) -/

/-- A queued body is a ring's completion or record and that ring is no longer ON: it is not carried (R296). -/
def State.mrtStale (s : State) (h : Nat) (b : List Byte) : Bool :=
  h != pairHost && (leAt b 0 1 == 2 || leAt b 0 1 == 3) && s.fget RNG_R_STAT.STATE (leAt b 2 2) != 2

/-- Send queued frames while fewer than 64 are unacknowledged. -/
def State.mrtPump (s : State) (h : Nat) : Nat → State
  | 0 => s
  | n + 1 =>
    let m := (s.host h).mrt
    match m.queued with
    | [] => s
    | b :: t =>
      if m.unacked.length ≥ 64 then s
      else
        let s := s.setMrt h { m with queued := t }
        (if s.mrtStale h b then s.fsat RNG_R_DROP.COUNT (leAt b 2 2) else s.mrtData h b).mrtPump h n

/-- A valid frame's ACK field: every SEQ before it is acknowledged. One beyond what was sent acknowledges nothing. -/
def State.mrtAckTake (s : State) (h ack : Nat) : State :=
  let m := (s.host h).mrt
  let left := m.unacked.filter (fun x => !newer32 ack x.seq)
  if newer32 ack m.txSeq ∨ left.length = m.unacked.length then s
  else (s.setMrt h { m with unacked := left, retx := 0 }).mrtPump h m.queued.length

/-- Retransmit the oldest unacknowledged frame, or close the session after RETRIES of them without progress. -/
def State.mrtRetransmit (s : State) (h : Nat) : State :=
  let m := (s.host h).mrt
  match m.unacked with
  | [] => s
  | x :: _ =>
    if m.retx ≥ s.fget RNG_MRT_TMO.RETRIES then s.mrtClose h
    else
      let s := s.setMrt h { m with retx := m.retx + 1 }
      let s := if h = pairHost then s else s.fsat RNG_H_TX_RETX.COUNT h
      s.mrtOut h 0x10 (s.mrtSession h) x.seq 1 m.key x.body

/-- Send an ACK or a NAK: its ACK field names the expected SEQ. -/
def State.mrtCtl (s : State) (h typ : Nat) : State :=
  let m := (s.host h).mrt
  if m.isOpen then s.mrtOut h typ (s.mrtSession h) 0 0 m.key [] else s

/-! ### Items (R297, R298) -/

/-- Receive buffer the DESC items of a body take: each LEN rounded up to 64. -/
def descBytes : List Byte → Nat → Nat
  | _, 0 => 0
  | b, n + 1 =>
    let len := leAt b 6 2
    (if leAt b 0 1 = 1 then (len + 63) / 64 * 64 else 0) + descBytes (b.drop (8 + (len + 7) / 8 * 8)) n

/-- A DESC item: stored at the tail, which advances; a slot that still holds an uncompleted descriptor is a duplicate. -/
def State.mrtDesc (s : State) (h r slot : Nat) (data : List Byte) : State :=
  s.doorbell h r (fun s =>
    let g := s.ring r
    if s.fget RNG_R_CFG.TYPE r = 1 then s
    else if (s.desc r slot).isSome ∨ (tget none g.stored slot).isSome then s.fsat RNG_H_RX_DUP.COUNT h
    else if s.fget RNG_R_STAT.STATE r ≠ 2 ∨ slot ≠ s.fget RNG_R_SQ.TAIL r then s.dbErr RNG_ERR.DB_RANGE h r
    else (s.setRing r { g with stored := tput none g.stored slot (some data) }).dbSqTail h r ((slot + 1) % s.ringSize r))

/-- One item from an MRT host. -/
def State.mrtItemIn (s : State) (h kind r slot : Nat) (data : List Byte) : State :=
  match kind with
  | 1 => s.mrtDesc h r slot data
  | 4 => s.dbHead h r slot
  | 5 => s.bar0Write h (leAt data 0 4 % 2 ^ 25) (leAt data 4 4)
  | 6 =>
    let a := leAt data 0 4
    let (w, s) := s.bar0Read h (a % 2 ^ 25)
    s.mrtData h (mrtItem 7 0 0 (leB 4 a ++ leB 4 w))
  | _ => s

/-- The items of a host's DATA body, in order. -/
def State.mrtItems : State → Nat → List Byte → Nat → State
  | s, _, _, 0 => s
  | s, h, b, n + 1 =>
    let len := leAt b 6 2
    (s.mrtItemIn h (leAt b 0 1) (leAt b 2 2) (leAt b 4 2) (slice b 8 len)).mrtItems h (b.drop (8 + (len + 7) / 8 * 8)) n

/-! ### The receiver (R295) -/

/-- Deliver the frame at the expected SEQ and those held after it, at most `n`. A frame whose DESC items exceed the free buffer is discarded whole. -/
def State.mrtTake (s : State) (h : Nat) : Nat → State
  | 0 => s
  | n + 1 =>
    let m := (s.host h).mrt
    match tget none m.held m.rxExp with
    | none => s
    | some b =>
      let count := leAt b 0 1
      let body := b.drop 1
      let held := tput none m.held m.rxExp none
      if h ≠ pairHost ∧ descBytes body count > 8388608 - s.mrtUsed h then s.setMrt h { m with held := held }
      else
        let s := s.setMrt h { m with held := held, rxExp := (m.rxExp + 1) % 2 ^ 32, nakFor := none }
        let s := if h = pairHost then s.pairItems body count else s.mrtItems h body count
        s.mrtTake h n

/-- RNG_H_RX_HELD follows the reorder buffer. -/
def State.mrtHeld (s : State) (h : Nat) : State := if h = pairHost then s else s.fset RNG_H_RX_HELD.FRAMES h (s.host h).mrt.held.length

/-- A DATA frame, by its SEQ relative to the expected one. Each frame accepted in sequence is answered with an ACK. -/
def State.mrtDataIn (s : State) (h seq count : Nat) (body : List Byte) : State :=
  let m := (s.host h).mrt
  let e := m.rxExp
  let d := (seq + 2 ^ 32 - e) % 2 ^ 32
  let cnt := fun (f : Fld) (s : State) => if h = pairHost then s else s.fsat f h
  if d ≥ 2 ^ 31 ∨ (tget none m.held seq).isSome then (cnt RNG_H_RX_DUP.COUNT s).mrtCtl h 0x30
  else if d ≥ 64 then cnt RNG_H_RX_OOW.COUNT s
  else
    let s := s.setMrt h { m with held := tput none m.held seq (some (leB 1 count ++ body)) }
    if d = 0 then
      let s := (s.mrtTake h 64).mrtHeld h
      if (s.host h).mrt.rxExp = e then s else s.mrtCtl h 0x30
    else if m.nakFor = some e then s.mrtHeld h
    else ((s.setMrt h { (s.host h).mrt with nakFor := some e }).mrtHeld h).mrtCtl h 0x31

/-- A frame of an open session whose tag is right. -/
def State.mrtFrame (s : State) (h typ seq ack count : Nat) (body : List Byte) : State :=
  let s := s.mrtAckTake h ack
  match typ with
  | 0x10 => s.mrtDataIn h seq count body
  | 0x31 => (match (s.host h).mrt.unacked with
    | x :: _ => if x.seq = ack then s.mrtRetransmit h else s
    | [] => s)
  | 0x40 => s.mrtClose h
  | _ => s

/-! ### Frames of a host (R292 to R294) -/

/-- The body of a frame payload whose tag is right under a key; none otherwise. ENC 0 leaves the body in clear (R293). -/
def mrtOpen (key pay : List Byte) : Option (List Byte) :=
  let hdr := slice pay 0 32
  let len := leAt pay 0x18 2
  let ct := slice pay 32 len
  let fl := leAt pay 3 1
  let nonce := mrtNonce (leAt pay 4 4) (fl / 2 % 2) (leAt pay 0x10 8)
  if gcmTag key nonce hdr ct ≠ slice pay (32 + len) 16 then none else some (if nbit fl 0 then gcmCrypt key nonce ct else ct)

/-- A payload is an MRT frame of a direction: version, length, DIR. -/
def mrtForm (pay : List Byte) (dir : Nat) : Bool :=
  decide (pay.length ≥ 48 + leAt pay 0x18 2) && leAt pay 0 1 == 1 && leAt pay 0x18 2 % 8 == 0 && leAt pay 3 1 / 2 % 2 == dir

/-- A tag failed: counted, source 30 at most once a second (R293). -/
def State.mrtAuthFail (s : State) (h : Nat) : State :=
  let s := s.fsat RNG_H_RX_AUTH.COUNT h
  match s.oncePerSec 30 with
  | (true, s) => s.signal 30 (leB 1 h)
  | (false, s) => s

/-- A new non-zero session number. -/
def State.drawSession (s : State) : Nat × State := let (n, s) := s.drawNat (2 ^ 32 - 1); (n + 1, s)

/-- HELLO: the open session closes, a new one opens and is answered with HELLO_ACK; the attachment comes UP (R294, R264). -/
def State.mrtHello (s : State) (h : Nat) (pay : List Byte) (p : Nat) : State :=
  let slot := s.fget RNG_H_MRT_CFG.KEY_SLOT h
  if s.keysBlocked ∨ s.fbit KV_STAT.TRNG_OK = false ∨ s.slotIs slot 3 = false ∨ leAt pay 4 4 ≠ 0 then s
  else
    let secret := (s.slotKey slot).key
    match mrtOpen (mrtKey secret h 0 [] []) pay with
    | none => s.mrtAuthFail h
    | some body =>
      let s := s.mrtClose h
      let (session, s) := s.drawSession
      let (dn, s) := s.draw 16
      let hn := fit 16 body
      let s := s.setHost h { s.host h with port := p, cond := true, mrt := { isOpen := true, hostNonce := hn, devNonce := dn, key := mrtKey secret h session hn dn } }
      let s := s.fset RNG_H_SESSION.SESSION h session
      (s.mrtOut h 2 session 0 0 (mrtKey secret h 0 [] []) dn).hostUpIf h

/-- The conditions of R292 for a frame of host `h` on port `p`; without VLAN_EN the frame has no tag. -/
def State.mrtFrom (s : State) (h p : Nat) (f : List Byte) : Bool :=
  let mac := leB 4 (s.fget RNG_H_MAC_LO.MAC_LO h) ++ leB 2 (s.fget RNG_H_MAC_HI.MAC_HI h)
  let vlan := if s.fbit RNG_H_MRT_CFG.VLAN_EN h then ethOff f == 18 && ofBe (slice f 14 2) % 4096 == s.fget RNG_H_MRT_CFG.VLAN h else ethOff f == 14
  decide (h ≥ 3) && slice f 6 6 == mac && nbit (s.fget RNG_H_MRT_CFG.PORTS h) p && vlan && decide (f.length ≤ s.fget RNG_MRT.MTU)

/-- An MRT frame reaches the internal port. -/
def State.mrtReceive (s : State) (p : Nat) (f : List Byte) : State :=
  let pay := f.drop (ethOff f)
  let h := leAt pay 2 1 % 8
  let typ := leAt pay 1 1
  if s.mrtFrom h p f = false ∨ mrtForm pay 0 = false then s
  else if typ = 1 then s.mrtHello h pay p
  else
    let m := (s.host h).mrt
    if m.isOpen = false ∨ leAt pay 4 4 ≠ s.mrtSession h ∨ [0x10, 0x30, 0x31, 0x40].contains typ = false then s
    else match mrtOpen m.key pay with
      | none => s.mrtAuthFail h
      | some body => (s.setHost h { s.host h with port := p }).mrtFrame h typ (leAt pay 8 4) (leAt pay 0x0C 4) (leAt pay 0x1A 1) body

/-! ### Frames of the partner (R476) -/

/-- The pair session opens: LINK, source 34, and resynchronisation goes on. -/
def State.pairUp (s : State) (m : Mrt) : State := (((s.setMrt pairHost m).fset RES_PAIR_STAT.LINK 0 1).signal 34 []).resyncStart

/-- A HELLO of the partner: answered by unit 1. One with this unit's own UNIT shows a clash (R473). -/
def State.pairHelloIn (s : State) (dir : Nat) (body : List Byte) : State :=
  if dir = s.fget RES_PAIR_CFG.UNIT then s.unitClash
  else if s.fbit RES_PAIR_CFG.UNIT = false ∨ s.fbit KV_STAT.TRNG_OK = false then s
  else
    let s := s.mrtClose pairHost
    let (session, s) := s.drawSession
    let (dn, s) := s.draw 16
    let hn := fit 16 body
    let m : Mrt := { isOpen := true, hostNonce := hn, devNonce := dn, key := s.pairKey session hn dn, psess := session }
    ((s.setMrt pairHost m).mrtOut pairHost 2 session 0 0 (s.pairKey 0 [] []) dn).pairUp { m with txc := 1 }

/-- A HELLO_ACK for unit 0's HELLO. -/
def State.pairHelloAck (s : State) (session : Nat) (body : List Byte) : State :=
  let m := (s.host pairHost).mrt
  if s.fbit RES_PAIR_CFG.UNIT ∨ m.isOpen ∨ m.hostNonce = [] ∨ session = 0 then s
  else
    let dn := fit 16 body
    s.pairUp { isOpen := true, hostNonce := m.hostNonce, devNonce := dn, key := s.pairKey session m.hostNonce dn, psess := session }

/-- A pair frame arrives on port 2. -/
def State.pairReceive (s : State) (_ : Nat) (f : List Byte) : State :=
  let pay := f.drop (ethOff f)
  let typ := leAt pay 1 1
  let dir := leAt pay 3 1 / 2 % 2
  let m := (s.host pairHost).mrt
  let own := s.fget RES_PAIR_CFG.UNIT
  if s.pair.en = false ∨ s.pairState = 0 ∨ mrtForm pay dir = false ∨ leAt pay 2 1 % 8 ≠ 0 ∨ f.length > s.fget RNG_MRT.MTU then s
  else if typ = 1 ∨ typ = 2 then
    if s.keysBlocked ∨ s.slotIs (s.fget RES_PAIR_KEY.SLOT) 3 = false then s
    else match mrtOpen (s.pairKey 0 [] []) pay with
      | none => s
      | some body =>
        if typ = 1 then s.pairHelloIn dir body
        else if dir = own then s
        else s.pairHelloAck (leAt pay 4 4) body
  else if m.isOpen = false ∨ dir = own ∨ leAt pay 4 4 ≠ m.psess ∨ [0x10, 0x30, 0x31, 0x40].contains typ = false then s
  else match mrtOpen m.key pay with
    | none => s
    | some body => s.mrtFrame pairHost typ (leAt pay 8 4) (leAt pay 0x0C 4) (leAt pay 0x1A 1) body

/-! ### Commands -/

/-- A frame is received on a port; `f` starts with the destination address and has no FCS, `ok` says that the FCS was right, and the lists name
the ways of the two forwarding-table sets whose parity fails on these reads. -/
def State.frameIn (s : State) (port : Nat) (f : List Byte) (ok : Bool) (badSrc badDst : List Nat) : State :=
  if s.mode = 0 then s else s.ethReceive State.mrtReceive State.pairReceive port f ok badSrc badDst

/-- A received frame, whatever it carries. -/
def execEthFrameReceived (port : Nat) (frame : List (BitVec 8)) (ok : Bool) (badSrc badDst : List Nat) (s : State) : Res :=
  .next (s.frameIn port frame ok badSrc badDst)

/-- A received frame whose FCS is right and that carries an MRT frame of one type; any other frame is not this command's. -/
def State.mrtCommand (s : State) (port : Nat) (f : List Byte) (typ : Nat) : State :=
  if ethType f = s.fget RNG_MRT.ETYPE ∧ leAt (f.drop (ethOff f)) 1 1 = typ then s.frameIn port f true [] [] else s

/-- A HELLO frame is received. -/
def execHello (port : Nat) (frame : List (BitVec 8)) (s : State) : Res := .next (s.mrtCommand port frame 1)

/-- A DATA frame is received. -/
def execData (port : Nat) (frame : List (BitVec 8)) (s : State) : Res := .next (s.mrtCommand port frame 0x10)

/-- An ACK frame is received. -/
def execAck (port : Nat) (frame : List (BitVec 8)) (s : State) : Res := .next (s.mrtCommand port frame 0x30)

/-- A NAK frame is received. -/
def execNak (port : Nat) (frame : List (BitVec 8)) (s : State) : Res := .next (s.mrtCommand port frame 0x31)

/-- A CLOSE frame is received. -/
def execClose (port : Nat) (frame : List (BitVec 8)) (s : State) : Res := .next (s.mrtCommand port frame 0x40)

/-- RTO passes without progress of ACK, for an MRT host or the pair link (host 8): the oldest frame is retransmitted, or the session closes. A NAK
for the expected SEQ may be sent again. -/
def execMrtRtoExpiry (host : Nat) (s : State) : Res :=
  .next (let m := (s.host host).mrt
    if m.isOpen = false then s else (s.setMrt host { m with nakFor := none }).mrtRetransmit host)

/-- KEEPALIVE ms pass in which nothing was sent: an ACK frame is sent. -/
def execMrtKeepalive (host : Nat) (s : State) : Res := .next (s.mrtCtl host 0x30)

/-- 3 × KEEPALIVE ms pass without a valid frame: the session closes. -/
def execMrtSessionTimeout (host : Nat) (s : State) : Res := .next (s.mrtClose host)

end Sys2Proof.Machine
end

