-- ==== Sys2Proof/Machine/Dispatch.lean ====
section
/-! DEFINITION. One arm per command: its meaning. -/
namespace Sys2Proof.Machine

/-- The effect of a command on everything but the queue. -/
def exec (i : Instr) (s : State) : Host.Outcome State Fault Refusal :=
  match i with
  | .registerWrite host addr value => Sys2Proof.Machine.execRegisterWrite host addr value s
  | .selectorWrite host addr value => Sys2Proof.Machine.execSelectorWrite host addr value s
  | .windowReadRefused host addr => Sys2Proof.Machine.execWindowReadRefused host addr s
  | .chipLock host value => Sys2Proof.Machine.execChipLock host value s
  | .switch host => Sys2Proof.Machine.execSwitch host s
  | .epochBankExchange => Sys2Proof.Machine.execEpochBankExchange s
  | .epochCopyDone duration => Sys2Proof.Machine.execEpochCopyDone duration s
  | .tenPendingWrite host off bits value => Sys2Proof.Machine.execTenPendingWrite host off bits value s
  | .resourceRelease index => Sys2Proof.Machine.execResourceRelease index s
  | .resourceScrubDone index => Sys2Proof.Machine.execResourceScrubDone index s
  | .tenEnable host value => Sys2Proof.Machine.execTenEnable host value s
  | .drainEnd unit => Sys2Proof.Machine.execDrainEnd unit s
  | .drainOverrun unit => Sys2Proof.Machine.execDrainOverrun unit s
  | .doorbellSqTail host ring value => Sys2Proof.Machine.execDoorbellSqTail host ring value s
  | .doorbellHead host ring value => Sys2Proof.Machine.execDoorbellHead host ring value s
  | .descriptorFetchIssue host => Sys2Proof.Machine.execDescriptorFetchIssue host s
  | .descriptorFetched ring slot data => Sys2Proof.Machine.execDescriptorFetched ring slot data s
  | .descriptorFetchFail ring slot => Sys2Proof.Machine.execDescriptorFetchFail ring slot s
  | .taskCmdDeliver ring slot => Sys2Proof.Machine.execTaskCmdDeliver ring slot s
  | .apduReadDone ring slot data => Sys2Proof.Machine.execApduReadDone ring slot data s
  | .apduReadTimeout ring slot => Sys2Proof.Machine.execApduReadTimeout ring slot s
  | .classify ring slot spot => Sys2Proof.Machine.execClassify ring slot spot s
  | .ingestQueueOffer port expired => Sys2Proof.Machine.execIngestQueueOffer port expired s
  | .keyUnwrapDone ledger => Sys2Proof.Machine.execKeyUnwrapDone ledger s
  | .keyUnwrapRetry ledger => Sys2Proof.Machine.execKeyUnwrapRetry ledger s
  | .decryptDone tag => Sys2Proof.Machine.execDecryptDone tag s
  | .ledgerSectorRetry ledger ok => Sys2Proof.Machine.execLedgerSectorRetry ledger ok s
  | .ledgerCommit tag => Sys2Proof.Machine.execLedgerCommit tag s
  | .balanceContribution tag => Sys2Proof.Machine.execBalanceContribution tag s
  | .journalAck tenant sink seq => Sys2Proof.Machine.execJournalAck tenant sink seq s
  | .tagTimeout tag => Sys2Proof.Machine.execTagTimeout tag s
  | .tagEndingDone tag => Sys2Proof.Machine.execTagEndingDone tag s
  | .lateResponse tag gen => Sys2Proof.Machine.execLateResponse tag gen s
  | .hashRepairDone => Sys2Proof.Machine.execHashRepairDone s
  | .completionRebuild tenant seq user slot held => Sys2Proof.Machine.execCompletionRebuild tenant seq user slot held s
  | .clear host value => Sys2Proof.Machine.execClear host value s
  | .routeEntryWrite host off value => Sys2Proof.Machine.execRouteEntryWrite host off value s
  | .txnTimeout ctx => Sys2Proof.Machine.execTxnTimeout ctx s
  | .nandPartialFlush tenant => Sys2Proof.Machine.execNandPartialFlush tenant s
  | .sinkDown tenant sink => Sys2Proof.Machine.execSinkDown tenant sink s
  | .resyncNand host => Sys2Proof.Machine.execResyncNand host s
  | .resyncPtnr host => Sys2Proof.Machine.execResyncPtnr host s
  | .resyncHost host => Sys2Proof.Machine.execResyncHost host s
  | .rebuildDone host => Sys2Proof.Machine.execRebuildDone host s
  | .take host => Sys2Proof.Machine.execTake host s
  | .ckptPeriodExpiry tenant => Sys2Proof.Machine.execCkptPeriodExpiry tenant s
  | .ckptCopyDone tenant => Sys2Proof.Machine.execCkptCopyDone tenant s
  | .tenantRebuild tenant ms => Sys2Proof.Machine.execTenantRebuild tenant ms s
  | .rebuild host ledger good => Sys2Proof.Machine.execRebuild host ledger good s
  | .quarClear host ledger => Sys2Proof.Machine.execQuarClear host ledger s
  | .requar host ledger => Sys2Proof.Machine.execRequar host ledger s
  | .arm host cal => Sys2Proof.Machine.execArm host cal s
  | .cancel host cal => Sys2Proof.Machine.execCancel host cal s
  | .activateNow host cal => Sys2Proof.Machine.execActivateNow host cal s
  | .calActivationCheck => Sys2Proof.Machine.execCalActivationCheck s
  | .watchSweep => Sys2Proof.Machine.execWatchSweep s
  | .writebackLanded ledger => Sys2Proof.Machine.execWritebackLanded ledger s
  | .lineMove ledger cluster => Sys2Proof.Machine.execLineMove ledger cluster s
  | .zeroCrossing rms err freq => Sys2Proof.Machine.execZeroCrossing rms err freq s
  | .crossingMissing => Sys2Proof.Machine.execCrossingMissing s
  | .holdoverExpiry => Sys2Proof.Machine.execHoldoverExpiry s
  | .phaseCrossingBc phase valid lag => Sys2Proof.Machine.execPhaseCrossingBc phase valid lag s
  | .mptLoadLo host value => Sys2Proof.Machine.execMptLoadLo host value s
  | .cycleCountLoad => Sys2Proof.Machine.execCycleCountLoad s
  | .nominal60Change host value => Sys2Proof.Machine.execNominal60Change host value s
  | .mptNowRead host => Sys2Proof.Machine.execMptNowRead host s
  | .gtNsRead host domain => Sys2Proof.Machine.execGtNsRead host domain s
  | .snapTake host value => Sys2Proof.Machine.execSnapTake host value s
  | .invalidate host domain => Sys2Proof.Machine.execInvalidate host domain s
  | .step host domain => Sys2Proof.Machine.execStep host domain s
  | .confirm host domain => Sys2Proof.Machine.execConfirm host domain s
  | .confirmWinExpiry domain => Sys2Proof.Machine.execConfirmWinExpiry domain s
  | .holdLimitExpiry domain => Sys2Proof.Machine.execHoldLimitExpiry domain s
  | .gtTrimWrite host domain value => Sys2Proof.Machine.execGtTrimWrite host domain value s
  | .gridSelWrite host value => Sys2Proof.Machine.execGridSelWrite host value s
  | .compareArm host value => Sys2Proof.Machine.execCompareArm host value s
  | .compareFire unit air => Sys2Proof.Machine.execCompareFire unit air s
  | .metrologyCycleEnd phase v amps vn n period => Sys2Proof.Machine.execMetrologyCycleEnd phase v amps vn n period s
  | .windowEvaluate set => Sys2Proof.Machine.execWindowEvaluate set s
  | .phaseReport node secured frame => Sys2Proof.Machine.execPhaseReport node secured frame s
  | .feederDetectorSet detector => Sys2Proof.Machine.execFeederDetectorSet detector s
  | .feederDetectorClear detector => Sys2Proof.Machine.execFeederDetectorClear detector s
  | .membValWrite host value => Sys2Proof.Machine.execMembValWrite host value s
  | .markTableWrite host off value => Sys2Proof.Machine.execMarkTableWrite host off value s
  | .metrologyEnable host value => Sys2Proof.Machine.execMetrologyEnable host value s
  | .balNodeEnable host value => Sys2Proof.Machine.execBalNodeEnable host value s
  | .taskEnable host value => Sys2Proof.Machine.execTaskEnable host value s
  | .taskDispatch ctx => Sys2Proof.Machine.execTaskDispatch ctx s
  | .priority0Dispatch => Sys2Proof.Machine.execPriority0Dispatch s
  | .watchdog ctx => Sys2Proof.Machine.execWatchdog ctx s
  | .add ctx a b c => Sys2Proof.Machine.execAdd ctx a b c s
  | .sub ctx a b c => Sys2Proof.Machine.execSub ctx a b c s
  | .and ctx a b c => Sys2Proof.Machine.execAnd ctx a b c s
  | .or ctx a b c => Sys2Proof.Machine.execOr ctx a b c s
  | .xor ctx a b c => Sys2Proof.Machine.execXor ctx a b c s
  | .sll ctx a b c => Sys2Proof.Machine.execSll ctx a b c s
  | .srl ctx a b c => Sys2Proof.Machine.execSrl ctx a b c s
  | .sra ctx a b c => Sys2Proof.Machine.execSra ctx a b c s
  | .slt ctx a b c => Sys2Proof.Machine.execSlt ctx a b c s
  | .sltu ctx a b c => Sys2Proof.Machine.execSltu ctx a b c s
  | .min ctx a b c => Sys2Proof.Machine.execMin ctx a b c s
  | .max ctx a b c => Sys2Proof.Machine.execMax ctx a b c s
  | .minu ctx a b c => Sys2Proof.Machine.execMinu ctx a b c s
  | .maxu ctx a b c => Sys2Proof.Machine.execMaxu ctx a b c s
  | .mul ctx a b c => Sys2Proof.Machine.execMul ctx a b c s
  | .mulh ctx a b c => Sys2Proof.Machine.execMulh ctx a b c s
  | .mulhu ctx a b c => Sys2Proof.Machine.execMulhu ctx a b c s
  | .div ctx a b c => Sys2Proof.Machine.execDiv ctx a b c s
  | .divu ctx a b c => Sys2Proof.Machine.execDivu ctx a b c s
  | .rem ctx a b c => Sys2Proof.Machine.execRem ctx a b c s
  | .remu ctx a b c => Sys2Proof.Machine.execRemu ctx a b c s
  | .clz ctx a b => Sys2Proof.Machine.execClz ctx a b s
  | .addi ctx a b imm => Sys2Proof.Machine.execAddi ctx a b imm s
  | .andi ctx a b imm => Sys2Proof.Machine.execAndi ctx a b imm s
  | .ori ctx a b imm => Sys2Proof.Machine.execOri ctx a b imm s
  | .xori ctx a b imm => Sys2Proof.Machine.execXori ctx a b imm s
  | .slti ctx a b imm => Sys2Proof.Machine.execSlti ctx a b imm s
  | .sltiu ctx a b imm => Sys2Proof.Machine.execSltiu ctx a b imm s
  | .shi ctx a b imm => Sys2Proof.Machine.execShi ctx a b imm s
  | .liq ctx a b imm => Sys2Proof.Machine.execLiq ctx a b imm s
  | .lb ctx a b imm => Sys2Proof.Machine.execLb ctx a b imm s
  | .lbu ctx a b imm => Sys2Proof.Machine.execLbu ctx a b imm s
  | .lh ctx a b imm => Sys2Proof.Machine.execLh ctx a b imm s
  | .lhu ctx a b imm => Sys2Proof.Machine.execLhu ctx a b imm s
  | .lw ctx a b imm => Sys2Proof.Machine.execLw ctx a b imm s
  | .lwu ctx a b imm => Sys2Proof.Machine.execLwu ctx a b imm s
  | .ld ctx a b imm => Sys2Proof.Machine.execLd ctx a b imm s
  | .sb ctx a b imm => Sys2Proof.Machine.execSb ctx a b imm s
  | .sh ctx a b imm => Sys2Proof.Machine.execSh ctx a b imm s
  | .sw ctx a b imm => Sys2Proof.Machine.execSw ctx a b imm s
  | .sd ctx a b imm => Sys2Proof.Machine.execSd ctx a b imm s
  | .xld ctx a b imm bad => Sys2Proof.Machine.execXld ctx a b imm bad s
  | .xst ctx a b imm => Sys2Proof.Machine.execXst ctx a b imm s
  | .storeBufferDrain ctx => Sys2Proof.Machine.execStoreBufferDrain ctx s
  | .beq ctx a b imm => Sys2Proof.Machine.execBeq ctx a b imm s
  | .bne ctx a b imm => Sys2Proof.Machine.execBne ctx a b imm s
  | .blt ctx a b imm => Sys2Proof.Machine.execBlt ctx a b imm s
  | .bge ctx a b imm => Sys2Proof.Machine.execBge ctx a b imm s
  | .bltu ctx a b imm => Sys2Proof.Machine.execBltu ctx a b imm s
  | .bgeu ctx a b imm => Sys2Proof.Machine.execBgeu ctx a b imm s
  | .jal ctx a off => Sys2Proof.Machine.execJal ctx a off s
  | .jalr ctx a b imm => Sys2Proof.Machine.execJalr ctx a b imm s
  | .sysNop ctx => Sys2Proof.Machine.execSysNop ctx s
  | .endCmd ctx => Sys2Proof.Machine.execEnd ctx s
  | .yield ctx => Sys2Proof.Machine.execYield ctx s
  | .fence ctx => Sys2Proof.Machine.execFence ctx s
  | .csrr ctx a imm => Sys2Proof.Machine.execCsrr ctx a imm s
  | .evpop ctx a imm => Sys2Proof.Machine.execEvpop ctx a imm s
  | .evcnt ctx a imm => Sys2Proof.Machine.execEvcnt ctx a imm s
  | .evwait ctx a imm => Sys2Proof.Machine.execEvwait ctx a imm s
  | .evwaitWake ctx => Sys2Proof.Machine.execEvwaitWake ctx s
  | .signal ctx a b c => Sys2Proof.Machine.execSignal ctx a b c s
  | .time ctx a imm => Sys2Proof.Machine.execTime ctx a imm s
  | .tagset ctx a b => Sys2Proof.Machine.execTagset ctx a b s
  | .stend ctx a b => Sys2Proof.Machine.execStend ctx a b s
  | .hdr ctx a b => Sys2Proof.Machine.execHdr ctx a b s
  | .int ctx a b => Sys2Proof.Machine.execInt ctx a b s
  | .skip ctx a b => Sys2Proof.Machine.execSkip ctx a b s
  | .obis ctx a b => Sys2Proof.Machine.execObis ctx a b s
  | .dt ctx a b => Sys2Proof.Machine.execDt ctx a b s
  | .bytes ctx a b n => Sys2Proof.Machine.execBytes ctx a b n s
  | .find ctx a b c n => Sys2Proof.Machine.execFind ctx a b c n s
  | .scale ctx a b c => Sys2Proof.Machine.execScale ctx a b c s
  | .recld ctx a imm => Sys2Proof.Machine.execRecld ctx a imm s
  | .recst ctx a imm => Sys2Proof.Machine.execRecst ctx a imm s
  | .lbegin ctx a b f => Sys2Proof.Machine.execLbegin ctx a b f s
  | .ledgerLockGrant ledger => Sys2Proof.Machine.execLedgerLockGrant ledger s
  | .lrd ctx a b => Sys2Proof.Machine.execLrd ctx a b s
  | .lwr ctx a b c => Sys2Proof.Machine.execLwr ctx a b c s
  | .larg ctx b c => Sys2Proof.Machine.execLarg ctx b c s
  | .lcommit ctx a => Sys2Proof.Machine.execLcommit ctx a s
  | .labort ctx => Sys2Proof.Machine.execLabort ctx s
  | .lcalWrite ctx a b c q => Sys2Proof.Machine.execLcalWrite ctx a b c q s
  | .lcalArm ctx a b => Sys2Proof.Machine.execLcalArm ctx a b s
  | .lcalCancel ctx a b => Sys2Proof.Machine.execLcalCancel ctx a b s
  | .lcalActivateNow ctx a b => Sys2Proof.Machine.execLcalActivateNow ctx a b s
  | .qpush ctx a b c => Sys2Proof.Machine.execQpush ctx a b c s
  | .qpop ctx a b => Sys2Proof.Machine.execQpop ctx a b s
  | .queuePublish queue => Sys2Proof.Machine.execQueuePublish queue s
  | .lookup ctx a b c bad => Sys2Proof.Machine.execLookup ctx a b c bad s
  | .learn ctx a b c bad => Sys2Proof.Machine.execLearn ctx a b c bad s
  | .insert ctx a b c bad => Sys2Proof.Machine.execInsert ctx a b c bad s
  | .insertStatic ctx a b c bad => Sys2Proof.Machine.execInsertStatic ctx a b c bad s
  | .delete ctx a b c bad => Sys2Proof.Machine.execDelete ctx a b c bad s
  | .sweepVisit table set way bad => Sys2Proof.Machine.execSweepVisit table set way bad s
  | .lkacq ctx a b c try_ => Sys2Proof.Machine.execLkacq ctx a b c try_ s
  | .lockWaitTimeout ctx => Sys2Proof.Machine.execLockWaitTimeout ctx s
  | .lkrel ctx a b => Sys2Proof.Machine.execLkrel ctx a b s
  | .lockOwnerReset lock => Sys2Proof.Machine.execLockOwnerReset lock s
  | .issue ctx a b c urgent => Sys2Proof.Machine.execIssue ctx a b c urgent s
  | .engineCompletion n => Sys2Proof.Machine.execEngineCompletion n s
  | .openCmd host => Sys2Proof.Machine.execOpen host s
  | .seal host => Sys2Proof.Machine.execSeal host s
  | .release host => Sys2Proof.Machine.execRelease host s
  | .instructionStoreWrite host off value => Sys2Proof.Machine.execInstructionStoreWrite host off value s
  | .pageOwnerWrite host off bits value => Sys2Proof.Machine.execPageOwnerWrite host off bits value s
  | .tskCmdClr host value => Sys2Proof.Machine.execTskCmdClr host value s
  | .queueEnable host value => Sys2Proof.Machine.execQueueEnable host value s
  | .flush host value => Sys2Proof.Machine.execFlush host value s
  | .clrHigh host value => Sys2Proof.Machine.execClrHigh host value s
  | .tableEnable host value => Sys2Proof.Machine.execTableEnable host value s
  | .sweepNow host value => Sys2Proof.Machine.execSweepNow host value s
  | .tClr host value => Sys2Proof.Machine.execTClr host value s
  | .scrubBad host value => Sys2Proof.Machine.execScrubBad host value s
  | .lockGroupEnable host value => Sys2Proof.Machine.execLockGroupEnable host value s
  | .ringEnable host value => Sys2Proof.Machine.execRingEnable host value s
  | .rngRClr host value => Sys2Proof.Machine.execRngRClr host value s
  | .hostUp host => Sys2Proof.Machine.execHostUp host s
  | .hostDown host => Sys2Proof.Machine.execHostDown host s
  | .shpIdleTimeout => Sys2Proof.Machine.execShpIdleTimeout s
  | .supvAltTakeover => Sys2Proof.Machine.execSupvAltTakeover s
  | .write addr data => Sys2Proof.Machine.execWrite addr data s
  | .read addr words => Sys2Proof.Machine.execRead addr words s
  | .status => Sys2Proof.Machine.execStatus s
  | .ident => Sys2Proof.Machine.execIdent s
  | .irqCoalesceTimeout ring => Sys2Proof.Machine.execIrqCoalesceTimeout ring s
  | .eventSignal source payload => Sys2Proof.Machine.execEventSignal source payload s
  | .evtRouteWrite host off value => Sys2Proof.Machine.execEvtRouteWrite host off value s
  | .evtSClr host value => Sys2Proof.Machine.execEvtSClr host value s
  | .hello port frame => Sys2Proof.Machine.execHello port frame s
  | .data port frame => Sys2Proof.Machine.execData port frame s
  | .ack port frame => Sys2Proof.Machine.execAck port frame s
  | .nak port frame => Sys2Proof.Machine.execNak port frame s
  | .close port frame => Sys2Proof.Machine.execClose port frame s
  | .mrtRtoExpiry host => Sys2Proof.Machine.execMrtRtoExpiry host s
  | .mrtKeepalive host => Sys2Proof.Machine.execMrtKeepalive host s
  | .mrtSessionTimeout host => Sys2Proof.Machine.execMrtSessionTimeout host s
  | .laneEnable host value => Sys2Proof.Machine.execLaneEnable host value s
  | .combiningGroupWrite host value => Sys2Proof.Machine.execCombiningGroupWrite host value s
  | .preambleDetect lane snr joined => Sys2Proof.Machine.execPreambleDetect lane snr joined s
  | .syncmFound lane found => Sys2Proof.Machine.execSyncmFound lane found s
  | .fchDecode lane ok burst2 fch => Sys2Proof.Machine.execFchDecode lane ok burst2 fch s
  | .payloadEnd lane dual erased fcs fcsOld => Sys2Proof.Machine.execPayloadEnd lane dual erased fcs fcsOld s
  | .muteEnd lane => Sys2Proof.Machine.execMuteEnd lane s
  | .pairWaitExpiry lane fcs => Sys2Proof.Machine.execPairWaitExpiry lane fcs s
  | .plcFrameReceived lane frame => Sys2Proof.Machine.execPlcFrameReceived lane frame s
  | .toneMapResponseSend lane air => Sys2Proof.Machine.execToneMapResponseSend lane air s
  | .tmAgeExpiry node => Sys2Proof.Machine.execTmAgeExpiry node s
  | .plcTxStart lane gained air amp sched => Sys2Proof.Machine.execPlcTxStart lane gained air amp sched s
  | .plcTxEnd lane energy => Sys2Proof.Machine.execPlcTxEnd lane energy s
  | .plcAckTimeout lane => Sys2Proof.Machine.execPlcAckTimeout lane s
  | .levelTrip lane => Sys2Proof.Machine.execLevelTrip lane s
  | .plcEnergyWaitExpiry lane => Sys2Proof.Machine.execPlcEnergyWaitExpiry lane s
  | .burst2Send lane inTime air => Sys2Proof.Machine.execBurst2Send lane inTime air s
  | .beaconStart lane inTime air => Sys2Proof.Machine.execBeaconStart lane inTime air s
  | .beaconAnswer lane => Sys2Proof.Machine.execBeaconAnswer lane s
  | .send n => Sys2Proof.Machine.execSend n s
  | .reinject n => Sys2Proof.Machine.execReinject n s
  | .nodeRd n => Sys2Proof.Machine.execNodeRd n s
  | .nodeWr n => Sys2Proof.Machine.execNodeWr n s
  | .beaconSet n => Sys2Proof.Machine.execBeaconSet n s
  | .plcNodeRead host => Sys2Proof.Machine.execPlcNodeRead host s
  | .plcNodeWrite host => Sys2Proof.Machine.execPlcNodeWrite host s
  | .plcNodeClear host => Sys2Proof.Machine.execPlcNodeClear host s
  | .nodeIndexRepairDone => Sys2Proof.Machine.execNodeIndexRepairDone s
  | .plcLClr host value => Sys2Proof.Machine.execPlcLClr host value s
  | .clrTrim host value => Sys2Proof.Machine.execClrTrim host value s
  | .radioEnable host value => Sys2Proof.Machine.execRadioEnable host value s
  | .rfPreambleDetect radio rssi => Sys2Proof.Machine.execRfPreambleDetect radio rssi s
  | .syncWord radio found => Sys2Proof.Machine.execSyncWord radio found s
  | .rfFrameReceived radio now fcs frame => Sys2Proof.Machine.execRfFrameReceived radio now fcs frame s
  | .connectIndSend conn now air => Sys2Proof.Machine.execConnectIndSend conn now air s
  | .connectingTimeout conn => Sys2Proof.Machine.execConnectingTimeout conn s
  | .windowOpen conn now => Sys2Proof.Machine.execWindowOpen conn now s
  | .windowClose radio now => Sys2Proof.Machine.execWindowClose radio now s
  | .csmFrameExchange radio anchor now keyIdx pdu lqi rssi air => Sys2Proof.Machine.execCsmFrameExchange radio anchor now keyIdx pdu lqi rssi air s
  | .connectionEventEnd radio now fcsFail => Sys2Proof.Machine.execConnectionEventEnd radio now fcsFail s
  | .updateInstant conn => Sys2Proof.Machine.execUpdateInstant conn s
  | .wmbHoldExpiry radio item => Sys2Proof.Machine.execWmbHoldExpiry radio item s
  | .rfTxStart radio now gained air => Sys2Proof.Machine.execRfTxStart radio now gained air s
  | .rfAckTimeout radio => Sys2Proof.Machine.execRfAckTimeout radio s
  | .rfBudgetWaitExpiry radio => Sys2Proof.Machine.execRfBudgetWaitExpiry radio s
  | .rfSend n => Sys2Proof.Machine.execRfSend n s
  | .rfReinject n => Sys2Proof.Machine.execRfReinject n s
  | .connect n => Sys2Proof.Machine.execConnect n s
  | .connUpdate n => Sys2Proof.Machine.execConnUpdate n s
  | .terminate n => Sys2Proof.Machine.execTerminate n s
  | .connRd n => Sys2Proof.Machine.execConnRd n s
  | .rfmRClr host value => Sys2Proof.Machine.execRfmRClr host value s
  | .reread host dev => Sys2Proof.Machine.execReread host dev s
  | .program host confirm dev => Sys2Proof.Machine.execProgram host confirm dev s
  | .fusePeriodicReread dev => Sys2Proof.Machine.execFusePeriodicReread dev s
  | .lock host confirm dev => Sys2Proof.Machine.execLock host confirm dev s
  | .kvZeroize host value => Sys2Proof.Machine.execKvZeroize host value s
  | .zeroizeFuseDone dev => Sys2Proof.Machine.execZeroizeFuseDone dev s
  | .sealRecordDone slot ok => Sys2Proof.Machine.execSealRecordDone slot ok s
  | .pinRelease slot gen => Sys2Proof.Machine.execPinRelease slot gen s
  | .keyRemask slot => Sys2Proof.Machine.execKeyRemask slot s
  | .erase host => Sys2Proof.Machine.execErase host s
  | .gcmEncrypt n => Sys2Proof.Machine.execGcmEncrypt n s
  | .gcmDecrypt n => Sys2Proof.Machine.execGcmDecrypt n s
  | .ctr n => Sys2Proof.Machine.execCtr n s
  | .ccmEncrypt n => Sys2Proof.Machine.execCcmEncrypt n s
  | .ccmDecrypt n => Sys2Proof.Machine.execCcmDecrypt n s
  | .cmacGenerate n => Sys2Proof.Machine.execCmacGenerate n s
  | .cmacVerify n => Sys2Proof.Machine.execCmacVerify n s
  | .ecdsaVerify n => Sys2Proof.Machine.execEcdsaVerify n s
  | .ecdsaSign n => Sys2Proof.Machine.execEcdsaSign n s
  | .ecdh n => Sys2Proof.Machine.execEcdh n s
  | .keygen n => Sys2Proof.Machine.execKeygen n s
  | .publicKey n => Sys2Proof.Machine.execPublicKey n s
  | .sha256 n => Sys2Proof.Machine.execSha256 n s
  | .sha384 n => Sys2Proof.Machine.execSha384 n s
  | .sha512 n => Sys2Proof.Machine.execSha512 n s
  | .hmacGenerate n => Sys2Proof.Machine.execHmacGenerate n s
  | .hmacVerify n => Sys2Proof.Machine.execHmacVerify n s
  | .randomBytes n => Sys2Proof.Machine.execRandomBytes n s
  | .keyUpdate n => Sys2Proof.Machine.execKeyUpdate n s
  | .vaultErase n => Sys2Proof.Machine.execVaultErase n s
  | .generate n => Sys2Proof.Machine.execGenerate n s
  | .derive n => Sys2Proof.Machine.execDerive n s
  | .rewrap n => Sys2Proof.Machine.execRewrap n s
  | .info n => Sys2Proof.Machine.execInfo n s
  | .identSign n => Sys2Proof.Machine.execIdentSign n s
  | .trngTestFail which => Sys2Proof.Machine.execTrngTestFail which s
  | .trngRestartTest pass => Sys2Proof.Machine.execTrngRestartTest pass s
  | .drbgReseed => Sys2Proof.Machine.execDrbgReseed s
  | .stageOpen host value => Sys2Proof.Machine.execStageOpen host value s
  | .writeBlock host value => Sys2Proof.Machine.execWriteBlock host value s
  | .verify host value => Sys2Proof.Machine.execVerify host value s
  | .stageCommandDone readFails faults => Sys2Proof.Machine.execStageCommandDone readFails faults s
  | .stageArm host value => Sys2Proof.Machine.execStageArm host value s
  | .disarm host value => Sys2Proof.Machine.execDisarm host value s
  | .stageActivateNow host value => Sys2Proof.Machine.execStageActivateNow host value s
  | .stageConfirm host value => Sys2Proof.Machine.execStageConfirm host value s
  | .revert host value => Sys2Proof.Machine.execRevert host value s
  | .raiseFloor host value dev => Sys2Proof.Machine.execRaiseFloor host value dev s
  | .imageActivate => Sys2Proof.Machine.execImageActivate s
  | .activationFailure => Sys2Proof.Machine.execActivationFailure s
  | .actTmoExpiry => Sys2Proof.Machine.execActTmoExpiry s
  | .trialConfirmExpiry => Sys2Proof.Machine.execTrialConfirmExpiry s
  | .campOpen n => Sys2Proof.Machine.execCampOpen n s
  | .campWrite n => Sys2Proof.Machine.execCampWrite n s
  | .campSeal n => Sys2Proof.Machine.execCampSeal n s
  | .campSend n => Sys2Proof.Machine.execCampSend n s
  | .merge n => Sys2Proof.Machine.execMerge n s
  | .prepAct n => Sys2Proof.Machine.execPrepAct n s
  | .campRead n => Sys2Proof.Machine.execCampRead n s
  | .campClose n => Sys2Proof.Machine.execCampClose n s
  | .campaignTargetReached camp => Sys2Proof.Machine.execCampaignTargetReached camp s
  | .qspiRead host value => Sys2Proof.Machine.execQspiRead host value s
  | .qspiProgram host value => Sys2Proof.Machine.execQspiProgram host value s
  | .qspiErase host value => Sys2Proof.Machine.execQspiErase host value s
  | .boothdr host value => Sys2Proof.Machine.execBoothdr host value s
  | .vaultStoreCompact => Sys2Proof.Machine.execVaultStoreCompact s
  | .format host value bad fails => Sys2Proof.Machine.execFormat host value bad fails s
  | .ftlRead n => Sys2Proof.Machine.execFtlRead n s
  | .ftlWrite n => Sys2Proof.Machine.execFtlWrite n s
  | .append n => Sys2Proof.Machine.execAppend n s
  | .trim n => Sys2Proof.Machine.execTrim n s
  | .reclaim n => Sys2Proof.Machine.execReclaim n s
  | .ftlInfo n => Sys2Proof.Machine.execFtlInfo n s
  | .mergeDone part => Sys2Proof.Machine.execMergeDone part s
  | .pageProgramDone block page bits => Sys2Proof.Machine.execPageProgramDone block page bits s
  | .programFailure block => Sys2Proof.Machine.execProgramFailure block s
  | .blockEraseDone block ok => Sys2Proof.Machine.execBlockEraseDone block ok s
  | .uncorrectableRead block item => Sys2Proof.Machine.execUncorrectableRead block item s
  | .mapCheckpoint => Sys2Proof.Machine.execMapCheckpoint s
  | .wearLevelMove die => Sys2Proof.Machine.execWearLevelMove die s
  | .partitionScrubDone part => Sys2Proof.Machine.execPartitionScrubDone part s
  | .holdupFlush => Sys2Proof.Machine.execHoldupFlush s
  | .holdupFlushDone => Sys2Proof.Machine.execHoldupFlushDone s
  | .inkwellRecord typ tenant body => Sys2Proof.Machine.execInkwellRecord typ tenant body s
  | .inkwellFlush => Sys2Proof.Machine.execInkwellFlush s
  | .freeze host value => Sys2Proof.Machine.execFreeze host value s
  | .inkRelease host value => Sys2Proof.Machine.execInkRelease host value s
  | .freezeMaxExpiry => Sys2Proof.Machine.execFreezeMaxExpiry s
  | .inkSnapTake host value => Sys2Proof.Machine.execInkSnapTake host value s
  | .inkRdSeq host value fails => Sys2Proof.Machine.execInkRdSeq host value fails s
  | .inkItemWrite n => Sys2Proof.Machine.execInkItemWrite n s
  | .inkItemRead n fails => Sys2Proof.Machine.execInkItemRead n fails s
  | .inkItemSnap n => Sys2Proof.Machine.execInkItemSnap n s
  | .inkItemFreeze n => Sys2Proof.Machine.execInkItemFreeze n s
  | .inkItemRelease n => Sys2Proof.Machine.execInkItemRelease n s
  | .ethPortEnable host value => Sys2Proof.Machine.execEthPortEnable host value s
  | .ethLinkChange port up speed => Sys2Proof.Machine.execEthLinkChange port up speed s
  | .ethFrameReceived port frame ok badSrc badDst => Sys2Proof.Machine.execEthFrameReceived port frame ok badSrc badDst s
  | .prpSupervision => Sys2Proof.Machine.execPrpSupervision s
  | .prpNodeForget node lan => Sys2Proof.Machine.execPrpNodeForget node lan s
  | .ptpRequestSend port => Sys2Proof.Machine.execPtpRequestSend port s
  | .fdbLookup host value bad => Sys2Proof.Machine.execFdbLookup host value bad s
  | .fdbInsertStatic host value bad => Sys2Proof.Machine.execFdbInsertStatic host value bad s
  | .fdbDelete host value bad => Sys2Proof.Machine.execFdbDelete host value bad s
  | .flushDynamic host value => Sys2Proof.Machine.execFlushDynamic host value s
  | .ethPClr host value => Sys2Proof.Machine.execEthPClr host value s
  | .claimInEdge => Sys2Proof.Machine.execClaimInEdge s
  | .claimInRelease => Sys2Proof.Machine.execClaimInRelease s
  | .claimRefreshMissing => Sys2Proof.Machine.execClaimRefreshMissing s
  | .heartbeatSend => Sys2Proof.Machine.execHeartbeatSend s
  | .heartbeat body => Sys2Proof.Machine.execHeartbeat body s
  | .journal data => Sys2Proof.Machine.execJournal data s
  | .resync data => Sys2Proof.Machine.execResync data s
  | .notice => Sys2Proof.Machine.execNotice s
  | .listenTimeout => Sys2Proof.Machine.execListenTimeout s
  | .claimSettle => Sys2Proof.Machine.execClaimSettle s
  | .heartbeatMiss => Sys2Proof.Machine.execHeartbeatMiss s
  | .conflictDetect => Sys2Proof.Machine.execConflictDetect s
  | .conflictResolve => Sys2Proof.Machine.execConflictResolve s
  | .claimRelease host value => Sys2Proof.Machine.execClaimRelease host value s
  | .claimTake host value => Sys2Proof.Machine.execClaimTake host value s
  | .resyncStreamEnd tenant => Sys2Proof.Machine.execResyncStreamEnd tenant s
  | .reservoirCostUpdate v mw => Sys2Proof.Machine.execReservoirCostUpdate v mw s
  | .test host value => Sys2Proof.Machine.execTest host value s
  | .capTestPeriod => Sys2Proof.Machine.execCapTestPeriod s
  | .capTestEnd v1 v2 energy => Sys2Proof.Machine.execCapTestEnd v1 v2 energy s
  | .holdupEntry v => Sys2Proof.Machine.execHoldupEntry v s
  | .safetyScan scan => Sys2Proof.Machine.execSafetyScan scan s
  | .offPulse output fell rose => Sys2Proof.Machine.execOffPulse output fell rose s
  | .killTest ok => Sys2Proof.Machine.execKillTest ok s
  | .safArm host value killOk => Sys2Proof.Machine.execSafArm host value killOk s
  | .safReset host value passed => Sys2Proof.Machine.execSafReset host value passed s
  | .restart host value => Sys2Proof.Machine.execRestart host value s
  | .degTimerExpiry => Sys2Proof.Machine.execDegTimerExpiry s
  | .tamperDetect cause => Sys2Proof.Machine.execTamperDetect cause s
  | .tampCfgWrite host value broken => Sys2Proof.Machine.execTampCfgWrite host value broken s
  | .hvinRise v => Sys2Proof.Machine.execHvinRise v s
  | .hvinFall v => Sys2Proof.Machine.execHvinFall v s
  | .railGroupEnable => Sys2Proof.Machine.execRailGroupEnable s
  | .failedStart => Sys2Proof.Machine.execFailedStart s
  | .startRetry => Sys2Proof.Machine.execStartRetry s
  | .vsysFall mv => Sys2Proof.Machine.execVsysFall mv s
  | .railFault rail => Sys2Proof.Machine.execRailFault rail s
  | .railWarn rail => Sys2Proof.Machine.execRailWarn rail s
  | .vbatLow mv => Sys2Proof.Machine.execVbatLow mv s
  | .boot env => Sys2Proof.Machine.execBoot env s
  | .dramInitDone => Sys2Proof.Machine.execDramInitDone s
  | .roleEntry ms => Sys2Proof.Machine.execRoleEntry ms s
  | .bootTimeout => Sys2Proof.Machine.execBootTimeout s
  | .island host value => Sys2Proof.Machine.execIsland host value s
  | .connectReq host value => Sys2Proof.Machine.execConnectReq host value s
  | .degrade host value => Sys2Proof.Machine.execDegrade host value s
  | .resume host value => Sys2Proof.Machine.execResume host value s
  | .detectedFault bit => Sys2Proof.Machine.execDetectedFault bit s
  | .islandDelayExpiry up => Sys2Proof.Machine.execIslandDelayExpiry up s
  | .degradedTimerExpiry => Sys2Proof.Machine.execDegradedTimerExpiry s
  | .warm host value => Sys2Proof.Machine.execWarm host value s
  | .cold host value => Sys2Proof.Machine.execCold host value s
  | .rstNLow => Sys2Proof.Machine.execRstNLow s
  | .holdupReturn v => Sys2Proof.Machine.execHoldupReturn v s
  | .thermalSample temps => Sys2Proof.Machine.execThermalSample temps s
  | .thermalCrossing k up dev => Sys2Proof.Machine.execThermalCrossing k up dev s
  | .thermalRestart => Sys2Proof.Machine.execThermalRestart s
  | .pciePerst endpoint => Sys2Proof.Machine.execPciePerst endpoint s
  | .patrolScrub bad => Sys2Proof.Machine.execPatrolScrub bad s
  | .padFuncWrite host value => Sys2Proof.Machine.execPadFuncWrite host value s
  | .ppsPulse domain => Sys2Proof.Machine.execPpsPulse domain s
  | .ppsWidthEnd domain => Sys2Proof.Machine.execPpsWidthEnd domain s
  | .rfTxEnd radio => Sys2Proof.Machine.execRfTxEnd radio s
  | .vbatLost => Sys2Proof.Machine.execVbatLost s

end Sys2Proof.Machine
end

