-- ==== Sys2Proof/Safety.lean ====
section
/-! DEFINITION. What counts as a safe run, and the words the statements use for a supervisor's access. -/
namespace Sys2Proof.Safety
open Sys2Proof.Machine Sys2Proof.Machine.Reg

/-- DRAM is in canonical form. -/
def MemOk (s : State) : Prop := Memory.wf s.dram = true

/-- A step that goes on. -/
def Goes (s : State) : Prop := ∃ t, step s = .next t

/-- The block answers and the host is the supervisor: its write of a register takes effect (R38). -/
def Open (s : State) (host : Nat) (b : Blk) : Prop := s.silent b = false ∧ host = s.supv

/-- As above, and the host's selector names instance `i` of a kind (R37). -/
def OpenW (s : State) (host : Nat) (b : Blk) (kind i : Nat) : Prop := Open s host b ∧ s.instOf b host = some (kind, i)

/-- Nothing but register fields of the numbers `L` changes. -/
def OnlyRegs (L : List Nat) (s t : State) : Prop := t = { s with regs := t.regs } ∧ ∀ f i, f.id ∉ L → t.fget f i = s.fget f i

/-- The fields a signal may change. -/
def sigFlds : List Fld :=
  [EVT_S_CNT.COUNT, EVT_NOOWN.COUNT, EVT_NOROUTE.COUNT, EVT_S_DROP.COUNT, RNG_R_DROP.COUNT, RNG_H_LOSTCPL.COUNT, RNG_R_CQ.TAIL,
   RNG_R_STAT.PHASE, RNG_R_OUT.COUNT, RNG_R_DONE.COUNT, TSK_IN.OVERFLOW, TSK_IN.COUNT, TSK_DISCARD.COUNT, SCB_POOL_EXH.COUNT, SCB_POOL.USED,
   ETH_P_TXOK.COUNT]

/-- Their numbers. -/
def sigIds : List Nat := sigFlds.map Fld.id

/-- The MRT session of a host whose ring takes a record may send or queue one more frame (R296, R297); nothing else of it changes. -/
def Sends (a b : Mrt) : Prop := b = { a with txSeq := b.txSeq, txc := b.txc, unacked := b.unacked, queued := b.queued }

/-- What a signal leaves alone, beside fields of the numbers `L`. -/
structure Quiet (L : List Nat) (s t : State) : Prop where
  reg : ∀ f i, f.id ∉ L → f.id ∉ sigIds → t.fget f i = s.fget f i
  pending : t.pending = s.pending
  dram : t.dram = s.dram
  sels : t.sels = s.sels
  ten : t.ten = s.ten
  poolQ : t.poolQ = s.poolQ
  ink : t.ink = s.ink
  dstore : t.dstore = s.dstore
  pip : t.pip = s.pip
  ldg : t.ldg = s.ldg
  parts : t.parts = s.parts
  nand : t.nand = s.nand
  time : t.time = s.time
  pair : t.pair = s.pair
  ctxs : t.scb.ctxs = s.scb.ctxs
  items : t.scb.items = s.scb.items
  istore : t.scb.istore = s.scb.istore
  pages : t.scb.pages = s.scb.pages
  prm : t.prm = s.prm
  vault : t.vault = s.vault
  bal : t.bal = s.bal
  plc : t.plc = s.plc
  rfm : t.rfm = s.rfm
  upd : t.upd = s.upd
  eth : t.eth = { s.eth with prpSeq := t.eth.prpSeq }
  saf : t.saf = s.saf
  pow : t.pow = s.pow
  freeCtr : t.freeCtr = s.freeCtr
  routes : t.rng.routes = s.rng.routes
  attach : t.rng.attach = s.rng.attach
  prio0 : t.rng.prio0 = s.rng.prio0
  rings : ∀ r, (t.ring r).descs = (s.ring r).descs ∧ (t.ring r).order = (s.ring r).order ∧ (t.ring r).reads = (s.ring r).reads
    ∧ (t.ring r).cpls = (s.ring r).cpls ∧ (t.ring r).stored = (s.ring r).stored
  hosts : ∀ h, (t.host h).cond = (s.host h).cond ∧ (t.host h).port = (s.host h).port ∧ Sends (s.host h).mrt (t.host h).mrt
    ∧ (h < 3 ∨ 8 ≤ h → (t.host h).mrt = (s.host h).mrt)
  saved : ∀ k, (t.task k).saved = (s.task k).saved

/-- Nothing but one scribe context changes (its registers, pc and counts); all of memory and every other context are as before. -/
def OnlyCtx (x : Nat) (s t : State) : Prop :=
  t = { s with scb := { s.scb with ctxs := t.scb.ctxs } } ∧ ∀ y, y ≠ x → t.ctx y = s.ctx y

end Sys2Proof.Safety
end

