-- ==== Sys2Proof/WellFormed.lean ====
section
/-! DEFINITION. Which commands can be given: operands in the ranges the device has (host IDs of R263, rings, tenants, contexts of R211, register
numbers and fields of R233, 32-bit accesses). The pair link is host 8 of the three MRT timers. An operand without a bound here is one the
environment supplies, judged by the command itself. -/
namespace Sys2Proof

/-- Every operand with a fixed range is in it. -/
def Instr.wellFormed : Instr → Bool
  | .registerWrite host addr value => decide (host < 8) && decide (addr < 2 ^ 32) && decide (value < 2 ^ 32)
  | .selectorWrite host addr value => decide (host < 8) && decide (addr < 2 ^ 32) && decide (value < 2 ^ 32)
  | .windowReadRefused host addr => decide (host < 8) && decide (addr < 2 ^ 32)
  | .chipLock host value => decide (host < 8) && decide (value < 2 ^ 32)
  | .switch host => decide (host < 8)
  | .epochBankExchange => true
  | .epochCopyDone _ => true
  | .tenPendingWrite host _ _ value => decide (host < 8) && decide (value < 2 ^ 32)
  | .resourceRelease _ => true
  | .resourceScrubDone _ => true
  | .tenEnable host value => decide (host < 8) && decide (value < 2 ^ 32)
  | .drainEnd _ => true
  | .drainOverrun _ => true
  | .doorbellSqTail host ring value => decide (host < 8) && decide (ring < 4096) && decide (value < 2 ^ 32)
  | .doorbellHead host ring value => decide (host < 8) && decide (ring < 4096) && decide (value < 2 ^ 32)
  | .descriptorFetchIssue host => decide (host < 8)
  | .descriptorFetched ring _ _ => decide (ring < 4096)
  | .descriptorFetchFail ring _ => decide (ring < 4096)
  | .taskCmdDeliver ring _ => decide (ring < 4096)
  | .apduReadDone ring _ _ => decide (ring < 4096)
  | .apduReadTimeout ring _ => decide (ring < 4096)
  | .classify ring _ spot => decide (ring < 4096) && decide (spot < 6)
  | .ingestQueueOffer port _ => decide (port < 3)
  | .keyUnwrapDone _ => true
  | .keyUnwrapRetry _ => true
  | .decryptDone _ => true
  | .ledgerSectorRetry _ _ => true
  | .ledgerCommit _ => true
  | .balanceContribution _ => true
  | .journalAck tenant _ _ => decide (tenant < 1024)
  | .tagTimeout _ => true
  | .tagEndingDone _ => true
  | .lateResponse _ _ => true
  | .hashRepairDone => true
  | .completionRebuild tenant _ _ _ _ => decide (tenant < 1024)
  | .clear host value => decide (host < 8) && decide (value < 2 ^ 32)
  | .routeEntryWrite host _ value => decide (host < 8) && decide (value < 2 ^ 32)
  | .txnTimeout ctx => decide (ctx < 512)
  | .nandPartialFlush tenant => decide (tenant < 1024)
  | .sinkDown tenant _ => decide (tenant < 1024)
  | .resyncNand host => decide (host < 8)
  | .resyncPtnr host => decide (host < 8)
  | .resyncHost host => decide (host < 8)
  | .rebuildDone host => decide (host < 8)
  | .take host => decide (host < 8)
  | .ckptPeriodExpiry tenant => decide (tenant < 1024)
  | .ckptCopyDone tenant => decide (tenant < 1024)
  | .tenantRebuild tenant _ => decide (tenant < 1024)
  | .rebuild host _ _ => decide (host < 8)
  | .quarClear host _ => decide (host < 8)
  | .requar host _ => decide (host < 8)
  | .arm host _ => decide (host < 8)
  | .cancel host _ => decide (host < 8)
  | .activateNow host _ => decide (host < 8)
  | .calActivationCheck => true
  | .watchSweep => true
  | .writebackLanded _ => true
  | .lineMove _ _ => true
  | .zeroCrossing _ _ _ => true
  | .crossingMissing => true
  | .holdoverExpiry => true
  | .phaseCrossingBc _ _ _ => true
  | .mptLoadLo host value => decide (host < 8) && decide (value < 2 ^ 32)
  | .cycleCountLoad => true
  | .nominal60Change host value => decide (host < 8) && decide (value < 2 ^ 32)
  | .mptNowRead host => decide (host < 8)
  | .gtNsRead host domain => decide (host < 8) && decide (domain < 2)
  | .snapTake host value => decide (host < 8) && decide (value < 2 ^ 32)
  | .invalidate host domain => decide (host < 8) && decide (domain < 2)
  | .step host domain => decide (host < 8) && decide (domain < 2)
  | .confirm host domain => decide (host < 8) && decide (domain < 2)
  | .confirmWinExpiry domain => decide (domain < 2)
  | .holdLimitExpiry domain => decide (domain < 2)
  | .gtTrimWrite host domain value => decide (host < 8) && decide (domain < 2) && decide (value < 2 ^ 32)
  | .gridSelWrite host value => decide (host < 8) && decide (value < 2 ^ 32)
  | .compareArm host value => decide (host < 8) && decide (value < 2 ^ 32)
  | .compareFire _ _ => true
  | .metrologyCycleEnd _ _ _ _ _ _ => true
  | .windowEvaluate _ => true
  | .phaseReport _ _ _ => true
  | .feederDetectorSet _ => true
  | .feederDetectorClear _ => true
  | .membValWrite host value => decide (host < 8) && decide (value < 2 ^ 32)
  | .markTableWrite host _ value => decide (host < 8) && decide (value < 2 ^ 32)
  | .metrologyEnable host value => decide (host < 8) && decide (value < 2 ^ 32)
  | .balNodeEnable host value => decide (host < 8) && decide (value < 2 ^ 32)
  | .taskEnable host value => decide (host < 8) && decide (value < 2 ^ 32)
  | .taskDispatch ctx => decide (ctx < 512)
  | .priority0Dispatch => true
  | .watchdog ctx => decide (ctx < 512)
  | .add ctx a b c => decide (ctx < 512) && decide (a < 32) && decide (b < 32) && decide (c < 32)
  | .sub ctx a b c => decide (ctx < 512) && decide (a < 32) && decide (b < 32) && decide (c < 32)
  | .and ctx a b c => decide (ctx < 512) && decide (a < 32) && decide (b < 32) && decide (c < 32)
  | .or ctx a b c => decide (ctx < 512) && decide (a < 32) && decide (b < 32) && decide (c < 32)
  | .xor ctx a b c => decide (ctx < 512) && decide (a < 32) && decide (b < 32) && decide (c < 32)
  | .sll ctx a b c => decide (ctx < 512) && decide (a < 32) && decide (b < 32) && decide (c < 32)
  | .srl ctx a b c => decide (ctx < 512) && decide (a < 32) && decide (b < 32) && decide (c < 32)
  | .sra ctx a b c => decide (ctx < 512) && decide (a < 32) && decide (b < 32) && decide (c < 32)
  | .slt ctx a b c => decide (ctx < 512) && decide (a < 32) && decide (b < 32) && decide (c < 32)
  | .sltu ctx a b c => decide (ctx < 512) && decide (a < 32) && decide (b < 32) && decide (c < 32)
  | .min ctx a b c => decide (ctx < 512) && decide (a < 32) && decide (b < 32) && decide (c < 32)
  | .max ctx a b c => decide (ctx < 512) && decide (a < 32) && decide (b < 32) && decide (c < 32)
  | .minu ctx a b c => decide (ctx < 512) && decide (a < 32) && decide (b < 32) && decide (c < 32)
  | .maxu ctx a b c => decide (ctx < 512) && decide (a < 32) && decide (b < 32) && decide (c < 32)
  | .mul ctx a b c => decide (ctx < 512) && decide (a < 32) && decide (b < 32) && decide (c < 32)
  | .mulh ctx a b c => decide (ctx < 512) && decide (a < 32) && decide (b < 32) && decide (c < 32)
  | .mulhu ctx a b c => decide (ctx < 512) && decide (a < 32) && decide (b < 32) && decide (c < 32)
  | .div ctx a b c => decide (ctx < 512) && decide (a < 32) && decide (b < 32) && decide (c < 32)
  | .divu ctx a b c => decide (ctx < 512) && decide (a < 32) && decide (b < 32) && decide (c < 32)
  | .rem ctx a b c => decide (ctx < 512) && decide (a < 32) && decide (b < 32) && decide (c < 32)
  | .remu ctx a b c => decide (ctx < 512) && decide (a < 32) && decide (b < 32) && decide (c < 32)
  | .clz ctx a b => decide (ctx < 512) && decide (a < 32) && decide (b < 32)
  | .addi ctx a b imm => decide (ctx < 512) && decide (a < 32) && decide (b < 32) && decide (imm < 65536)
  | .andi ctx a b imm => decide (ctx < 512) && decide (a < 32) && decide (b < 32) && decide (imm < 65536)
  | .ori ctx a b imm => decide (ctx < 512) && decide (a < 32) && decide (b < 32) && decide (imm < 65536)
  | .xori ctx a b imm => decide (ctx < 512) && decide (a < 32) && decide (b < 32) && decide (imm < 65536)
  | .slti ctx a b imm => decide (ctx < 512) && decide (a < 32) && decide (b < 32) && decide (imm < 65536)
  | .sltiu ctx a b imm => decide (ctx < 512) && decide (a < 32) && decide (b < 32) && decide (imm < 65536)
  | .shi ctx a b imm => decide (ctx < 512) && decide (a < 32) && decide (b < 32) && decide (imm < 65536)
  | .liq ctx a b imm => decide (ctx < 512) && decide (a < 32) && decide (b < 32) && decide (imm < 65536)
  | .lb ctx a b imm => decide (ctx < 512) && decide (a < 32) && decide (b < 32) && decide (imm < 65536)
  | .lbu ctx a b imm => decide (ctx < 512) && decide (a < 32) && decide (b < 32) && decide (imm < 65536)
  | .lh ctx a b imm => decide (ctx < 512) && decide (a < 32) && decide (b < 32) && decide (imm < 65536)
  | .lhu ctx a b imm => decide (ctx < 512) && decide (a < 32) && decide (b < 32) && decide (imm < 65536)
  | .lw ctx a b imm => decide (ctx < 512) && decide (a < 32) && decide (b < 32) && decide (imm < 65536)
  | .lwu ctx a b imm => decide (ctx < 512) && decide (a < 32) && decide (b < 32) && decide (imm < 65536)
  | .ld ctx a b imm => decide (ctx < 512) && decide (a < 32) && decide (b < 32) && decide (imm < 65536)
  | .sb ctx a b imm => decide (ctx < 512) && decide (a < 32) && decide (b < 32) && decide (imm < 65536)
  | .sh ctx a b imm => decide (ctx < 512) && decide (a < 32) && decide (b < 32) && decide (imm < 65536)
  | .sw ctx a b imm => decide (ctx < 512) && decide (a < 32) && decide (b < 32) && decide (imm < 65536)
  | .sd ctx a b imm => decide (ctx < 512) && decide (a < 32) && decide (b < 32) && decide (imm < 65536)
  | .xld ctx a b imm _ => decide (ctx < 512) && decide (a < 32) && decide (b < 32) && decide (imm < 65536)
  | .xst ctx a b imm => decide (ctx < 512) && decide (a < 32) && decide (b < 32) && decide (imm < 65536)
  | .storeBufferDrain ctx => decide (ctx < 512)
  | .beq ctx a b imm => decide (ctx < 512) && decide (a < 32) && decide (b < 32) && decide (imm < 65536)
  | .bne ctx a b imm => decide (ctx < 512) && decide (a < 32) && decide (b < 32) && decide (imm < 65536)
  | .blt ctx a b imm => decide (ctx < 512) && decide (a < 32) && decide (b < 32) && decide (imm < 65536)
  | .bge ctx a b imm => decide (ctx < 512) && decide (a < 32) && decide (b < 32) && decide (imm < 65536)
  | .bltu ctx a b imm => decide (ctx < 512) && decide (a < 32) && decide (b < 32) && decide (imm < 65536)
  | .bgeu ctx a b imm => decide (ctx < 512) && decide (a < 32) && decide (b < 32) && decide (imm < 65536)
  | .jal ctx a _ => decide (ctx < 512) && decide (a < 32)
  | .jalr ctx a b imm => decide (ctx < 512) && decide (a < 32) && decide (b < 32) && decide (imm < 65536)
  | .sysNop ctx => decide (ctx < 512)
  | .endCmd ctx => decide (ctx < 512)
  | .yield ctx => decide (ctx < 512)
  | .fence ctx => decide (ctx < 512)
  | .csrr ctx a imm => decide (ctx < 512) && decide (a < 32) && decide (imm < 65536)
  | .evpop ctx a imm => decide (ctx < 512) && decide (a < 32) && decide (imm < 65536)
  | .evcnt ctx a imm => decide (ctx < 512) && decide (a < 32) && decide (imm < 65536)
  | .evwait ctx a imm => decide (ctx < 512) && decide (a < 32) && decide (imm < 65536)
  | .evwaitWake ctx => decide (ctx < 512)
  | .signal ctx a b c => decide (ctx < 512) && decide (a < 32) && decide (b < 32) && decide (c < 32)
  | .time ctx a imm => decide (ctx < 512) && decide (a < 32) && decide (imm < 65536)
  | .tagset ctx a b => decide (ctx < 512) && decide (a < 32) && decide (b < 32)
  | .stend ctx a b => decide (ctx < 512) && decide (a < 32) && decide (b < 32)
  | .hdr ctx a b => decide (ctx < 512) && decide (a < 32) && decide (b < 32)
  | .int ctx a b => decide (ctx < 512) && decide (a < 32) && decide (b < 32)
  | .skip ctx a b => decide (ctx < 512) && decide (a < 32) && decide (b < 32)
  | .obis ctx a b => decide (ctx < 512) && decide (a < 32) && decide (b < 32)
  | .dt ctx a b => decide (ctx < 512) && decide (a < 32) && decide (b < 32)
  | .bytes ctx a b _ => decide (ctx < 512) && decide (a < 32) && decide (b < 32)
  | .find ctx a b c _ => decide (ctx < 512) && decide (a < 32) && decide (b < 32) && decide (c < 32)
  | .scale ctx a b c => decide (ctx < 512) && decide (a < 32) && decide (b < 32) && decide (c < 32)
  | .recld ctx a imm => decide (ctx < 512) && decide (a < 32) && decide (imm < 65536)
  | .recst ctx a imm => decide (ctx < 512) && decide (a < 32) && decide (imm < 65536)
  | .lbegin ctx a b _ => decide (ctx < 512) && decide (a < 32) && decide (b < 32)
  | .ledgerLockGrant _ => true
  | .lrd ctx a b => decide (ctx < 512) && decide (a < 32) && decide (b < 32)
  | .lwr ctx a b c => decide (ctx < 512) && decide (a < 32) && decide (b < 32) && decide (c < 32)
  | .larg ctx b c => decide (ctx < 512) && decide (b < 32) && decide (c < 32)
  | .lcommit ctx a => decide (ctx < 512) && decide (a < 32)
  | .labort ctx => decide (ctx < 512)
  | .lcalWrite ctx a b c _ => decide (ctx < 512) && decide (a < 32) && decide (b < 32) && decide (c < 32)
  | .lcalArm ctx a b => decide (ctx < 512) && decide (a < 32) && decide (b < 32)
  | .lcalCancel ctx a b => decide (ctx < 512) && decide (a < 32) && decide (b < 32)
  | .lcalActivateNow ctx a b => decide (ctx < 512) && decide (a < 32) && decide (b < 32)
  | .qpush ctx a b c => decide (ctx < 512) && decide (a < 32) && decide (b < 32) && decide (c < 32)
  | .qpop ctx a b => decide (ctx < 512) && decide (a < 32) && decide (b < 32)
  | .queuePublish _ => true
  | .lookup ctx a b c _ => decide (ctx < 512) && decide (a < 32) && decide (b < 32) && decide (c < 32)
  | .learn ctx a b c _ => decide (ctx < 512) && decide (a < 32) && decide (b < 32) && decide (c < 32)
  | .insert ctx a b c _ => decide (ctx < 512) && decide (a < 32) && decide (b < 32) && decide (c < 32)
  | .insertStatic ctx a b c _ => decide (ctx < 512) && decide (a < 32) && decide (b < 32) && decide (c < 32)
  | .delete ctx a b c _ => decide (ctx < 512) && decide (a < 32) && decide (b < 32) && decide (c < 32)
  | .sweepVisit _ _ _ _ => true
  | .lkacq ctx a b c _ => decide (ctx < 512) && decide (a < 32) && decide (b < 32) && decide (c < 32)
  | .lockWaitTimeout ctx => decide (ctx < 512)
  | .lkrel ctx a b => decide (ctx < 512) && decide (a < 32) && decide (b < 32)
  | .lockOwnerReset _ => true
  | .issue ctx a b c _ => decide (ctx < 512) && decide (a < 32) && decide (b < 32) && decide (c < 32)
  | .engineCompletion _ => true
  | .openCmd host => decide (host < 8)
  | .seal host => decide (host < 8)
  | .release host => decide (host < 8)
  | .instructionStoreWrite host _ value => decide (host < 8) && decide (value < 2 ^ 32)
  | .pageOwnerWrite host _ _ value => decide (host < 8) && decide (value < 2 ^ 32)
  | .tskCmdClr host value => decide (host < 8) && decide (value < 2 ^ 32)
  | .queueEnable host value => decide (host < 8) && decide (value < 2 ^ 32)
  | .flush host value => decide (host < 8) && decide (value < 2 ^ 32)
  | .clrHigh host value => decide (host < 8) && decide (value < 2 ^ 32)
  | .tableEnable host value => decide (host < 8) && decide (value < 2 ^ 32)
  | .sweepNow host value => decide (host < 8) && decide (value.value < 2 ^ 32)
  | .tClr host value => decide (host < 8) && decide (value < 2 ^ 32)
  | .scrubBad host value => decide (host < 8) && decide (value < 2 ^ 32)
  | .lockGroupEnable host value => decide (host < 8) && decide (value < 2 ^ 32)
  | .ringEnable host value => decide (host < 8) && decide (value < 2 ^ 32)
  | .rngRClr host value => decide (host < 8) && decide (value < 2 ^ 32)
  | .hostUp host => decide (host < 8)
  | .hostDown host => decide (host < 8)
  | .shpIdleTimeout => true
  | .supvAltTakeover => true
  | .write addr _ => decide (addr < 2 ^ 32)
  | .read addr _ => decide (addr < 2 ^ 32)
  | .status => true
  | .ident => true
  | .irqCoalesceTimeout ring => decide (ring < 4096)
  | .eventSignal source payload => decide (source < 2048) && decide (payload.length ≤ 12)
  | .evtRouteWrite host _ value => decide (host < 8) && decide (value < 2 ^ 32)
  | .evtSClr host value => decide (host < 8) && decide (value < 2 ^ 32)
  | .hello port _ => decide (port < 3)
  | .data port _ => decide (port < 3)
  | .ack port _ => decide (port < 3)
  | .nak port _ => decide (port < 3)
  | .close port _ => decide (port < 3)
  | .mrtRtoExpiry host => decide (host < 9)
  | .mrtKeepalive host => decide (host < 9)
  | .mrtSessionTimeout host => decide (host < 9)
  | .laneEnable host value => decide (host < 8) && decide (value < 2 ^ 32)
  | .combiningGroupWrite host value => decide (host < 8) && decide (value < 2 ^ 32)
  | .preambleDetect lane _ _ => decide (lane < 4)
  | .syncmFound lane _ => decide (lane < 4)
  | .fchDecode lane _ _ _ => decide (lane < 4)
  | .payloadEnd lane _ _ _ _ => decide (lane < 4)
  | .muteEnd lane => decide (lane < 4)
  | .pairWaitExpiry lane _ => decide (lane < 4)
  | .plcFrameReceived lane _ => decide (lane < 4)
  | .toneMapResponseSend lane _ => decide (lane < 4)
  | .tmAgeExpiry _ => true
  | .plcTxStart lane _ _ _ _ => decide (lane < 4)
  | .plcTxEnd lane _ => decide (lane < 4)
  | .plcAckTimeout lane => decide (lane < 4)
  | .levelTrip lane => decide (lane < 4)
  | .plcEnergyWaitExpiry lane => decide (lane < 4)
  | .burst2Send lane _ _ => decide (lane < 4)
  | .beaconStart lane _ _ => decide (lane < 4)
  | .beaconAnswer lane => decide (lane < 4)
  | .send _ => true
  | .reinject _ => true
  | .nodeRd _ => true
  | .nodeWr _ => true
  | .beaconSet _ => true
  | .plcNodeRead host => decide (host < 8)
  | .plcNodeWrite host => decide (host < 8)
  | .plcNodeClear host => decide (host < 8)
  | .nodeIndexRepairDone => true
  | .plcLClr host value => decide (host < 8) && decide (value < 2 ^ 32)
  | .clrTrim host value => decide (host < 8) && decide (value < 2 ^ 32)
  | .radioEnable host value => decide (host < 8) && decide (value < 2 ^ 32)
  | .rfPreambleDetect radio _ => decide (radio < 2)
  | .syncWord radio _ => decide (radio < 2)
  | .rfFrameReceived radio _ _ _ => decide (radio < 2)
  | .connectIndSend conn _ _ => decide (conn < 2048)
  | .connectingTimeout conn => decide (conn < 2048)
  | .windowOpen conn _ => decide (conn < 2048)
  | .windowClose radio _ => decide (radio < 2)
  | .csmFrameExchange radio _ _ _ _ _ _ _ => decide (radio < 2)
  | .connectionEventEnd radio _ _ => decide (radio < 2)
  | .updateInstant conn => decide (conn < 2048)
  | .wmbHoldExpiry radio _ => decide (radio < 2)
  | .rfTxStart radio _ _ _ => decide (radio < 2)
  | .rfAckTimeout radio => decide (radio < 2)
  | .rfBudgetWaitExpiry radio => decide (radio < 2)
  | .rfSend _ => true
  | .rfReinject _ => true
  | .connect _ => true
  | .connUpdate _ => true
  | .terminate _ => true
  | .connRd _ => true
  | .rfmRClr host value => decide (host < 8) && decide (value < 2 ^ 32)
  | .reread host _ => decide (host < 8)
  | .program host _ _ => decide (host < 8)
  | .fusePeriodicReread _ => true
  | .lock host _ _ => decide (host < 8)
  | .kvZeroize host value => decide (host < 8) && decide (value < 2 ^ 32)
  | .zeroizeFuseDone _ => true
  | .sealRecordDone _ _ => true
  | .pinRelease _ _ => true
  | .keyRemask _ => true
  | .erase host => decide (host < 8)
  | .gcmEncrypt _ => true
  | .gcmDecrypt _ => true
  | .ctr _ => true
  | .ccmEncrypt _ => true
  | .ccmDecrypt _ => true
  | .cmacGenerate _ => true
  | .cmacVerify _ => true
  | .ecdsaVerify _ => true
  | .ecdsaSign _ => true
  | .ecdh _ => true
  | .keygen _ => true
  | .publicKey _ => true
  | .sha256 _ => true
  | .sha384 _ => true
  | .sha512 _ => true
  | .hmacGenerate _ => true
  | .hmacVerify _ => true
  | .randomBytes _ => true
  | .keyUpdate _ => true
  | .vaultErase _ => true
  | .generate _ => true
  | .derive _ => true
  | .rewrap _ => true
  | .info _ => true
  | .identSign _ => true
  | .trngTestFail _ => true
  | .trngRestartTest _ => true
  | .drbgReseed => true
  | .stageOpen host value => decide (host < 8) && decide (value < 2 ^ 32)
  | .writeBlock host value => decide (host < 8) && decide (value < 2 ^ 32)
  | .verify host value => decide (host < 8) && decide (value < 2 ^ 32)
  | .stageCommandDone _ _ => true
  | .stageArm host value => decide (host < 8) && decide (value < 2 ^ 32)
  | .disarm host value => decide (host < 8) && decide (value < 2 ^ 32)
  | .stageActivateNow host value => decide (host < 8) && decide (value < 2 ^ 32)
  | .stageConfirm host value => decide (host < 8) && decide (value < 2 ^ 32)
  | .revert host value => decide (host < 8) && decide (value < 2 ^ 32)
  | .raiseFloor host value _ => decide (host < 8) && decide (value < 2 ^ 32)
  | .imageActivate => true
  | .activationFailure => true
  | .actTmoExpiry => true
  | .trialConfirmExpiry => true
  | .campOpen _ => true
  | .campWrite _ => true
  | .campSeal _ => true
  | .campSend _ => true
  | .merge _ => true
  | .prepAct _ => true
  | .campRead _ => true
  | .campClose _ => true
  | .campaignTargetReached _ => true
  | .qspiRead host value => decide (host < 8) && decide (value < 2 ^ 32)
  | .qspiProgram host value => decide (host < 8) && decide (value < 2 ^ 32)
  | .qspiErase host value => decide (host < 8) && decide (value < 2 ^ 32)
  | .boothdr host value => decide (host < 8) && decide (value < 2 ^ 32)
  | .vaultStoreCompact => true
  | .format host value _ _ => decide (host < 8) && decide (value < 2 ^ 32)
  | .ftlRead _ => true
  | .ftlWrite _ => true
  | .append _ => true
  | .trim _ => true
  | .reclaim _ => true
  | .ftlInfo _ => true
  | .mergeDone _ => true
  | .pageProgramDone _ _ _ => true
  | .programFailure _ => true
  | .blockEraseDone _ _ => true
  | .uncorrectableRead _ _ => true
  | .mapCheckpoint => true
  | .wearLevelMove _ => true
  | .partitionScrubDone _ => true
  | .holdupFlush => true
  | .holdupFlushDone => true
  | .inkwellRecord _ tenant _ => decide (tenant < 1024)
  | .inkwellFlush => true
  | .freeze host value => decide (host < 8) && decide (value < 2 ^ 32)
  | .inkRelease host value => decide (host < 8) && decide (value < 2 ^ 32)
  | .freezeMaxExpiry => true
  | .inkSnapTake host value => decide (host < 8) && decide (value < 2 ^ 32)
  | .inkRdSeq host value _ => decide (host < 8) && decide (value < 2 ^ 32)
  | .inkItemWrite _ => true
  | .inkItemRead _ _ => true
  | .inkItemSnap _ => true
  | .inkItemFreeze _ => true
  | .inkItemRelease _ => true
  | .ethPortEnable host value => decide (host < 8) && decide (value < 2 ^ 32)
  | .ethLinkChange port _ _ => decide (port < 3)
  | .ethFrameReceived port _ _ _ _ => decide (port < 3)
  | .prpSupervision => true
  | .prpNodeForget _ _ => true
  | .ptpRequestSend port => decide (port < 3)
  | .fdbLookup host value _ => decide (host < 8) && decide (value < 2 ^ 32)
  | .fdbInsertStatic host value _ => decide (host < 8) && decide (value < 2 ^ 32)
  | .fdbDelete host value _ => decide (host < 8) && decide (value < 2 ^ 32)
  | .flushDynamic host value => decide (host < 8) && decide (value < 2 ^ 32)
  | .ethPClr host value => decide (host < 8) && decide (value < 2 ^ 32)
  | .claimInEdge => true
  | .claimInRelease => true
  | .claimRefreshMissing => true
  | .heartbeatSend => true
  | .heartbeat _ => true
  | .journal _ => true
  | .resync _ => true
  | .notice => true
  | .listenTimeout => true
  | .claimSettle => true
  | .heartbeatMiss => true
  | .conflictDetect => true
  | .conflictResolve => true
  | .claimRelease host value => decide (host < 8) && decide (value < 2 ^ 32)
  | .claimTake host value => decide (host < 8) && decide (value < 2 ^ 32)
  | .resyncStreamEnd tenant => decide (tenant < 1024)
  | .reservoirCostUpdate _ _ => true
  | .test host value => decide (host < 8) && decide (value < 2 ^ 32)
  | .capTestPeriod => true
  | .capTestEnd _ _ _ => true
  | .holdupEntry _ => true
  | .safetyScan _ => true
  | .offPulse _ _ _ => true
  | .killTest _ => true
  | .safArm host value _ => decide (host < 8) && decide (value < 2 ^ 32)
  | .safReset host value _ => decide (host < 8) && decide (value < 2 ^ 32)
  | .restart host value => decide (host < 8) && decide (value < 2 ^ 32)
  | .degTimerExpiry => true
  | .tamperDetect _ => true
  | .tampCfgWrite host value _ => decide (host < 8) && decide (value < 2 ^ 32)
  | .hvinRise _ => true
  | .hvinFall _ => true
  | .railGroupEnable => true
  | .failedStart => true
  | .startRetry => true
  | .vsysFall _ => true
  | .railFault _ => true
  | .railWarn _ => true
  | .vbatLow _ => true
  | .boot _ => true
  | .dramInitDone => true
  | .roleEntry _ => true
  | .bootTimeout => true
  | .island host value => decide (host < 8) && decide (value < 2 ^ 32)
  | .connectReq host value => decide (host < 8) && decide (value < 2 ^ 32)
  | .degrade host value => decide (host < 8) && decide (value < 2 ^ 32)
  | .resume host value => decide (host < 8) && decide (value < 2 ^ 32)
  | .detectedFault _ => true
  | .islandDelayExpiry _ => true
  | .degradedTimerExpiry => true
  | .warm host value => decide (host < 8) && decide (value < 2 ^ 32)
  | .cold host value => decide (host < 8) && decide (value < 2 ^ 32)
  | .rstNLow => true
  | .holdupReturn _ => true
  | .thermalSample _ => true
  | .thermalCrossing _ _ _ => true
  | .thermalRestart => true
  | .pciePerst _ => true
  | .patrolScrub _ => true
  | .padFuncWrite host value => decide (host < 8) && decide (value < 2 ^ 32)
  | .ppsPulse domain => decide (domain < 2)
  | .ppsWidthEnd domain => decide (domain < 2)
  | .rfTxEnd radio => decide (radio < 2)
  | .vbatLost => true

end Sys2Proof
end

