-- ==== Sys2Proof/Certificates/Slice0/Obligations.lean ====
section
/-! DEFINITION. The statements for the provers. -/
open Sys2Proof Sys2Proof.Machine Sys2Proof.Machine.Reg Sys2Proof.Safety

/-- For every command c, state s and queue rest: the step of s with c in front of rest is exec of c on s with the queue rest. On an empty queue the
step answers a next state, the one that a powered second makes (the model's own choice, log entry 1). Every command answers a next state in every state: none ends in a fault or a refusal. -/
def Obligations.StepRunsFront : Prop :=
  (∀ (c : Instr) (rest : List Instr) (s : State), step { s with pending := c :: rest } = exec c { s with pending := rest })
  ∧ (∀ s : State, s.pending = [] → step s = .next s.tick)
  ∧ (∀ (c : Instr) (s : State), ∃ t, exec c s = .next t)

/-- A supervisor write that the block answers: CHIP_LOCK with bit 0 sets LOCK and changes nothing else; SWITCH sets BUSY and starts a switch, or while one is busy sets PENDING, and changes no other register; a 32-bit write of a ring owner entry of a ring that is OFF stores the entry's defined bits in
the pending bank; of a ring that is not OFF it leaves the pending bank alone and sets OWNER_BUSY; during a switch a pending-bank write is held, the newest last, and changes nothing else. While a switch checks, the bank exchange makes the pending bank active and the active one pending, starts the
copy, and adds 1 to EPOCH, wrapping at 65,536. When the copy ends with no write held and no switch pending, the pending bank equals the active one, the switch is over, BUSY reads 0 and LAST_TIME is the duration; with writes held, they take effect in their order on the copied bank before anything
else happens. -/
def Obligations.SwitchAndPending : Prop :=
  (
  (∀ s host value, Open s host .chip → nbit value 0 = true →
    ∃ t, exec (.chipLock host value) s = .next t ∧ t.fget CHIP_LOCK.LOCK = 1 ∧ OnlyRegs [CHIP_LOCK.LOCK.id] s t)
  ∧ (∀ s host, Open s host .chip →
    ∃ t, exec (.switch host) s = .next t
      ∧ (s.fget CHIP_EPOCH_STAT.BUSY = 0 → t.fget CHIP_EPOCH_STAT.BUSY = 1 ∧ t.ten = { s.ten with phase := .checking }
          ∧ t.fget CHIP_EPOCH_STAT.PENDING = s.fget CHIP_EPOCH_STAT.PENDING)
      ∧ (s.fget CHIP_EPOCH_STAT.BUSY ≠ 0 → t.fget CHIP_EPOCH_STAT.PENDING = 1 ∧ t.ten = s.ten)
      ∧ (∀ f i, f.id ∉ [CHIP_EPOCH_STAT.BUSY.id, CHIP_EPOCH_STAT.PENDING.id] → t.fget f i = s.fget f i) ∧ t.dram = s.dram)
  ∧ (∀ s host ring value, Open s host .ten → ring < 4096 → s.ten.phase = .idle → s.fget RNG_R_STAT.STATE ring = 0 →
    ∃ t, exec (.tenPendingWrite host (0x20000 + 4 * ring) 32 value) s = .next t
      ∧ tget 0 t.ten.pend.ring ring = Nat.land value 0x80FF03FF ∧ (∀ r, r ≠ ring → tget 0 t.ten.pend.ring r = tget 0 s.ten.pend.ring r)
      ∧ t.ten.active = s.ten.active ∧ OnlyRegs [TEN_SHARE_SUM.SUM.id] { s with ten := t.ten } t)
  ∧ (∀ s host ring value, Open s host .ten → ring < 4096 → s.ten.phase = .idle → s.fget RNG_R_STAT.STATE ring ≠ 0 →
    ∃ t, exec (.tenPendingWrite host (0x20000 + 4 * ring) 32 value) s = .next t
      ∧ t.fget TEN_ERR.OWNER_BUSY = 1 ∧ t.fget TEN_ERR_ADDR.OFFSET = 0x20000 + 4 * ring ∧ t.ten = s.ten)
  ∧ (∀ s host off bits value, Open s host .ten → 0x10000 ≤ off → off < 0x2D200 → s.ten.phase ≠ .idle →
    ∃ t, exec (.tenPendingWrite host off bits value) s = .next t ∧ t = { s with ten := { s.ten with held := s.ten.held ++ [(off, bits, value)] } })
  )
  ∧
  (
  (∀ s, s.ten.phase = .checking → ∃ t, exec .epochBankExchange s = .next t
    ∧ t.ten.active = s.ten.pend ∧ t.ten.pend = s.ten.active ∧ t.ten.phase = .copying ∧ t.ten.held = s.ten.held
    ∧ t.fget CHIP_EPOCH.EPOCH = (s.fget CHIP_EPOCH.EPOCH + 1) % 65536 ∧ t.dram = s.dram)
  ∧ (∀ s d, s.ten.phase = .copying → s.ten.held = [] → s.fget CHIP_EPOCH_STAT.PENDING = 0 → ∃ t, exec (.epochCopyDone d) s = .next t
    ∧ t.ten.pend = s.ten.active ∧ t.ten.active = s.ten.active ∧ t.ten.phase = .idle ∧ t.ten.scrubs = s.ten.scrubs
    ∧ t.fget CHIP_EPOCH_STAT.BUSY = 0 ∧ t.fget CHIP_EPOCH_STAT.LAST_TIME = d % CHIP_EPOCH_STAT.LAST_TIME.span ∧ t.dram = s.dram)
  )

/-- RESOURCE_RELEASE marks the list's entry released once no request names the resource, and keeps the rest of the list; RESOURCE_SCRUB_DONE takes a released entry off the list and TEN_SCRUB.ITEMS follows the list's length; a calendar's control word is at its reset value afterwards, and a released
ledger range that holds no ledger any more reads 0 in DRAM; one that holds a ledger which the journal of the tenant that lost it has no room to clear stays on the list. A supervisor write of ENABLE 1 to a tenant that is OFF makes it ON and adds 1 to its GEN (wrapping), or leaves it OFF, enabled,
while it is being rebuilt; of ENABLE 0 to tenant 0 sets the error TENANT0 and leaves its state. The end of a drain of an Ethernet port or a compare unit with no ENABLE latched makes it OFF and leaves its GEN; a unit that is not DRAINING is left alone. A unit still DRAINING after its time sets the
detected fault DRAIN and, in the role modes of an unpaired device, enters DEGRADED with the mode left as its return mode. -/
def Obligations.TenantsAndResources : Prop :=
  (
  (∀ s index x, s.ten.scrubs[index]? = some x → x.released = false → s.mayScrub x = true → x.kind ≠ .slot →
    ∃ t, exec (.resourceRelease index) s = .next t ∧ t.ten.scrubs = s.ten.scrubs.set index { x with released := true })
  ∧ (∀ s index base tn, s.ten.scrubs[index]? = some ⟨.calendar, base, 1, true, tn⟩ →
    ∃ t, exec (.resourceScrubDone index) s = .next t ∧ t.ten.scrubs = s.ten.scrubs.eraseIdx index ∧ tget {} t.ldg.cals base = ({} : CalCtl)
      ∧ t.fget TEN_SCRUB.ITEMS = min (s.ten.scrubs.length - 1) 65535)
  ∧ (∀ s index base count tn a, s.ten.scrubs[index]? = some ⟨.ledgers, base, count, true, tn⟩ → (∀ e ∈ s.ldg.ledgers, inRange (base, count) e.1 = false) →
      (s.base LDG_BASE_LO.BASE_LO 20 LDG_BASE_HI.BASE_HI + 1024 * base ≤ a ∧ a < s.base LDG_BASE_LO.BASE_LO 20 LDG_BASE_HI.BASE_HI + 1024 * base + 1024 * count) →
    ∃ t, exec (.resourceScrubDone index) s = .next t ∧ t.ten.scrubs = s.ten.scrubs.eraseIdx index ∧ t.mget a = 0)
  ∧ (∀ s index base count tn e, s.ten.scrubs[index]? = some ⟨.ledgers, base, count, true, tn⟩ → s.ldg.ledgers.filter (fun e => inRange (base, count) e.1) = [e] →
      (s.ledgersForget base count).jRoom tn 24 = none → ∃ t, exec (.resourceScrubDone index) s = .next t ∧ t.ten.scrubs = s.ten.scrubs)
  ∧ (∀ s part index, s.ten.scrubs.findIdx? (fun x => x.kind == .partition && x.base == part) = some index →
      (∀ x, s.ten.scrubs[index]? = some x → x.released = true) →
    ∃ t, exec (.partitionScrubDone part) s = .next t ∧ t.ten.scrubs = s.ten.scrubs.eraseIdx index)
  )
  ∧
  (
  (∀ s host value t, OpenW s host .ten 0 t → t ≠ 0 → nbit value 0 = true → s.fget TEN_STAT.STATE t = 0 → s.fget LDG_T_STAT.REBUILD t = 0 →
    ∃ u, exec (.tenEnable host value) s = .next u ∧ u.fget TEN_STAT.STATE t = 2 ∧ u.fget TEN_CTRL.ENABLE t = 1
      ∧ u.fget TEN_STAT.GEN t = (s.fget TEN_STAT.GEN t + 1) % TEN_STAT.GEN.span
      ∧ OnlyRegs [TEN_STAT.STATE.id, TEN_CTRL.ENABLE.id, TEN_STAT.GEN.id, TEN_STAT.ENABLE_LATCHED.id] s u)
  ∧ (∀ s host value t, OpenW s host .ten 0 t → t ≠ 0 → nbit value 0 = true → s.fget TEN_STAT.STATE t = 0 → s.fget LDG_T_STAT.REBUILD t = 1 →
    ∃ u, exec (.tenEnable host value) s = .next u ∧ u.fget TEN_STAT.STATE t = 0 ∧ u.fget TEN_CTRL.ENABLE t = 1)
  ∧ (∀ s host value, OpenW s host .ten 0 0 → nbit value 0 = false →
    ∃ u, exec (.tenEnable host value) s = .next u ∧ u.fget TEN_ERR.TENANT0 = 1 ∧ u.tenState 0 = 2)
  ∧ (∀ s p, s.fget ETH_P_STAT.STATE p = 1 → s.fget ETH_P_STAT.ENABLE_LATCHED p = 0 →
    ∃ u, exec (.drainEnd (.port p)) s = .next u ∧ u.fget ETH_P_STAT.STATE p = 0 ∧ u.fget ETH_P_STAT.GEN p = s.fget ETH_P_STAT.GEN p
      ∧ OnlyRegs [ETH_P_STAT.STATE.id, ETH_P_CTRL.ENABLE.id, ETH_P_STAT.ENABLE_LATCHED.id] s u)
  ∧ (∀ s n, s.fget MPT_CMP_STAT.STATE n = 1 → s.fget MPT_CMP_STAT.ENABLE_LATCHED n = 0 →
    ∃ u, exec (.drainEnd (.compare n)) s = .next u ∧ u.fget MPT_CMP_STAT.STATE n = 0 ∧ u.fget MPT_CMP_STAT.GEN n = s.fget MPT_CMP_STAT.GEN n)
  ∧ (∀ s u, s.draining u = false → exec (.drainEnd u) s = .next s ∧ exec (.drainOverrun u) s = .next s)
  ∧ (∀ s u, s.draining u = true → s.keptByAct u = false → s.mode = 5 ∨ s.mode = 6 ∨ s.mode = 7 → s.pair.en = false →
    ∃ t, exec (.drainOverrun u) s = .next t ∧ nbit (t.fget PWR_FAULT.CAUSE) 0 = true ∧ t.mode = 8 ∧ t.fget PWR_MODE_STAT.RETURN = s.mode)
  )

/-- From the ring's own host, which is UP: DB_SQ_TAIL on a descriptor ring that is ON, with a value below SIZE, sets the tail and clears FETCH_ERR and changes nothing else; with a value of SIZE or above it leaves the tail alone and sets RNG_ERR.DB_RANGE; DB_HEAD that consumes no more than was written
moves the head of a ring with no descriptor outstanding and changes nothing else. From any other host a doorbell leaves head, tail and FETCH_ERR alone, sets RNG_ERR.DB_PROT and counts at that host. An issue slot of an UP host adds a read of the chosen ring's head slot to that ring's reads in flight
and advances its head modulo SIZE. A read that returns while an earlier one of its ring is in flight is kept with its data, and nothing else happens. One that returns first, of a ring of a PCIe host with descriptors outstanding whose check passes and whose FENCE flag is set, becomes an outstanding
descriptor, newest in order, that waits. An INGEST that returns first on a ring with nothing outstanding, its check passed, starts a reading whose length, tenant and priority are the descriptor's and the ring's. A read that fails with no try left sets FETCH_ERR, takes the head back to its slot and
keeps the reads before it; with a try left it is counted and nothing else happens. -/
def Obligations.DoorbellsAndFetch : Prop :=
  (
  (∀ s ring v, ring < 4096 → s.fbit RNG_H_STAT.UP (s.ringHost ring) = true → s.fget RNG_R_CFG.TYPE ring = 0 → s.fget RNG_R_STAT.STATE ring = 2 →
      v % 65536 < s.ringSize ring →
    ∃ t, exec (.doorbellSqTail (s.ringHost ring) ring v) s = .next t ∧ t.fget RNG_R_SQ.TAIL ring = v % 65536 ∧ t.fget RNG_R_STAT.FETCH_ERR ring = 0
      ∧ (∀ f i, (f.id ≠ RNG_R_SQ.TAIL.id ∧ f.id ≠ RNG_R_STAT.FETCH_ERR.id) ∨ (i ≠ ring ∧ (f = RNG_R_SQ.TAIL ∨ f = RNG_R_STAT.FETCH_ERR)) → t.fget f i = s.fget f i)
      ∧ t = { s with regs := t.regs })
  ∧ (∀ s ring v, ring < 4096 → s.fbit RNG_H_STAT.UP (s.ringHost ring) = true → s.fget RNG_R_CFG.TYPE ring = 0 → s.ringSize ring ≤ v % 65536 →
    ∃ t, exec (.doorbellSqTail (s.ringHost ring) ring v) s = .next t ∧ t.fget RNG_ERR.DB_RANGE = 1 ∧ t.fget RNG_R_SQ.TAIL ring = s.fget RNG_R_SQ.TAIL ring)
  ∧ (∀ s ring v, ring < 4096 → s.fbit RNG_H_STAT.UP (s.ringHost ring) = true → s.fget RNG_R_CFG.TYPE ring = 0 → s.fget RNG_R_STAT.STATE ring ≠ 0 →
      (s.ring ring).order = [] → v % 65536 < s.ringSize ring →
      (v % 65536 + s.ringSize ring - s.fget RNG_R_CQ.HEAD ring) % s.ringSize ring
        ≤ (s.fget RNG_R_CQ.TAIL ring + s.ringSize ring - s.fget RNG_R_CQ.HEAD ring) % s.ringSize ring →
    ∃ t, exec (.doorbellHead (s.ringHost ring) ring v) s = .next t ∧ t.fget RNG_R_CQ.HEAD ring = v % 65536 ∧ OnlyRegs [RNG_R_CQ.HEAD.id] s t)
  ∧ (∀ s host ring v, ring < 4096 → host ≠ s.ringHost ring →
    (∃ t, exec (.doorbellSqTail host ring v) s = .next t ∧ t.fget RNG_ERR.DB_PROT = 1 ∧ t.fget RNG_ERR_INFO.RING = ring
      ∧ t.fget RNG_R_SQ.TAIL ring = s.fget RNG_R_SQ.TAIL ring ∧ t.fget RNG_R_STAT.FETCH_ERR ring = s.fget RNG_R_STAT.FETCH_ERR ring)
    ∧ (∃ t, exec (.doorbellHead host ring v) s = .next t ∧ t.fget RNG_ERR.DB_PROT = 1 ∧ t.fget RNG_R_CQ.HEAD ring = s.fget RNG_R_CQ.HEAD ring))
  )
  ∧
  (
  (∀ s host l a r, s.fbit RNG_H_STAT.UP host = true → s.readsOf host < 64 → s.pickLevel host (s.fetchable host) = (some l, a) →
      s.turn host l (s.fetchable host) = some r →
    ∃ t, exec (.descriptorFetchIssue host) s = .next t ∧ (t.ring r).reads = (s.ring r).reads ++ [{ slot := s.fget RNG_R_SQ.HEAD r }]
      ∧ t.fget RNG_R_SQ.HEAD r = (s.fget RNG_R_SQ.HEAD r + 1) % s.ringSize r % 65536 ∧ (t.ring r).order = (s.ring r).order
      ∧ (∀ q, q ≠ r → t.ring q = s.ring q) ∧ t.dram = s.dram)
  ∧ (∀ s ring x y rest data, s.ringHost ring < 2 → (s.ring ring).reads = x :: y :: rest → x.data = none → y.data = none → x.slot ≠ y.slot →
      (∀ z ∈ rest, z.slot ≠ y.slot) →
    ∃ t, exec (.descriptorFetched ring y.slot data) s = .next t ∧ (t.ring ring).reads = x :: { y with data := some (fit 64 data) } :: rest
      ∧ (t.ring ring).order = (s.ring ring).order ∧ t.regs = s.regs ∧ t.dram = s.dram)
  ∧ (∀ s ring x data, s.ringHost ring < 2 → (s.ring ring).reads = [x] → x.data = none → (s.ring ring).order ≠ [] →
      nbit (leAt (fit 64 data) 1 1) 1 = true → s.tenOn (s.ringTenant ring) = true →
      nbit (s.ten.active.ringMask ring) (s.ringHost ring) = true → nbit (s.ten.active.hostMask (s.ringTenant ring)) (s.ringHost ring) = true →
      s.ten.active.prioMin (s.ringTenant ring) ≤ s.fget RNG_R_CFG.PRIO ring → leAt (fit 64 data) 0 1 < 2 →
    ∃ t, exec (.descriptorFetched ring x.slot data) s = .next t ∧ (t.ring ring).reads = [] ∧ (t.ring ring).order = (s.ring ring).order ++ [x.slot]
      ∧ (∃ d, t.desc ring x.slot = some d ∧ d.st = .fenced ∧ d.opcode = leAt (fit 64 data) 0 1 ∧ d.user = leAt (fit 64 data) 8 8
          ∧ d.gen = s.fget RNG_R_STAT.GEN ring)
      ∧ t.dram = s.dram ∧ t.pip = s.pip)
  ∧ (∀ s ring x data, s.ringHost ring < 2 → (s.ring ring).reads = [x] → x.data = none → (s.ring ring).order = [] →
      s.tenOn (s.ringTenant ring) = true →
      nbit (s.ten.active.ringMask ring) (s.ringHost ring) = true → nbit (s.ten.active.hostMask (s.ringTenant ring)) (s.ringHost ring) = true →
      s.ten.active.prioMin (s.ringTenant ring) ≤ s.fget RNG_R_CFG.PRIO ring → leAt (fit 64 data) 0 1 = 1 →
    ∃ t, exec (.descriptorFetched ring x.slot data) s = .next t ∧ (t.ring ring).order = [x.slot]
      ∧ (∃ d, t.desc ring x.slot = some d ∧ d.st = .running ∧ d.opcode = 1)
      ∧ (tget {} t.pip.pre (ring * 65536 + x.slot)).len = leAt (slice (fit 64 data) 16 48) 8 2
      ∧ (tget {} t.pip.pre (ring * 65536 + x.slot)).tenant = s.ringTenant ring
      ∧ (tget {} t.pip.pre (ring * 65536 + x.slot)).prio = s.fget RNG_R_CFG.PRIO ring ∧ t.dram = s.dram)
  ∧ (∀ s ring slot x, (s.ring ring).reads.find? (fun x => x.slot == slot && x.data.isNone) = some x → s.fget PIP_RETRY_DMA.TRIES ≤ x.tries →
    ∃ t, exec (.descriptorFetchFail ring slot) s = .next t ∧ t.fget RNG_R_STAT.FETCH_ERR ring = 1 ∧ t.fget RNG_R_SQ.HEAD ring = slot % 65536
      ∧ t.fget RNG_ERR.FETCH = 1 ∧ (t.ring ring).reads = (s.ring ring).reads.takeWhile (fun y => y.slot != slot))
  ∧ (∀ s ring slot x, (s.ring ring).reads.find? (fun x => x.slot == slot && x.data.isNone) = some x → x.tries < s.fget PIP_RETRY_DMA.TRIES →
    ∃ t, exec (.descriptorFetchFail ring slot) s = .next t ∧ t.regs = s.regs ∧ t.dram = s.dram
      ∧ (t.ring ring).reads = (s.ring ring).reads.map (fun y => if y.slot = slot then { y with tries := y.tries + 1 } else y))
  ∧ (∀ s ring slot d, s.desc ring slot = some d → d.st = .waitDeliver → s.taskOwner (s.fget RNG_R_TASK.TASK ring) = some d.tenant →
      s.entryFree ring slot = true → d.prio ≠ 0 →
      s.fget TSK_IN.COUNT (8 * s.fget RNG_R_TASK.TASK ring + 5) < 16 →
      s.poolHeld ((s.taskOwner (s.fget RNG_R_TASK.TASK ring)).getD 0) < s.poolQuota ((s.taskOwner (s.fget RNG_R_TASK.TASK ring)).getD 0) →
      s.fget SCB_POOL.USED < 65536 → nbit (s.fget TSK_IN_CFG.EN (s.fget RNG_R_TASK.TASK ring)) 5 = true →
    ∃ t, exec (.taskCmdDeliver ring slot) s = .next t ∧ t.desc ring slot = some { d with st := .running }
      ∧ t.dstore = (s.dwrite (s.winAddr (s.fget RNG_R_TASK.TASK ring) (s.cmdEntry ring slot)) d.bytes).dstore ∧ t.dram = s.dram)
  )

/-- A supervisor write of ENABLE 1 to an OFF ring with no task and, if it is a PRODUCE ring, no archive or journal record that waits for it, of an owner that is ON and a host, not the serial port, that both masks allow makes it ON with heads and tails 0, PHASE 1, FETCH_ERR 0, nothing outstanding and GEN
one higher; a ring without a VALID owner stays OFF and RNG_ERR.ENABLE is set; CLR sets the ring's DONE and DROP counts to 0 and changes nothing else. When the condition of a PCIe attachment the device has begins to hold, with ALLOW 1, BOOT ended and the attachment DOWN, it is UP; when it ends, with
no ring of that host listed as ever enabled and no primitive lock held, it is DOWN and DOWNS is one higher; the same of the serial port's idle time-out. The supervisor role moves to the alternate host when the primary holds it, is DOWN, and the alternate is UP; then the register names the alternate
and no attachment changes. -/
def Obligations.RingsAndAttachments : Prop :=
  (
  (∀ s host value r tn, OpenW s host .rng 0 r → nbit value 0 = true → s.fget RNG_R_STAT.STATE r = 0 → s.ten.active.ringOwner r = some tn →
      s.tenOn tn = true → nbit (s.ten.active.ringMask r) (s.ringHost r) = true → nbit (s.ten.active.hostMask tn) (s.ringHost r) = true →
      s.ringHost r ≠ 2 → s.fget RNG_R_TASK.VALID r = 0 →
      s.fget RNG_R_CFG.TYPE r = 0 ∨ (s.ldg.arch = [] ∧ ∀ u, u < 1024 → s.fget LDG_T_HRING.VALID u = 0 ∨ s.fget LDG_T_HRING.RING u ≠ r) →
    ∃ t, exec (.ringEnable host value) s = .next t ∧ t.fget RNG_R_STAT.STATE r = 2 ∧ t.ring r = {}
      ∧ t.fget RNG_R_SQ.HEAD r = 0 ∧ t.fget RNG_R_SQ.TAIL r = 0 ∧ t.fget RNG_R_CQ.HEAD r = 0 ∧ t.fget RNG_R_CQ.TAIL r = 0 ∧ t.fget RNG_R_STAT.PHASE r = 1
      ∧ t.fget RNG_R_STAT.FETCH_ERR r = 0 ∧ t.fget RNG_R_STAT.GEN r = (s.fget RNG_R_STAT.GEN r + 1) % RNG_R_STAT.GEN.span
      ∧ (∀ q, q ≠ r → t.ring q = s.ring q ∧ t.fget RNG_R_STAT.STATE q = s.fget RNG_R_STAT.STATE q))
  ∧ (∀ s host value r, OpenW s host .rng 0 r → nbit value 0 = true → s.fget RNG_R_STAT.STATE r = 0 → s.ten.active.ringOwner r = none →
    ∃ t, exec (.ringEnable host value) s = .next t ∧ t.fget RNG_R_STAT.STATE r = 0 ∧ t.fget RNG_ERR.ENABLE = 1)
  ∧ (∀ s host value r, OpenW s host .rng 0 r → nbit value 0 = true →
    ∃ t, exec (.rngRClr host value) s = .next t ∧ t.fget RNG_R_DONE.COUNT r = 0 ∧ t.fget RNG_R_DROP.COUNT r = 0
      ∧ OnlyRegs [RNG_R_DONE.COUNT.id, RNG_R_DROP.COUNT.id] s t)
  )
  ∧
  (
  (∀ s h, h < 2 → s.hasHost h = true → s.rng.attach = true → s.fbit RNG_H_CTRL.ALLOW h = true → s.fbit RNG_H_STAT.UP h = false →
    ∃ t, exec (.hostUp h) s = .next t ∧ t.fbit RNG_H_STAT.UP h = true ∧ (t.host h).cond = true ∧ t.dram = s.dram
      ∧ (∀ g, g ≠ h → t.fget RNG_H_STAT.UP g = s.fget RNG_H_STAT.UP g))
  ∧ (∀ s h, h < 2 → s.hasHost h = true → s.fbit RNG_H_STAT.UP h = true →
      (∀ e ∈ tget [] s.regs RNG_R_STAT.STATE.id, s.ringHost e.1 ≠ h) → s.prm.locks = [] →
    ∃ t, exec (.hostDown h) s = .next t ∧ t.fbit RNG_H_STAT.UP h = false ∧ (t.host h).cond = false
      ∧ t.fget RNG_H_STAT.DOWNS h = (s.fget RNG_H_STAT.DOWNS h + 1) % RNG_H_STAT.DOWNS.span)
  ∧ (∀ s, s.fbit RNG_H_STAT.UP 2 = true → (∀ e ∈ tget [] s.regs RNG_R_STAT.STATE.id, s.ringHost e.1 ≠ 2) → s.prm.locks = [] →
    ∃ t, exec .shpIdleTimeout s = .next t ∧ t.fbit RNG_H_STAT.UP 2 = false ∧ (t.host 2).cond = false)
  ∧ (∀ s, s.fbit RNG_SUPV.ALT_VALID = true → s.supv = s.fget RNG_SUPV.PRIMARY → s.supv ≠ s.fget RNG_SUPV.ALT → s.fbit RNG_H_STAT.UP s.supv = false →
      s.fbit RNG_H_STAT.UP (s.fget RNG_SUPV.ALT) = true →
    ∃ t, exec .supvAltTakeover s = .next t ∧ t.supv = s.fget RNG_SUPV.ALT % 8 ∧ (∀ h, t.fget RNG_H_STAT.UP h = s.fget RNG_H_STAT.UP h))
  )

/-- A source of which the spec says that it is never signalled signals nothing. A signal of a source whose owner entry is not VALID adds 1 to its count and
to EVT_NOOWN, to EVT_NOROUTE too where both its enable bits are 0, and changes nothing else. A signal of an owned source routed to a
ring only, with room there and the ring's host UP, adds 1 to its count and writes the event record at the ring's tail with the ring's phase. A supervisor's write
of a route whose destinations are the owner's is stored; one whose task is not the owner's leaves the table alone and sets EVT_ERR.ROUTE with the
source. EVT_S_CMD.CLR sets the drop count to 0 and changes nothing else. A coalescing time-out with a count waiting raises the ring's vector and sets the count to 0. -/
def Obligations.Events : Prop :=
  (∀ s src pay, everSignalled src = false → exec (.eventSignal src pay) s = .next s)
  ∧ (∀ s src pay, everSignalled src = true → pay.length ≤ 12 → ownerOf s.ten.active.event src = none →
    ∃ t, exec (.eventSignal src pay) s = .next t ∧ t.fget EVT_S_CNT.COUNT src = (s.fget EVT_S_CNT.COUNT src + 1) % EVT_S_CNT.COUNT.span
      ∧ t.fget EVT_NOOWN.COUNT = min (s.fget EVT_NOOWN.COUNT + 1) (EVT_NOOWN.COUNT.span - 1) % EVT_NOOWN.COUNT.span
      ∧ t.fget EVT_NOROUTE.COUNT = (if nbit (tget 0 s.rng.routes src) 15 = false ∧ nbit (tget 0 s.rng.routes src) 28 = false
          then min (s.fget EVT_NOROUTE.COUNT + 1) (EVT_NOROUTE.COUNT.span - 1) % EVT_NOROUTE.COUNT.span else s.fget EVT_NOROUTE.COUNT)
      ∧ OnlyRegs [EVT_S_CNT.COUNT.id, EVT_NOOWN.COUNT.id, EVT_NOROUTE.COUNT.id] s t)
  ∧ (∀ s src pay o r, everSignalled src = true → pay.length ≤ 12 → ownerOf s.ten.active.event src = some o → nbit (tget 0 s.rng.routes src) 15 = false →
      nbit (tget 0 s.rng.routes src) 28 = true → r = nbits (tget 0 s.rng.routes src) 27 16 → s.prodRoom r 32 = true → s.fbit RNG_H_STAT.UP (s.ringHost r) = true →
    ∃ t, exec (.eventSignal src pay) s = .next t ∧ t.fget EVT_S_CNT.COUNT src = (s.fget EVT_S_CNT.COUNT src + 1) % EVT_S_CNT.COUNT.span
      ∧ tget none (t.ring r).prods (s.fget RNG_R_CQ.TAIL r)
          = some ⟨s.fget RNG_R_STAT.PHASE r, 1, s.prodUnits r 32, evtBody src (t.fget EVT_S_CNT.COUNT src) s.time.mpt pay⟩
      ∧ t.fget RNG_R_CQ.TAIL r = (s.fget RNG_R_CQ.TAIL r + s.prodUnits r 32) % s.ringSize r % 65536 ∧ t.dram = s.dram)
  ∧ (∀ s host src v, Open s host .evt → src < 2048 → s.routeOks src (v % 2 ^ 29) = (true, true) →
    ∃ t, exec (.evtRouteWrite host (0x10000 + 4 * src) v) s = .next t ∧ tget 0 t.rng.routes src = v % 2 ^ 29
      ∧ (∀ q, q ≠ src → tget 0 t.rng.routes q = tget 0 s.rng.routes q) ∧ t.regs = s.regs ∧ t.dram = s.dram)
  ∧ (∀ s host src v, Open s host .evt → src < 2048 → nbit (v % 2 ^ 29) 15 = true → (s.routeOks src (v % 2 ^ 29)).1 = false →
    ∃ t, exec (.evtRouteWrite host (0x10000 + 4 * src) v) s = .next t ∧ t.rng.routes = s.rng.routes ∧ t.fget EVT_ERR.ROUTE = 1 ∧ t.fget EVT_ERR_INFO.SOURCE = src)
  ∧ (∀ s host value n, OpenW s host .evt 0 n → nbit value 0 = true →
    ∃ t, exec (.evtSClr host value) s = .next t ∧ t.fget EVT_S_DROP.COUNT n = 0 ∧ OnlyRegs [EVT_S_DROP.COUNT.id] s t)
  ∧ (∀ s ring, (s.ring ring).coal ≠ 0 → s.fbit RNG_R_IRQ.EN ring = true → s.fget RNG_R_IRQ.COAL_US ring ≠ 0 → s.ringHost ring < 2 →
      nbit (tget 0 (s.host (s.ringHost ring)).mask (s.fget RNG_R_IRQ.VECTOR ring / 32)) (s.fget RNG_R_IRQ.VECTOR ring % 32) = false →
    ∃ t, exec (.irqCoalesceTimeout ring) s = .next t ∧ (t.ring ring).coal = 0 ∧ t.out = s.out ++ [.irq (s.ringHost ring) (s.fget RNG_R_IRQ.VECTOR ring)]
      ∧ t.regs = s.regs ∧ t.dram = s.dram)

/-- A supervisor write of ENABLE 1 to an OFF task for which every condition holds makes it ON with GEN one higher, its fault cleared, its input counts 0 and one more user of its bank; if a condition fails it stays OFF and SCB_ERR.ENABLE is set. A free general context of a cluster with one READY task
starts that task's handler at the entry of the input it serves next, with the saved registers, and counts it as running; with no READY task no context, task or register changes. A READY task is placed in the least-loaded of its clusters that has a free general context, ties to the lowest. The oldest
priority-0 command goes to the free reserved context of the lowest cluster of its task, with the command in w30 and w31. CLR sets a task's overflow and discard counts to 0. Where a handler's context holds no lock, reading, ring command, transaction or store, is its task's only context, the task is
ON with nothing queued, and the device has no ring and no reading in flight: at the watchdog's limit the task's FAULT is 6 (WATCHDOG), FAULT_PC is the handler's pc, the context is free, and the task is DRAINING. Below the limit nothing changes. -/
def Obligations.TasksAndWatchdog : Prop :=
  (
  (∀ s host value k, OpenW s host .scb 0 k → nbit value 0 = true → s.fget TSK_STAT.STATE k = 0 → s.taskMay k = true →
    ∃ t, exec (.taskEnable host value) s = .next t ∧ t.fget TSK_STAT.STATE k = 2 ∧ t.fget TSK_STAT.GEN k = (s.fget TSK_STAT.GEN k + 1) % TSK_STAT.GEN.span
      ∧ t.fget TSK_STAT.FAULT k = 0 ∧ (∀ i, i < 8 → t.fget TSK_IN.COUNT (8 * k + i) = 0) ∧ (t.task k).queues = [] ∧ (t.task k).saved = (s.task k).saved
      ∧ t.fget SCB_BANK_STAT.USERS (s.fget TSK_CFG.BANK k) = (s.fget SCB_BANK_STAT.USERS (s.fget TSK_CFG.BANK k) + 1) % SCB_BANK_STAT.USERS.span)
  ∧ (∀ s host value k, OpenW s host .scb 0 k → nbit value 0 = true → s.fget TSK_STAT.STATE k = 0 → s.taskMay k = false →
    ∃ t, exec (.taskEnable host value) s = .next t ∧ t.fget TSK_STAT.STATE k = 0 ∧ t.fget SCB_ERR.ENABLE = 1 ∧ t.fget SCB_ERR_INFO.OFFSET = 0x1100)
  ∧ (∀ s ctx k i, ctx < 512 → reservedCtx ctx = false → (s.ctx ctx).task = none → s.candidates (ctx / 64) = [k] → s.nextInput k = some i →
    ∃ t, exec (.taskDispatch ctx) s = .next t
      ∧ t.ctx ctx = { task := some k, gen := s.fget TSK_STAT.GEN k, pc := s.entry k i, w := (s.task k).saved, input := i }
      ∧ (t.task k).last = i ∧ t.fget TSK_STAT.RUNNING k = (s.fget TSK_STAT.RUNNING k + 1) % TSK_STAT.RUNNING.span
      ∧ (∀ y, y ≠ ctx → t.ctx y = s.ctx y) ∧ t.dram = s.dram)
  ∧ (∀ s ctx, s.candidates (ctx / 64) = [] →
    ∃ t, exec (.taskDispatch ctx) s = .next t ∧ t.scb.ctxs = s.scb.ctxs ∧ t.tasks = s.tasks ∧ t.regs = s.regs ∧ t.dram = s.dram ∧ (s.waitingTasks = [] → t = s))
  ∧ (∀ (s : State) k c, s.placedIn k = some c → nbit (s.fget TSK_CFG.CLUSTERS k) c = true ∧ (∃ j, 0 < j ∧ j < 64 ∧ (s.ctx (64 * c + j)).task = none)
      ∧ ∀ d, d < 8 → nbit (s.fget TSK_CFG.CLUSTERS k) d = true → (∃ j, 0 < j ∧ j < 64 ∧ (s.ctx (64 * d + j)).task = none) →
        s.clusterLoad c < s.clusterLoad d ∨ (s.clusterLoad c = s.clusterLoad d ∧ c ≤ d))
  ∧ (∀ s k r slot rest c d, s.rng.prio0 = (k, r, slot) :: rest →
      (List.range 8).find? (fun c => nbit (s.fget TSK_CFG.CLUSTERS k) c && (s.ctx (64 * c)).task.isNone) = some c → s.desc r slot = some d →
    ∃ t, exec .priority0Dispatch s = .next t ∧ t.rng.prio0 = rest ∧ t.desc r slot = some { d with st := .running }
      ∧ (t.ctx (64 * c)).task = some k ∧ (t.ctx (64 * c)).pc = s.entry k 5 ∧ (t.ctx (64 * c)).prio0 = true ∧ (t.ctx (64 * c)).cmd = some (r, slot)
      ∧ (t.ctx (64 * c)).get 30 = BitVec.ofNat 64 (leAt (s.cmdPayload r slot d) 0 8)
      ∧ (t.ctx (64 * c)).get 31 = BitVec.ofNat 64 (leAt (s.cmdPayload r slot d) 8 4))
  ∧ (∀ s host value k, OpenW s host .scb 0 k → nbit value 0 = true →
    ∃ t, exec (.tskCmdClr host value) s = .next t ∧ t.fget TSK_DISCARD.COUNT k = 0 ∧ (∀ i, i < 8 → t.fget TSK_IN.OVERFLOW (8 * k + i) = 0)
      ∧ OnlyRegs [TSK_DISCARD.COUNT.id, TSK_IN.OVERFLOW.id, TSK_CYC_LO.CYC_LO.id, TSK_CYC_HI.CYC_HI.id] s t)
  )
  ∧
  (
  (∀ s ctx k, (s.ctx ctx).task = some k → s.fget SCB_CFG.RUN_MAX * 1024 ≤ (s.ctx ctx).run → (s.ctx ctx).locks = [] → (s.ctx ctx).tag = none →
      (s.ctx ctx).cmd = none → (s.ctx ctx).stores = [] → (s.ctx ctx).wait = .none → tget none s.ldg.txns ctx = none → s.ctxsOf k = [ctx] →
      s.fget TSK_STAT.STATE k = 2 → (s.task k).queues = [] → s.rng.rings = [] → s.rng.routes = [] → s.rng.prio0 = [] → s.pip.tags = [] → s.pip.pre = [] →
    ∃ t, exec (.watchdog ctx) s = .next t ∧ t.fget TSK_STAT.FAULT k = 6 ∧ t.fget TSK_FAULT_PC.PC k = (s.ctx ctx).pc % TSK_FAULT_PC.PC.span
      ∧ (t.ctx ctx).task = none ∧ t.fget TSK_STAT.STATE k = 1)
  ∧ (∀ s ctx, (s.ctx ctx).run < s.fget SCB_CFG.RUN_MAX * 1024 → exec (.watchdog ctx) s = .next s)
  )

/-- The oldest store-buffer entry goes to DRAM: its eight bytes are stored little-endian at its address, every other byte of DRAM is as before, and the rest of the buffer stays. An EVWAIT whose
mask has an input with an event gets the lowest such input in its register and no other context changes. A free ledger lock with one waiting LBEGIN is granted to it: its status is OK, or LOCK_BROKEN for a broken lock, and its transaction is open. The ledger time limit gives a
waiting LBEGIN TIMEOUT and takes it off the queue; an open transaction loses its writes and its lock. A lock's wait limit gives TIMEOUT in the register and takes the waiter off the queue. An engine's answer to a live item appends
one event with ticket, status and result to input 7 and the item is gone; the answer to a dead one only frees its pool entry. -/
def Obligations.WaitsEnd : Prop :=
  (∀ s ctx a v rest, (s.ctx ctx).stores = (a, v) :: rest →
    ∃ t, exec (.storeBufferDrain ctx) s = .next t ∧ t.mread a 8 = leB 8 v ∧ (∀ b, b < a ∨ a + 8 ≤ b → t.mget b = s.mget b)
      ∧ (t.ctx ctx).stores = rest ∧ (∀ y, y ≠ ctx → t.ctx y = s.ctx y) ∧ t.regs = s.regs)
  ∧ (∀ s ctx mask rd k i, (s.ctx ctx).wait = .event mask rd → (s.ctx ctx).task = some k → rd ≠ 0 →
      (List.range 8).find? (fun i => nbit mask i && s.fget TSK_IN.COUNT (8 * k + i) != 0) = some i →
    ∃ t, exec (.evwaitWake ctx) s = .next t ∧ (t.ctx ctx).wait = .none ∧ (t.ctx ctx).get rd = BitVec.ofNat 64 i ∧ (t.ctx ctx).run = 0 ∧ OnlyCtx ctx s t)
  ∧ (∀ s l x w kind rd, (s.llock l).owner = none → (s.llock l).waiters = [w] → w.who = .ctx x → (s.ctx x).wait = .ledger l kind rd → rd ≠ 0 →
    ∃ t, exec (.ledgerLockGrant l) s = .next t ∧ (t.llock l).owner = some (.ctx x) ∧ (t.llock l).waiters = [] ∧ (t.llock l).broken = false
      ∧ tget none t.ldg.txns x = some { ledger := l, kind := kind } ∧ (t.ctx x).get rd = (if (s.llock l).broken then 0x30#64 else 0#64) ∧ (t.ctx x).wait = .none)
  ∧ (∀ s ctx l kind rd, (s.ctx ctx).wait = .ledger l kind rd → rd ≠ 0 →
    ∃ t, exec (.txnTimeout ctx) s = .next t ∧ (t.ctx ctx).get rd = 0x20#64 ∧ (t.ctx ctx).wait = .none ∧ (t.llock l).owner = (s.llock l).owner
      ∧ (∀ w ∈ (t.llock l).waiters, w.who ≠ .ctx ctx))
  ∧ (∀ s ctx (x : Txn), (s.ctx ctx).wait = .none → tget none s.ldg.txns ctx = some x → x.timedOut = false → (s.llock x.ledger).owner = some (.ctx ctx) →
    ∃ t, exec (.txnTimeout ctx) s = .next t ∧ tget none t.ldg.txns ctx = some { x with timedOut := true, writes := [], args := [] }
      ∧ (t.llock x.ledger).owner = none ∧ (t.llock x.ledger).broken = (s.llock x.ledger).broken ∧ t.ldg.ledgers = s.ldg.ledgers)
  ∧ (∀ s ctx n rd limit, (s.ctx ctx).wait = .lock n rd limit → limit ≠ 0 → rd ≠ 0 →
    ∃ t, exec (.lockWaitTimeout ctx) s = .next t ∧ (t.ctx ctx).get rd = 0x20#64 ∧ (t.ctx ctx).wait = .none
      ∧ (t.plock n).waiters = (s.plock n).waiters.filter (fun w => w.ctx != ctx) ∧ (t.plock n).st = (s.plock n).st ∧ (t.plock n).ctx = (s.plock n).ctx)
  ∧ (∀ s n it st r, s.item n = some it → it.done = some (st, r) → it.dead = false → s.fget TSK_STAT.STATE it.task = 2 → s.fget TSK_STAT.GEN it.task = it.gen →
      nbit (s.fget TSK_IN_CFG.EN it.task) 7 = true → nbit (s.fget TSK_IN_CFG.MODE it.task) 7 = false →
    ∃ t, exec (.engineCompletion n) s = .next t ∧ t.item n = none
      ∧ tget [] (t.task it.task).queues 7
          = tget [] (s.task it.task).queues 7 ++ [⟨2050, (leB 2 it.ticket ++ leB 1 st ++ [0] ++ leB 8 r).take 12⟩])
  ∧ (∀ s n it st r, s.item n = some it → it.done = some (st, r) → it.dead = true →
    ∃ t, exec (.engineCompletion n) s = .next t ∧ t.item n = none ∧ t.fget SCB_POOL.USED = (s.fget SCB_POOL.USED - 1) % SCB_POOL.USED.span ∧ t.tasks = s.tasks)

/-- A supervisor's OPEN of an EMPTY bank that fits the store and is clear of every other makes it LOADING; SEAL of a LOADING bank with the right CRC makes it SEALED with GEN one higher, with a wrong one leaves it LOADING
and sets SCB_ERR.CHECK; RELEASE of a bank in use leaves it and sets SCB_ERR.BANK_BUSY, of one not in use makes it EMPTY. A word of the instruction store inside a LOADING bank is
stored, and no other word changes; outside, nothing is stored. A page owner entry of a page in no window is stored with its defined bits; of one in a window it stays. -/
def Obligations.ProgramStore : Prop :=
  (∀ s host, Open s host .scb → s.fget SCB_BANK_CTRL.STATE (s.bankOf host) = 0 →
      s.fget SCB_BANK_BASE.BASE (s.bankOf host) + s.fget SCB_BANK_LEN.LEN (s.bankOf host) ≤ 131072 →
      s.bankClear (s.bankOf host) (s.fget SCB_BANK_BASE.BASE (s.bankOf host)) (s.fget SCB_BANK_LEN.LEN (s.bankOf host)) = true →
    ∃ t, exec (.openCmd host) s = .next t ∧ t.fget SCB_BANK_CTRL.STATE (s.bankOf host) = 1 ∧ OnlyRegs [SCB_BANK_CTRL.STATE.id] s t)
  ∧ (∀ s host, Open s host .scb → s.fget SCB_BANK_CTRL.STATE (s.bankOf host) = 1 →
    ∃ t, exec (.seal host) s = .next t
      ∧ (crc32 (s.bankBytes (s.bankOf host)) = s.fget SCB_BANK_CHECK.CRC (s.bankOf host) →
          t.fget SCB_BANK_CTRL.STATE (s.bankOf host) = 2 ∧ t.fget SCB_BANK_STAT.GEN (s.bankOf host) = (s.fget SCB_BANK_STAT.GEN (s.bankOf host) + 1) % SCB_BANK_STAT.GEN.span)
      ∧ (crc32 (s.bankBytes (s.bankOf host)) ≠ s.fget SCB_BANK_CHECK.CRC (s.bankOf host) → t.fget SCB_BANK_CTRL.STATE (s.bankOf host) = 1 ∧ t.fget SCB_ERR.CHECK = 1)
      ∧ t.scb.istore = s.scb.istore)
  ∧ (∀ s host, Open s host .scb → s.fget SCB_BANK_CTRL.STATE (s.bankOf host) ≠ 0 →
    ∃ t, exec (.release host) s = .next t
      ∧ (s.fget SCB_BANK_STAT.USERS (s.bankOf host) = 0 → t.fget SCB_BANK_CTRL.STATE (s.bankOf host) = 0 ∧ OnlyRegs [SCB_BANK_CTRL.STATE.id] s t)
      ∧ (s.fget SCB_BANK_STAT.USERS (s.bankOf host) ≠ 0 → t.fget SCB_BANK_CTRL.STATE (s.bankOf host) = s.fget SCB_BANK_CTRL.STATE (s.bankOf host) ∧ t.fget SCB_ERR.BANK_BUSY = 1))
  ∧ (∀ s host k value b, Open s host .scb → k < 131072 → b < 256 → s.fget SCB_BANK_CTRL.STATE b = 1 →
      s.fget SCB_BANK_BASE.BASE b ≤ k ∧ k < s.fget SCB_BANK_BASE.BASE b + s.fget SCB_BANK_LEN.LEN b →
    ∃ t, exec (.instructionStoreWrite host (0x10000 + 4 * k) value) s = .next t ∧ tget 0 t.scb.istore k = value % 2 ^ 32
      ∧ (∀ j, j ≠ k → tget 0 t.scb.istore j = tget 0 s.scb.istore j) ∧ t.regs = s.regs ∧ t.dram = s.dram)
  ∧ (∀ s host k value, Open s host .scb → k < 131072 → (∀ b, b < 256 → s.fget SCB_BANK_CTRL.STATE b ≠ 1) →
    ∃ t, exec (.instructionStoreWrite host (0x10000 + 4 * k) value) s = .next t ∧ t.scb.istore = s.scb.istore ∧ t.fget SCB_ERR.BANK_BUSY = 1)
  ∧ (∀ s host p value, Open s host .scb → p < 256 → s.pageBusy p = false →
    ∃ t, exec (.pageOwnerWrite host (0x90000 + 2 * p) 16 value) s = .next t ∧ tget 0 t.scb.pages p = Nat.land (value % 65536) 0x83FF
      ∧ (∀ q, q ≠ p → tget 0 t.scb.pages q = tget 0 s.scb.pages q) ∧ t.regs = s.regs ∧ t.dram = s.dram)
  ∧ (∀ s host p value, Open s host .scb → p < 256 → s.pageBusy p = true →
    ∃ t, exec (.pageOwnerWrite host (0x90000 + 2 * p) 16 value) s = .next t ∧ t.scb.pages = s.scb.pages)

/-- A supervisor's ENABLE 1 turns an OFF queue or table, with a place of its own inside its pool and aligned to its size, ON and empty with GEN one higher; an OFF lock group, ON. FLUSH empties a DRAINING queue, which then is OFF. CLR_HIGH clears HIGH and Q_PUSH_REF. A publication
leaves a queue's entries and sets the count of its own end to 0. The sweeper clears HIT of a dynamic entry it finds hit, removes one not hit twice, and leaves a static one; SWEEP_NOW makes the same visit to a table's one
entry; where its parity fails on the read, a dynamic entry is removed and a static one is BAD. T_CLR sets the four counts to 0 and nothing else; SCRUB_BAD keeps exactly the entries that are not BAD. A held lock whose owner is reset and that nobody waits for is BROKEN. -/
def Obligations.Primitives : Prop :=
  (∀ s host value q, OpenW s host .prm 0 q → nbit value 0 = true → s.fget Q_STAT.STATE q = 0 → s.fget Q_BASE.BASE q + s.qDepth q ≤ 65536 →
      s.qPlaceOk q (s.fget Q_BASE.BASE q) (s.qDepth q) = true → s.fget Q_BASE.BASE q % s.qDepth q = 0 →
    ∃ t, exec (.queueEnable host value) s = .next t ∧ t.fget Q_STAT.STATE q = 2 ∧ t.queue q = {} ∧ t.fget Q_LEVEL.LEVEL q = 0
      ∧ t.fget Q_STAT.GEN q = (s.fget Q_STAT.GEN q + 1) % Q_STAT.GEN.span ∧ t.fget PRM_QPOOL.USED = (s.fget PRM_QPOOL.USED + s.qDepth q) % PRM_QPOOL.USED.span)
  ∧ (∀ s host value q, OpenW s host .prm 0 q → nbit value 0 = true → s.fget Q_STAT.STATE q = 1 → s.fget Q_STAT.ENABLE_LATCHED q = 0 →
    ∃ t, exec (.flush host value) s = .next t ∧ t.queue q = {} ∧ t.fget Q_STAT.STATE q = 0 ∧ t.fget Q_LEVEL.LEVEL q = 0 ∧ t.dram = s.dram)
  ∧ (∀ s host value q, OpenW s host .prm 0 q → nbit value 1 = true →
    ∃ t, exec (.clrHigh host value) s = .next t ∧ t.fget Q_LEVEL.HIGH q = 0 ∧ t.fget Q_PUSH_REF.COUNT q = 0 ∧ OnlyRegs [Q_LEVEL.HIGH.id, Q_PUSH_REF.COUNT.id] s t)
  ∧ (∀ s q c, ∃ t, exec (.queuePublish ⟨q, c⟩) s = .next t ∧ t.queue q = (if c then { s.queue q with unret := 0 } else { s.queue q with unpub := 0 }) ∧ (∀ p, p ≠ q → t.queue p = s.queue p) ∧ t.dram = s.dram)
  ∧ (∀ s host value k, OpenW s host .prm 1 k → nbit value 0 = true → s.fget T_STAT.STATE k = 0 → s.fget T_BASE.BASE k + s.tSets k ≤ 16384 →
      s.tPlaceOk k (s.fget T_BASE.BASE k) (s.tSets k) = true → s.fget T_BASE.BASE k % s.tSets k = 0 →
    ∃ t, exec (.tableEnable host value) s = .next t ∧ t.fget T_STAT.STATE k = 2 ∧ (t.htab k).ents = [] ∧ t.fget T_COUNT.VALID k = 0
      ∧ t.fget T_STAT.GEN k = (s.fget T_STAT.GEN k + 1) % T_STAT.GEN.span ∧ t.freeCtr = s.freeCtr + 1)
  ∧ (∀ s k set way e, s.fget T_STAT.STATE k = 2 → s.fget T_SWEEP.S k ≠ 0 → (s.htab k).ents.find? (fun e => e.bucket == set && e.way == way) = some e → e.isStatic = false →
    ∃ t, exec (.sweepVisit k set way false) s = .next t
      ∧ (e.hit = true → (t.htab k).ents = (s.htab k).ents.map (fun x => if x.bucket = set ∧ x.way = way then (if x.hit then { x with hit := false, age := 0 } else { x with age := x.age + 1 }) else x))
      ∧ (e.hit = false → 1 ≤ e.age → (t.htab k).ents = (s.htab k).ents.filter (fun x => !(x.bucket == set && x.way == way)))
      ∧ (∀ j, j ≠ k → t.htab j = s.htab j) ∧ t.dram = s.dram)
  ∧ (∀ s k set way e, s.fget T_STAT.STATE k = 2 → (s.htab k).ents.find? (fun e => e.bucket == set && e.way == way) = some e → e.isStatic = true →
    exec (.sweepVisit k set way false) s = .next s)
  ∧ (∀ s host value k e, OpenW s host .prm 1 k → nbit value 2 = true → s.fget T_STAT.STATE k = 2 → s.fget T_SWEEP.S k ≠ 0 → (s.htab k).ents = [e] → e.isStatic = false → e.hit = true →
    ∃ t, exec (.sweepNow host { value := value }) s = .next t ∧ (t.htab k).ents = [{ e with hit := false, age := 0 }] ∧ t.dram = s.dram)
  ∧ (∀ s host value k e, OpenW s host .prm 1 k → nbit value 2 = true → s.fget T_STAT.STATE k = 2 → s.fget T_SWEEP.S k ≠ 0 → (s.htab k).ents = [e] → e.bad = false →
    ∃ t, exec (.sweepNow host ⟨value, [(e.bucket, e.way)]⟩) s = .next t ∧ (t.htab k).ents = (if e.isStatic then [{ e with bad := true }] else []))
  ∧ (∀ s host value k, OpenW s host .prm 1 k → nbit value 1 = true →
    ∃ t, exec (.tClr host value) s = .next t ∧ t.fget T_EVICT.COUNT k = 0 ∧ t.fget T_AGED.COUNT k = 0 ∧ t.fget T_MOVES.COUNT k = 0 ∧ t.fget T_PARITY.COUNT k = 0
      ∧ OnlyRegs [T_EVICT.COUNT.id, T_AGED.COUNT.id, T_MOVES.COUNT.id, T_PARITY.COUNT.id] s t)
  ∧ (∀ s host value k, OpenW s host .prm 1 k → nbit value 0 = true →
    ∃ t, exec (.scrubBad host value) s = .next t ∧ (t.htab k).ents = (s.htab k).ents.filter (fun e => !e.bad) ∧ (t.htab k).salt = (s.htab k).salt
      ∧ (∀ j, j ≠ k → t.htab j = s.htab j))
  ∧ (∀ s host value g, OpenW s host .prm 2 g → nbit value 0 = true → s.fget L_STAT.STATE g = 0 →
    ∃ t, exec (.lockGroupEnable host value) s = .next t ∧ t.fget L_STAT.STATE g = 2 ∧ t.fget L_STAT.GEN g = (s.fget L_STAT.GEN g + 1) % L_STAT.GEN.span
      ∧ OnlyRegs [L_STAT.STATE.id, L_STAT.GEN.id, L_CTRL.ENABLE.id, L_STAT.ENABLE_LATCHED.id] s t)
  ∧ (∀ s n, (s.plock n).st = 1 → (s.plock n).waiters = [] →
    ∃ t, exec (.lockOwnerReset n) s = .next t ∧ (t.plock n).st = 2 ∧ (t.ctx (s.plock n).ctx).locks = (s.ctx (s.plock n).ctx).locks.filter (· != n))

/-- Context `x` holds a task, is not stalled and below the watchdog limit, and the legal word `w` stands at its program counter with no parity error. -/
def Sys2Proof.Safety.Issues (s : State) (x w : Nat) : Prop :=
  (s.ctx x).task.isSome = true ∧ (s.ctx x).wait = .none ∧ (s.ctx x).run < s.fget SCB_CFG.RUN_MAX * 1024 ∧ s.fetched x = some w ∧ s.parityBad x = false ∧ legalWord w = true ∧ w < 2 ^ 32

/-- Register `a` of context `x` holds `v` (w0 stays 0), every other register is as before, the pc is one further, `cyc` cycles are counted, and nothing else of the
machine changes. -/
def Sys2Proof.Safety.Wrote (x a : Nat) (v : W64) (cyc : Nat) (s t : State) : Prop :=
  (t.ctx x).get a = (if a = 0 then 0#64 else v) ∧ (∀ r, r ≠ a → (t.ctx x).get r = (s.ctx x).get r) ∧ (t.ctx x).pc = (s.ctx x).pc + 1
    ∧ (t.ctx x).cycles = (s.ctx x).cycles + cyc ∧ OnlyCtx x s t

/-- The instruction `i` of OP 0x00 with code `f`, issued by its context, completes: wA is `g` of wB and wC. -/
def Sys2Proof.Safety.AluDoes (i : Nat → Nat → Nat → Nat → Instr) (f cyc : Nat) (g : W64 → W64 → W64) : Prop :=
  ∀ s x a b c, Issues s x (encR 0x00 a b c f) → ∃ t, exec (i x a b c) s = .next t ∧ Wrote x a (g ((s.ctx x).get b) ((s.ctx x).get c)) cyc s t

/-- The instruction `i` of format I with operation `op` completes: wA is `g` of wB and IMM. -/
def Sys2Proof.Safety.ImmDoes (i : Nat → Nat → Nat → Nat → Instr) (op : Nat) (g : W64 → Nat → W64) : Prop :=
  ∀ s x a b imm, Issues s x (encI op a b imm) → ∃ t, exec (i x a b imm) s = .next t ∧ Wrote x a (g ((s.ctx x).get b) imm) 1 s t

/-- A load of `n` bytes inside the data window and aligned completes: wA is `g` of the bytes' little-endian value. -/
def Sys2Proof.Safety.LoadDoes (i : Nat → Nat → Nat → Nat → Instr) (op n : Nat) (g : Nat → W64) : Prop :=
  ∀ s x a b imm k, Issues s x (encI op a b imm) → (s.ctx x).task = some k → memFault (memOff (s.ctx x) b imm) n (s.dwinSize k) = none →
    ∃ t, exec (i x a b imm) s = .next t ∧ Wrote x a (g (ofLe (s.dread (s.fget TSK_DATA.BASE k * 4096 + memOff (s.ctx x) b imm) n))) 2 s t

/-- A store of `n` bytes inside the data window and aligned completes: the low `n` bytes of wA stand little-endian at the offset, every other byte of the data store is
as before, and so are the registers of every context. -/
def Sys2Proof.Safety.StoreDoes (i : Nat → Nat → Nat → Nat → Instr) (op n : Nat) : Prop :=
  ∀ s x a b imm k, Issues s x (encI op a b imm) → (s.ctx x).task = some k → memFault (memOff (s.ctx x) b imm) n (s.dwinSize k) = none →
    ∃ t, exec (i x a b imm) s = .next t
      ∧ t.dread (s.fget TSK_DATA.BASE k * 4096 + memOff (s.ctx x) b imm) n = leB n ((s.ctx x).get a).toNat
      ∧ (∀ e, e < s.fget TSK_DATA.BASE k * 4096 + memOff (s.ctx x) b imm ∨ s.fget TSK_DATA.BASE k * 4096 + memOff (s.ctx x) b imm + n ≤ e →
          tget 0 t.dstore e = tget 0 s.dstore e)
      ∧ t.ctx x = (s.ctx x).next 1 ∧ (∀ y, y ≠ x → t.ctx y = s.ctx y) ∧ t.regs = s.regs ∧ t.dram = s.dram

/-- The branch `i` completes: the pc is PC + IMM, modulo 2^64, where `p` of wA and wB holds, else the next; no register changes. -/
def Sys2Proof.Safety.BranchDoes (i : Nat → Nat → Nat → Nat → Instr) (op : Nat) (p : W64 → W64 → Bool) : Prop :=
  ∀ s x a b imm, Issues s x (encI op a b imm) → ∃ t, exec (i x a b imm) s = .next t ∧ (t.ctx x).w = (s.ctx x).w
    ∧ (t.ctx x).pc = (if p ((s.ctx x).get a) ((s.ctx x).get b) then (w64 (s.ctx x).pc + simm imm).toNat else (s.ctx x).pc + 1) ∧ OnlyCtx x s t

/-- The field-extract instruction `i` completes on a bound tag that has not moved on: wA, wA+1 and wA+2 are the answer `g` of the plaintext and the context. -/
def Sys2Proof.Safety.FxDoes (i : Nat → Nat → Nat → Instr) (f : Nat) (g : State → Nat → Ctx → List Byte → Nat → FxAns) : Prop :=
  ∀ s x a b tag gen, Issues s x (encR 0x29 a b 0 f) → (s.ctx x).tag = some (tag, gen) → (s.tag tag).gen = gen → 1 ≤ a → a ≤ 29 →
    ∃ t, exec (i x a b) s = .next t ∧ (t.ctx x).get a = w64 (g s x (s.ctx x) (s.tag tag).plain b).value
      ∧ (t.ctx x).get (a + 1) = w64 (g s x (s.ctx x) (s.tag tag).plain b).cursor ∧ (t.ctx x).get (a + 2) = w64 (g s x (s.ctx x) (s.tag tag).plain b).flags
      ∧ (∀ r, r ≠ a → r ≠ a + 1 → r ≠ a + 2 → (t.ctx x).get r = (s.ctx x).get r) ∧ OnlyCtx x s t

/-- Each of the 22 codes, issued by its context: ADD, SUB, AND, OR, XOR, the shifts by wC modulo 64, the comparisons, minima and maxima signed and unsigned, the low and the high half of the product (the high one signed or unsigned), quotient and remainder (division by 0 gives all ones and the dividend),
and the count of leading zeros; a write of w0 is discarded; nothing else changes. ADDI, SLTI and SLTIU take the sign-extended immediate, ANDI, ORI and XORI the zero-extended one; SHI shifts by IMM[5:0], left, right or right with the sign as IMM[15:14] says; LIQ puts IMM into the quarter B[1:0] of wA
and clears the rest when B[2] is 1. Nothing else changes. -/
def Obligations.ScribeComputation : Prop :=
  (
  AluDoes .add 0 1 (fun b c => b + c) ∧ AluDoes .sub 1 1 (fun b c => b - c) ∧ AluDoes .and 2 1 (fun b c => b &&& c) ∧ AluDoes .or 3 1 (fun b c => b ||| c)
  ∧ AluDoes .xor 4 1 (fun b c => b ^^^ c) ∧ AluDoes .sll 5 1 (fun b c => b <<< (c.toNat % 64)) ∧ AluDoes .srl 6 1 (fun b c => b >>> (c.toNat % 64))
  ∧ AluDoes .sra 7 1 (fun b c => b.sshiftRight (c.toNat % 64)) ∧ AluDoes .slt 8 1 (fun b c => if b.toInt < c.toInt then 1#64 else 0#64)
  ∧ AluDoes .sltu 9 1 (fun b c => if b.toNat < c.toNat then 1#64 else 0#64) ∧ AluDoes .min 10 1 (fun b c => if b.toInt ≤ c.toInt then b else c)
  ∧ AluDoes .max 11 1 (fun b c => if b.toInt ≤ c.toInt then c else b) ∧ AluDoes .minu 12 1 (fun b c => if b.toNat ≤ c.toNat then b else c)
  ∧ AluDoes .maxu 13 1 (fun b c => if b.toNat ≤ c.toNat then c else b) ∧ AluDoes .mul 16 3 (fun b c => BitVec.ofNat 64 (b.toNat * c.toNat))
  ∧ AluDoes .mulh 17 3 (fun b c => BitVec.ofInt 64 (b.toInt * c.toInt / 2 ^ 64)) ∧ AluDoes .mulhu 18 3 (fun b c => BitVec.ofNat 64 (b.toNat * c.toNat / 2 ^ 64))
  ∧ AluDoes .div 20 36 (fun b c => if c = 0#64 then BitVec.allOnes 64 else BitVec.ofInt 64 (b.toInt.tdiv c.toInt))
  ∧ AluDoes .divu 21 36 (fun b c => if c = 0#64 then BitVec.allOnes 64 else BitVec.ofNat 64 (b.toNat / c.toNat))
  ∧ AluDoes .rem 22 36 (fun b c => if c = 0#64 then b else BitVec.ofInt 64 (b.toInt.tmod c.toInt))
  ∧ AluDoes .remu 23 36 (fun b c => if c = 0#64 then b else BitVec.ofNat 64 (b.toNat % c.toNat))
  ∧ (∀ s x a b, Issues s x (encR 0x00 a b 0 24) → ∃ t n, exec (.clz x a b) s = .next t ∧ Wrote x a (BitVec.ofNat 64 n) 1 s t ∧ n ≤ 64
      ∧ (n < 64 → 2 ^ (63 - n) ≤ ((s.ctx x).get b).toNat) ∧ ((s.ctx x).get b).toNat < 2 ^ (64 - n))
  )
  ∧
  (
  ImmDoes .addi 0x01 (fun b i => b + (BitVec.ofNat 16 i).signExtend 64) ∧ ImmDoes .andi 0x02 (fun b i => b &&& BitVec.ofNat 64 i)
  ∧ ImmDoes .ori 0x03 (fun b i => b ||| BitVec.ofNat 64 i) ∧ ImmDoes .xori 0x04 (fun b i => b ^^^ BitVec.ofNat 64 i)
  ∧ ImmDoes .slti 0x05 (fun b i => if b.toInt < ((BitVec.ofNat 16 i).signExtend 64).toInt then 1#64 else 0#64)
  ∧ ImmDoes .sltiu 0x06 (fun b i => if b.toNat < ((BitVec.ofNat 16 i).signExtend 64).toNat then 1#64 else 0#64)
  ∧ ImmDoes .shi 0x07 (fun b i => if i / 2 ^ 14 = 0 then b <<< (i % 64) else if i / 2 ^ 14 = 1 then b >>> (i % 64) else b.sshiftRight (i % 64))
  ∧ (∀ s x a q imm clear, clear < 2 → q < 4 → Issues s x (encI 0x08 a (q + 4 * clear) imm) → ∃ t v, exec (.liq x a (q + 4 * clear) imm) s = .next t ∧ Wrote x a v 1 s t
      ∧ v.toNat / 2 ^ (16 * q) % 2 ^ 16 = imm
      ∧ (∀ p, p < 4 → p ≠ q → v.toNat / 2 ^ (16 * p) % 2 ^ 16 = if clear = 1 then 0 else ((s.ctx x).get a).toNat / 2 ^ (16 * p) % 2 ^ 16))
  )

/-- A load or store whose bytes lie in the window and whose offset is a multiple of its size moves the bytes, little-endian, sign- or zero-extended as its name says; a store changes no other byte. A load whose range passes the window faults with BOUNDS (3), one that fits but is not aligned with MISALIGN
(4): the same fault the machine takes for any cause, at the context's pc. A parity error of the word fetched or of the task's state faults with PARITY (11) before anything is executed. An XST inside the window and aligned, with fewer than eight entries waiting, appends its address and value to the
context's buffer and changes no byte of DRAM; with eight, the oldest is written and no byte outside its eight changes. An XLD without an error reads eight bytes of DRAM, the context's own buffered stores over them, into wA and changes nothing else; with an uncorrectable error it faults with code 10.
FENCE writes every buffered store in order and leaves the buffer empty. -/
def Obligations.ScribeMemoryAndDram : Prop :=
  (
  LoadDoes .lb 0x09 1 (fun v => (BitVec.ofNat 8 v).signExtend 64) ∧ LoadDoes .lbu 0x0A 1 (BitVec.ofNat 64) ∧ LoadDoes .lh 0x0B 2 (fun v => (BitVec.ofNat 16 v).signExtend 64)
  ∧ LoadDoes .lhu 0x0C 2 (BitVec.ofNat 64) ∧ LoadDoes .lw 0x0D 4 (fun v => (BitVec.ofNat 32 v).signExtend 64) ∧ LoadDoes .lwu 0x0E 4 (BitVec.ofNat 64)
  ∧ LoadDoes .ld 0x0F 8 (BitVec.ofNat 64) ∧ StoreDoes .sb 0x10 1 ∧ StoreDoes .sh 0x11 2 ∧ StoreDoes .sw 0x12 4 ∧ StoreDoes .sd 0x13 8
  ∧ (∀ s x a b imm k, Issues s x (encI 0x0F a b imm) → (s.ctx x).task = some k →
      (s.dwinSize k < memOff (s.ctx x) b imm + 8 → exec (.ld x a b imm) s = .next (s.taskFault x 3))
      ∧ (memOff (s.ctx x) b imm + 8 ≤ s.dwinSize k → memOff (s.ctx x) b imm % 8 ≠ 0 → exec (.ld x a b imm) s = .next (s.taskFault x 4)))
  ∧ (∀ s x a b imm w, (s.ctx x).task.isSome = true → (s.ctx x).wait = .none → (s.ctx x).run < s.fget SCB_CFG.RUN_MAX * 1024 → s.fetched x = some w → s.parityBad x = true →
      exec (.ld x a b imm) s = .next (s.taskFault x 11))
  )
  ∧
  (
  (∀ s x a b imm k, Issues s x (encI 0x15 a b imm) → (s.ctx x).task = some k → memFault (memOff (s.ctx x) b imm) 8 (s.xwinSize k) = none → (s.ctx x).stores.length < 8 →
    ∃ t, exec (.xst x a b imm) s = .next t ∧ (t.ctx x).stores = (s.ctx x).stores ++ [(s.xwinBase k + memOff (s.ctx x) b imm, ((s.ctx x).get a).toNat)]
      ∧ (t.ctx x).w = (s.ctx x).w ∧ OnlyCtx x s t)
  ∧ (∀ s x a b imm k e rest, Issues s x (encI 0x15 a b imm) → (s.ctx x).task = some k → memFault (memOff (s.ctx x) b imm) 8 (s.xwinSize k) = none →
      (s.ctx x).stores = e :: rest → rest.length = 7 →
    ∃ t, exec (.xst x a b imm) s = .next t ∧ (t.ctx x).stores = rest ++ [(s.xwinBase k + memOff (s.ctx x) b imm, ((s.ctx x).get a).toNat)]
      ∧ t.mread e.1 8 = leB 8 e.2 ∧ (∀ m, m < e.1 ∨ e.1 + 8 ≤ m → t.mget m = s.mget m))
  ∧ (∀ s x a b imm k, Issues s x (encI 0x14 a b imm) → (s.ctx x).task = some k → memFault (memOff (s.ctx x) b imm) 8 (s.xwinSize k) = none →
    (∃ t, exec (.xld x a b imm false) s = .next t ∧ Wrote x a (BitVec.ofNat 64 (ofLe ((s.seen (s.ctx x)).mread (s.xwinBase k + memOff (s.ctx x) b imm) 8))) 90 s t)
    ∧ exec (.xld x a b imm true) s = .next (s.taskFault x 10))
  ∧ (∀ s x, Issues s x (encR 0x20 0 0 0 3) → ∃ t, exec (.fence x) s = .next t ∧ (t.ctx x).stores = [] ∧ t.dram = (s.seen (s.ctx x)).dram ∧ (t.ctx x).w = (s.ctx x).w
      ∧ (t.ctx x).pc = (s.ctx x).pc + 1 ∧ (∀ y, y ≠ x → t.ctx y = s.ctx y) ∧ t.regs = s.regs)
  )

/-- Each branch goes to PC + IMM where its comparison of wA and wB holds and to the next instruction where it does not, writing no register. JAL and JALR write the following pc to wA and go to PC + OFF, or wB + IMM with wB read before the write. SYS F 0 only
advances. CSRR reads the task, tenant, context and priority numbers, the handler's input and generation; EVCNT reads an input's count. -/
def Obligations.ScribeControl : Prop :=
  BranchDoes .beq 0x18 (fun a b => a == b) ∧ BranchDoes .bne 0x19 (fun a b => a != b) ∧ BranchDoes .blt 0x1A (fun a b => decide (a.toInt < b.toInt))
  ∧ BranchDoes .bge 0x1B (fun a b => decide (b.toInt ≤ a.toInt)) ∧ BranchDoes .bltu 0x1C (fun a b => decide (a.toNat < b.toNat))
  ∧ BranchDoes .bgeu 0x1D (fun a b => decide (b.toNat ≤ a.toNat))
  ∧ (∀ s x a off, Issues s x (encJ 0x1E a off) → ∃ t, exec (.jal x a off) s = .next t ∧ (t.ctx x).get a = (if a = 0 then 0#64 else w64 ((s.ctx x).pc + 1))
      ∧ (t.ctx x).pc = (w64 (s.ctx x).pc + (BitVec.ofNat 21 off).signExtend 64).toNat ∧ (∀ r, r ≠ a → (t.ctx x).get r = (s.ctx x).get r) ∧ OnlyCtx x s t)
  ∧ (∀ s x a b imm, Issues s x (encI 0x1F a b imm) → ∃ t, exec (.jalr x a b imm) s = .next t ∧ (t.ctx x).get a = (if a = 0 then 0#64 else w64 ((s.ctx x).pc + 1))
      ∧ (t.ctx x).pc = ((s.ctx x).get b + simm imm).toNat ∧ (∀ r, r ≠ a → (t.ctx x).get r = (s.ctx x).get r) ∧ OnlyCtx x s t)
  ∧ (∀ s x, Issues s x (encR 0x20 0 0 0 0) → ∃ t, exec (.sysNop x) s = .next t ∧ t.ctx x = (s.ctx x).next 1 ∧ OnlyCtx x s t)
  ∧ (∀ s x a n k, Issues s x (encI 0x21 a 0 n) → (s.ctx x).task = some k → ∃ t v, exec (.csrr x a n) s = .next t ∧ Wrote x a v 1 s t
      ∧ (n = 0 → v = w64 k) ∧ (n = 1 → v = w64 ((s.taskOwner k).getD 0)) ∧ (n = 2 → v = w64 x)
      ∧ (n = 3 → v = w64 ((s.ctx x).input + (if (s.ctx x).prio0 then 256 else 0))) ∧ (n = 4 → v = w64 (s.ctx x).cycles) ∧ (n = 5 → v = w64 (s.ctx x).gen)
      ∧ (n = 6 → (s.ctx x).tag = none → v = 0#64))
  ∧ (∀ s x a i k, i < 8 → Issues s x (encI 0x23 a 0 i) → (s.ctx x).task = some k → ∃ t, exec (.evcnt x a i) s = .next t ∧ Wrote x a (w64 (s.fget TSK_IN.COUNT (8 * k + i))) 1 s t)

/-- END and YIELD of a handler with no open transaction, no lock and no ring command free its context and, for a task with MULTI 1, keep its registers as the task's image. EVPOP of an empty input gives three zeros; of an input with a
queued event it takes the oldest, gives its header and payload, and lowers the count by 1. EVWAIT with an event waiting gives the lowest input of its mask; with none, it stalls its context and nothing else changes. SIGNAL of a source the task's tenant does not own gives
PROTECTION; of one it owns, OK. TIME 0 gives the mains-phase time, TIME 4 the operating seconds and the power cycles. -/
def Obligations.ScribeEvents : Prop :=
  (∀ s x k, Issues s x (encR 0x20 0 0 0 1) → (s.ctx x).task = some k → tget none s.ldg.txns x = none → (s.ctx x).locks = [] → (s.ctx x).cmd = none →
    ∃ t, exec (.endCmd x) s = .next t ∧ (t.ctx x).task = none ∧ (s.fget TSK_CFG.MULTI k = 1 → (s.ctx x).prio0 = false → (t.task k).saved = (s.ctx x).w)
      ∧ t.dram = (s.seen (s.ctx x)).dram ∧ (∀ y, y ≠ x → t.ctx y = s.ctx y))
  ∧ (∀ s x k, Issues s x (encR 0x20 0 0 0 2) → (s.ctx x).task = some k → tget none s.ldg.txns x = none → (s.ctx x).locks = [] → (s.ctx x).cmd = none →
    ∃ t, exec (.yield x) s = .next t ∧ (t.ctx x).task = none ∧ (s.fget TSK_CFG.MULTI k = 1 → (s.ctx x).prio0 = false → (t.task k).saved = (s.ctx x).w)
      ∧ t.dram = (s.seen (s.ctx x)).dram ∧ (∀ y, y ≠ x → t.ctx y = s.ctx y))
  ∧ (∀ s x a i k, Issues s x (encI 0x22 a 0 i) → (s.ctx x).task = some k → 1 ≤ a → a ≤ 29 → i < 8 → s.fget TSK_IN.COUNT (8 * k + i) = 0 →
    ∃ t, exec (.evpop x a i) s = .next t ∧ (t.ctx x).get a = 0#64 ∧ (t.ctx x).get (a + 1) = 0#64 ∧ (t.ctx x).get (a + 2) = 0#64 ∧ OnlyCtx x s t)
  ∧ (∀ s x a i k e rest, Issues s x (encI 0x22 a 0 i) → (s.ctx x).task = some k → 1 ≤ a → a ≤ 29 → i < 8 → i ≠ 5 → s.fget TSK_IN.COUNT (8 * k + i) ≠ 0 →
      tget [] (s.task k).queues i = e :: rest →
    ∃ t, exec (.evpop x a i) s = .next t ∧ tget [] (t.task k).queues i = rest
      ∧ t.fget TSK_IN.COUNT (8 * k + i) = (s.fget TSK_IN.COUNT (8 * k + i) - 1) % 65536
      ∧ (t.ctx x).get a = w64 (evHeader e.src i e.pay.length) ∧ (t.ctx x).get (a + 1) = w64 (leAt e.pay 0 8) ∧ (t.ctx x).get (a + 2) = w64 (leAt e.pay 8 4))
  ∧ (∀ s x a m k i, Issues s x (encI 0x24 a 0 m) → (s.ctx x).task = some k → a ≠ 0 →
      (List.range 8).find? (fun i => nbit m i && s.fget TSK_IN.COUNT (8 * k + i) != 0) = some i →
    ∃ t, exec (.evwait x a m) s = .next t ∧ (t.ctx x).get a = BitVec.ofNat 64 i ∧ (t.ctx x).wait = .none ∧ (t.ctx x).pc = (s.ctx x).pc + 1 ∧ OnlyCtx x s t)
  ∧ (∀ s x a m k, Issues s x (encI 0x24 a 0 m) → (s.ctx x).task = some k → (List.range 8).find? (fun i => nbit m i && s.fget TSK_IN.COUNT (8 * k + i) != 0) = none →
    ∃ t, exec (.evwait x a m) s = .next t ∧ (t.ctx x).wait = .event m a ∧ (t.ctx x).w = (s.ctx x).w ∧ OnlyCtx x s t)
  ∧ (∀ s x a b c, Issues s x (encR 0x25 a b c 0) → c ≤ 30 → a ≠ 0 → 1280 ≤ ((s.ctx x).get b).toNat → ((s.ctx x).get b).toNat < 2048 →
    ∃ t, exec (.signal x a b c) s = .next t ∧ (t.ctx x).pc = (s.ctx x).pc + 1
      ∧ (ownerOf s.ten.active.event ((s.ctx x).get b).toNat = some (s.ctxTenant x) → (t.ctx x).get a = 0#64)
      ∧ (ownerOf s.ten.active.event ((s.ctx x).get b).toNat ≠ some (s.ctxTenant x) → (t.ctx x).get a = 0x23#64))
  ∧ (∀ s x a, Issues s x (encI 0x26 a 0 0) → ∃ t, exec (.time x a 0) s = .next t ∧ Wrote x a (w64 s.time.mpt) 4 s t)
  ∧ (∀ s x a, Issues s x (encI 0x26 a 0 4) → 1 ≤ a → a ≤ 30 → ∃ t, exec (.time x a 4) s = .next t ∧ (t.ctx x).get a = w64 (s.fget MPT_OPSEC.SECONDS)
      ∧ (t.ctx x).get (a + 1) = w64 (s.fget MPT_PCYC.COUNT) ∧ OnlyCtx x s t)

/-- TAGSET of a tag of the task's tenant, of the right generation and at a stage the task serves, binds it with status OK; of another tenant's tag gives PROTECTION and binds nothing. RECLD reads and RECST writes a dword of the bound tag's record, leaving the other seven. STEND with status BAD_APDU ends
the tag's reading with that status and unbinds it; for a tag that has moved on it gives CANCELLED, unbinds, counts it, and changes no tag. On a bound tag: INT, SKIP, OBIS and DT give in wA, wA+1 and wA+2 the value, cursor and flags of the A-XDR element at the cursor wB; HDR does too, where the
length of a type of fixed size, which the encoding does not carry, is a value nothing constrains. BYTES of 1 to 8 bytes inside the plaintext gives them big-endian and the cursor after them. FIND and SCALE give their answers. No other register changes. -/
def Obligations.ScribeReadingAndFields : Prop :=
  (
  (∀ s x a b k i g, Issues s x (encR 0x27 a b 0 0) → (s.ctx x).task = some k → (s.ctx x).tag = none → a ≠ 0 → i < 65536 → g < 256 →
      ((s.ctx x).get b).toNat = i + g * 65536 → (s.tag i).st = 1 → (s.tag i).tenant = s.ctxTenant x → (s.tag i).gen = g → s.serves k (s.tag i) = true →
    ∃ t, exec (.tagset x a b) s = .next t ∧ (t.ctx x).tag = some (i, g) ∧ (t.ctx x).get a = 0#64 ∧ OnlyCtx x s t)
  ∧ (∀ s x a b i g, Issues s x (encR 0x27 a b 0 0) → (s.ctx x).tag = none → a ≠ 0 → i < 65536 → g < 256 →
      ((s.ctx x).get b).toNat = i + g * 65536 → (s.tag i).st ≠ 0 → (s.tag i).tenant ≠ s.ctxTenant x →
    ∃ t, exec (.tagset x a b) s = .next t ∧ (t.ctx x).tag = none ∧ (t.ctx x).get a = 0x23#64 ∧ t.pip = s.pip)
  ∧ (∀ s x a n i g, Issues s x (encI 0x2A a 0 n) → n < 8 → (s.ctx x).tag = some (i, g) → (s.tag i).gen = g → (s.tag i).st = 1 →
    ∃ t, exec (.recld x a n) s = .next t ∧ Wrote x a ((s.tag i).record.getD n 0#64) 2 s t)
  ∧ (∀ s x a n i g, Issues s x (encI 0x2B a 0 n) → n < 8 → (s.ctx x).tag = some (i, g) → (s.tag i).gen = g → (s.tag i).st = 1 → (s.tag i).record.length = 8 →
    ∃ t, exec (.recst x a n) s = .next t ∧ (t.tag i).record.getD n 0#64 = (s.ctx x).get a ∧ (∀ m, m ≠ n → (t.tag i).record.getD m 0#64 = (s.tag i).record.getD m 0#64)
      ∧ (∀ j, j ≠ i → t.tag j = s.tag j) ∧ t.regs = s.regs ∧ t.dram = s.dram)
  ∧ (∀ s x a b k i g, Issues s x (encR 0x28 a b 0 0) → (s.ctx x).task = some k → a ≠ 0 → (s.ctx x).tag = some (i, g) → (s.tag i).gen = g → s.serves k (s.tag i) = true →
      ((s.ctx x).get b).toNat % 256 = 0x12 →
    ∃ t, exec (.stend x a b) s = .next t ∧ (t.ctx x).tag = none ∧ (t.ctx x).get a = 0#64 ∧ (t.tag i).st = 3 ∧ (t.tag i).status = 0x12)
  ∧ (∀ s x a b i g, Issues s x (encR 0x28 a b 0 0) → a ≠ 0 → (s.ctx x).tag = some (i, g) → (s.tag i).gen ≠ g →
    ∃ t, exec (.stend x a b) s = .next t ∧ (t.ctx x).tag = none ∧ (t.ctx x).get a = 0x21#64 ∧ t.pip = s.pip
      ∧ t.fget PIP_LATE.COUNT = min (s.fget PIP_LATE.COUNT + 1) (PIP_LATE.COUNT.span - 1) % PIP_LATE.COUNT.span)
  )
  ∧
  (
  FxDoes .int 1 (fun _ _ k d b => fxOpInt d (k.get b).toNat) ∧ FxDoes .skip 2 (fun _ _ k d b => fxOpSkip d (k.get b).toNat)
  ∧ FxDoes .obis 3 (fun s x k d b => fxOpObis d (k.get b).toNat (s.obisSet (s.ctxTenant x)))
  ∧ FxDoes .dt 4 (fun s x k d b => fxOpDt d (k.get b).toNat (s.policy (s.ctxTenant x) 3))
  ∧ (∀ s x a b tag gen, Issues s x (encR 0x29 a b 0 0) → (s.ctx x).tag = some (tag, gen) → (s.tag tag).gen = gen → 1 ≤ a → a ≤ 29 →
    ∃ t v, exec (.hdr x a b) s = .next t ∧ v < 2 ^ 32 ∧ (t.ctx x).get a = w64 (fxOpHdr (s.tag tag).plain ((s.ctx x).get b).toNat v).value
      ∧ (t.ctx x).get (a + 1) = (s.ctx x).get b ∧ (t.ctx x).get (a + 2) = w64 (fxOpHdr (s.tag tag).plain ((s.ctx x).get b).toNat v).flags)
  ∧ (∀ s x a b n tag gen, Issues s x (encR 0x29 a b 0 (8 * n + 5)) → (s.ctx x).tag = some (tag, gen) → (s.tag tag).gen = gen → 1 ≤ a → a ≤ 29 → 1 ≤ n → n ≤ 8 →
      ((s.ctx x).get b).toNat + n ≤ (s.tag tag).plain.length →
    ∃ t, exec (.bytes x a b n) s = .next t ∧ (t.ctx x).get a = w64 (ofBe (((s.tag tag).plain.drop ((s.ctx x).get b).toNat).take n))
      ∧ (t.ctx x).get (a + 1) = w64 (((s.ctx x).get b).toNat + n) ∧ (t.ctx x).get (a + 2) = 0#64 ∧ OnlyCtx x s t)
  ∧ (∀ s x a b c n tag gen, Issues s x (encR 0x29 a b c (8 * n + 6)) → (s.ctx x).tag = some (tag, gen) → (s.tag tag).gen = gen → 1 ≤ a → a ≤ 29 → c ≤ 30 →
    ∃ t, exec (.find x a b c n) s = .next t
      ∧ (t.ctx x).get a = w64 (fxOpFind (s.tag tag).plain ((s.ctx x).get b).toNat ((s.ctx x).get c).toNat n ((s.ctx x).get (c + 1)).toNat).value
      ∧ (t.ctx x).get (a + 1) = (s.ctx x).get b ∧ OnlyCtx x s t)
  ∧ (∀ s x a b c tag gen, Issues s x (encR 0x29 a b c 7) → (s.ctx x).tag = some (tag, gen) → 1 ≤ a → a ≤ 29 →
    ∃ t, exec (.scale x a b c) s = .next t
      ∧ (t.ctx x).get a = w64 (fxOpScale ((s.ctx x).get b).toNat (((s.ctx x).get c).toNat % 256) (((s.ctx x).get c).toNat / 256 % 256) ((s.ctx x).get b).toNat).value
      ∧ (t.ctx x).get (a + 2) = w64 (fxOpScale ((s.ctx x).get b).toNat (((s.ctx x).get c).toNat % 256) (((s.ctx x).get c).toNat / 256 % 256) ((s.ctx x).get b).toNat).flags
      ∧ OnlyCtx x s t)
  )

/-- LBEGIN of a kind the scribes have, on an existing ledger of the task's tenant that is not quarantined, whose lock is free with no waiter and whose line is free for the context's slice, takes the lock, opens the transaction and answers OK, or LOCK_BROKEN for a broken lock; while another holds it, the
context stalls and joins the queue. LRD gives a dword with the transaction's own writes, in 20 cycles from a sector the line holds and in 110 from one it fills, and beside the register it changes only the cache and its counters; LWR appends a masked write, LARG sets an argument, and neither touches
the ledger. LABORT drops the transaction and frees the lock. LCOMMIT of one that timed out answers TIMEOUT and COMMIT_SEQ 0 and leaves every ledger; one that passes its checks, for which the journal has room and whose meter ID, if it installs or removes one, the hash takes, answers OK with its
COMMIT_SEQ, the tenant's next number: the ledger is the line its kind leaves, with that number as LAST_SEQ, and no other ledger changes; where the hash refuses it answers the hash's status and leaves every ledger. The lock is free. A TOPUP whose number is not above the ledger's TOPUP_SEQ is REPLAY
and changes no ledger. LCAL on a calendar of the task's tenant: a quarter written from the data window leaves the active copy and makes the passive state EDIT; ARM of an EDIT copy that passes the checks, with the pending list not full and no calendar time, makes it PENDING, puts it last in the
pending list and leaves every other calendar; CANCEL of a PENDING copy makes it EDIT and takes it off the pending list; ACTIVATE_NOW of a PENDING copy, where the journal has room for its record, exchanges the copies. (WRITE and ACTIVATE_NOW: the tenant's ledgers are not all quarantined.) Each
answers OK. ARM and CANCEL of a calendar the tenant does not own answer PROTECTION and change no calendar. -/
def Obligations.ScribeLedgerAndCalendar : Prop :=
  (
  (∀ s x a b f l, Issues s x (encR 0x30 a b 0 f) → a ≠ 0 → s.txn x = none → f ∈ [2, 3, 4, 5, 8, 9] → ((s.ctx x).get b).toNat = l → s.ownsLedger (s.ctxTenant x) l = true →
      s.ledExists l = true → s.quarantined l (s.ctxTenant x) = false → (s.llock l).owner = none → (s.llock l).waiters = [] → s.lineFree l (x / 64) = true →
    ∃ t, exec (.lbegin x a b f) s = .next t ∧ t.txn x = some { ledger := l, kind := f } ∧ (t.llock l).owner = some (.ctx x) ∧ (t.llock l).broken = false
      ∧ (t.ctx x).get a = (if (s.llock l).broken then 0x30#64 else 0#64) ∧ t.ldg.ledgers = s.ldg.ledgers ∧ t.dram = s.dram)
  ∧ (∀ s x a b f l o, Issues s x (encR 0x30 a b 0 f) → s.txn x = none → f ∈ [2, 3, 4, 5, 8, 9] → ((s.ctx x).get b).toNat = l → s.ownsLedger (s.ctxTenant x) l = true →
      s.ledExists l = true → s.quarantined l (s.ctxTenant x) = false → (s.llock l).owner = some o → (s.llock l).waiters = [] →
    ∃ t, exec (.lbegin x a b f) s = .next t ∧ (t.ctx x).wait = .ledger l f a ∧ (t.llock l).owner = some o ∧ (∃ w, (t.llock l).waiters = [w] ∧ w.who = .ctx x))
  ∧ (∀ s x a b tr, Issues s x (encR 0x31 a b 0 0) → s.txn x = some tr → ((s.ctx x).get b).toNat < 128 →
    ∃ t u, exec (.lrd x a b) s = .next t ∧ Wrote x a (w64 (tget 0 (applyWrites (s.led tr.ledger) tr.writes) ((s.ctx x).get b).toNat))
        (if nbit ((s.line tr.ledger).getD {}).valid (((s.ctx x).get b).toNat / 8) then 20 else 110) u t
      ∧ u = { s with ldg := { s.ldg with lines := u.ldg.lines, lru := u.ldg.lru }, regs := u.regs }
      ∧ OnlyRegs [LDG_CACHE_HIT.COUNT.id, LDG_CACHE_MISS.COUNT.id, LDG_CACHE_WB.COUNT.id, LDG_CACHE_MOVE.COUNT.id] { s with ldg := u.ldg } u)
  ∧ (∀ s x a b c tr, Issues s x (encR 0x32 a b c 0) → s.txn x = some tr → tr.timedOut = false →
    ∃ t, exec (.lwr x a b c) s = .next t ∧ t.txn x = some { tr with writes := tr.writes ++ [(((s.ctx x).get b).toNat, ((s.ctx x).get a).toNat, ((s.ctx x).get c).toNat)] }
      ∧ t.ldg.ledgers = s.ldg.ledgers ∧ t.regs = s.regs)
  ∧ (∀ s x b c tr, Issues s x (encR 0x33 0 b c 0) → s.txn x = some tr →
    ∃ t, exec (.larg x b c) s = .next t ∧ (∃ u, t.txn x = some u ∧ tget 0 u.args ((s.ctx x).get b).toNat = ((s.ctx x).get c).toNat ∧ u.writes = tr.writes)
      ∧ t.ldg.ledgers = s.ldg.ledgers ∧ t.regs = s.regs)
  ∧ (∀ s x tr, Issues s x (encR 0x35 0 0 0 0) → s.txn x = some tr → tr.timedOut = false →
    ∃ t, exec (.labort x) s = .next t ∧ t.txn x = none ∧ (t.llock tr.ledger).owner = none ∧ t.ldg.ledgers = s.ldg.ledgers ∧ t.regs = s.regs)
  ∧ (∀ s x a tr u, Issues s x (encR 0x34 a 0 0 0) → 1 ≤ a → a ≤ 30 → s.txn x = some tr → tr.timedOut = false → s.txnCheck (s.ctxTenant x) tr = 0 →
      s.jRoom (s.ctxTenant x) (24 + (s.txnBody tr).length) = some u →
      tr.kind ≠ 2 ∧ tr.kind ≠ 9 ∨ (u.identHash (s.ctxTenant x) tr.ledger (s.led tr.ledger) (u.txnLine tr)).1 = 0 →
    ∃ t, exec (.lcommit x a) s = .next t ∧ t.txn x = none ∧ (t.ctx x).get a = 0#64 ∧ (t.ctx x).get (a + 1) = w64 (u.nextSeq (s.ctxTenant x))
      ∧ t.led tr.ledger = lset (u.txnFinal tr) L.LAST_SEQ (u.nextSeq (s.ctxTenant x)) ∧ (∀ j, j ≠ tr.ledger → t.led j = s.led j) ∧ (t.llock tr.ledger).owner = none)
  ∧ (∀ s x a tr u, Issues s x (encR 0x34 a 0 0 0) → 1 ≤ a → a ≤ 30 → s.txn x = some tr → tr.timedOut = false → s.txnCheck (s.ctxTenant x) tr = 0 →
      s.jRoom (s.ctxTenant x) (24 + (s.txnBody tr).length) = some u → tr.kind = 2 ∨ tr.kind = 9 →
      (u.identHash (s.ctxTenant x) tr.ledger (s.led tr.ledger) (u.txnLine tr)).1 ≠ 0 →
    ∃ t, exec (.lcommit x a) s = .next t ∧ t.txn x = none ∧ (t.ctx x).get a = w64 (u.identHash (s.ctxTenant x) tr.ledger (s.led tr.ledger) (u.txnLine tr)).1
      ∧ (t.ctx x).get (a + 1) = 0#64 ∧ (∀ j, t.led j = s.led j) ∧ (t.llock tr.ledger).owner = none)
  ∧ (∀ s x a tr, Issues s x (encR 0x34 a 0 0 0) → 1 ≤ a → a ≤ 30 → s.txn x = some tr → tr.timedOut = true →
    ∃ t, exec (.lcommit x a) s = .next t ∧ t.txn x = none ∧ (t.ctx x).get a = 0x20#64 ∧ (t.ctx x).get (a + 1) = 0#64 ∧ t.ldg.ledgers = s.ldg.ledgers)
  ∧ (∀ s x a tr, Issues s x (encR 0x34 a 0 0 0) → 1 ≤ a → a ≤ 30 → s.txn x = some tr → tr.timedOut = false → s.quarantined tr.ledger (s.ctxTenant x) = true →
    ∃ t, exec (.lcommit x a) s = .next t ∧ t.txn x = none ∧ (t.ctx x).get a = 0x42#64 ∧ (t.ctx x).get (a + 1) = 0#64 ∧ (t.llock tr.ledger).owner = none ∧ t.ldg.ledgers = s.ldg.ledgers)
  ∧ (∀ s x a tr, Issues s x (encR 0x34 a 0 0 0) → 1 ≤ a → a ≤ 30 → s.txn x = some tr → tr.timedOut = false → tr.kind = 4 → tr.writes = [] →
      s.quarantined tr.ledger (s.ctxTenant x) = false → tget 0 tr.args 1 % 2 ^ 32 ≤ lget (s.led tr.ledger) L.TOPUP_SEQ →
    ∃ t, exec (.lcommit x a) s = .next t ∧ t.txn x = none ∧ (t.ctx x).get a = 0x11#64 ∧ (t.ctx x).get (a + 1) = 0#64 ∧ t.ldg.ledgers = s.ldg.ledgers)
  )
  ∧
  (
  (∀ s x a b c q k id u, Issues s x (encR 0x36 a b c (4 * q)) → 1 ≤ a → a ≤ 30 → q < 4 → (s.ctx x).task = some k → ((s.ctx x).get c).toNat + 1024 ≤ s.dwinSize k →
      ((s.ctx x).get c).toNat % 64 = 0 → ((s.ctx x).get b).toNat = id → id < 8192 → s.calOwner id = some (s.ctxTenant x) → s.fbit LDG_CFG.CAL_VALID = true →
      s.fbit LDG_T_STAT.QUAR_ALL (s.ctxTenant x) = false → s.jRoom (s.ctxTenant x) 1056 = some u →
    ∃ t, exec (.lcalWrite x a b c q) s = .next t ∧ (t.ctx x).get a = 0#64 ∧ (t.cal id).passive = 1 ∧ (t.cal id).activeB = (u.cal id).activeB
      ∧ (∀ j, j ≠ id → t.cal j = u.cal j))
  ∧ (∀ s x a b id, Issues s x (encR 0x36 a b 0 1) → 1 ≤ a → a ≤ 30 → ((s.ctx x).get b).toNat = id → id < 8192 → s.calOwner id = some (s.ctxTenant x) → s.fbit LDG_CFG.CAL_VALID = true →
      (s.cal id).passive = 1 → CalCopy.armReason (s.calCopy id (!(s.cal id).activeB)) = 0 → CalCopy.flag (s.calCopy id (!(s.cal id).activeB)) 1 = false → s.calOk = false →
      s.ldg.pendList.length < 256 →
    ∃ t, exec (.lcalArm x a b) s = .next t ∧ (t.ctx x).get a = 0#64 ∧ t.cal id = { s.cal id with passive := 2 } ∧ t.ldg.pendList = s.ldg.pendList ++ [id]
      ∧ (∀ j, j ≠ id → t.cal j = s.cal j) ∧ t.dram = s.dram)
  ∧ (∀ s x a b id, Issues s x (encR 0x36 a b 0 1) → 1 ≤ a → a ≤ 30 → ((s.ctx x).get b).toNat = id → s.calOwner id ≠ some (s.ctxTenant x) →
    ∃ t, exec (.lcalArm x a b) s = .next t ∧ (t.ctx x).get a = 0x23#64 ∧ t.ldg.cals = s.ldg.cals)
  ∧ (∀ s x a b id, Issues s x (encR 0x36 a b 0 2) → 1 ≤ a → a ≤ 30 → ((s.ctx x).get b).toNat = id → id < 8192 → s.calOwner id = some (s.ctxTenant x) → s.fbit LDG_CFG.CAL_VALID = true → (s.cal id).passive = 2 →
    ∃ t, exec (.lcalCancel x a b) s = .next t ∧ (t.ctx x).get a = 0#64 ∧ t.cal id = { s.cal id with passive := 1 } ∧ t.ldg.pendList = s.ldg.pendList.filter (· != id))
  ∧ (∀ s x a b id, Issues s x (encR 0x36 a b 0 2) → 1 ≤ a → a ≤ 30 → ((s.ctx x).get b).toNat = id → s.calOwner id ≠ some (s.ctxTenant x) →
    ∃ t, exec (.lcalCancel x a b) s = .next t ∧ (t.ctx x).get a = 0x23#64 ∧ t.ldg.cals = s.ldg.cals)
  ∧ (∀ s x a b id u, Issues s x (encR 0x36 a b 0 3) → 1 ≤ a → a ≤ 30 → ((s.ctx x).get b).toNat = id → id < 8192 → s.calOwner id = some (s.ctxTenant x) → s.fbit LDG_CFG.CAL_VALID = true → (s.cal id).passive = 2 →
      s.fbit LDG_T_STAT.QUAR_ALL (s.ctxTenant x) = false → s.jRoom (s.ctxTenant x) 40 = some u →
    ∃ t, exec (.lcalActivateNow x a b) s = .next t ∧ (t.ctx x).get a = 0#64 ∧ (t.cal id).activeB = !(s.cal id).activeB ∧ (t.cal id).activeValid = true
      ∧ t.ldg.pendList = s.ldg.pendList.filter (· != id))
  )

/-- QPUSH of the queue's owner to an ON queue with room appends the entry wC, wC+1 and answers OK; with no room it answers NO_CREDIT, counts the refusal and leaves the entries; of another tenant it answers PROTECTION. QPOP takes the oldest published entry into wA+1 and wA+2; an empty queue answers NO_CREDIT. LKACQ of a FREE lock of the tenant's group gives it
to the context; of a BROKEN one too, with LOCK_BROKEN; with TRY of a held one, NO_CREDIT. LKREL by the owner, with nobody waiting, frees it; by another it answers PROTECTION. ISSUE, with all its conditions, of an operation that names no key hands the item's 64 bytes to the engine under the next ticket and answers OK with that ticket. -/
def Obligations.ScribePrimitives : Prop :=
  (∀ s x a b c q, Issues s x (encR 0x38 a b c 0) → a ≠ 0 → c ≤ 30 → ((s.ctx x).get b).toNat = q → q < 1024 → s.fget Q_CFG.OWNER q = s.ctxTenant x → s.fget Q_ENDP.PROD_KIND q = 0 →
      s.fget Q_STAT.STATE q = 2 →
    ∃ t, exec (.qpush x a b c) s = .next t
      ∧ ((s.queue q).entries.length + (s.queue q).unret < s.qDepth q → (t.ctx x).get a = 0#64
          ∧ (t.queue q).entries = (s.queue q).entries ++ [(((s.ctx x).get c).toNat, ((s.ctx x).get (c + 1)).toNat)] ∧ t.fget Q_LEVEL.LEVEL q = ((s.queue q).entries.length + 1) % Q_LEVEL.LEVEL.span)
      ∧ (s.qDepth q ≤ (s.queue q).entries.length + (s.queue q).unret → (t.ctx x).get a = 0x24#64 ∧ t.queue q = s.queue q))
  ∧ (∀ s x a b c q, Issues s x (encR 0x38 a b c 0) → a ≠ 0 → c ≤ 30 → ((s.ctx x).get b).toNat = q → s.fget Q_CFG.OWNER q ≠ s.ctxTenant x →
    ∃ t, exec (.qpush x a b c) s = .next t ∧ (t.ctx x).get a = 0x23#64 ∧ t.prm = s.prm)
  ∧ (∀ s x a b q e rest, Issues s x (encR 0x39 a b 0 0) → 1 ≤ a → a ≤ 29 → ((s.ctx x).get b).toNat = q → q < 1024 → s.fget Q_CFG.OWNER q = s.ctxTenant x → s.fget Q_ENDP.CONS_KIND q = 0 →
      s.fget Q_STAT.STATE q ≠ 0 → (s.queue q).entries = e :: rest → (s.queue q).unpub ≤ rest.length →
    ∃ t, exec (.qpop x a b) s = .next t ∧ (t.ctx x).get a = 0#64 ∧ (t.ctx x).get (a + 1) = w64 e.1 ∧ (t.ctx x).get (a + 2) = w64 e.2 ∧ (t.queue q).entries = rest)
  ∧ (∀ s x a b q, Issues s x (encR 0x39 a b 0 0) → 1 ≤ a → a ≤ 29 → ((s.ctx x).get b).toNat = q → q < 1024 → s.fget Q_CFG.OWNER q = s.ctxTenant x → s.fget Q_ENDP.CONS_KIND q = 0 →
      s.fget Q_STAT.STATE q ≠ 0 → (s.queue q).entries = [] →
    ∃ t, exec (.qpop x a b) s = .next t ∧ Wrote x a 0x24#64 8 s t)
  ∧ (∀ s x a b c f n, Issues s x (encR 0x3B a b c f) → a ≠ 0 → (s.ctx x).locks.length < 4 → ((s.ctx x).get b).toNat = n → n < 8192 → s.fget L_CFG.OWNER (n / 64) = s.ctxTenant x →
      s.fget L_STAT.STATE (n / 64) = 2 →
    ∃ t, exec (.lkacq x a b c f) s = .next t
      ∧ ((s.plock n).st = 0 → (t.ctx x).get a = 0#64 ∧ (t.plock n).st = 1 ∧ (t.plock n).ctx = x ∧ (t.ctx x).locks = (s.ctx x).locks ++ [n])
      ∧ ((s.plock n).st = 2 → (t.ctx x).get a = 0x30#64 ∧ (t.plock n).st = 1 ∧ (t.plock n).ctx = x)
      ∧ ((s.plock n).st = 1 → (s.plock n).ctx ≠ x → nbit f 0 = true → (t.ctx x).get a = 0x24#64 ∧ t.plock n = s.plock n))
  ∧ (∀ s x a b n, Issues s x (encR 0x3C a b 0 0) → a ≠ 0 → ((s.ctx x).get b).toNat = n → n < 8192 → (s.plock n).st = 1 → (s.plock n).waiters = [] →
    ∃ t, exec (.lkrel x a b) s = .next t
      ∧ ((s.plock n).ctx = x → (t.ctx x).get a = 0#64 ∧ (t.plock n).st = 0 ∧ (t.ctx x).locks = (s.ctx x).locks.filter (· != n))
      ∧ ((s.plock n).ctx ≠ x → (t.ctx x).get a = 0x23#64 ∧ t.plock n = s.plock n))
  ∧ (∀ s x a b c k e, Issues s x (encR 0x3D a b c 0) → 1 ≤ a → a ≤ 30 → (s.ctx x).task = some k → (s.ctx x).stores = [] → ((s.ctx x).get b).toNat = e → 5 ≤ e → e < 10 →
      ((s.ctx x).get c).toNat + 64 ≤ s.dwinSize k → ((s.ctx x).get c).toNat % 64 = 0 → leAt (s.winRead k true ((s.ctx x).get c).toNat 64) 0 1 < engineOps e →
      nbit (s.fget TSK_IN_CFG.EN k) 7 = true → nbit (s.fget TSK_IN_CFG.MODE k) 7 = false →
      s.itemsBy (fun it => it.task == k && !it.dead) + s.fget TSK_IN.COUNT (8 * k + 7) < 16 →
      s.itemsBy (fun it => it.ctx == x) < 8 →
      s.poolHeld (s.ctxTenant x) < s.poolQuota (s.ctxTenant x) → s.fget SCB_POOL.USED < 65536 →
    ∃ t it, exec (.issue x a b c 0) s = .next t ∧ (t.ctx x).get a = 0#64 ∧ (t.ctx x).get (a + 1) = w64 (s.scb.nextItem % 65536)
      ∧ t.item s.scb.nextItem = some it ∧ it.engine = e ∧ it.task = k ∧ it.bytes = s.winRead k true ((s.ctx x).get c).toNat 64 ∧ it.done = none ∧ it.ticket = s.scb.nextItem % 65536)

/-- On an ON table of the task's tenant with 8-byte keys and no entry of bad parity: LOOKUP of a present entry gives its value and FOUND, and marks a dynamic entry hit; of an absent key it changes no table and finds nothing. LEARN, INSERT and INSERT_STATIC into an empty table put exactly one entry with the key and value, dynamic or static, in its key's set. DELETE of a present key removes
exactly the entries with that key. The table of another tenant answers PROTECTION and is unchanged. -/
def Obligations.ScribeTables : Prop :=
  (∀ s x a b c k key e, Issues s x (encR 0x3A a b c 0) → 1 ≤ a → a ≤ 29 → ((s.ctx x).get b).toNat = k → k < 32 → s.fget T_CFG.KEY16 k = 0 → ((s.ctx x).get c).toNat = key →
      s.fget T_CFG.OWNER k = s.ctxTenant x → s.fget T_STAT.STATE k = 2 → (s.htab k).ents.find? (fun e => e.key == key && !e.bad) = some e → e.value < 2 ^ 64 →
    ∃ t, exec (.lookup x a b c []) s = .next t ∧ (t.ctx x).get a = 0#64 ∧ (t.ctx x).get (a + 1) = BitVec.ofNat 64 e.value
      ∧ (t.ctx x).get (a + 2) = (if e.isStatic then 3#64 else 1#64)
      ∧ (t.htab k).ents = (if e.isStatic then (s.htab k).ents else (s.htab k).ents.map (fun y => if y.key = key ∧ y.bad = false then { y with hit := true } else y)))
  ∧ (∀ s x a b c k key, Issues s x (encR 0x3A a b c 0) → 1 ≤ a → a ≤ 29 → ((s.ctx x).get b).toNat = k → k < 32 → s.fget T_CFG.KEY16 k = 0 → ((s.ctx x).get c).toNat = key →
      s.fget T_CFG.OWNER k = s.ctxTenant x → s.fget T_STAT.STATE k = 2 → (∀ e ∈ (s.htab k).ents, e.key ≠ key ∧ e.bad = false) →
    ∃ t, exec (.lookup x a b c []) s = .next t ∧ (t.ctx x).get a = 0#64 ∧ (t.ctx x).get (a + 2) = 0#64 ∧ t.prm = s.prm)
  ∧ (∀ s x a b c k key, Issues s x (encR 0x3A a b c 1) → 1 ≤ a → a ≤ 29 → ((s.ctx x).get b).toNat = k → k < 32 → s.fget T_CFG.KEY16 k = 0 → ((s.ctx x).get c).toNat = key →
      s.fget T_CFG.OWNER k = s.ctxTenant x → s.fget T_STAT.STATE k = 2 → (s.htab k).ents = [] →
    ∃ t, exec (.learn x a b c []) s = .next t ∧ (t.ctx x).get a = 0#64
      ∧ (∃ e, (t.htab k).ents = [e] ∧ e.key = key ∧ e.value = ((s.ctx x).get (a + 1)).toNat ∧ e.isStatic = false ∧ e.bad = false ∧ e.bucket = s.tSet k key))
  ∧ (∀ s x a b c k key, Issues s x (encR 0x3A a b c 2) → 1 ≤ a → a ≤ 29 → ((s.ctx x).get b).toNat = k → k < 32 → s.fget T_CFG.KEY16 k = 0 → ((s.ctx x).get c).toNat = key →
      s.fget T_CFG.OWNER k = s.ctxTenant x → s.fget T_STAT.STATE k = 2 → (s.htab k).ents = [] →
    ∃ t, exec (.insert x a b c []) s = .next t ∧ (t.ctx x).get a = 0#64
      ∧ (∃ e, (t.htab k).ents = [e] ∧ e.key = key ∧ e.value = ((s.ctx x).get (a + 1)).toNat ∧ e.isStatic = false ∧ e.bad = false ∧ e.bucket = s.tSet k key))
  ∧ (∀ s x a b c k key, Issues s x (encR 0x3A a b c 3) → 1 ≤ a → a ≤ 29 → ((s.ctx x).get b).toNat = k → k < 32 → s.fget T_CFG.KEY16 k = 0 → ((s.ctx x).get c).toNat = key →
      s.fget T_CFG.OWNER k = s.ctxTenant x → s.fget T_STAT.STATE k = 2 → (s.htab k).ents = [] →
    ∃ t, exec (.insertStatic x a b c []) s = .next t ∧ (t.ctx x).get a = 0#64
      ∧ (∃ e, (t.htab k).ents = [e] ∧ e.key = key ∧ e.value = ((s.ctx x).get (a + 1)).toNat ∧ e.isStatic = true ∧ e.bad = false ∧ e.bucket = s.tSet k key)
      ∧ t.fget T_COUNT.STATIC k = 1)
  ∧ (∀ s x a b c k key e, Issues s x (encR 0x3A a b c 4) → 1 ≤ a → a ≤ 29 → ((s.ctx x).get b).toNat = k → k < 32 → s.fget T_CFG.KEY16 k = 0 → ((s.ctx x).get c).toNat = key →
      s.fget T_CFG.OWNER k = s.ctxTenant x → s.fget T_STAT.STATE k = 2 → (∀ y ∈ (s.htab k).ents, y.bad = false) → e ∈ (s.htab k).ents → e.key = key →
    ∃ t, exec (.delete x a b c []) s = .next t ∧ (t.ctx x).get a = 0#64 ∧ (t.htab k).ents = (s.htab k).ents.filter (fun y => y.key != key))
  ∧ (∀ s x a b c k, Issues s x (encR 0x3A a b c 4) → 1 ≤ a → a ≤ 29 → c ≤ 30 → ((s.ctx x).get b).toNat = k → s.fget T_CFG.OWNER k ≠ s.ctxTenant x →
    ∃ t, exec (.delete x a b c []) s = .next t ∧ (t.ctx x).get a = 0x23#64 ∧ t.prm = s.prm)

/-- For every 32-bit word that the instruction set lists, and every context, the command the word spells encodes back to that word: no bit of a listed word is dropped, and every listed word spells a command; a word that is not listed spells none. Conversely, the encoding of every command that a listed word spells is that word, so two different listed words never spell the
same command. -/
def Obligations.ScribeWordsRoundTrip : Prop :=
  (∀ x w, w < 2 ^ 32 → legalWord w = true → ∃ i, scribeOf x w = some i ∧ scribeWord i = some w)
  ∧ (∀ x w, legalWord w = false → scribeOf x w = none)
  ∧ (∀ x w v i, w < 2 ^ 32 → v < 2 ^ 32 → scribeOf x w = some i → scribeOf x v = some i → w = v)

/-- Where a ring's completion can be posted at once: the descriptor stands alone in its ring, of a PCIe or on-chip host that is UP, with a completion slot left. -/
def CanPost (s : State) (ring slot : Nat) (d : Desc) : Prop :=
  s.desc ring slot = some d ∧ d.cqSlot = none ∧ (s.ring ring).order = [slot] ∧ s.ringHost ring < 3
    ∧ s.fbit RNG_H_STAT.UP (s.ringHost ring) = true ∧ s.cqUsed ring < s.ringSize ring - 1

/-- The descriptor is gone from its ring and its completion entry, with this status, stands in the slot that was next. -/
def Posted (s t : State) (ring slot : Nat) (d : Desc) (status : Nat) : Prop :=
  t.desc ring slot = none ∧ (t.ring ring).order = []
    ∧ ∃ c, tget none (t.ring ring).cpls (s.fget RNG_R_CQ.TAIL ring) = some c ∧ c.user = d.user ∧ c.slot = slot ∧ c.status = status
        ∧ c.opcode = d.opcode ∧ c.gen = d.gen ∧ c.phase = s.fget RNG_R_STAT.PHASE ring

/-- A reading of this tenant can be admitted: mode, withholding, free tags, the tenant's quota, a staging slot on chip, and a tag never used. -/
def Admits (s : State) (rd : Reading) (reserve : Nat) : Prop :=
  modeAdmits s.mode = true ∧ s.fbit PIP_WITHHOLD.ACTIVE = false ∧ reserve < 65536 - s.fget PIP_TAGS.IN_FLIGHT
    ∧ s.fget TEN_TAGS.IN_FLIGHT rd.tenant < s.ten.active.tagQuota rd.tenant * 64 ∧ rd.len ≤ 256 ∧ rd.len ≠ 0
    ∧ s.fget PIP_STAGING.ONCHIP < 4096 ∧ s.pip.fresh < 65536

/-- An APDU that arrives is kept, cut to the reading's length, and the reading goes on to classification. A read attempt that timed out with attempts
left is counted and nothing else changes; after the last the reading's descriptor completes with TIMEOUT. Classification of a reading whose hint names
a ledger of its tenant with its title, whose tenant's route has a parse task, and that can be admitted with its key in the hidden cache, or in a form that needs none (the model's reading, log entry 94), gives it the
next tag never used: ACTIVE, at the decrypt stage, with that ledger and key, under that tag's generation; one more tag is in flight and the reading is no
longer waiting. Where the ledger is not the tenant's the descriptor completes with PROTECTION. A reading without a hint whose lookup meets a parity error completes with TABLE_PARITY; the bucket
is recorded, and waits last for its repair. -/
def Obligations.RingReadings : Prop :=
  (∀ s ring slot data r, tget {} s.pip.pre (ring * 65536 + slot) = r → r ≠ {} → r.stage = 0 →
    ∃ t, exec (.apduReadDone ring slot data) s = .next t ∧ tget {} t.pip.pre (ring * 65536 + slot) = { r with apdu := fit r.len data, stage := 1 }
      ∧ (∀ k, k ≠ ring * 65536 + slot → tget {} t.pip.pre k = tget {} s.pip.pre k) ∧ t.pip.tags = s.pip.tags ∧ t.regs = s.regs ∧ t.dram = s.dram ∧ t.rng = s.rng)
  ∧ (∀ s ring slot r, tget {} s.pip.pre (ring * 65536 + slot) = r → r ≠ {} → r.stage = 0 → r.tries < s.fget PIP_RETRY_DMA.TRIES →
    ∃ t, exec (.apduReadTimeout ring slot) s = .next t ∧ tget {} t.pip.pre (ring * 65536 + slot) = { r with tries := r.tries + 1 }
      ∧ (∀ k, k ≠ ring * 65536 + slot → tget {} t.pip.pre k = tget {} s.pip.pre k) ∧ t.pip.tags = s.pip.tags ∧ t.regs = s.regs ∧ t.dram = s.dram ∧ t.rng = s.rng)
  ∧ (∀ s ring slot r d, tget {} s.pip.pre (ring * 65536 + slot) = r → r ≠ {} → r.stage = 0 → s.fget PIP_RETRY_DMA.TRIES ≤ r.tries → slot < 65536 →
      CanPost s ring slot d →
    ∃ t, exec (.apduReadTimeout ring slot) s = .next t ∧ tget {} t.pip.pre (ring * 65536 + slot) = {} ∧ Posted s t ring slot d 0x20 ∧ t.pip.tags = s.pip.tags)
  ∧ (∀ s ring slot spot r l e, tget {} s.pip.pre (ring * 65536 + slot) = r → r ≠ {} → r.stage = 1 → r.hint = some l →
      s.ownsLedger r.tenant l = true → s.ledExists l = true → s.quarantined l r.tenant = false → lstate (s.led l) 0 = true → ledTitle (s.led l) = r.title → (s.routeTask r.tenant 0).isSome = true →
      Admits s r (if r.prio ≤ 1 then 0 else s.fget PIP_CFG.RESERVE * 64) → accForm r.apdu = true → s.cacheFind l (dedForm r.apdu) = some e →
    ∃ t, exec (.classify ring slot spot) s = .next t ∧ tget {} t.pip.pre (ring * 65536 + slot) = {}
      ∧ t.tag s.pip.fresh = { r with ledger := some l, st := 1, stage := 4, gen := (s.tag s.pip.fresh).gen, onchip := true, key := some (e.encKey, e.authKey, e.suite), waitFill := false }
      ∧ t.fget PIP_TAGS.IN_FLIGHT = s.fget PIP_TAGS.IN_FLIGHT + 1 ∧ t.pip.fresh = s.pip.fresh + 1 ∧ t.dram = s.dram)
  ∧ (∀ s ring slot spot r l d, tget {} s.pip.pre (ring * 65536 + slot) = r → r ≠ {} → r.stage = 1 → r.hint = some l →
      s.ownsLedger r.tenant l = false → slot < 65536 → CanPost s ring slot d →
    ∃ t, exec (.classify ring slot spot) s = .next t ∧ tget {} t.pip.pre (ring * 65536 + slot) = {} ∧ Posted s t ring slot d 0x23 ∧ t.pip.tags = s.pip.tags)
  ∧ (∀ s ring slot spot r l, tget {} s.pip.pre (ring * 65536 + slot) = r → r ≠ {} → r.stage = 1 → r.hint = some l →
      s.ownsLedger r.tenant l = true → s.ledExists l = true → s.quarantined l r.tenant = false → lstate (s.led l) 0 = true → ledTitle (s.led l) = r.title → (s.routeTask r.tenant 0).isSome = true →
      Admits s r (if r.prio ≤ 1 then 0 else s.fget PIP_CFG.RESERVE * 64) → accForm r.apdu = false →
    ∃ t, exec (.classify ring slot spot) s = .next t ∧ tget {} t.pip.pre (ring * 65536 + slot) = {}
      ∧ t.tag s.pip.fresh = { r with ledger := some l, st := 1, stage := 4, gen := (s.tag s.pip.fresh).gen, onchip := true } ∧ t.dram = s.dram)
  ∧ (∀ s ring slot spot r d b, tget {} s.pip.pre (ring * 65536 + slot) = r → r ≠ {} → r.stage = 1 → r.hint = none → slot < 65536 → CanPost s ring slot d →
      s.hashError r.title r.tenant spot = some b → s.pip.repair.contains b = false →
    ∃ t, exec (.classify ring slot spot) s = .next t ∧ tget {} t.pip.pre (ring * 65536 + slot) = {} ∧ (∃ c, tget none (t.ring ring).cpls (s.fget RNG_R_CQ.TAIL ring) = some c ∧ c.status = 0x32)
      ∧ t.fget PIP_HASH_PAR.BUCKET = b % PIP_HASH_PAR.BUCKET.span ∧ t.fget PIP_HASH_STAT.REPAIR = 1 ∧ t.pip.repair = s.pip.repair ++ [b] ∧ t.pip.tags = s.pip.tags)
  ∧ (∀ s ring slot spot r d b, tget {} s.pip.pre (ring * 65536 + slot) = r → r ≠ {} → r.stage = 1 → r.hint = none → slot < 65536 → CanPost s ring slot d →
      s.hashError r.title r.tenant spot = some b → s.pip.repair.contains b = false →
    ∃ t, exec (.classify ring slot spot) s = .next t ∧ tget {} t.pip.pre (ring * 65536 + slot) = {} ∧ (∃ c, tget none (t.ring ring).cpls (s.fget RNG_R_CQ.TAIL ring) = some c ∧ c.status = 0x32)
      ∧ t.fget PIP_HASH_PAR.BUCKET = b % PIP_HASH_PAR.BUCKET.span ∧ t.fget PIP_HASH_STAT.REPAIR = 1 ∧ t.pip.repair = s.pip.repair ++ [b] ∧ t.pip.tags = s.pip.tags)

/-- The head of an ingest queue that can be admitted leaves the queue and holds the next tag never used, at the decrypt stage when its key is in the hidden
cache; a head that the device's mode keeps out stays, and when its time is over it leaves, counted as a dropped field frame. The end of an unwrap whose slot
still holds the generation and whose blob opens gives every waiting reading of that ledger its key; with the generation gone the reading ends with
KEY_DESTROYED. A refused unwrap with attempts left is counted, nothing else changing; after the last the waiting reading ends with TIMEOUT. The answer of an unwrap that no reading waits for
any more is discarded and counted, and it is not tried again. -/
def Obligations.FieldReadingsAndKeys : Prop :=
  (∀ s port expired r rest l e, tget [] s.pip.ingest port = r :: rest → r.ledger = some l → s.quarantined l r.tenant = false → Admits s r (s.fget PIP_CFG.RESERVE * 64) →
      accForm r.apdu = true → s.cacheFind l (dedForm r.apdu) = some e →
    ∃ t, exec (.ingestQueueOffer port expired) s = .next t ∧ tget [] t.pip.ingest port = rest
      ∧ t.tag s.pip.fresh = { r with st := 1, stage := 4, gen := (s.tag s.pip.fresh).gen, onchip := true, key := some (e.encKey, e.authKey, e.suite), waitFill := false }
      ∧ t.fget PIP_TAGS.IN_FLIGHT = s.fget PIP_TAGS.IN_FLIGHT + 1 ∧ t.dram = s.dram)
  ∧ (∀ s port r rest, tget [] s.pip.ingest port = r :: rest → modeAdmits s.mode = false →
    exec (.ingestQueueOffer port false) s = .next s
    ∧ ∃ t, exec (.ingestQueueOffer port true) s = .next t ∧ tget [] t.pip.ingest port = rest ∧ t.pip.tags = s.pip.tags
      ∧ t.fget PIP_T_FIELDDROP.COUNT r.tenant = min (s.fget PIP_T_FIELDDROP.COUNT r.tenant + 1) (PIP_T_FIELDDROP.COUNT.span - 1) ∧ t.dram = s.dram)
  ∧ (∀ s ledger f k p suite ak i r, s.pip.fills.find? (fun f => f.ledger == ledger) = some f → f.dead = false → s.keyAt (hSlot f.handle) (hGen f.handle) = some k →
      blobOpen k (s.mread (s.blobAddr ledger) 64) (some (lget (s.led ledger) L.BLOB % 256)) ledger ((s.ledgerOwner ledger).getD 0) = some (p, suite, ak) →
      s.pip.tags = [(i, r)] → r.waitFill = true → r.ledger = some ledger → r.st = 1 →
    ∃ t, exec (.keyUnwrapDone ledger) s = .next t ∧ t.tag i = { r with key := some (meterKeyOf k p suite ak), stage := 4, waitFill := false }
      ∧ t.pip.fills = s.pip.fills.erase f ∧ t.dram = s.dram)
  ∧ (∀ s ledger f i r, s.pip.fills.find? (fun f => f.ledger == ledger) = some f → f.dead = false → s.keyAt (hSlot f.handle) (hGen f.handle) = none →
      s.pip.tags = [(i, r)] → r.waitFill = true → r.ledger = some ledger → r.st = 1 →
    ∃ t, exec (.keyUnwrapDone ledger) s = .next t ∧ (t.tag i).st = 3 ∧ (t.tag i).status = 0x14 ∧ t.pip.fills = s.pip.fills.erase f)
  ∧ (∀ s ledger f, s.pip.fills.find? (fun f => f.ledger == ledger) = some f → f.dead = false → f.tries < s.fget PIP_RETRY_KEY.TRIES →
    ∃ t, exec (.keyUnwrapRetry ledger) s = .next t ∧ t = { s with pip := { s.pip with fills := t.pip.fills } }
      ∧ t.pip.fills.find? (fun f => f.ledger == ledger) = some { f with tries := f.tries + 1 })
  ∧ (∀ s ledger f i r, s.pip.fills.find? (fun f => f.ledger == ledger) = some f → f.dead = false → s.fget PIP_RETRY_KEY.TRIES ≤ f.tries →
      s.pip.tags = [(i, r)] → r.waitFill = true → r.ledger = some ledger → r.st = 1 →
    ∃ t, exec (.keyUnwrapRetry ledger) s = .next t ∧ (t.tag i).st = 3 ∧ (t.tag i).status = 0x20)
  ∧ (∀ s ledger f, s.pip.fills.find? (fun f => f.ledger == ledger) = some f → f.dead = true →
    (∃ t, exec (.keyUnwrapDone ledger) s = .next t ∧ t.pip.fills = s.pip.fills.erase f ∧ t.pip.tags = s.pip.tags
      ∧ t.fget PIP_LATE.COUNT = min (s.fget PIP_LATE.COUNT + 1) (PIP_LATE.COUNT.span - 1) % PIP_LATE.COUNT.span)
    ∧ ∃ t, exec (.keyUnwrapRetry ledger) s = .next t ∧ t.pip.fills = s.pip.fills.erase f ∧ t.pip.tags = s.pip.tags)

/-- A reading whose decryption stops is ENDING with the status found. One that decrypts and whose counter is above the ledger's, or whose ledger has none, is
at the parse stage with its counter and plain text, still ACTIVE, when its route's parse task is ON; one whose counter is not above the stored one is ENDING at
the replay stage with REPLAY. A reading at the commit stage whose ledger is quarantined is ENDING with QUARANTINED; while another owner holds the ledger's
lock it joins the lock's queue and stays at the commit stage. A field reading that finds the lock free and no line or journal in its way, with a counter not above the
stored one, is ENDING with REPLAY and its ledger unchanged; with a higher one it commits: the ledger's counter is the reading's and the tenant's next
sequence number is one above the ledger's last. -/
def Obligations.DecryptAndCommit : Prop :=
  (∀ s tag st u, (s.tag tag).st = 1 → (s.tag tag).stage = 4 → s.decrypt (s.tag tag) = .stop st u →
    ∃ t, exec (.decryptDone tag) s = .next t ∧ (t.tag tag).st = 3 ∧ (t.tag tag).status = st ∧ (t.tag tag).gen = (s.tag tag).gen
      ∧ (∀ k, k ≠ tag → t.tag k = s.tag k) ∧ t.dram = s.dram ∧ t.ldg = s.ldg)
  ∧ (∀ s tag ic p k, (s.tag tag).st = 1 → (s.tag tag).stage = 4 → s.decrypt (s.tag tag) = .ok ic p →
      (lstate (s.led ((s.tag tag).ledger.getD 0)) 1 = true → lget (s.led ((s.tag tag).ledger.getD 0)) L.IC < ic) →
      s.routeTask (s.tag tag).tenant 0 = some k → s.fget TSK_STAT.STATE k = 2 →
    ∃ t, exec (.decryptDone tag) s = .next t ∧ (t.tag tag).st = 1 ∧ (t.tag tag).stage = 6 ∧ (t.tag tag).ic = ic ∧ (t.tag tag).plain = p
      ∧ (t.tag tag).gen = (s.tag tag).gen ∧ (∀ k, k ≠ tag → t.tag k = s.tag k) ∧ t.dram = s.dram ∧ t.ldg = s.ldg)
  ∧ (∀ s tag ic p, (s.tag tag).st = 1 → (s.tag tag).stage = 4 → s.decrypt (s.tag tag) = .ok ic p →
      s.quarantined ((s.tag tag).ledger.getD 0) (s.tag tag).tenant = false →
      lstate (s.led ((s.tag tag).ledger.getD 0)) 1 = true → ic ≤ lget (s.led ((s.tag tag).ledger.getD 0)) L.IC →
    ∃ t, exec (.decryptDone tag) s = .next t ∧ (t.tag tag).st = 3 ∧ (t.tag tag).stage = 5 ∧ (t.tag tag).status = 0x11
      ∧ (t.tag tag).ic = lget (s.led ((s.tag tag).ledger.getD 0)) L.IC ∧ t.dram = s.dram ∧ t.ldg = s.ldg)
  ∧ (∀ s tag l, (s.tag tag).st = 1 → (s.tag tag).stage = 8 → (s.tag tag).ledger = some l → s.quarantined l (s.tag tag).tenant = true →
    ∃ t, exec (.ledgerCommit tag) s = .next t ∧ (t.tag tag).st = 3 ∧ (t.tag tag).status = 0x42 ∧ t.ldg = s.ldg ∧ t.dram = s.dram)
  ∧ (∀ s tag l o, (s.tag tag).st = 1 → (s.tag tag).stage = 8 → (s.tag tag).ledger = some l → s.quarantined l (s.tag tag).tenant = false →
      (s.llock l).owner = some o → (s.llock l).waiters = [] →
    ∃ t, exec (.ledgerCommit tag) s = .next t ∧ (t.llock l).owner = some o ∧ (t.llock l).waiters.map (·.who) = [.pipe tag] ∧ t.pip = s.pip ∧ t.regs = s.regs
      ∧ t.led l = s.led l)
  ∧ (∀ s s1 s2 tag l, (s.tag tag).st = 1 → (s.tag tag).stage = 8 → (s.tag tag).ledger = some l → (∀ q slot g, (s.tag tag).origin ≠ .ring q slot g) →
      s.quarantined l (s.tag tag).tenant = false → (s.llock l).owner = none → (s.llock l).waiters = [] →
      s.touch l (s.tag tag).cluster (commitSectors (s.led l)) 0 = some s1 → s1.jRoom (s.tag tag).tenant (s1.commitLen (s.tag tag) l) = some s2 →
    ∃ t, exec (.ledgerCommit tag) s = .next t
      ∧ (lstate (s.led l) 1 = true → (s.tag tag).ic ≤ lget (s.led l) L.IC → (t.tag tag).st = 3 ∧ (t.tag tag).status = 0x11 ∧ t.led l = s.led l)
      ∧ ((lstate (s.led l) 1 = true → lget (s.led l) L.IC < (s.tag tag).ic) →
          lget (t.led l) L.IC = (s.tag tag).ic % 2 ^ 32 ∧ t.nextSeq (s.tag tag).tenant = (lget (t.led l) L.LAST_SEQ + 1) % 2 ^ 64))

/-- The tag timer moves an ACTIVE tag to ENDING with TIMEOUT under the next generation, the old one kept for its completion; a tag that is not ACTIVE is left alone. When its engine steps have returned, a ring reading's ENDING tag posts its completion with its status and is free, its generation one
higher. A response of another generation than its tag's is counted in PIP_LATE and changes nothing else; one of the present generation of a tag in use changes nothing. The end of a repair scan ends the oldest repair: the bucket keeps the entries whose ledger's identity agrees and takes back the
identities that are nowhere in the table, what it has no room for going to the stash. A committed field reading found again whose notification the journal does not record is notified to its route's notify task, ON, and counted; one recorded changes nothing. A committed ring reading whose slot holds
its completion, by PHASE and tag, changes nothing; otherwise, its host UP and its ring ON, its completion is posted in the slot the journal names, in the phase of the pass that reserved it, and counted. CLEAR with bit 0 sets the twelve counters of the selected tenant to 0 and changes nothing else;
without it nothing changes. A word of a route entry that leaves the entry naming only resources of its tenant is stored with its reserved bits 0, every other word as before; one that names another tenant's resource is discarded, with PIP_ERR.ROUTE set and the offset recorded. -/
def Obligations.TagEndsAndRoutes : Prop :=
  (
  (∀ s tag, (s.tag tag).st = 1 → ∃ t, exec (.tagTimeout tag) s = .next t ∧ (t.tag tag).st = 3 ∧ (t.tag tag).status = 0x20
      ∧ (t.tag tag).gen = ((s.tag tag).gen + 1) % 256 ∧ (t.tag tag).endGen = (s.tag tag).gen ∧ (∀ k, k ≠ tag → t.tag k = s.tag k) ∧ t.dram = s.dram
      ∧ OnlyRegs [PIP_STAGING.ONCHIP.id, TSK_IN.COUNT.id, SCB_POOL.USED.id] { s with pip := t.pip, ldg := t.ldg, tasks := t.tasks, poolUse := t.poolUse } t ∧ t.ldg.ledgers = s.ldg.ledgers)
  ∧ (∀ s tag, (s.tag tag).st ≠ 1 → exec (.tagTimeout tag) s = .next s)
  ∧ (∀ s tag ring slot g d, (s.tag tag).st = 3 → (s.tag tag).origin = .ring ring slot g → CanPost s ring slot d →
    ∃ t, exec (.tagEndingDone tag) s = .next t ∧ Posted s t ring slot d (s.tag tag).status ∧ t.tag tag = { gen := ((s.tag tag).gen + 1) % 256 }
      ∧ t.pip.freed = s.pip.freed ++ [tag] ∧ t.fget PIP_TAGS.IN_FLIGHT = (s.fget PIP_TAGS.IN_FLIGHT - 1) % PIP_TAGS.IN_FLIGHT.span)
  ∧ (∀ s tag gen, (s.tag tag).gen ≠ gen → ∃ t, exec (.lateResponse tag gen) s = .next t
      ∧ t.fget PIP_LATE.COUNT = min (s.fget PIP_LATE.COUNT + 1) (PIP_LATE.COUNT.span - 1) ∧ OnlyRegs [PIP_LATE.COUNT.id] s t)
  ∧ (∀ s tag, (s.tag tag).st ≠ 0 → exec (.lateResponse tag (s.tag tag).gen) s = .next s)
  ∧ (∀ s b rest, s.pip.repair = b :: rest → ∃ t, exec .hashRepairDone s = .next t ∧ t.pip.repair = rest ∧ t.fget PIP_HASH_STAT.REPAIR = b2n (!rest.isEmpty)
      ∧ t.bucket b = ((s.bucket b).filter s.hashTrue ++ s.hashMissing b).take 4 ∧ (∀ e ∈ s.bucket b, s.hashTrue e = true → (s.bucket b).length ≤ 4 → e ∈ t.bucket b)
      ∧ t.pip.stash = s.pip.stash ++ (((s.bucket b).filter s.hashTrue ++ s.hashMissing b).drop 4).take (64 - s.pip.stash.length)
      ∧ (∀ k, k ≠ b → t.bucket k = s.bucket k) ∧ t.dram = s.dram)
  ∧ (∀ s tenant seq user slot phase tag r k, ((s.tenJ tenant).buf ++ (s.tenJ tenant).nand).find? (fun r => r.seq == seq && r.typ == 1) = some r →
      nbit (leAt r.body 4 4) 28 = false → s.routeTask tenant 4 = some k → s.fget TSK_STAT.STATE k = 2 →
    (∃ t, exec (.completionRebuild tenant seq user slot ⟨phase, tag, false⟩) s = .next t
      ∧ t = (s.deliver k 3 2048 (leB 4 (s.rebuiltTag tenant seq - 1 + 2 ^ 24) ++ leB 8 seq)).fsat PIP_T_REPOST.COUNT tenant
      ∧ t.fget PIP_T_REPOST.COUNT tenant = min (s.fget PIP_T_REPOST.COUNT tenant + 1) (PIP_T_REPOST.COUNT.span - 1) ∧ t.dram = s.dram)
    ∧ exec (.completionRebuild tenant seq user slot ⟨phase, tag, true⟩) s = .next s)
  ∧ (∀ s tenant seq user slot phase tag ring q r, ((s.tenJ tenant).buf ++ (s.tenJ tenant).nand).find? (fun r => r.seq == seq && r.typ == 1) = some r →
      nbit (leAt r.body 4 4) 28 = true → nbits (leAt r.body 4 4) 11 0 = ring → nbits (leAt r.body 4 4) 27 12 = q →
    (s.slotHolds tenant seq ring q phase tag = true → exec (.completionRebuild tenant seq user slot ⟨phase, tag, false⟩) s = .next s)
    ∧ (s.slotHolds tenant seq ring q phase tag = false → s.fbit RNG_H_STAT.UP (s.ringHost ring) = true → s.fget RNG_R_STAT.STATE ring = 2 →
      ∃ t c, exec (.completionRebuild tenant seq user slot ⟨phase, tag, false⟩) s = .next t ∧ tget none (t.ring ring).cpls q = some c ∧ c.user = user ∧ c.slot = slot
        ∧ c.phase = s.slotPhase ring q ∧ (∀ j, j ≠ q → tget none (t.ring ring).cpls j = tget none (s.ring ring).cpls j)
        ∧ t.fget PIP_T_REPOST.COUNT tenant = min (s.fget PIP_T_REPOST.COUNT tenant + 1) (PIP_T_REPOST.COUNT.span - 1)))
  )
  ∧
  (
  (∀ s host value n, OpenW s host .pip 0 n →
    (nbit value 0 = true → ∃ t, exec (.clear host value) s = .next t
      ∧ (∀ f ∈ [PIP_T_OK.COUNT, PIP_T_AUTH.COUNT, PIP_T_REPLAY.COUNT, PIP_T_IMPL.COUNT, PIP_T_NOCRED.COUNT, PIP_T_TMO.COUNT, PIP_T_CANCEL.COUNT,
          PIP_T_OTHER.COUNT, PIP_T_KEYMISS.COUNT, PIP_T_UNSUPP.COUNT, PIP_T_FIELDDROP.COUNT, PIP_T_REPOST.COUNT],
            t.fget f n = 0 ∧ ∀ m, m ≠ n → t.fget f m = s.fget f m)
      ∧ OnlyRegs [PIP_T_OK.COUNT.id, PIP_T_AUTH.COUNT.id, PIP_T_REPLAY.COUNT.id, PIP_T_IMPL.COUNT.id, PIP_T_NOCRED.COUNT.id, PIP_T_TMO.COUNT.id,
          PIP_T_CANCEL.COUNT.id, PIP_T_OTHER.COUNT.id, PIP_T_KEYMISS.COUNT.id, PIP_T_UNSUPP.COUNT.id, PIP_T_FIELDDROP.COUNT.id, PIP_T_REPOST.COUNT.id] s t)
    ∧ (nbit value 0 = false → exec (.clear host value) s = .next s))
  ∧ (∀ s host off value k w, Open s host .pip → 0x10000 ≤ off → off < 0x18000 → k = (off - 0x10000) / 4 →
      w = tput 0 s.pip.routes k (Nat.land value (routeMask (k % 8))) →
    (s.routeOk (k / 8) (tget 0 w (8 * (k / 8))) (tget 0 w (8 * (k / 8) + 1)) (tget 0 w (8 * (k / 8) + 2)) = true →
      ∃ t, exec (.routeEntryWrite host off value) s = .next t ∧ tget 0 t.pip.routes k = Nat.land value (routeMask (k % 8))
        ∧ (∀ j, j ≠ k → tget 0 t.pip.routes j = tget 0 s.pip.routes j) ∧ t = { s with pip := { s.pip with routes := t.pip.routes } })
    ∧ (s.routeOk (k / 8) (tget 0 w (8 * (k / 8))) (tget 0 w (8 * (k / 8) + 1)) (tget 0 w (8 * (k / 8) + 2)) = false →
      ∃ t, exec (.routeEntryWrite host off value) s = .next t ∧ t.pip = s.pip ∧ t.fget PIP_ERR.ROUTE = 1 ∧ t.fget PIP_ERR_INFO.OFFSET = off % PIP_ERR_INFO.OFFSET.span
        ∧ t.dram = s.dram))
  )

/-- With no activation and no CLEAR waiting for journal room: a HOST acknowledgement above the last and not above the tenant's next number becomes the acknowledged value, below which every record is acknowledged, the buffer keeps exactly the records that some enabled sink has still to acknowledge, and
no ledger changes; any other number changes nothing, and while NAND is not READY a NAND acknowledgement changes nothing. A page program clears the tenant's partial page and nothing else. A sink that is UP with records outstanding goes DOWN; the other sinks and every acknowledged value stay, and a
checkpoint that runs while its NAND sink goes DOWN fails, its slot not used up (log entry 110). RESYNC_NAND and RESYNC_HOST of an enabled DOWN sink with no loss bring it UP; with a loss the NAND sink only waits for a checkpoint, and the HOST sink comes UP, its loss over, fed first from the records
that NAND alone holds. TAKE, and a checkpoint period that is not 0, with a valid partition and room, start a checkpoint: BUSY, the next slot, which stays the next one until the checkpoint is complete, running with S0 the tenant's next number, which its marker takes; while one runs nothing happens;
without a valid partition LAST_OK reads 0 and none starts. When the copy ends the slot holds the tenant's ledgers and waits for the marker that takes the next number. A rebuild of the lowest waiting tenant waits where it has no checkpoint, and ends where it has one: REBUILD and REBUILD_WAIT read 0,
and holdup records are used up. REBUILD_DONE ends a waiting rebuild, and a tenant that its configuration enables is ON. -/
def Obligations.SinksAndCheckpoints : Prop :=
  (
  (∀ s tenant seq, s.ackOf tenant 2 < seq → seq ≤ s.nextSeq tenant → seq < 2 ^ 64 → nbit (s.fget LDG_T_SINK.EN tenant) 2 = true → s.ldg.actWait = [] →
      s.ldg.quarWait = none →
    ∃ t, exec (.journalAck tenant 2 seq) s = .next t ∧ t.ackOf tenant 2 = seq ∧ t.ackOf tenant 0 = s.ackOf tenant 0 ∧ t.ackOf tenant 1 = s.ackOf tenant 1
      ∧ (t.tenJ tenant).buf = (s.tenJ tenant).buf.filter (fun r => [0, 1, 2].any (fun k => nbit (s.fget LDG_T_SINK.EN tenant) k
          && decide (r.seq ≥ if k = 2 then seq else s.ackOf tenant k)))
      ∧ t.ldg.ledgers = s.ldg.ledgers ∧ t.dram = s.dram)
  ∧ (∀ s tenant sink seq, seq ≤ s.ackOf tenant sink ∨ s.nextSeq tenant < seq → s.ldg.actWait = [] → s.ldg.quarWait = none → exec (.journalAck tenant sink seq) s = .next s)
  ∧ (∀ s tenant seq, s.nandReady = false → exec (.journalAck tenant 0 seq) s = .next s)
  ∧ (∀ s tenant, ∃ t, exec (.nandPartialFlush tenant) s = .next t ∧ t.tenJ tenant = { s.tenJ tenant with partial_ := false }
      ∧ (∀ k, k ≠ tenant → t.tenJ k = s.tenJ k) ∧ t = { s with ldg := { s.ldg with ten := t.ldg.ten } })
  ∧ (∀ s tenant sink, sink ∈ s.upSinks tenant → max 1 (s.ackOf tenant sink) < s.nextSeq tenant → s.ldg.actWait = [] → s.ldg.quarWait = none →
    ∃ t, exec (.sinkDown tenant sink) s = .next t ∧ nbit (t.fget LDG_T_SINK_STAT.UP tenant) sink = false
      ∧ (∀ k, k < 3 → k ≠ sink → nbit (t.fget LDG_T_SINK_STAT.UP tenant) k = nbit (s.fget LDG_T_SINK_STAT.UP tenant) k)
      ∧ (∀ k, t.ackOf tenant k = s.ackOf tenant k) ∧ t.ldg.ledgers = s.ldg.ledgers
      ∧ (∀ sl, sink = 0 → (s.tenJ tenant).running = some sl → (t.tenJ tenant).running = none ∧ (t.tenJ tenant).nextSlot = (s.tenJ tenant).nextSlot
          ∧ t.fget LDG_T_CKPT_STAT.BUSY tenant = 0 ∧ t.fget LDG_T_CKPT_STAT.LAST_OK tenant = 0))
  ∧ (∀ s host n, OpenW s host .ldg 0 n → nbit (s.fget LDG_T_SINK.EN n) 0 = true → nbit (s.fget LDG_T_SINK_STAT.UP n) 0 = false →
    ∃ t, exec (.resyncNand host) s = .next t
      ∧ (nbit (s.fget LDG_T_SINK_STAT.LOST n) 0 = false → nbit (t.fget LDG_T_SINK_STAT.UP n) 0 = true)
      ∧ (nbit (s.fget LDG_T_SINK_STAT.LOST n) 0 = true → t.tenJ n = { s.tenJ n with nandWait := true } ∧ t.regs = s.regs) ∧ t.dram = s.dram)
  ∧ (∀ s host n, OpenW s host .ldg 0 n → nbit (s.fget LDG_T_SINK.EN n) 2 = true → nbit (s.fget LDG_T_SINK_STAT.UP n) 2 = false →
      nbit (s.fget LDG_T_SINK_STAT.LOST n) 2 = false →
    ∃ t, exec (.resyncHost host) s = .next t ∧ nbit (t.fget LDG_T_SINK_STAT.UP n) 2 = true ∧ (t.tenJ n).buf = (s.tenJ n).buf ∧ t.dram = s.dram)
  ∧ (∀ s host n, OpenW s host .ldg 0 n → nbit (s.fget LDG_T_SINK.EN n) 2 = true → nbit (s.fget LDG_T_SINK_STAT.UP n) 2 = false →
      nbit (s.fget LDG_T_SINK_STAT.LOST n) 2 = true →
    ∃ t, exec (.resyncHost host) s = .next t ∧ nbit (t.fget LDG_T_SINK_STAT.UP n) 2 = true ∧ nbit (t.fget LDG_T_SINK_STAT.LOST n) 2 = false
      ∧ (t.tenJ n).hostNand = true ∧ (t.tenJ n).buf = (s.tenJ n).buf)
  )
  ∧
  (
  (∀ s s1 host n, OpenW s host .ldg 0 n → s.fbit LDG_T_CKPT_STAT.BUSY n = false → s.fbit LDG_T_CKPT.VALID n = true → s.jRoom n 24 = some s1 →
    ∃ t, exec (.take host) s = .next t ∧ t.fget LDG_T_CKPT_STAT.BUSY n = 1 ∧ (t.tenJ n).running = some (s.tenJ n).nextSlot
      ∧ (t.tenJ n).nextSlot = (s.tenJ n).nextSlot ∧ (tget {} (t.tenJ n).slots (s.tenJ n).nextSlot).s0 = s.nextSeq n
      ∧ t.nextSeq n = (s.nextSeq n + 1) % 2 ^ 64 ∧ t.ldg.ledgers = s.ldg.ledgers)
  ∧ (∀ s s1 n, s.fget LDG_T_CKPT.PERIOD n ≠ 0 → s.fbit LDG_T_CKPT_STAT.BUSY n = false → s.fbit LDG_T_CKPT.VALID n = true → s.jRoom n 24 = some s1 →
    ∃ t, exec (.ckptPeriodExpiry n) s = .next t ∧ t.fget LDG_T_CKPT_STAT.BUSY n = 1 ∧ (t.tenJ n).running = some (s.tenJ n).nextSlot
      ∧ t.nextSeq n = (s.nextSeq n + 1) % 2 ^ 64 ∧ t.ldg.ledgers = s.ldg.ledgers)
  ∧ (∀ s n, s.fget LDG_T_CKPT.PERIOD n = 0 ∨ s.fbit LDG_T_CKPT_STAT.BUSY n = true → exec (.ckptPeriodExpiry n) s = .next s)
  ∧ (∀ s host n, OpenW s host .ldg 0 n → s.fbit LDG_T_CKPT_STAT.BUSY n = false → s.fbit LDG_T_CKPT.VALID n = false →
    ∃ t, exec (.take host) s = .next t ∧ t.fget LDG_T_CKPT_STAT.LAST_OK n = 0 ∧ t.fget LDG_T_CKPT_STAT.BUSY n = s.fget LDG_T_CKPT_STAT.BUSY n ∧ t.ldg = s.ldg)
  ∧ (∀ s s1 n sl, (s.tenJ n).running = some sl → (s.tenJ n).endSeq = none → s.jRoom n 24 = some s1 →
    ∃ t, exec (.ckptCopyDone n) s = .next t ∧ (t.tenJ n).endSeq = some (s.nextSeq n) ∧ (t.tenJ n).running = some sl
      ∧ (tget {} (t.tenJ n).slots sl).ledgers = s.tenLedgers n ∧ t.nextSeq n = (s.nextSeq n + 1) % 2 ^ 64)
  ∧ (∀ s n ms, s.fbit LDG_T_STAT.REBUILD n = true → s.fbit LDG_T_STAT.REBUILD_WAIT n = false → (∀ k, k < n → s.fbit LDG_T_STAT.REBUILD k = false) →
    ∃ t, exec (.tenantRebuild n ms) s = .next t ∧ t.fget LDG_REBUILD.TENANT = n % LDG_REBUILD.TENANT.span
      ∧ ((s.tenJ n).newest = none → t.fget LDG_T_STAT.REBUILD_WAIT n = 1 ∧ t.ldg = s.ldg)
      ∧ ((s.tenJ n).newest ≠ none → t.fget LDG_T_STAT.REBUILD n = 0 ∧ t.fget LDG_T_STAT.REBUILD_WAIT n = 0 ∧ (t.tenJ n).holdup = []))
  ∧ (∀ s host n, OpenW s host .ldg 0 n → s.fbit LDG_T_STAT.REBUILD_WAIT n = true →
    ∃ t, exec (.rebuildDone host) s = .next t ∧ t.fget LDG_T_STAT.REBUILD n = 0 ∧ t.fget LDG_T_STAT.REBUILD_WAIT n = 0
      ∧ (n ≠ 0 → s.fbit TEN_CTRL.ENABLE n = true → s.fget TEN_STAT.STATE n = 0 →
          t.fget TEN_STAT.STATE n = 2 ∧ t.fget TEN_STAT.GEN n = (s.fget TEN_STAT.GEN n + 1) % TEN_STAT.GEN.span)
      ∧ t.ldg = s.ldg ∧ t.dram = s.dram)
  )

/-- Of a calendar of tenant 0, as which the supervisor acts (the model's choice, log entry 12): ARM of an edited passive copy that passes its checks, is not MPT-based, and is not yet due
makes it PENDING and lists it, status 0; one that fails a check keeps its state with IMPLAUSIBLE and the reason. CANCEL of a PENDING copy makes it EDIT and takes it off the
list. ACTIVATE_NOW of a PENDING copy makes it the active one, the old active copy RETIRED, and takes it off the list; while the journal has no room for its record it waits, and of a wholly quarantined tenant it answers QUARANTINED. Of a calendar of another owner each answers
PROTECTION and leaves it. The once-per-second check activates the one listed calendar whose time has come, the journal having room, and does nothing without civil time. -/
def Obligations.CalendarCommands : Prop :=
  (∀ s host cal, Open s host .ldg → cal < 8192 → s.calOwner cal = some 0 → s.fbit LDG_CFG.CAL_VALID = true → (s.cal cal).passive = 1 →
      CalCopy.flag (s.calCopy cal (!(s.cal cal).activeB)) 1 = false → s.ldg.pendList.length < 256 →
    (CalCopy.armReason (s.calCopy cal (!(s.cal cal).activeB)) = 0 → s.calOk = false ∨ s.utcNow < (CalCopy.actTime (s.calCopy cal (!(s.cal cal).activeB)) : Int) →
      ∃ t, exec (.arm host cal) s = .next t ∧ t.cal cal = { s.cal cal with passive := 2 } ∧ t.ldg.pendList = s.ldg.pendList ++ [cal]
        ∧ t.fget LDG_CAL_RES.STATUS = 0 ∧ t.fget LDG_CAL_RES.REASON = 0 ∧ t.dram = s.dram)
    ∧ (CalCopy.armReason (s.calCopy cal (!(s.cal cal).activeB)) ≠ 0 →
      ∃ t, exec (.arm host cal) s = .next t ∧ t.ldg = s.ldg ∧ t.fget LDG_CAL_RES.STATUS = 0x12
        ∧ t.fget LDG_CAL_RES.REASON = CalCopy.armReason (s.calCopy cal (!(s.cal cal).activeB)) % LDG_CAL_RES.REASON.span))
  ∧ (∀ s host cal, Open s host .ldg → cal < 8192 → s.calOwner cal = some 0 → s.fbit LDG_CFG.CAL_VALID = true → (s.cal cal).passive = 2 →
    ∃ t, exec (.cancel host cal) s = .next t ∧ t.cal cal = { s.cal cal with passive := 1 } ∧ t.ldg.pendList = s.ldg.pendList.filter (· != cal)
      ∧ t.fget LDG_CAL_RES.STATUS = 0 ∧ t.dram = s.dram)
  ∧ (∀ s host cal u, Open s host .ldg → cal < 8192 → s.calOwner cal = some 0 → s.fbit LDG_CFG.CAL_VALID = true → (s.cal cal).passive = 2 →
      s.fbit LDG_T_STAT.QUAR_ALL 0 = false → s.jRoom 0 40 = some u →
    ∃ t, exec (.activateNow host cal) s = .next t ∧ (t.cal cal).activeB = !(s.cal cal).activeB ∧ (t.cal cal).activeValid = true
      ∧ (t.cal cal).passive = (if (s.cal cal).activeValid then 3 else 0) ∧ t.ldg.pendList = s.ldg.pendList.filter (· != cal)
      ∧ t.fget LDG_CAL_RES.STATUS = 0 ∧ t.dram = s.dram)
  ∧ (∀ s host cal, Open s host .ldg → cal < 8192 → s.calOwner cal = some 0 → s.fbit LDG_CFG.CAL_VALID = true → (s.cal cal).passive = 2 →
    (s.fbit LDG_T_STAT.QUAR_ALL 0 = true → ∃ t, exec (.activateNow host cal) s = .next t ∧ t.ldg = s.ldg ∧ t.fget LDG_CAL_RES.STATUS = 0x42)
    ∧ (s.fbit LDG_T_STAT.QUAR_ALL 0 = false → s.jRoom 0 40 = none →
        ∃ t, exec (.activateNow host cal) s = .next t ∧ t.ldg.cals = s.ldg.cals ∧ cal ∈ t.ldg.actWait ∧ t.dram = s.dram))
  ∧ (∀ s host cal, Open s host .ldg → s.calOwner (cal % 8192) ≠ some 0 →
    (∃ t, exec (.arm host cal) s = .next t ∧ t.ldg = s.ldg ∧ t.fget LDG_CAL_RES.STATUS = 0x23)
    ∧ (∃ t, exec (.cancel host cal) s = .next t ∧ t.ldg = s.ldg ∧ t.fget LDG_CAL_RES.STATUS = 0x23)
    ∧ (∃ t, exec (.activateNow host cal) s = .next t ∧ t.ldg = s.ldg ∧ t.fget LDG_CAL_RES.STATUS = 0x23))
  ∧ (∀ s cal u, s.calOk = true → s.ldg.pendList = [cal] → (s.cal cal).passive = 2 → s.fbit LDG_T_STAT.QUAR_ALL ((s.calOwner cal).getD 0) = false →
      s.jRoom ((s.calOwner cal).getD 0) 40 = some u → CalCopy.flag (s.calCopy cal (!(s.cal cal).activeB)) 1 = false →
      s.utcNow ≥ (CalCopy.actTime (s.calCopy cal (!(s.cal cal).activeB)) : Int) →
    ∃ t, exec .calActivationCheck s = .next t ∧ (t.cal cal).activeB = !(s.cal cal).activeB ∧ (t.cal cal).activeValid = true ∧ t.ldg.pendList = []
      ∧ t.ldg.ledgers = s.ldg.ledgers ∧ t.dram = s.dram)
  ∧ (∀ s, s.calOk = false → exec .calActivationCheck s = .next s)

/-- A good sector read ends a ledger's retries; a bad one with attempts left is counted; the last one, with a free entry, enters the ledger in the table and takes its line out of the cache. A supervisor's REBUILD of a quarantined ledger whose tenant lost no record and journaled none for it since its
newest checkpoint gives it the checkpoint's line: where the read-back verifies the entry is free and the status 0, where not the ledger and its entry stay, marked, with MEDIA_ERROR. CLEAR, once the journal has room for its record, until which it is BUSY, leaves the ledger 0 but for the number of its
journal record and frees the entry. REQUAR of a ledger for want of whose entry its tenant is wholly quarantined enters it, and ends that when it was the last. Of a ledger that is not there each answers PROTECTION; one written while BUSY is discarded with LDG_ERR.BUSY. The sweep of the one watched
ledger, its journal having room, evaluates its prepayment state: if that is no longer DEFERRED it leaves the list, and the line holds the new state; if it is, the list stays. Without civil time nothing happens. A writeback that lands frees the line, or gives it to the one cluster that waits and has
a way for it, which the pointer then points past; the commit that waits in that cluster's pipe goes on. A line that no lock, no writeback holds and that is in another slice moves to the cluster's slice where that has a way for it, keeping its sectors and dirty sectors, and is counted. -/
def Obligations.QuarantineAndCache : Prop :=
  (
  (∀ s ledger, (∃ t, exec (.ledgerSectorRetry ledger true) s = .next t ∧ tget 0 t.ldg.sectorTries ledger = 0
      ∧ t = { s with ldg := { s.ldg with sectorTries := t.ldg.sectorTries } }))
  ∧ (∀ s ledger, tget 0 s.ldg.sectorTries ledger + 1 < s.fget PIP_RETRY_LDG.TRIES →
    ∃ t, exec (.ledgerSectorRetry ledger false) s = .next t ∧ tget 0 t.ldg.sectorTries ledger = tget 0 s.ldg.sectorTries ledger + 1
      ∧ t = { s with ldg := { s.ldg with sectorTries := t.ldg.sectorTries } })
  ∧ (∀ s ledger k, s.fget PIP_RETRY_LDG.TRIES ≤ tget 0 s.ldg.sectorTries ledger + 1 → s.quarEntry ledger = none →
      (tget [] s.ldg.quarAll ((s.ledgerOwner ledger).getD 0)).contains ledger = false →
      (List.range 1024).find? (fun k => (tget none s.ldg.quar k).isNone) = some k →
    ∃ t, exec (.ledgerSectorRetry ledger false) s = .next t ∧ tget none t.ldg.quar k = some (ledger, 1) ∧ t.line ledger = none
      ∧ t.ldg.ledgers = s.ldg.ledgers ∧ t.dram = s.dram)
  ∧ (∀ s host ledger k c good, Open s host .ldg → s.fbit LDG_QUAR_RES.BUSY = false → s.quarEntry ledger = some k → (s.tenJ ((s.ledgerOwner ledger).getD 0)).newest = some c →
      nbit (s.fget LDG_T_SINK_STAT.LOST ((s.ledgerOwner ledger).getD 0)) 0 = false →
      (∀ r ∈ (s.tenJ ((s.ledgerOwner ledger).getD 0)).nand, r.seq < c.s0 ∨ r.target ≠ ledger) →
    ∃ t, exec (.rebuild host ledger good) s = .next t ∧ t.fget LDG_QUAR_RES.BUSY = 0
      ∧ (good = true → t.led ledger = tget [] c.ledgers ledger ∧ tget none t.ldg.quar k = none ∧ t.fget LDG_QUAR_RES.STATUS = 0)
      ∧ (good = false → t.ldg.ledgers = s.ldg.ledgers ∧ tget none t.ldg.quar k = some (ledger, 2) ∧ t.fget LDG_QUAR_RES.STATUS = 0x40))
  ∧ (∀ s host ledger k u, Open s host .ldg → s.fbit LDG_QUAR_RES.BUSY = false → s.quarEntry ledger = some k → s.jRoom ((s.ledgerOwner ledger).getD 0) 24 = some u →
    ∃ t, exec (.quarClear host ledger) s = .next t ∧ t.led ledger = lset [] L.LAST_SEQ (s.nextSeq ((s.ledgerOwner ledger).getD 0))
      ∧ (∀ j, j ≠ ledger → t.led j = s.led j) ∧ tget none t.ldg.quar k = none ∧ t.fget LDG_QUAR_RES.STATUS = 0 ∧ t.fget LDG_QUAR_RES.BUSY = 0)
  ∧ (∀ s host ledger k, Open s host .ldg → s.fbit LDG_QUAR_RES.BUSY = false → s.quarEntry ledger = some k → s.jRoom ((s.ledgerOwner ledger).getD 0) 24 = none →
    ∃ t, exec (.quarClear host ledger) s = .next t ∧ t.ldg = { s.ldg with quarWait := some ledger } ∧ t.fget LDG_QUAR_RES.BUSY = 1 ∧ t.dram = s.dram)
  ∧ (∀ s host ledger good, Open s host .ldg → s.fbit LDG_QUAR_RES.BUSY = true →
    (∃ t, exec (.rebuild host ledger good) s = .next t ∧ t.ldg = s.ldg ∧ t.fget LDG_ERR.BUSY = 1 ∧ t.fget LDG_ERR_INFO.OFFSET = 0x44)
    ∧ (∃ t, exec (.quarClear host ledger) s = .next t ∧ t.ldg = s.ldg ∧ t.fget LDG_ERR.BUSY = 1)
    ∧ (∃ t, exec (.requar host ledger) s = .next t ∧ t.ldg = s.ldg ∧ t.fget LDG_ERR.BUSY = 1))
  ∧ (∀ s host ledger k, Open s host .ldg → s.fbit LDG_QUAR_RES.BUSY = false → (tget [] s.ldg.quarAll ((s.ledgerOwner ledger).getD 0)).contains ledger = true →
      (List.range 1024).find? (fun k => (tget none s.ldg.quar k).isNone) = some k →
    ∃ t, exec (.requar host ledger) s = .next t ∧ tget none t.ldg.quar k = some (ledger, 1)
      ∧ tget [] t.ldg.quarAll ((s.ledgerOwner ledger).getD 0) = (tget [] s.ldg.quarAll ((s.ledgerOwner ledger).getD 0)).filter (· != ledger)
      ∧ t.fbit LDG_T_STAT.QUAR_ALL ((s.ledgerOwner ledger).getD 0) = !((tget [] s.ldg.quarAll ((s.ledgerOwner ledger).getD 0)).filter (· != ledger)).isEmpty
      ∧ t.fget LDG_QUAR_RES.STATUS = 0 ∧ t.ldg.ledgers = s.ldg.ledgers)
  ∧ (∀ s host ledger good, Open s host .ldg → s.fbit LDG_QUAR_RES.BUSY = false → s.quarEntry ledger = none →
    (∃ t, exec (.rebuild host ledger good) s = .next t ∧ t.fget LDG_QUAR_RES.STATUS = 0x23 ∧ t.ldg = s.ldg)
    ∧ (∃ t, exec (.quarClear host ledger) s = .next t ∧ t.fget LDG_QUAR_RES.STATUS = 0x23 ∧ t.ldg = s.ldg))
  )
  ∧
  (
  (∀ s s1 i, s.calOk = true → s.ldg.watch = [i] → s.quarantined i ((s.ledgerOwner i).getD 0) = false → s.jRoom ((s.ledgerOwner i).getD 0) 32 = some s1 →
      nbits (lget (s.led i) L.PP) 2 0 = 3 →
    ∃ t, exec .watchSweep s = .next t ∧ nbits (lget (t.led i) L.PP) 2 0 = ppNext (s.led i) (s.friendlyNow (s.led i)) 0
      ∧ t.ldg.watch = (if ppNext (s.led i) (s.friendlyNow (s.led i)) 0 = 3 then [i] else []) ∧ (∀ j, j ≠ i → t.led j = s.led j))
  ∧ (∀ s, s.calOk = false → exec .watchSweep s = .next s)
  ∧ (∀ s ledger l, s.line ledger = some l → l.wb = true → l.waiting = [] →
    ∃ t, exec (.writebackLanded ledger) s = .next t ∧ t.line ledger = none ∧ t.ldg.granted = [] ∧ (∀ j, j ≠ ledger → t.line j = s.line j) ∧ t.regs = s.regs)
  ∧ (∀ s ledger l c, s.line ledger = some l → l.wb = true → l.waiting = [c] → c < 8 → s.wayFree c ledger = true →
      (∀ e ∈ s.pip.tags, e.2.st = 1 → e.2.stage = 8 → e.2.ledger = some ledger → e.2.cluster ≠ c) →
    ∃ t, exec (.writebackLanded ledger) s = .next t ∧ t.line ledger = some { slice := c, dirty := 0 } ∧ t.ldg.granted = [c] ∧ t.ldg.rotate = (c + 1) % 8
      ∧ t.ldg.ledgers = s.ldg.ledgers)
  ∧ (∀ s ledger l c i r u, s.line ledger = some l → l.wb = true → l.waiting = [c] → c < 8 → s.pip.tags = [(i, r)] → r.st = 1 → r.stage = 8 → r.ledger = some ledger →
      r.cluster = c → u = (s.setLine ledger none).commitTag i false →
    exec (.writebackLanded ledger) s = .next { u with ldg := { u.ldg with rotate := (c + 1) % 8, granted := [c] } })
  ∧ (∀ s ledger l c, s.line ledger = some l → l.wb = false → (s.llock ledger).owner = none → l.slice ≠ c → c < 8 → s.wayFree c ledger = true →
    ∃ t, exec (.lineMove ledger c) s = .next t ∧ t.line ledger = some { l with slice := c }
      ∧ t.fget LDG_CACHE_MOVE.COUNT = min (s.fget LDG_CACHE_MOVE.COUNT + 1) (LDG_CACHE_MOVE.COUNT.span - 1) ∧ t.ldg.ledgers = s.ldg.ledgers)
  ∧ (∀ s ledger c l, s.line ledger = some l → l.wb = true → exec (.lineMove ledger c) s = .next s)
  )

/-- Outside the centre role. A crossing is valid where VA's RMS is at least MAINS_MIN per cent of the nominal voltage and the period lies between 1/65 s and 1/45 s; an invalid one acts as a missing one. A valid crossing in ACQUIRE or LOCKED adds the measured error, at most
MAX_PU, to what is still to be corrected by rate, and never moves mains-phase time itself; in ACQUIRE within ±16 pu it gives LOCKED; the eighth valid one in FREE_RUN or HOLDOVER gives ACQUIRE. A second missing crossing in ACQUIRE or LOCKED gives HOLDOVER with
MPT_FREQ 0; a first one keeps the state; where LOCKED is left, every open window is DEGRADED. After HOLD_CYCLES cycles, and not before, the expiry of HOLDOVER gives FREE_RUN. A valid crossing of phase B sets its offset and the rotation, of phase C its offset; an invalid one clears its OK bit and leaves the
offset. A load before LOADED waits, the last write winning, and after it is refused with LOAD_LATE; at phase 0x0000 the waiting count becomes the time with phase 0 and LOADED reads 1. A write that changes
NOMINAL_60 outside the centre role changes no time; in the centre role with a valid domain it steps the time up to the value computed anew, never down. -/
def Obligations.MainsPhase : Prop :=
  (∀ s v err freq, s.centre = false → s.crossValid v freq = true → s.fget MPT_SRC.STATE = 1 ∨ s.fget MPT_SRC.STATE = 2 →
    ∃ t, exec (.zeroCrossing v err freq) s = .next t ∧ t.time.mpt = s.time.mpt
      ∧ t.time.slew = s.time.slew + max (-(s.fget MPT_SLEW.MAX_PU : Int)) (min (s.fget MPT_SLEW.MAX_PU : Int) (-err))
      ∧ t.fget MPT_FREQ.FREQ = freq % MPT_FREQ.FREQ.span ∧ t.fbit MPT_SRC.PH_A_OK = true
      ∧ t.fget MPT_SRC.STATE = (if s.fget MPT_SRC.STATE = 1 ∧ err.natAbs ≤ 16 then 2 else s.fget MPT_SRC.STATE) ∧ t.dram = s.dram)
  ∧ (∀ s v err freq, s.centre = false → s.crossValid v freq = true → s.fget MPT_SRC.STATE = 3 ∨ s.fget MPT_SRC.STATE = 4 →
    ∃ t, exec (.zeroCrossing v err freq) s = .next t ∧ t.time.mpt = s.time.mpt
      ∧ t.fget MPT_SRC.STATE = (if s.time.good + 1 ≥ 8 then 1 else s.fget MPT_SRC.STATE) ∧ t.time.good = s.time.good + 1)
  ∧ (∀ s v err freq, s.crossValid v freq = false → exec (.zeroCrossing v err freq) s = exec .crossingMissing s)
  ∧ (∀ (s : State) v freq, s.crossValid v freq = true ↔ s.fget MPT_CFG.MAINS_MIN * s.fget BAL_NOMV.VOLTS ≤ 100 * v ∧ 45000 ≤ freq ∧ freq ≤ 65000)
  ∧ (∀ s, s.centre = false → s.fget MPT_SRC.STATE = 1 ∨ s.fget MPT_SRC.STATE = 2 →
    ∃ t, exec .crossingMissing s = .next t ∧ t.time.mpt = s.time.mpt ∧ t.time.good = 0 ∧ t.fbit MPT_SRC.PH_A_OK = false
      ∧ (s.time.miss = 0 → t.fget MPT_SRC.STATE = s.fget MPT_SRC.STATE) ∧ (s.time.miss ≠ 0 → t.fget MPT_SRC.STATE = 3 ∧ t.fget MPT_FREQ.FREQ = 0 ∧ t.time.held = 0)
      ∧ (∀ w c, s.time.miss ≠ 0 → s.fget MPT_SRC.STATE = 2 → w < 8 → (s.winSet w).cur = some c → (t.winSet w).cur = some { c with degraded := true }))
  ∧ (∀ s, s.centre = false → s.fget MPT_SRC.STATE = 3 → s.fget MPT_CFG.HOLD_CYCLES * 65536 ≤ s.time.held →
    ∃ t, exec .holdoverExpiry s = .next t ∧ t.fget MPT_SRC.STATE = 4 ∧ t.time = { s.time with follow := true } ∧ t.dram = s.dram)
  ∧ (∀ s, s.fget MPT_SRC.STATE ≠ 3 ∨ s.time.held < s.fget MPT_CFG.HOLD_CYCLES * 65536 → exec .holdoverExpiry s = .next s)
  ∧ (∀ s lag, s.centre = false →
    (∃ t, exec (.phaseCrossingBc 1 true lag) s = .next t ∧ t.fget MPT_PH_B.OFFSET = lag % MPT_PH_B.OFFSET.span ∧ t.fbit MPT_SRC.PH_B_OK = true
      ∧ t.fget MPT_SRC.ROTATION = (if phaseDist lag 0xAAAB < phaseDist lag 0x5555 then 1 else 0) ∧ t.time = s.time)
    ∧ (∃ t, exec (.phaseCrossingBc 2 true lag) s = .next t ∧ t.fget MPT_PH_C.OFFSET = lag % MPT_PH_C.OFFSET.span ∧ t.fbit MPT_SRC.PH_C_OK = true
      ∧ t.fget MPT_SRC.ROTATION = s.fget MPT_SRC.ROTATION ∧ t.time = s.time)
    ∧ (∃ t, exec (.phaseCrossingBc 1 false lag) s = .next t ∧ t.fbit MPT_SRC.PH_B_OK = false ∧ t.fget MPT_PH_B.OFFSET = s.fget MPT_PH_B.OFFSET ∧ t.time = s.time))
  ∧ (∀ s host value, Open s host .mpt →
    (s.fbit MPT_SRC.LOADED = false → s.centre = false → ∃ t, exec (.mptLoadLo host value) s = .next t
      ∧ t = { s with time := { s.time with load := some (s.fget MPT_LOAD_HI.CYCLE_HI * 2 ^ 32 + value % 2 ^ 32) } })
    ∧ (s.fbit MPT_SRC.LOADED = true ∨ s.centre = true → ∃ t, exec (.mptLoadLo host value) s = .next t
      ∧ t.fget MPT_ERR.LOAD_LATE = 1 ∧ t.fget MPT_ERR_INFO.OFFSET = 0x20 ∧ t.time = s.time))
  ∧ (∀ s c, s.time.load = some c → (∀ u, u < 64 → s.fget MPT_CMP_STAT.STATE u ≠ 2 ∨ s.cmpBase u ≠ 0) →
    ∃ t, exec .cycleCountLoad s = .next t ∧ t.time = { s.time with mpt := c * 65536, frac := 0, load := none } ∧ OnlyRegs [MPT_SRC.LOADED.id] { s with time := t.time } t
      ∧ t.fget MPT_SRC.LOADED = 1)
  ∧ (∀ s host value, Open s host .mpt → s.locked = false → MPT_CFG.HOLD_CYCLES.inRange (MPT_CFG.HOLD_CYCLES.of value) = true →
      MPT_CFG.MAINS_MIN.inRange (MPT_CFG.MAINS_MIN.of value) = true →
    (s.centre = false → ∃ t, exec (.nominal60Change host value) s = .next t ∧ t.fget MPT_CFG.NOMINAL_60 = value % 2 ∧ t.time = s.time)
    ∧ (s.centre = true → s.fget MPT_CFG.NOMINAL_60 ≠ value % 2 → s.fget (gtSt (s.fget MPT_GRID_SEL.DOMAIN)) ≠ 0 →
        (∀ u, u < 64 → s.fget MPT_CMP_STAT.STATE u ≠ 2 ∨ s.cmpBase u ≠ 0) →
      ∃ t, exec (.nominal60Change host value) s = .next t ∧ t.fget MPT_CFG.NOMINAL_60 = value % 2
        ∧ t.time.mpt = max s.time.mpt (s.gtNs (s.fget MPT_GRID_SEL.DOMAIN) * (if value % 2 = 1 then 60 else 50) * 65536 / 10 ^ 9)))

/-- A read of MPT_NOW_LO by the host that may read it answers the low word of mains-phase time and latches MPT_NOW_HI for the reading host. A read of GTn_NS answers the domain's nanoseconds and latches
GTn_SEC_LO and GTn_SEC_HI for that host. A supervisor's TAKE latches mains-phase time, the selected grid time and the operating seconds into that host's SNAP registers. No
other host's copies and no time base change. A host that may not read them, which is every other host than the supervisor, reads 0 with WINDOW_PROT, and nothing is latched. -/
def Obligations.TimeReadsLatch : Prop :=
  (∀ s host, host < 8 → Open s host .mpt → ∃ t, exec (.mptNowRead host) s = .next t ∧ t.out = s.out ++ [.reply host [s.time.mpt % 2 ^ 32]]
      ∧ t.fget MPT_NOW_HI.TIME_HI host = s.time.mpt / 2 ^ 32 % 2 ^ 32 ∧ t = { s with regs := t.regs, out := t.out }
      ∧ (∀ f i, f.id ≠ MPT_NOW_HI.TIME_HI.id → t.fget f i = s.fget f i) ∧ ∀ i, i ≠ host → t.fget MPT_NOW_HI.TIME_HI i = s.fget MPT_NOW_HI.TIME_HI i)
  ∧ (∀ s host, host < 8 → Open s host .mpt → ∃ t, exec (.gtNsRead host 0) s = .next t ∧ t.out = s.out ++ [.reply host [s.time.gt0.now.2]]
      ∧ t.fget GT0_SEC_LO.SEC_LO host = s.time.gt0.now.1 % 2 ^ 32 ∧ t.fget GT0_SEC_HI.SEC_HI host = s.time.gt0.now.1 / 2 ^ 32 % 2 ^ 16
      ∧ t = { s with regs := t.regs, out := t.out } ∧ (∀ f i, f.id ∉ [GT0_SEC_LO.SEC_LO.id, GT0_SEC_HI.SEC_HI.id] → t.fget f i = s.fget f i)
      ∧ ∀ i, i ≠ host → t.fget GT0_SEC_LO.SEC_LO i = s.fget GT0_SEC_LO.SEC_LO i ∧ t.fget GT0_SEC_HI.SEC_HI i = s.fget GT0_SEC_HI.SEC_HI i)
  ∧ (∀ s host, host < 8 → Open s host .mpt → ∃ t, exec (.gtNsRead host 1) s = .next t ∧ t.out = s.out ++ [.reply host [s.time.gt1.now.2]]
      ∧ t.fget GT1_SEC_LO.SEC_LO host = s.time.gt1.now.1 % 2 ^ 32 ∧ t.fget GT1_SEC_HI.SEC_HI host = s.time.gt1.now.1 / 2 ^ 32 % 2 ^ 16
      ∧ t = { s with regs := t.regs, out := t.out } ∧ (∀ f i, f.id ∉ [GT1_SEC_LO.SEC_LO.id, GT1_SEC_HI.SEC_HI.id] → t.fget f i = s.fget f i)
      ∧ ∀ i, i ≠ host → t.fget GT1_SEC_LO.SEC_LO i = s.fget GT1_SEC_LO.SEC_LO i ∧ t.fget GT1_SEC_HI.SEC_HI i = s.fget GT1_SEC_HI.SEC_HI i)
  ∧ (∀ s host d, host < 8 → d < 2 → s.silent .mpt = false → host ≠ s.supv →
    (∃ t, exec (.mptNowRead host) s = .next t ∧ t.out.getLast? = some (.reply host [0]) ∧ t.fget CHIP_ERR.WINDOW_PROT = 1 ∧ t.time = s.time
      ∧ ∀ i, t.fget MPT_NOW_HI.TIME_HI i = s.fget MPT_NOW_HI.TIME_HI i)
    ∧ (∃ t, exec (.gtNsRead host d) s = .next t ∧ t.out.getLast? = some (.reply host [0]) ∧ t.fget CHIP_ERR.WINDOW_PROT = 1 ∧ t.time = s.time))
  ∧ (∀ s host value, Open s host .mpt → nbit value 0 = true → ∃ t, exec (.snapTake host value) s = .next t
      ∧ t.fget MPT_SNAP_MPT_LO.TIME_LO host = s.time.mpt % 2 ^ 32 ∧ t.fget MPT_SNAP_MPT_HI.TIME_HI host = s.time.mpt / 2 ^ 32 % 2 ^ 32
      ∧ t.fget MPT_SNAP_GT_NS.NS host = s.gridNow.2 % 2 ^ 30 ∧ t.fget MPT_SNAP_GT_SEC_LO.SEC_LO host = s.gridNow.1 % 2 ^ 32
      ∧ t.fget MPT_SNAP_GT_SEC_HI.SEC_HI host = s.gridNow.1 / 2 ^ 32 % 2 ^ 16 ∧ t.fget MPT_SNAP_OPSEC.SECONDS host = s.fget MPT_OPSEC.SECONDS % 2 ^ 32
      ∧ (∀ f i, i ≠ host → t.fget f i = s.fget f i) ∧ t = { s with regs := t.regs })

/-- INVALIDATE of a domain that is not INVALID makes it INVALID and lets a STEP be used again; if it is the selected one, CAL_OK reads 0. A STEP in INVALID or HOLDOVER, not yet
used, with no armed unit on the domain, outside the centre role, adds the signed offset to the clock, modulo its range, and makes the domain VALID with AGE 0 and STEP_USED; any other is refused with its
error and moves no time. CONFIRM within the tolerance makes VALID and AGE 0; outside it counts a rejection and keeps the state; in INVALID it has no effect at all. A missed confirmation window takes VALID to
HOLDOVER, the hold limit HOLDOVER to LOST, each once AGE has reached it and not before. A trim beyond 2,147,483 is discarded with TRIM_RANGE, any other stored. A change of the billing domain, outside the centre role, to a VALID one within the old tolerance takes effect with the new tolerance;
otherwise it is discarded whole with DOMAIN_SW; a write that keeps the domain only stores the tolerance. -/
def Obligations.GridTime : Prop :=
  (∀ s host d, Open s host .mpt → d < 2 → s.fget (gtSt d) ≠ 0 → ∃ t, exec (.invalidate host d) s = .next t
      ∧ t.fget (gtSt d) = 0 ∧ t.fget (gtUsed d) = 0 ∧ (s.fget MPT_GRID_SEL.DOMAIN = d → t.fget MPT_TIME_OK.CAL_OK = 0 ∧ t.fget MPT_TIME_OK.REASON = 1) ∧ t.dram = s.dram)
  ∧ (∀ s host d, Open s host .mpt → d < 2 → s.fbit (gtUsed d) = false → s.fget (gtSt d) = 0 ∨ s.fget (gtSt d) = 2 → s.centre = false →
      (∀ u, u < 64 → s.fget MPT_CMP_STAT.STATE u ≠ 2 ∨ s.cmpBase u ≠ 1 + d) →
    ∃ t, exec (.step host d) s = .next t ∧ t.fget (gtSt d) = 1 ∧ t.fget (gtUsed d) = 1 ∧ t.fget (gtAge d) = 0 ∧ t.time.mpt = s.time.mpt
      ∧ (t.gtNs d : Int) = ((s.gtNs d : Int) + sval 64 (if d = 0 then s.get64 GT0_STEP_LO.OFS_LO GT0_STEP_HI.OFS_HI else s.get64 GT1_STEP_LO.OFS_LO GT1_STEP_HI.OFS_HI))
          % ((2 ^ 48 * 10 ^ 9 : Nat) : Int)
      ∧ t.gtNs (1 - d) = s.gtNs (1 - d))
  ∧ (∀ s host d, Open s host .mpt → d < 2 → s.fbit (gtUsed d) = true ∨ s.fget (gtSt d) = 1 ∨ s.fget (gtSt d) = 3 →
    ∃ t, exec (.step host d) s = .next t ∧ t.time = s.time ∧ t.fget MPT_ERR.STEP_USED = 1 ∧ t.fget (gtSt d) = s.fget (gtSt d))
  ∧ (∀ s host d, Open s host .mpt → d < 2 → s.fget (gtSt d) ≠ 0 →
    ((sval 32 (s.fget (if d = 0 then GT0_CONFIRM_OFS.OFS else GT1_CONFIRM_OFS.OFS))).natAbs ≤ s.fget (if d = 0 then GT0_TOL.TOL else GT1_TOL.TOL) →
      ∃ t, exec (.confirm host d) s = .next t ∧ t.fget (gtSt d) = 1 ∧ t.fget (gtAge d) = 0 ∧ t.gtNs d = s.gtNs d)
    ∧ (s.fget (if d = 0 then GT0_TOL.TOL else GT1_TOL.TOL) < (sval 32 (s.fget (if d = 0 then GT0_CONFIRM_OFS.OFS else GT1_CONFIRM_OFS.OFS))).natAbs →
      ∃ t, exec (.confirm host d) s = .next t ∧ OnlyRegs [(if d = 0 then GT0_CONF_REJ.COUNT else GT1_CONF_REJ.COUNT).id] s t
        ∧ t.fget (if d = 0 then GT0_CONF_REJ.COUNT else GT1_CONF_REJ.COUNT) = min (s.fget (if d = 0 then GT0_CONF_REJ.COUNT else GT1_CONF_REJ.COUNT) + 1) (2 ^ 32 - 1)))
  ∧ (∀ s host d, Open s host .mpt → d < 2 → s.fget (gtSt d) = 0 → exec (.confirm host d) s = .next s)
  ∧ (∀ s d, d < 2 → s.fget (gtSt d) = 1 → s.fget (gtWin d) ≤ s.fget (gtAge d) → ∃ t, exec (.confirmWinExpiry d) s = .next t ∧ t.fget (gtSt d) = 2 ∧ t.gtNs d = s.gtNs d ∧ t.dram = s.dram)
  ∧ (∀ s d, s.fget (gtAge d) < s.fget (gtWin d) → exec (.confirmWinExpiry d) s = .next s)
  ∧ (∀ s d, s.fget (gtAge d) < s.fget (gtLimit d) → exec (.holdLimitExpiry d) s = .next s)
  ∧ (∀ s d, d < 2 → s.fget (gtSt d) = 2 → s.fget (gtLimit d) ≤ s.fget (gtAge d) → ∃ t, exec (.holdLimitExpiry d) s = .next t ∧ t.fget (gtSt d) = 3 ∧ t.gtNs d = s.gtNs d
      ∧ (s.fget MPT_GRID_SEL.DOMAIN = d → t.fget MPT_TIME_OK.CAL_OK = 0 ∧ t.fget MPT_TIME_OK.REASON = 2) ∧ t.dram = s.dram)
  ∧ (∀ s host d value, Open s host .mpt → d < 2 →
    ((sval 32 value).natAbs ≤ 2147483 → ∃ t, exec (.gtTrimWrite host d value) s = .next t
      ∧ t.fget (if d = 0 then GT0_TRIM.TRIM else GT1_TRIM.TRIM) = value % 2 ^ 32 ∧ OnlyRegs [(if d = 0 then GT0_TRIM.TRIM else GT1_TRIM.TRIM).id] s t)
    ∧ (2147483 < (sval 32 value).natAbs → ∃ t, exec (.gtTrimWrite host d value) s = .next t ∧ t.fget MPT_ERR.TRIM_RANGE = 1
      ∧ t.fget GT0_TRIM.TRIM = s.fget GT0_TRIM.TRIM ∧ t.fget GT1_TRIM.TRIM = s.fget GT1_TRIM.TRIM ∧ t.time = s.time))
  ∧ (∀ s host value, Open s host .mpt → value % 2 ≠ s.fget MPT_GRID_SEL.DOMAIN → s.centre = false →
    (s.fget (gtSt (value % 2)) = 1 → ((s.gtNs 0 : Int) - (s.gtNs 1 : Int)).natAbs ≤ s.fget MPT_GRID_SEL.TOL_US * 1000 →
      ∃ t, exec (.gridSelWrite host value) s = .next t ∧ t.fget MPT_GRID_SEL.DOMAIN = value % 2 ∧ t.fget MPT_GRID_SEL.TOL_US = nbits value 31 16
        ∧ t.fget MPT_TIME_OK.CAL_OK = 1 ∧ t.time = s.time)
    ∧ (s.fget (gtSt (value % 2)) ≠ 1 ∨ s.fget MPT_GRID_SEL.TOL_US * 1000 < ((s.gtNs 0 : Int) - (s.gtNs 1 : Int)).natAbs →
      ∃ t, exec (.gridSelWrite host value) s = .next t ∧ t.fget MPT_ERR.DOMAIN_SW = 1 ∧ t.fget MPT_GRID_SEL.DOMAIN = s.fget MPT_GRID_SEL.DOMAIN
        ∧ t.fget MPT_GRID_SEL.TOL_US = s.fget MPT_GRID_SEL.TOL_US ∧ t.time = s.time))
  ∧ (∀ s host value, Open s host .mpt → value % 2 = s.fget MPT_GRID_SEL.DOMAIN →
    ∃ t, exec (.gridSelWrite host value) s = .next t ∧ t.fget MPT_GRID_SEL.TOL_US = nbits value 31 16 ∧ OnlyRegs [MPT_GRID_SEL.TOL_US.id] s t)

/-- ENABLE 1 written to a unit that is OFF, with no check of R67 failing for the base, trigger and period written and the target held, stores them, makes the unit ON with GEN one
higher and arms it at the target over the full width of the base, late where a usable base is already past it; with the target beyond the horizon the unit stays OFF and HORIZON is set. A write that would change the configuration of a unit that
is not OFF is discarded whole with CMP_BUSY. A unit that is ON, whose base is usable and has reached the target, no lower unit being due, with no trigger or a task as its trigger, counts a firing and shows LATE as armed: one-shot, it is OFF and
disarmed; periodic, its target moves one period on, or, past that already, by as many more as lie behind, counted in MISSED, and it stays ON. A unit whose base is not usable or
has not reached the target is left alone. Of two units due, the lower fires first, in the same command. -/
def Obligations.CompareUnits : Prop :=
  (∀ s host value u b g, OpenW s host .mpt 0 u → nbit value 0 = true → s.fget MPT_CMP_STAT.STATE u = 0 → b = MPT_CMP_CTRL.BASE.of value → g = MPT_CMP_CTRL.TRIG.of value →
    (beyond b (s.cmpDiff b (s.cmpTarget u b)) = false → (MPT_CMP_CTRL.PERIODIC.of value ≠ 0 → minPer b ≤ s.cmpPer u) → nbit (trigBases g) b = true →
        (g = 1 → s.cmpTarget u b % 256 = 0) →
      ∃ t, exec (.compareArm host value) s = .next t ∧ t.fget MPT_CMP_STAT.STATE u = 2 ∧ t.fget MPT_CMP_STAT.GEN u = (s.fget MPT_CMP_STAT.GEN u + 1) % 256
        ∧ t.fget MPT_CMP_CTRL.BASE u = b ∧ t.fget MPT_CMP_CTRL.TRIG u = g ∧ t.fget MPT_CMP_CTRL.ARG u = MPT_CMP_CTRL.ARG.of value
        ∧ t.cmp u = { next := s.cmpTarget u b, late := decide (s.cmpDiff b (s.cmpTarget u b) ≤ 0) && s.baseUsable b }
        ∧ (∀ k, k ≠ u → t.cmp k = s.cmp k) ∧ t.dram = s.dram)
    ∧ (beyond b (s.cmpDiff b (s.cmpTarget u b)) = true →
      ∃ t, exec (.compareArm host value) s = .next t ∧ t.fget MPT_CMP_STAT.STATE u = 0 ∧ t.fget MPT_ERR.HORIZON = 1 ∧ t.time = s.time))
  ∧ (∀ s host value u, OpenW s host .mpt 0 u → s.fget MPT_CMP_STAT.STATE u ≠ 0 →
      [MPT_CMP_CTRL.ARG, MPT_CMP_CTRL.TRIG, MPT_CMP_CTRL.BASE, MPT_CMP_CTRL.PERIODIC].any (fun f => s.fget f u != f.of value) = true →
    ∃ t, exec (.compareArm host value) s = .next t ∧ t.fget MPT_ERR.CMP_BUSY = 1 ∧ t.fget MPT_CMP_STAT.STATE u = s.fget MPT_CMP_STAT.STATE u
      ∧ t.fget MPT_CMP_CTRL.ENABLE u = s.fget MPT_CMP_CTRL.ENABLE u ∧ t.fget MPT_CMP_CTRL.BASE u = s.fget MPT_CMP_CTRL.BASE u ∧ t.time = s.time)
  ∧ (∀ s u air, u < 64 → (∀ k, k < u → s.cmpDue k = false) → s.fget MPT_CMP_STAT.STATE u = 2 → s.baseUsable (s.cmpBase u) = true → s.cmpReached (s.cmpBase u) (s.cmp u).next = true →
      s.fget MPT_CMP_CTRL.TRIG u = 0 ∨ s.fget MPT_CMP_CTRL.TRIG u = 2 →
    ∃ t, exec (.compareFire u air) s = .next t ∧ t.fget MPT_CMP_STAT.FIRED u = (s.fget MPT_CMP_STAT.FIRED u + 1) % 256
      ∧ t.fget MPT_CMP_STAT.LATE u = (if (s.cmp u).late then 1 else 0) ∧ t.time.mpt = s.time.mpt ∧ (∀ k, k ≠ u → t.cmp k = s.cmp k)
      ∧ (s.fbit MPT_CMP_CTRL.PERIODIC u = false → t.fget MPT_CMP_STAT.STATE u = 0 ∧ t.cmp u = {} ∧ t.fget MPT_CMP_STAT.MISSED u = s.fget MPT_CMP_STAT.MISSED u)
      ∧ (s.fbit MPT_CMP_CTRL.PERIODIC u = true → t.fget MPT_CMP_STAT.STATE u = 2
          ∧ (0 < s.cmpDiff (s.cmpBase u) ((s.cmp u).next + s.cmpPer u) → t.cmp u = { next := (s.cmp u).next + s.cmpPer u }
              ∧ t.fget MPT_CMP_STAT.MISSED u = s.fget MPT_CMP_STAT.MISSED u)
          ∧ (∀ m, s.cmpDiff (s.cmpBase u) ((s.cmp u).next + s.cmpPer u) ≤ 0 → m = (-(s.cmpDiff (s.cmpBase u) ((s.cmp u).next + s.cmpPer u))).toNat / s.cmpPer u + 1 →
              t.cmp u = { next := (s.cmp u).next + s.cmpPer u + m * s.cmpPer u }
              ∧ t.fget MPT_CMP_STAT.MISSED u = min (s.fget MPT_CMP_STAT.MISSED u + m) (MPT_CMP_STAT.MISSED.span - 1))))
  ∧ (∀ s u air, s.baseUsable (s.cmpBase u) = false ∨ s.cmpReached (s.cmpBase u) (s.cmp u).next = false → exec (.compareFire u air) s = .next s)
  ∧ (∀ s u k air, k < u → u < 64 → s.cmpDue u = true → s.cmpDue k = true → (∀ j, j < u → j ≠ k → s.cmpDue j = false) →
      (∀ j ∈ [k, u], s.fget MPT_CMP_CTRL.TRIG j = 0 ∨ s.fget MPT_CMP_CTRL.TRIG j = 2) →
    ∃ t, exec (.compareFire u air) s = .next t ∧ ∀ j ∈ [k, u], t.fget MPT_CMP_STAT.FIRED j = (s.fget MPT_CMP_STAT.FIRED j + 1) % 256)

/-- A contribution to a node that is not ON is counted as skipped and ends its reading's balance stage. One to a node that is ON, whose interval lies in its set's one open window without a boundary, adds its net
energy and its half-resolution variance to that window's bucket, and changes no register. The oldest closed window of a set leaves it when it is evaluated, and a reference node's sequence number is then the window's. A node that is OFF, with an accumulator area,
turns ON with GEN one higher; ENABLE 0 of a node that is ON makes it DRAINING and takes it out of the open window. A member entry's low byte is stored and nothing else changes. In the centre role a mark-table word is stored; elsewhere it is refused with
MARK_WR. A phase report from no ledger's node changes nothing, and a frame that is no report is counted as dropped. One of a member for a
mark in the table counts for the nearest of the six candidates within TOL, into CAND, CAND_INV and AGREE; with none within TOL it is counted in BAL_PH_AMBIG. -/
def Obligations.BalanceEngine : Prop :=
  (∀ s tag r i l, s.pip.tags = [(tag, r)] → r.bal = some i → r.ledger = some l → r.st = 2 → r.balanceDone = false → s.acked r.tenant r.commitSeq = false →
      s.fget BAL_N_STAT.STATE i.node ≠ 2 →
    ∃ t, exec (.balanceContribution tag) s = .next t ∧ t.bal = s.bal ∧ t.fget BAL_SKIP.COUNT = min (s.fget BAL_SKIP.COUNT + 1) (2 ^ 32 - 1)
      ∧ (t.tag tag).balanceDone = true ∧ (t.tag tag).bal = none ∧ (t.tag tag).stage = 11 ∧ OnlyRegs [BAL_SKIP.COUNT.id] { s with pip := t.pip } t)
  ∧ (∀ s tag r i l w c t1, s.pip.tags = [(tag, r)] → r.bal = some i → r.ledger = some l → r.st = 2 → r.balanceDone = false → s.acked r.tenant r.commitSeq = false →
      s.fget BAL_N_STAT.STATE i.node = 2 → s.ten.active.ownsBal r.tenant i.node = true → i.had = true → nbit (s.memb l) 1 = false → nbit (s.memb l) 0 = false →
      i.t1 = some t1 → i.t0 < t1 → i.tamper = 0 → s.isRef i.node l = false → w = s.fget BAL_N_CFG.WS i.node →
      s.winSet w = { cur := some c, closed := [], bounds := [] } → c.stop = none → c.start.ms ≤ i.t0 * 1000 → (c.node i.node).on = true →
    ∃ t c', exec (.balanceContribution tag) s = .next t ∧ t.winSet w = { cur := some c', closed := [], bounds := [] }
      ∧ ((c'.node i.node).acc i.bucket).demand = ((c.node i.node).acc i.bucket).demand + i.net
      ∧ ((c'.node i.node).acc i.bucket).var = ((c.node i.node).acc i.bucket).var + roundDiv ((i.net.natAbs * s.fget BAL_ACC.HALF (nbits (s.memb l) 5 3)) ^ 2) (3 * 10 ^ 8)
      ∧ (∀ n, n ≠ i.node → c'.node n = c.node n) ∧ (t.tag tag).balanceDone = true ∧ t.regs = s.regs ∧ t.dram = s.dram)
  ∧ (∀ s k w rest, (s.winSet k).closed = w :: rest →
    ∃ t, exec (.windowEvaluate k) s = .next t ∧ t.winSet k = { s.winSet k with closed := rest } ∧ (∀ j, j ≠ k → t.winSet j = s.winSet j)
      ∧ (∀ n v, w.nodes = [(n, v)] → v.on = true → s.fget BAL_N_CFG.REF_TYPE n ≠ 0 → t.fget BAL_N_SEQ.SEQ n = w.seq % 2 ^ 32) ∧ t.dram = s.dram)
  ∧ (∀ s k, (s.winSet k).closed = [] → exec (.windowEvaluate k) s = .next s)
  ∧ (∀ s host value n, OpenW s host .bal 0 n → nbit value 0 = true → s.fget BAL_N_STAT.STATE n = 0 → s.fbit BAL_CFG.AREA_VALID = true →
    ∃ t, exec (.balNodeEnable host value) s = .next t ∧ t.fget BAL_N_STAT.STATE n = 2 ∧ t.fget BAL_N_STAT.GEN n = (s.fget BAL_N_STAT.GEN n + 1) % 256
      ∧ OnlyRegs [BAL_N_CTRL.ENABLE.id, BAL_N_STAT.STATE.id, BAL_N_STAT.ENABLE_LATCHED.id, BAL_N_STAT.GEN.id] s t)
  ∧ (∀ s host value n c, OpenW s host .bal 0 n → nbit value 0 = false → s.fget BAL_N_STAT.STATE n = 2 → (s.winSet (s.fget BAL_N_CFG.WS n)).cur = some c →
    ∃ t, exec (.balNodeEnable host value) s = .next t ∧ t.fget BAL_N_STAT.STATE n = 1 ∧ (t.winSet (s.fget BAL_N_CFG.WS n)).cur = some (c.setNode n {})
      ∧ t.fget BAL_N_STAT.GEN n = s.fget BAL_N_STAT.GEN n ∧ t.dram = s.dram)
  ∧ (∀ s host value, Open s host .bal → s.fbit BAL_CFG.MEMB_VALID = true →
    ∃ t, exec (.membValWrite host value) s = .next t ∧ t.memb (s.fget BAL_MEMB_IDX.LEDGER host) = s.memb (s.fget BAL_MEMB_IDX.LEDGER host) / 256 * 256 + value % 256
      ∧ (∀ l, l ≠ s.fget BAL_MEMB_IDX.LEDGER host → t.memb l = s.memb l) ∧ t = { s with bal := { s.bal with memb := t.bal.memb } })
  ∧ (∀ s host e value, Open s host .bal → e < 4 →
    (s.centre = true → ∃ t, exec (.markTableWrite host (0x540 + 16 * e) value) s = .next t ∧ t.fget BAL_MARK_ID.ID e = value % 2 ^ 32
      ∧ (∀ k, k ≠ e → t.fget BAL_MARK_ID.ID k = s.fget BAL_MARK_ID.ID k) ∧ OnlyRegs [BAL_MARK_ID.ID.id] s t)
    ∧ (s.centre = false → ∃ t, exec (.markTableWrite host (0x540 + 16 * e) value) s = .next t ∧ t.fget BAL_ERR.MARK_WR = 1 ∧ t.bal = s.bal
      ∧ ∀ k, t.fget BAL_MARK_ID.ID k = s.fget BAL_MARK_ID.ID k))
  ∧ (∀ s node frame b, s.thosaBody true frame = some (2, b) → nodeValid (s.node node) = false → exec (.phaseReport node true frame) s = .next s)
  ∧ (∀ s node frame b l u e x cands, s.thosaBody true frame = some (2, b) → nodeValid (s.node node) = true → s.nodeLedger node = some (l, u) → nbit (lget (s.led l) L.BAL) 31 = true →
      e < 4 → s.fget BAL_MARK_ST.STATE e ≠ 0 → s.fget BAL_MARK_ID.ID e = leAt b 0 4 → x = (0x2AAB + leAt b 4 2) % 65536 →
      cands = [(1, 0, 0), (2, 0, s.fget MPT_PH_B.OFFSET), (3, 0, s.fget MPT_PH_C.OFFSET), (1, 1, 0x8000), (2, 1, s.fget MPT_PH_B.OFFSET + 0x8000), (3, 1, s.fget MPT_PH_C.OFFSET + 0x8000)] →
    ((∀ c ∈ cands, s.fget BAL_PH_CFG.TOL < phaseDist x c.2.2) → ∃ t, exec (.phaseReport node true frame) s = .next t
      ∧ t.fget BAL_PH_AMBIG.COUNT = min (s.fget BAL_PH_AMBIG.COUNT + 1) (2 ^ 32 - 1) ∧ OnlyRegs [BAL_PH_AMBIG.COUNT.id] s t)
    ∧ (∀ c, c ∈ cands → phaseDist x c.2.2 ≤ s.fget BAL_PH_CFG.TOL → (∀ d ∈ cands, d ≠ c → phaseDist x c.2.2 < phaseDist x d.2.2) →
      ∃ t, exec (.phaseReport node true frame) s = .next t
        ∧ t.memb l = s.memb l % 256 + c.1 * 2 ^ 8 + c.2.1 * 2 ^ 11
            + (if nbits (s.memb l) 10 8 = c.1 ∧ nbits (s.memb l) 11 11 = c.2.1 then min 7 (nbits (s.memb l) 14 12 + 1) else 1) * 2 ^ 12
        ∧ (∀ k, k ≠ l → t.memb k = s.memb k) ∧ t.ldg = s.ldg ∧ t.dram = s.dram))
  ∧ (∀ s node frame, ∃ t, exec (.phaseReport node false frame) s = .next t ∧ t.fget BAL_TH_DROP.COUNT = min (s.fget BAL_TH_DROP.COUNT + 1) (2 ^ 32 - 1)
      ∧ OnlyRegs [BAL_TH_DROP.COUNT.id] s t)

/-- ENABLE 1 outside the centre role turns the front end ON with GEN one higher; ENABLE 0 takes it from ON to DRAINING; in the centre role ENABLE 1 is refused with ROLE. A cycle of a phase while it is ON sets that phase's RMS voltage, RMS current and active
power from its 256 corrected samples, keeps the last 64 voltage samples, and leaves the other phases' registers; while it is not ON it changes nothing. A phase-A cycle counts in the run of a reverse-energy detector
if its condition differs from its state, else ends the run. A detector whose run has reached its qualifying cycles, the metrology ON and COHERENT, if it was not active becomes active and seen and marks every open window; if it is active it clears with
its latch kept; a detector not so far changes nothing. -/
def Obligations.FeederMetrology : Prop :=
  (∀ s host value, Open s host .bal → nbit value 0 = true →
    (s.centre = false → s.fget BAL_MET_STAT.STATE = 0 →
      ∃ t, exec (.metrologyEnable host value) s = .next t ∧ t.fget BAL_MET_STAT.STATE = 2 ∧ t.fget BAL_MET_STAT.GEN = (s.fget BAL_MET_STAT.GEN + 1) % 256 ∧ t.bal = s.bal)
    ∧ (s.centre = true → ∃ t, exec (.metrologyEnable host value) s = .next t ∧ t.fget BAL_ERR.ROLE = 1 ∧ t.fget BAL_MET_STAT.STATE = s.fget BAL_MET_STAT.STATE))
  ∧ (∀ s host value, Open s host .bal → nbit value 0 = false → s.fget BAL_MET_STAT.STATE = 2 →
    ∃ t, exec (.metrologyEnable host value) s = .next t ∧ t.fget BAL_MET_STAT.STATE = 1 ∧ t.fget BAL_MET_CTRL.ENABLE = 0 ∧ t.bal = s.bal)
  ∧ (∀ s p v i vn n period, p < 3 → s.fget BAL_MET_STAT.STATE = 2 →
    ∃ t, exec (.metrologyCycleEnd p v i vn n period) s = .next t
      ∧ t.fget BAL_VRMS.MV p = rms (s.samples p v).1 (s.fget BAL_CAL_FS.FS p * 100) % 2 ^ 32
      ∧ t.fget BAL_IRMS.MA p = rms ((s.samples p v).2.samples (4 + p) i).1 (s.fget BAL_CAL_FS.FS (4 + p)) % 2 ^ 32
      ∧ t.fget BAL_P.W p = sat32 (roundInt ((((s.samples p v).1.zip ((s.samples p v).2.samples (4 + p) i).1).foldl (fun a x => a + x.1 * x.2) (0 : Int))
          * ((s.fget BAL_CAL_FS.FS p * s.fget BAL_CAL_FS.FS (4 + p) : Nat) : Int)) (256 * 2 ^ 90 * 10 ^ 4)) % 2 ^ 32
      ∧ tget [] t.bal.tails p = (s.samples p v).1.drop 192
      ∧ (∀ q, q ≠ p → t.fget BAL_VRMS.MV q = s.fget BAL_VRMS.MV q ∧ t.fget BAL_IRMS.MA q = s.fget BAL_IRMS.MA q ∧ t.fget BAL_P.W q = s.fget BAL_P.W q
          ∧ t.get64 BAL_EAI.LO BAL_EAI.HI q = s.get64 BAL_EAI.LO BAL_EAI.HI q ∧ t.get64 BAL_EAE.LO BAL_EAE.HI q = s.get64 BAL_EAE.LO BAL_EAE.HI q)
      ∧ t.dram = s.dram ∧ t.ldg = s.ldg)
  ∧ (∀ s p v i vn n period, s.fget BAL_MET_STAT.STATE ≠ 2 → exec (.metrologyCycleEnd p v i vn n period) s = .next s)
  ∧ (∀ s d, s.detectorDue d = true → nbit (s.fget BAL_TAMP_STAT.ACTIVE) d = false →
    ∃ t, exec (.feederDetectorSet d) s = .next t ∧ nbit (t.fget BAL_TAMP_STAT.ACTIVE) d = true ∧ nbit (t.fget BAL_TAMP_LATCH.SEEN) d = true
      ∧ (∀ k, k < 5 → k ≠ d → nbit (t.fget BAL_TAMP_STAT.ACTIVE) k = nbit (s.fget BAL_TAMP_STAT.ACTIVE) k)
      ∧ (∀ w c, w < 8 → (s.winSet w).cur = some c → (t.winSet w).cur = some { c with tamper := true }) ∧ t.dram = s.dram)
  ∧ (∀ s d, s.detectorDue d = false → exec (.feederDetectorSet d) s = .next s)
  ∧ (∀ s d, s.detectorDue d = true → nbit (s.fget BAL_TAMP_STAT.ACTIVE) d = true →
    ∃ t, exec (.feederDetectorClear d) s = .next t ∧ nbit (t.fget BAL_TAMP_STAT.ACTIVE) d = false ∧ t.bal = { s.bal with runs := tput 0 s.bal.runs d 0 }
      ∧ (∀ k, k < 5 → k ≠ d → nbit (t.fget BAL_TAMP_STAT.ACTIVE) k = nbit (s.fget BAL_TAMP_STAT.ACTIVE) k) ∧ OnlyRegs [BAL_TAMP_STAT.ACTIVE.id] { s with bal := t.bal } t)
  ∧ (∀ s d, s.detectorDue d = false → exec (.feederDetectorClear d) s = .next s)
  ∧ (∀ s v i vn n period, s.fget BAL_MET_STAT.STATE = 2 → s.coherent = true →
    ∃ t, exec (.metrologyCycleEnd 0 v i vn n period) s = .next t
      ∧ ∀ d, d < 3 → tget 0 t.bal.runs d = (if (!nbit (s.fget BAL_TAMP_CFG0.EXPORT_OK) d && decide (sval 32 (t.fget BAL_P.W d) < -(s.fget BAL_TAMP_CFG0.REV_MIN : Int)))
            = nbit (s.fget BAL_TAMP_STAT.ACTIVE) d then 0 else tget 0 s.bal.runs d + 1))
  ∧ (∀ (s : State) d, s.detectorDue d = true ↔ d < 5 ∧ s.fget BAL_MET_STAT.STATE = 2 ∧ s.coherent = true ∧ 0 < tget 0 s.bal.runs d
      ∧ (if d < 3 then s.fget BAL_TAMP_CFG0.REV_CYC else if d = 3 then s.fget BAL_TAMP_CFG1.BYP_CYC else s.fget BAL_TAMP_CFG2.NEU_CYC) ≤ tget 0 s.bal.runs d)

/-- A write by a host that is not the supervisor, to a register that is no selector of a block that answers, changes no register but CHIP_ERR, where NOT_SUPV, the host and the address stand. A supervisor's write of a plain register
stores its field's bits alone and changes nothing else; one whose field has a range stores a value in it and discards one outside it, setting the block's error; one of a locked RWL field that would change it changes nothing
and sets RWL_WRITE, and without the lock it is stored. Any host's write of a block's selector stores that host's copy alone. A refused read answers 0 and sets WINDOW_PROT, or
SEL_RANGE where the selector is out of range. -/
def Obligations.RegisterAccess : Prop :=
  (∀ s host addr value b, host < 8 → host ≠ s.supv → blkAt (addr % 2 ^ 25) = some b → s.silent b = false → addr % 2 ^ 25 % 0x100000 ≠ 0x1000 →
    ∃ t, exec (.registerWrite host addr value) s = .next t ∧ t.fget CHIP_ERR.NOT_SUPV = 1 ∧ t.fget CHIP_ERR_INFO.HOST = host
      ∧ t.fget CHIP_ERR_INFO.OFFSET = addr % 2 ^ 25 % CHIP_ERR_INFO.OFFSET.span
      ∧ Quiet [CHIP_ERR.NOT_SUPV.id, CHIP_ERR_INFO.HOST.id, CHIP_ERR_INFO.OFFSET.id] s t)
  ∧ (∀ s host value, Open s host .mpt → host < 8 → ∃ t, exec (.registerWrite host 0x900024 value) s = .next t
      ∧ t.fget MPT_LOAD_HI.CYCLE_HI = value % 2 ^ 16 ∧ OnlyRegs [MPT_LOAD_HI.CYCLE_HI.id] s t)
  ∧ (∀ s host value, Open s host .mpt → host < 8 →
    (16 ≤ value % 2 ^ 11 → value % 2 ^ 11 ≤ 1024 → ∃ t, exec (.registerWrite host 0x90001C value) s = .next t
      ∧ t.fget MPT_SLEW.MAX_PU = value % 2 ^ 11 ∧ OnlyRegs [MPT_SLEW.MAX_PU.id] s t)
    ∧ (value % 2 ^ 11 < 16 ∨ 1024 < value % 2 ^ 11 → ∃ t, exec (.registerWrite host 0x90001C value) s = .next t
      ∧ t.fget MPT_SLEW.MAX_PU = s.fget MPT_SLEW.MAX_PU ∧ t.fget MPT_ERR.ALIGN = 1 ∧ t.fget MPT_ERR_INFO.OFFSET = 0x1C))
  ∧ (∀ s host value, Open s host .mpt → host < 8 →
    (s.locked = false → ∃ t, exec (.registerWrite host 0x9000A8 value) s = .next t ∧ t.fget GT0_TOL.TOL = value % 2 ^ 32 ∧ OnlyRegs [GT0_TOL.TOL.id] s t)
    ∧ (s.locked = true → s.fget GT0_TOL.TOL ≠ value % 2 ^ 32 → ∃ t, exec (.registerWrite host 0x9000A8 value) s = .next t
      ∧ t.fget GT0_TOL.TOL = s.fget GT0_TOL.TOL ∧ t.fget CHIP_ERR.RWL_WRITE = 1 ∧ t.fget CHIP_ERR_INFO.HOST = host
      ∧ t.fget CHIP_ERR_INFO.OFFSET = 0x9000A8 % CHIP_ERR_INFO.OFFSET.span))
  ∧ (∀ s host addr value b, host < 8 → blkAt addr = some b → s.silent b = false → addr % 0x100000 = 0x1000 → b.selMask ≠ 0 →
    ∃ t, exec (.selectorWrite host addr value) s = .next t ∧ t.sel b host = Nat.land value b.selMask ∧ t = { s with sels := t.sels }
      ∧ ∀ b' h', h' < 32 → (b' ≠ b ∨ h' ≠ host) → t.sel b' h' = s.sel b' h')
  ∧ (∀ s host addr b, blkAt addr = some b → s.silent b = false → host ≠ s.supv → s.mayRead host b (addr % 0x100000) = false → s.selBad host b (addr % 0x100000) = false →
    ∃ t, exec (.windowReadRefused host addr) s = .next t ∧ t.fget CHIP_ERR.WINDOW_PROT = 1 ∧ t.out.getLast? = some (.reply host [0])
      ∧ Quiet [CHIP_ERR.WINDOW_PROT.id, CHIP_ERR_INFO.HOST.id, CHIP_ERR_INFO.OFFSET.id] s t)
  ∧ (∀ s host addr b, blkAt addr = some b → s.silent b = false → s.selBad host b (addr % 0x100000) = true →
    ∃ t, exec (.windowReadRefused host addr) s = .next t ∧ t.fget CHIP_ERR.SEL_RANGE = 1 ∧ t.out.getLast? = some (.reply host [0])
      ∧ Quiet [CHIP_ERR.SEL_RANGE.id, CHIP_ERR_INFO.HOST.id, CHIP_ERR_INFO.OFFSET.id] s t)

/-- Outside VAULT. A serial WRITE of one word inside the ring area stores it, high byte first on the wire, in the order of DRAM (the model's choice, log entry 48), and where no completion or record of the device stands there no other byte of DRAM changes; a WRITE or READ that is misaligned or leaves the ring area is refused and does nothing else. A READ of one word of the
ring area answers it, the bytes of a completion or record that the device put there included; STATUS answers UP, the pending vector and the refusal before it, and IDENT the identity word, changing nothing else. A reset of a PCIe endpoint takes its attachment DOWN. A pad write stores pull and function, PULL 3 being refused with RANGE and ALT of a ball without one with FUNC. A whole second
of a valid domain with its ball so configured raises PPS, and its width's end lowers it. A burst that cannot be corrected in a ledger's line quarantines the ledger; any other is the detected fault DRAM; a good burst
changes nothing. -/
def Obligations.SerialPortAndPads : Prop :=
  (∀ s addr data, s.mode ≠ 0 → addr < 2 ^ 32 → addr / 2 ^ 30 = 2 → addr % 4 = 0 → data.length = 4 → addr % 2 ^ 26 + 4 ≤ s.fget RNG_SHP_SIZE.PAGES * 4096 →
    (∃ t, exec (.write addr data) s = .next t ∧ t.mread (s.shpBase + addr % 2 ^ 26) 4 = data.reverse
      ∧ ((∀ k, k < 4 → s.shpOwn (addr % 2 ^ 26 + k) = none) → t.rng.rings = s.rng.rings
        ∧ ∀ a, (a < s.shpBase + addr % 2 ^ 26 ∨ s.shpBase + addr % 2 ^ 26 + 4 ≤ a) → t.mget a = s.mget a))
    ∧ (∃ t, exec (.read addr 1) s = .next t ∧ .reply 2 [ofLe (s.shpBytes (addr % 2 ^ 26) 4)] ∈ t.out ∧ t.dram = s.dram))
  ∧ (∀ s addr data words, s.mode ≠ 0 → addr < 2 ^ 32 →
    (addr % 4 ≠ 0 ∨ data.length % 4 ≠ 0 ∨ (addr / 2 ^ 30 = 2 ∧ s.fget RNG_SHP_SIZE.PAGES * 4096 < addr % 2 ^ 26 + data.length) →
      exec (.write addr data) s = .next (s.setHost 2 { s.host 2 with refused := true }))
    ∧ (addr % 4 ≠ 0 ∨ (addr / 2 ^ 30 = 2 ∧ s.fget RNG_SHP_SIZE.PAGES * 4096 < addr % 2 ^ 26 + 4 * words) →
      exec (.read addr words) s = .next (s.setHost 2 { s.host 2 with refused := true })))
  ∧ (∀ s, s.mode ≠ 0 →
    (∃ t, exec .status s = .next t ∧ .reply 2 [s.fget RNG_H_STAT.UP 2 + 2 * b2n s.shpPending + 4 * b2n (s.host 2).refused] ∈ t.out ∧ t.dram = s.dram)
    ∧ (∃ t, exec .ident s = .next t ∧ t = { s with out := s.out ++ [.reply 2 [s.storedWord .chip 0 0 2 0]] }))
  ∧ (∀ s h, h < 2 → s.hasHost h = true → s.fbit RNG_H_STAT.UP h = false → ∃ t, exec (.pciePerst h) s = .next t ∧ (t.host h).cond = false ∧ t.regs = s.regs)
  ∧ (∀ s h, h < 2 → s.hasHost h = true → s.fbit RNG_H_STAT.UP h = true → (tget [] s.regs RNG_R_STAT.STATE.id).all (fun e => s.ringHost e.1 != h) = true →
    ∃ t, exec (.pciePerst h) s = .next t ∧ (t.host h).cond = false ∧ t.fget RNG_H_STAT.UP h = 0)
  ∧ (∀ s host value g, OpenW s host .pad 0 g →
    (nbits value 5 4 ≠ 3 → (nbit value 0 = true → g < 6) → ∃ t, exec (.padFuncWrite host value) s = .next t ∧ t.fget PAD_G_CFG.PULL g = nbits value 5 4
      ∧ t.fget PAD_G_CFG.FUNC g = value % 2 ∧ OnlyRegs [PAD_G_CFG.PULL.id, PAD_G_CFG.FUNC.id] s t)
    ∧ (nbits value 5 4 = 3 → ∃ t, exec (.padFuncWrite host value) s = .next t ∧ t.fget PAD_ERR.RANGE = 1 ∧ t.fget PAD_G_CFG.PULL g = s.fget PAD_G_CFG.PULL g
      ∧ t.fget PAD_G_CFG.FUNC g = s.fget PAD_G_CFG.FUNC g)
    ∧ (nbits value 5 4 ≠ 3 → nbit value 0 = true → 6 ≤ g → ∃ t, exec (.padFuncWrite host value) s = .next t ∧ t.fget PAD_ERR.FUNC = 1
      ∧ t.fget PAD_G_CFG.PULL g = s.fget PAD_G_CFG.PULL g ∧ t.fget PAD_G_CFG.FUNC g = s.fget PAD_G_CFG.FUNC g))
  ∧ (∀ s d, d < 2 → s.fbit PAD_G_CFG.FUNC (4 + d) = true → s.fget (gtSt d) = 1 ∨ s.fget (gtSt d) = 2 →
    ∃ t, exec (.ppsPulse d) s = .next t ∧ nbit t.time.pps d = true ∧ t = { s with time := { s.time with pps := t.time.pps }, out := s.out ++ [.pin 3 d 1] })
  ∧ (∀ s d, nbit s.time.pps d = true →
    ∃ t, exec (.ppsWidthEnd d) s = .next t ∧ nbit t.time.pps d = false ∧ t = { s with time := { s.time with pps := t.time.pps }, out := s.out ++ [.pin 3 d 0] })
  ∧ (∀ s, exec (.patrolScrub none) s = .next s)
  ∧ (∀ s a l k, s.fbit LDG_CFG.AREA_VALID = true → l < s.fget LDG_COUNT.COUNT →
      a / 1024 = (s.fget LDG_BASE_LO.BASE_LO * 2 ^ 20 + s.fget LDG_BASE_HI.BASE_HI * 2 ^ 32) / 1024 + l → s.quarEntry l = none →
      (List.range 1024).find? (fun k => (tget none s.ldg.quar k).isNone) = some k →
    ∃ t, exec (.patrolScrub (some a)) s = .next t ∧ tget none t.ldg.quar k = some (l, 1) ∧ t.ldg.ledgers = s.ldg.ledgers)
  ∧ (∀ s a, s.fbit LDG_CFG.AREA_VALID = false → s.mode = 9 → ∃ t, exec (.patrolScrub (some a)) s = .next t ∧ nbit (t.fget PWR_FAULT.CAUSE) 3 = true ∧ t.pow.updFault = true ∧ t.dram = s.dram)

/-- No frame is on the air on any lane or radio. -/
def AirFree (s : State) : Prop :=
  (∀ n, n < 4 → (s.lane n).air = none ∧ (s.lane n).mark1 = none ∧ (s.lane n).ack.any (·.second) = false) ∧ ∀ n, n < 2 → (s.radio n).air = none

/-- A STANDBY unit that may take over, its partner not claiming and not seen claiming: condition 2 of R478 holds and nothing bars a claim. -/
def MayTake (s : State) : Prop :=
  s.pairState = 2 ∧ s.pair.partnerSynced = true ∧ s.pair.faulty = false ∧ s.claimBarred = false ∧ AirFree s

/-- With no frame on the air. An edge on CLAIM_IN asserts it; unit 1 in CLAIMING goes back to LISTEN, its CLAIM_OUT off; an ACTIVE unit of a pair loses GRANT, and unit 0 stays ACTIVE. Its end lets GRANT return to an ACTIVE unit, and a synced STANDBY unit whose partner was heard not claiming takes over: CLAIMING, CLAIM_OUT on, one takeover more. A
missing refresh stops CLAIM_OUT and nothing else. LISTEN that ends with no partner claiming gives CLAIMING; a settled CLAIMING unit in STANDBY mode is ACTIVE with GRANT, in its role mode. A NOTICE, or missing heartbeats, lets a synced STANDBY unit take over. A partner shown ACTIVE without its claim gives CONFLICT and its error, and agreement gives LISTEN. RELEASE to a synced standby gives LISTEN and,
from a role mode or DEGRADED, STANDBY mode; otherwise it is refused. TAKE lets an unsynced STANDBY unit take over, its partner's tenants to be rebuilt. -/
def Obligations.PairClaim : Prop :=
  (∀ s, s.fbit RES_PAIR_STAT.CLAIM_IN = false → s.pair.en = true → AirFree s →
    ∃ t, exec .claimInEdge s = .next t ∧ t.fget RES_PAIR_STAT.CLAIM_IN = 1
      ∧ (s.pairState = 3 → s.fget RES_PAIR_CFG.UNIT = 1 → t.pairState = 1 ∧ t.fget RES_PAIR_STAT.CLAIM_OUT = 0 ∧ t.fbit RES_PAIR_STAT.GRANT = false)
      ∧ (s.pairState = 4 → s.fget RES_PAIR_CFG.UNIT = 0 → t.pairState = 4 ∧ t.fbit RES_PAIR_STAT.GRANT = false))
  ∧ (∀ s, s.fbit RES_PAIR_STAT.CLAIM_IN = true → exec .claimInEdge s = .next s)
  ∧ (∀ s, s.pair.en = true → s.pow.entered = true → s.mode ≠ 10 → s.pairState = 4 →
    ∃ t, exec .claimInRelease s = .next t ∧ t.fget RES_PAIR_STAT.CLAIM_IN = 0 ∧ t.pairState = 4 ∧ t.fbit RES_PAIR_STAT.GRANT = true ∧ t.dram = s.dram)
  ∧ (∀ s, MayTake s → s.pair.heard = true → s.partnerClaims = false →
    ∃ t, exec .claimInRelease s = .next t ∧ t.pairState = 3 ∧ t.fget RES_PAIR_STAT.CLAIM_OUT = 1
      ∧ t.fget RES_PAIR_STAT.TAKEOVERS = (s.fget RES_PAIR_STAT.TAKEOVERS + 1) % 256 ∧ t.dram = s.dram)
  ∧ (∀ s, s.fbit RES_PAIR_STAT.CLAIM_OUT = true → ∃ t, exec .claimRefreshMissing s = .next t ∧ t.fget RES_PAIR_STAT.CLAIM_OUT = 0
      ∧ OnlyRegs [RES_PAIR_STAT.CLAIM_OUT.id] { s with out := s.out ++ [.pin 7 0 0] } t)
  ∧ (∀ s, s.pairState = 1 → s.fbit RES_PAIR_STAT.CLAIM_IN = false → s.partnerClaims = false → s.claimBarred = false → AirFree s →
    ∃ t, exec .listenTimeout s = .next t ∧ t.pairState = 3 ∧ t.fget RES_PAIR_STAT.CLAIM_OUT = 1 ∧ t.dram = s.dram)
  ∧ (∀ s, s.pairState = 3 → s.fbit RES_PAIR_STAT.CLAIM_IN = false → s.claimBarred = false → s.pair.en = true → s.pow.entered = true → s.mode = 4 →
    ∃ t, exec .claimSettle s = .next t ∧ t.pairState = 4 ∧ t.fbit RES_PAIR_STAT.GRANT = true ∧ t.mode = s.roleMode ∧ t.dram = s.dram)
  ∧ (∀ s, MayTake s → s.fbit RES_PAIR_STAT.CLAIM_IN = false →
    (∃ t, exec .notice s = .next t ∧ t.pairState = 3 ∧ t.fget RES_PAIR_STAT.CLAIM_OUT = 1 ∧ t.fget RES_PAIR_STAT.TAKEOVERS = (s.fget RES_PAIR_STAT.TAKEOVERS + 1) % 256)
    ∧ (s.pair.en = true → ∃ t, exec .heartbeatMiss s = .next t ∧ t.pairState = 3 ∧ t.fget RES_PAIR_STAT.CLAIM_OUT = 1
      ∧ t.fget RES_PAIR_STAT.TAKEOVERS = (s.fget RES_PAIR_STAT.TAKEOVERS + 1) % 256))
  ∧ (∀ s, s.pairState ≠ 2 → exec .notice s = .next s ∧ (s.pair.en = true → exec .heartbeatMiss s = .next { s with pair := { s.pair with hbMissing := true } }))
  ∧ (∀ s, s.pairState = 1 ∨ s.pairState = 2 → s.partnerActive = true → s.pair.hbMissing = false → s.fbit RES_PAIR_STAT.CLAIM_IN = false → AirFree s →
    ∃ t, exec .conflictDetect s = .next t ∧ t.pairState = 6 ∧ t.fget RES_ERR.CONFLICT = 1 ∧ t.dram = s.dram)
  ∧ (∀ s, s.pairState = 6 → s.fbit RES_PAIR_STAT.CLAIM_IN = s.partnerClaims → AirFree s → ∃ t, exec .conflictResolve s = .next t ∧ t.pairState = 1 ∧ t.dram = s.dram)
  ∧ (∀ s host value, Open s host .res → nbit value 0 = true → AirFree s →
    (nbits value 31 16 = 0x434C → s.pairState = 4 → s.pair.heard = true → s.fget RES_PAIR_STAT.PARTNER_STATE = 2 → s.pair.partnerSynced = true →
      ∃ t, exec (.claimRelease host value) s = .next t ∧ t.pairState = 1 ∧ t.fget RES_PAIR_STAT.CLAIM_OUT = 0 ∧ (s.mode = 5 ∨ s.mode = 6 ∨ s.mode = 7 ∨ s.mode = 8 → t.mode = 4))
    ∧ (nbits value 31 16 ≠ 0x434C ∨ s.pairState ≠ 4 → ∃ t, exec (.claimRelease host value) s = .next t ∧ t.fget RES_ERR.CMD = 1 ∧ t.pairState = s.pairState ∧ t.pair = s.pair))
  ∧ (∀ s host value, Open s host .res → nbit value 1 = true → nbits value 31 16 = 0x434C → AirFree s → s.pairState = 2 → s.pair.partnerSynced = false → s.takeCond = true →
      s.claimBarred = false → s.pair.faulty = false →
    ∃ t, exec (.claimTake host value) s = .next t ∧ t.pairState = 3 ∧ t.fget RES_PAIR_STAT.TAKEOVERS = (s.fget RES_PAIR_STAT.TAKEOVERS + 1) % 256
      ∧ (∀ k, k ∈ s.partnerTenants → t.fget LDG_T_STAT.REBUILD k = 1) ∧ t.dram = s.dram)

/-- Over an open session with fewer than 64 frames unacknowledged a heartbeat is sent as the next DATA frame, kept until acknowledged; an unpaired unit sends nothing. A heartbeat that shows the partner ACTIVE takes a LISTEN unit with CLAIM_IN asserted to STANDBY; any heartbeat
of a paired unit is noted: heard, with the partner's state and mode. A standby appends a sound journal record not yet its own, its next number one above the record's, and takes a copied ledger that is newer than its own; a unit that is no standby ignores both. The copy
stream's end, with every record since its start still held, takes the tenant to CATCHUP; a tenant that is not copying is left alone. RESYNC_PTNR of a tenant with PARTNER enabled, on a unit that is not ACTIVE, sets its state to NONE and clears its loss. -/
def Obligations.PairLink : Prop :=
  (∀ s, s.pair.en = true → s.pairState ≠ 0 → s.pairOpen = true → (s.host 8).mrt.unacked.length < 64 →
    ∃ t, exec .heartbeatSend s = .next t ∧ (t.host 8).mrt.unacked = (s.host 8).mrt.unacked ++ [⟨(s.host 8).mrt.txSeq, mrtItem 8 0 0 s.heartbeatBody⟩]
      ∧ (t.host 8).mrt.txSeq = ((s.host 8).mrt.txSeq + 1) % 2 ^ 32 ∧ (t.host 8).mrt.txc = (s.host 8).mrt.txc + 1 ∧ t.pair = s.pair ∧ t.ldg = s.ldg)
  ∧ (∀ s, s.pair.en = false → exec .heartbeatSend s = .next s ∧ ∀ b, exec (.heartbeat b) s = .next s)
  ∧ (∀ s b, s.pair.en = true → s.pairState = 1 → s.fbit RES_PAIR_STAT.CLAIM_IN = true → leAt b 0 1 = 4 → AirFree s →
    ∃ t, exec (.heartbeat b) s = .next t ∧ t.pairState = 2 ∧ t.fget RES_PAIR_STAT.PARTNER_STATE = 4 ∧ t.fget RES_PAIR_STAT.PARTNER_MODE = leAt b 1 1 % 16 ∧ t.pair.heard = true)
  ∧ (∀ s b, s.pair.en = true → s.pairState = 3 ∨ s.pairState = 5 ∨ s.pairState = 6 →
    ∃ t, exec (.heartbeat b) s = .next t ∧ t.pairState = s.pairState ∧ t.fget RES_PAIR_STAT.PARTNER_STATE = leAt b 0 1 % 8 ∧ t.fget RES_PAIR_STAT.PARTNER_MODE = leAt b 1 1 % 16
      ∧ t.pair.heard = true ∧ t.pair.hbMissing = false ∧ t.dram = s.dram ∧ t.ldg = s.ldg)
  ∧ (∀ s s1 data k, s.pairState = 2 → (recOf data).crcOk = true → k = leAt data 0x0C 2 % 1024 → s.nextSeq k ≤ (recOf data).seq → s.jRoom k (recOf data).bytes.length = some s1 →
    ∃ t, exec (.journal data) s = .next t ∧ t.nextSeq k = ((recOf data).seq + 1) % 2 ^ 64 ∧ recOf data ∈ (t.tenJ k).buf)
  ∧ (∀ s data, s.pairState ≠ 2 → exec (.journal data) s = .next s ∧ exec (.resync data) s = .next s)
  ∧ (∀ s d l, s.pairState = 2 → leAt d 0 1 = 0 → l = (List.range 128).foldl (fun l k => tput 0 l k (leAt (d.drop 8) (8 * k) 8)) [] →
    (lget (s.led (leAt d 4 4)) L.LAST_SEQ < lget l L.LAST_SEQ → ∃ t, exec (.resync d) s = .next t ∧ t.led (leAt d 4 4) = l
      ∧ (∀ j, j ≠ leAt d 4 4 → t.led j = s.led j) ∧ t.dram = s.dram)
    ∧ (lget l L.LAST_SEQ ≤ lget (s.led (leAt d 4 4)) L.LAST_SEQ → exec (.resync d) s = .next s))
  ∧ (∀ s k, (s.tenJ k).sync = 1 → s.pairOpen = true →
      s.nextSeq k ≤ (((s.tenJ k).nand.filter (fun r => !((s.tenJ k).buf.any (fun x => x.seq == r.seq))) ++ (s.tenJ k).buf).filter (fun r => decide (r.seq ≥ (s.tenJ k).syncS0))).length
        + (s.tenJ k).syncS0 →
    ∃ t, exec (.resyncStreamEnd k) s = .next t ∧ (t.tenJ k).sync = 2 ∧ t.ldg.ledgers = s.ldg.ledgers ∧ t.dram = s.dram)
  ∧ (∀ s k, (s.tenJ k).sync ≠ 1 → exec (.resyncStreamEnd k) s = .next s)
  ∧ (∀ s host n, OpenW s host .ldg 0 n → nbit (s.fget LDG_T_SINK.EN n) 1 = true → s.pairState ≠ 4 →
    ∃ t, exec (.resyncPtnr host) s = .next t ∧ (t.tenJ n).sync = 0 ∧ nbit (t.fget LDG_T_SINK_STAT.LOST n) 1 = false ∧ t.ldg.ledgers = s.ldg.ledgers ∧ t.dram = s.dram)

/-- A work item of an engine and operation that its check allowed, not yet served, the engine's keys usable. -/
def Ready (s : State) (n engine op : Nat) (it : Item) : Prop :=
  s.item n = some it ∧ it.engine = engine ∧ it.op = op ∧ it.done = none ∧ it.inService = false ∧ it.verdict = 0
    ∧ (engine ≠ 3 → engine < 5 → s.keysBlocked = false)

/-- A work item of an engine and operation that the check at issue refused with a status, not yet served. -/
def Turned (s : State) (n engine op v : Nat) (it : Item) : Prop :=
  s.item n = some it ∧ it.engine = engine ∧ it.op = op ∧ it.done = none ∧ it.inService = false ∧ it.verdict = v ∧ v ≠ 0

/-- The item's outcome is fixed with a status and a result word, and its key pins are released. -/
def DoneAs (t : State) (n : Nat) (it : Item) (status result : Nat) : Prop :=
  t.item n = some { it with done := some (status, result), pin := none, pin2 := none }

/-- A counter has gone up by one, saturating. -/
def Counted (f : Fld) (i : Nat) (s t : State) : Prop := t.fget f i = min (s.fget f i + 1) (f.span - 1)

/-- For lanes that no group combines. ENABLE 1 turns an OFF lane ON, outside the centre role, with an idle receiver; ENABLE 0 takes an ON lane with nothing to send to DRAINING and empties its ingest queue; in the centre role ENABLE 1 is refused. The group is stored while every
lane is OFF, and refused while a lane of the old or the new group is not. A preamble that joins its group's is attributed to the strongest lane, with the combined strength. A preamble takes an idle receiver to SYNC; a later one stronger by the margin captures it, counted as a loss, a weaker one is ignored and counted. SYNCM found goes on, not found goes idle; a good control header goes on with its bits, a bad one is counted and goes idle. The last symbol
of a good frame leaves it decoded and the receiver idle, of a bad one counts it; the first burst of a DUAL pair is held; a held burst that waited too long is decoded alone. A mute ends when no transmission mutes the lane. An acknowledgement from the first hop completes the frame that waits; a secured
frame whose tag fails is counted only; an unsecured frame of an unknown source, not for this unit, goes to the lane's slow path, in its slot of DRAM and nowhere else; if it is a Thosa frame it is counted as dropped. A secured reading of a known node for this unit joins the lane's ingest queue, with its node, LQI and ledger. On a free lane the oldest tone map response asked for is sent; the answer to a beacon request joins the lane's queue. A tone map too old drops the link to ROBO. CLR clears the counters, CLR_TRIM the trim. -/
def Obligations.LaneReception : Prop :=
  (∀ s host value n, OpenW s host .plc 0 n →
    (nbit value 0 = true → s.centre = false → s.fget PLC_L_STAT.STATE n = 0 → s.fget PLC_COMB.MASK = 0 → (∀ k, k < 4 → s.fbit PLC_L_STAT.TX_ON k = false) →
      ∃ t, exec (.laneEnable host value) s = .next t
      ∧ t.fget PLC_L_STAT.STATE n = 2 ∧ t.fget PLC_L_STAT.GEN n = (s.fget PLC_L_STAT.GEN n + 1) % 256 ∧ t.fget PLC_L_STAT.RXSTATE n = 0 ∧ (t.lane n).queue = (s.lane n).queue)
    ∧ (nbit value 0 = true → s.centre = true → ∃ t, exec (.laneEnable host value) s = .next t ∧ t.fget PLC_ERR.ROLE = 1 ∧ t.fget PLC_L_STAT.STATE n = s.fget PLC_L_STAT.STATE n)
    ∧ (nbit value 0 = false → s.fget PLC_L_STAT.STATE n = 2 → (s.lane n).queue = [] → (s.lane n).ack = none → (s.lane n).mark1 = none → ∃ t, exec (.laneEnable host value) s = .next t
      ∧ t.fget PLC_L_STAT.STATE n = 1 ∧ tget [] t.pip.ingest n = [] ∧ (t.lane n).decoded = [] ∧ (t.lane n).air = (s.lane n).air))
  ∧ (∀ s host value, Open s host .plc → (∀ n, n < 4 → s.fget PLC_L_STAT.STATE n = 0) → nbits value 23 16 ≤ 100 →
    ∃ t, exec (.combiningGroupWrite host value) s = .next t ∧ t.fget PLC_COMB.MASK = nbits value 3 0 ∧ t.fget PLC_COMB.WIN = nbits value 23 16
      ∧ OnlyRegs [PLC_COMB.MASK.id, PLC_COMB.WIN.id] s t)
  ∧ (∀ s host value n, Open s host .plc → n < 4 → nbit (Nat.lor (s.fget PLC_COMB.MASK) (nbits value 3 0)) n = true → s.fget PLC_L_STAT.STATE n ≠ 0 →
    ∃ t, exec (.combiningGroupWrite host value) s = .next t ∧ t.fget PLC_ERR.BUSY = 1 ∧ t.fget PLC_ERR.COMB = 1 ∧ t.fget PLC_COMB.MASK = s.fget PLC_COMB.MASK
      ∧ t.fget PLC_COMB.WIN = s.fget PLC_COMB.WIN ∧ t.plc = s.plc)
  ∧ (∀ s n snr m j, s.fget PLC_COMB.MASK = 0 → n < 4 → s.laneOn n = true →
    (s.fget PLC_L_STAT.RXSTATE n = 0 → (s.lane n).now = none → ∃ t, exec (.preambleDetect n ⟨snr, m⟩ j) s = .next t ∧ t.fget PLC_L_STAT.RXSTATE n = 1
      ∧ (t.lane n).now = some { lane := n, best := snr, snr := snr } ∧ OnlyRegs [PLC_L_STAT.RXSTATE.id] { s with plc := t.plc } t)
    ∧ (∀ c, s.fget PLC_L_STAT.RXSTATE n ≠ 4 → (s.lane n).now = some c → c.snr + s.fget PLC_L_CAP.MARGIN n ≤ snr → ∃ t, exec (.preambleDetect n ⟨snr, m⟩ j) s = .next t
      ∧ t.fget PLC_L_STAT.RXSTATE n = 1 ∧ (t.lane n).now = some { lane := n, best := snr, snr := snr } ∧ Counted PLC_L_CAPLOST.COUNT c.lane s t)
    ∧ (∀ c, s.fget PLC_L_STAT.RXSTATE n ≠ 4 → (s.lane n).now = some c → snr < c.snr + s.fget PLC_L_CAP.MARGIN n → ∃ t, exec (.preambleDetect n ⟨snr, m⟩ j) s = .next t
      ∧ Counted PLC_L_CAPIGN.COUNT n s t ∧ OnlyRegs [PLC_L_CAPIGN.COUNT.id] s t))
  ∧ (∀ s n c snr m, n < 4 → s.laneOn n = true → 1 < (s.combined n).length → s.rxState n = 1 → (s.lane (s.lead n)).now = some c →
    ∃ t, exec (.preambleDetect n ⟨snr, m⟩ true) s = .next t
      ∧ (t.lane (s.lead n)).now = some (if c.best < snr then { c with lane := n, best := snr, snr := m } else { c with snr := m }) ∧ t = { s with plc := t.plc })
  ∧ (∀ s n, s.fget PLC_COMB.MASK = 0 → n < 4 → s.fget PLC_L_STAT.RXSTATE n = 1 →
    (∃ t, exec (.syncmFound n true) s = .next t ∧ t.fget PLC_L_STAT.RXSTATE n = 2 ∧ OnlyRegs [PLC_L_STAT.RXSTATE.id] s t)
    ∧ (∃ t, exec (.syncmFound n false) s = .next t ∧ t.fget PLC_L_STAT.RXSTATE n = 0 ∧ (t.lane n).now = none))
  ∧ (∀ s n c b fch, s.fget PLC_COMB.MASK = 0 → n < 4 → s.fget PLC_L_STAT.RXSTATE n = 2 → (s.lane n).now = some c →
    (∃ t, exec (.fchDecode n true b fch) s = .next t ∧ t.fget PLC_L_STAT.RXSTATE n = 3 ∧ (t.lane n).now = some { c with fch := fch, burst2 := b })
    ∧ (∃ t, exec (.fchDecode n false b fch) s = .next t ∧ t.fget PLC_L_STAT.RXSTATE n = 0 ∧ (t.lane n).now = none ∧ Counted PLC_L_CRCERR.COUNT c.lane s t))
  ∧ (∀ s n c fo, s.fget PLC_COMB.MASK = 0 → n < 4 → s.fget PLC_L_STAT.RXSTATE n = 3 → (s.lane n).now = some c → c.lane = n →
    (∃ t, exec (.payloadEnd n false false true fo) s = .next t ∧ t.fget PLC_L_STAT.RXSTATE n = 0 ∧ (t.lane n).now = none ∧ (t.lane n).decoded = (s.lane n).decoded ++ [⟨n, false⟩])
    ∧ (∃ t, exec (.payloadEnd n false false false fo) s = .next t ∧ t.fget PLC_L_STAT.RXSTATE n = 0 ∧ (t.lane n).decoded = (s.lane n).decoded ∧ Counted PLC_L_CRCERR.COUNT n s t)
    ∧ (∀ f, c.burst2 = false → (s.lane n).pairs = [] → ∃ t, exec (.payloadEnd n true false f fo) s = .next t ∧ (t.lane n).pairs = [c] ∧ (t.lane n).decoded = (s.lane n).decoded))
  ∧ (∀ s n p rest, s.fget PLC_COMB.MASK = 0 → n < 4 → (s.lane n).pairs = p :: rest → p.lane = n →
    ∃ t, exec (.pairWaitExpiry n true) s = .next t ∧ (t.lane n).pairs = rest ∧ (t.lane n).decoded = (s.lane n).decoded ++ [⟨n, true⟩] ∧ Counted PLC_L_SINGLE.COUNT n s t)
  ∧ (∀ s n, n < 4 → s.fget PLC_L_STAT.RXSTATE n = 4 →
    ((∀ k, k < 4 → s.fbit PLC_L_STAT.TX_ON k = false) → ∃ t, exec (.muteEnd n) s = .next t ∧ t.fget PLC_L_STAT.RXSTATE n = 0 ∧ OnlyRegs [PLC_L_STAT.RXSTATE.id] s t)
    ∧ (s.fbit PLC_L_STAT.TX_ON n = true → exec (.muteEnd n) s = .next s))
  ∧ (∀ s n d rest (f : PlcFrame), (s.lane n).decoded = d :: rest → f.parity = false →
    (∀ x h k it, f.kind = 1 → s.plcNode f.srcKind f.src = some h → (s.lane n).ack = some x → s.hopOf x.node = h → x.item = some k → s.item k = some it →
      ∃ t, exec (.plcFrameReceived n f) s = .next t ∧ (t.lane n).decoded = rest ∧ (t.lane n).ack = none ∧ (∃ r, DoneAs t k it 0 r)
        ∧ Counted PLC_L_RXOK.COUNT n s t ∧ Counted PLC_L_TXOK.COUNT n s t)
    ∧ (f.kind ≠ 1 → f.secured = true → f.tagOk = false → ∃ t, exec (.plcFrameReceived n f) s = .next t ∧ (t.lane n).decoded = rest
      ∧ Counted PLC_L_SECFAIL.COUNT n s t ∧ OnlyRegs [PLC_L_RXOK.COUNT.id, PLC_L_SECFAIL.COUNT.id] { s with plc := t.plc } t)
    ∧ (∀ a q, f.kind = 0 → f.secured = false → s.isUs f.dst = false → s.isThosa f.payload = false → f.mesh = none → s.plcNode f.srcKind f.src = none → s.plc.recent = [] → s.mode ≠ 4 → q = (s.lane n).slowSeq →
        a = s.base PLC_SLOW_LO.BASE_LO 21 PLC_SLOW_HI.BASE_HI + n * 524288 + q % 1024 * 512 →
      ∃ t, exec (.plcFrameReceived n f) s = .next t ∧ (t.lane n).decoded = rest ∧ (t.lane n).slowSeq = (q + 1) % 2 ^ 32 ∧ t.mread a 4 = leB 4 q
        ∧ ∀ b, (b < a ∨ a + 512 ≤ b) → t.mget b = s.mget b)
    ∧ (f.kind = 0 → f.secured = false → s.isUs f.dst = false → s.isThosa f.payload = true → f.mesh = none → s.plcNode f.srcKind f.src = none → s.plc.recent = [] → s.mode ≠ 4 →
      ∃ t, exec (.plcFrameReceived n f) s = .next t ∧ (t.lane n).decoded = rest ∧ Counted BAL_TH_DROP.COUNT 0 s t ∧ (t.lane n).slowSeq = (s.lane n).slowSeq ∧ t.dram = s.dram)
    ∧ (∀ h l k, f.kind = 0 → f.secured = true → f.tagOk = true → f.keyIdx = 0 → s.rxKeyOk PLC_KEY0.VALID PLC_KEY0.RX_SLOT = true → s.mode ≠ 4 →
        s.plcNode f.srcKind f.src = some h → (tget ({} : RxRec) s.plc.rx h).cnt < f.counter → nbit (s.nf h 0x0A 2) 4 = false → s.isUs f.dst = true → f.ackReq = false → f.tmReq = false →
        s.isThosa f.payload = false → f.mesh = none → f.frag = false → f.port = some (s.fget PLC_FP.PORT) → f.wrapper = true → s.nodeLedger h = some (l, k) →
        s.tenOn k = true → s.ten.active.ownsNode k h = true → s.ownsLedger k l = true → s.ledExists l = true → (s.routeTask k 0).isSome = true → (tget [] s.pip.ingest n).length < ingestCap n →
      ∃ t r, exec (.plcFrameReceived n f) s = .next t ∧ (t.lane n).decoded = rest ∧ tget [] t.pip.ingest n = tget [] s.pip.ingest n ++ [r]
        ∧ r.ledger = some l ∧ r.tenant = k ∧ r.node = some h ∧ r.lqi = f.lqi ∧ r.apdu = f.apdu ∧ r.origin = .lane n ∧ t.dram = s.dram))
  ∧ (∀ s n snr k air more, (s.lane n).tmAsk = (snr, k) :: more → (s.lane n).air = none → s.laneOn n = true → s.mayTransmit = true →
    ∃ t, exec (.toneMapResponseSend n air) s = .next t ∧ (t.lane n).tmAsk = more ∧ (t.lane n).air.isSome = true ∧ t.fget PLC_L_STAT.TX_ON n = 1
      ∧ t.out = s.out ++ [.mac 1 n 2 k (leB 1 (s.toneMap n snr).1 ++ leB 3 (s.toneMap n snr).2.1 ++ leB 1 (s.toneMap n snr).2.2)])
  ∧ (∀ s n, (s.lane n).bcnAsk = true → s.laneOn n = true → s.mayTransmit = true → (s.lane n).queue.length < 64 →
    ∃ t, exec (.beaconAnswer n) s = .next t ∧ (t.lane n).bcnAsk = false
      ∧ (t.lane n).queue = (s.lane n).queue ++ [{ bcast := true, payload := (s.lane n).beacon, what := 6 }] ∧ t = { s with plc := t.plc })
  ∧ (∀ s k, nodeValid (s.node k) = true → nodeMedium (s.node k) = 0 → s.linkMode k = 0 →
    (s.fget PLC_L_TM.TTL (nbits (s.nf k 0x14 1) 1 0) ≤ s.nf k 0x1C 2 → ∃ t, exec (.tmAgeExpiry k) s = .next t ∧ t.linkMode k = 1 ∧ (∀ j, j ≠ k → t.node j = s.node j))
    ∧ (s.nf k 0x1C 2 < s.fget PLC_L_TM.TTL (nbits (s.nf k 0x14 1) 1 0) → exec (.tmAgeExpiry k) s = .next s))
  ∧ (∀ s host value n, OpenW s host .plc 0 n →
    (nbit value 0 = true → ∃ t, exec (.plcLClr host value) s = .next t ∧ (∀ f ∈ laneCounters, t.fget f n = 0 ∧ ∀ k, k ≠ n → t.fget f k = s.fget f k)
      ∧ OnlyRegs (laneCounters.map Fld.id) s t)
    ∧ (nbit value 1 = true → ∃ t, exec (.clrTrim host value) s = .next t ∧ t.fget PLC_L_LEVEL.TRIM n = 0 ∧ OnlyRegs [PLC_L_LEVEL.TRIM.id] s t))

/-- The frame at the head of a free ON lane's queue that gains the channel does not start where its air time would come within 0x0400 pu of the next target of an armed compare unit that triggers a mark or beacon of the lane, or of a pending burst 2. Otherwise, with both buckets holding its estimate and the scheduled frames', it leaves the queue and is on air, one attempt more, its estimate taken from the lane's bucket; without the energy it stays, waiting; without leave to transmit it
ends with NO_CREDIT. A frame that ends on air and needs no acknowledgement completes; one that needs it waits for it with its energy added. A missed acknowledgement with attempts left puts it back in front, behind URGENT frames. A level trip cuts the frame with INTERNAL, counted, one step more of trim. A frame that waited too long
for energy ends with NO_CREDIT. A burst 2 or beacon that is due, in time, with the lane free and the energy held, is on air; out of time, or for a mark's burst without a valid key, it is counted as missed. A DUAL frame whose lane may no longer transmit its burst 2 ends with NO_CREDIT. SEND of a frame that passes its checks joins the queue and is answered later; one the check at issue refused ends with
that status. BEACON_SET by tenant 0 stores the payload. -/
def Obligations.LaneTransmission : Prop :=
  (∀ s n x rest air amp sched mode g est, (s.lane n).queue = x :: rest → (s.lane n).air = none → (s.lane n).ack = none → s.laneOn n = true → s.mayTransmit = true →
      mode = (if nbit x.flags 4 then 2 else if nbit x.flags 3 then 1 else if x.bcast then s.fget PLC_L_MODE.BCAST n else s.linkMode (s.hopOf x.node)) →
      g = s.txGain n (if x.bcast then 0 else nbits (s.nf (s.hopOf x.node) 0x16 1) 3 0) amp → est = s.fget PLC_L_PWR0.MW n * air / (10 * 2 ^ g) →
    (s.txHeldOff n air = true → exec (.plcTxStart n true air amp sched) s = .next s)
    ∧ (s.txHeldOff n air = false → s.plcHolds n (est + sched) = true → ∃ t y, exec (.plcTxStart n true air amp sched) s = .next t ∧ (t.lane n).queue = rest ∧ (t.lane n).air = some y
      ∧ y.payload = x.payload ∧ y.item = x.item ∧ y.attempts = x.attempts + 1 ∧ y.est = est ∧ y.mode = mode ∧ t.fget PLC_L_STAT.TX_ON n = 1
      ∧ t.fget PLC_L_TOKENS.UJ n = tokAdd (s.fget PLC_L_TOKENS.UJ n) (-(est : Int)) (s.fget PLC_L_BUDGET.DEPTH n * 1000)
      ∧ ∃ k, t.out = s.out ++ [.mac 1 n k (if x.bcast then 0xFFFF else s.hopOf x.node) x.payload])
    ∧ (s.txHeldOff n air = false → s.plcHolds n (est + sched) = false → ∃ t, exec (.plcTxStart n true air amp sched) s = .next t ∧ (t.lane n).queue = { x with waiting := true } :: rest
      ∧ (t.lane n).air = none ∧ t.fget PLC_L_TOKENS.UJ n = s.fget PLC_L_TOKENS.UJ n))
  ∧ (∀ s n x rest gained air amp sched k it, (s.lane n).queue = x :: rest → (s.lane n).air = none → (s.lane n).ack = none → s.laneOn n = true → s.mayTransmit = false →
      x.what = 0 → x.item = some k → s.item k = some it →
    ∃ t, exec (.plcTxStart n gained air amp sched) s = .next t ∧ (t.lane n).queue = rest ∧ (∃ r, DoneAs t k it 0x24 r) ∧ Counted PLC_L_TXFAIL.COUNT n s t)
  ∧ (∀ s n x e, (s.lane n).air = some x → x.what = 0 → x.second = false → (s.lane n).mark1 = none →
    (∀ k it, x.bcast = true ∨ nbit x.flags 1 = true → x.item = some k → s.item k = some it → ∃ t, exec (.plcTxEnd n e) s = .next t ∧ (t.lane n).air = none
      ∧ t.fget PLC_L_STAT.TX_ON n = 0 ∧ Counted PLC_L_TXOK.COUNT n s t
      ∧ DoneAs t k it 0 (x.total + x.mode * 2 ^ 8 + x.mod * 2 ^ 10 + n * 2 ^ 13 + x.air * 2 ^ 16 + (x.energy + e) * 2 ^ 32))
    ∧ (x.bcast = false → nbit x.flags 1 = false → s.laneOn n = true → ∃ t, exec (.plcTxEnd n e) s = .next t ∧ (t.lane n).air = none
      ∧ t.fget PLC_L_STAT.TX_ON n = 0 ∧ (t.lane n).ack = some { x with energy := x.energy + e } ∧ (t.lane n).queue = (s.lane n).queue))
  ∧ (∀ s n x, (s.lane n).ack = some x → x.second = false → x.bcast = false → nbit x.flags 1 = false → s.laneOn n = true → x.attempts < s.fget PLC_L_MAC.MAX_ATT n →
    ∃ t, exec (.plcAckTimeout n) s = .next t ∧ (t.lane n).ack = none ∧ (t.lane n).queue = requeue (s.lane n).queue x ∧ t.dram = s.dram)
  ∧ (∀ s n x k it, (s.lane n).air = some x → x.what = 0 → x.item = some k → s.item k = some it →
    ∃ t, exec (.levelTrip n) s = .next t ∧ (t.lane n).air = none ∧ t.fget PLC_L_STAT.TX_ON n = 0 ∧ (∃ r, DoneAs t k it 0xFF r)
      ∧ t.fget PLC_L_LEVEL.TRIM n = min 15 (s.fget PLC_L_LEVEL.TRIM n + 1) ∧ Counted PLC_L_LVLTRIP.COUNT n s t ∧ t.fget PLC_L_ERR.LEVEL n = 1)
  ∧ (∀ s n x rest k it, (s.lane n).queue = x :: rest → x.waiting = true → x.item = some k → s.item k = some it →
    ∃ t, exec (.plcEnergyWaitExpiry n) s = .next t ∧ (t.lane n).queue = rest ∧ (∃ r, DoneAs t k it 0x24 r))
  ∧ (∀ s n fr air, (s.lane n).mark2 = some fr →
    (s.laneOn n = true → s.mayTransmit = true → s.fbit PLC_L_STAT.TX_ON n = false → s.txKeyOk = true → s.plcHolds n (s.freeEst n 0 air).1 = true →
      ∃ t, exec (.burst2Send n true air) s = .next t ∧ (t.lane n).mark2 = none ∧ (t.lane n).air.isSome = true ∧ t.fget PLC_L_STAT.TX_ON n = 1
        ∧ Counted PLC_L_CM2.COUNT n s t ∧ t.out = s.out ++ [.mac 1 n 4 0xFFFF fr])
    ∧ (∃ t, exec (.burst2Send n false air) s = .next t ∧ (t.lane n).mark2 = none ∧ (t.lane n).air = (s.lane n).air ∧ Counted PLC_L_CMMISS.COUNT n s t)
    ∧ (s.fbit PLC_L_STAT.TX_ON n = false → s.txKeyOk = false →
      ∃ t, exec (.burst2Send n true air) s = .next t ∧ (t.lane n).mark2 = none ∧ (t.lane n).air = (s.lane n).air ∧ Counted PLC_L_CMMISS.COUNT n s t))
  ∧ (∀ s n x k it b air, (s.lane n).mark2 = none → (s.lane n).ack = some x → x.second = true → s.fbit PLC_L_STAT.TX_ON n = false → s.laneOn n = false ∨ s.mayTransmit = false →
      x.what = 0 → x.item = some k → s.item k = some it →
    ∃ t, exec (.burst2Send n b air) s = .next t ∧ (t.lane n).ack = none ∧ (t.lane n).air = (s.lane n).air ∧ (∃ r, DoneAs t k it 0x24 r) ∧ Counted PLC_L_TXFAIL.COUNT n s t)
  ∧ (∀ s n air, (s.lane n).bcnDue = true →
    (s.laneOn n = true → s.mayTransmit = true → s.fbit PLC_L_STAT.TX_ON n = false → s.plcHolds n (s.freeEst n 0 air).1 = true →
      ∃ t, exec (.beaconStart n true air) s = .next t ∧ (t.lane n).bcnDue = false ∧ (t.lane n).air.isSome = true ∧ t.fget PLC_L_STAT.TX_ON n = 1
        ∧ t.out = s.out ++ [.mac 1 n 5 0xFFFF (s.lane n).beacon])
    ∧ (∃ t, exec (.beaconStart n false air) s = .next t ∧ (t.lane n).bcnDue = false ∧ (t.lane n).air = (s.lane n).air ∧ Counted PLC_L_BCNMISS.COUNT n s t))
  ∧ (∀ s n it p, Ready s n 7 0 it → nbit (it.f 2 2) 15 = false → nbit (it.f 1 1) 2 = false →
    0 < it.f 4 2 → it.f 4 2 ≤ 400 → s.laneOn (it.f 1 1 % 4) = true → nbits (it.f 6 1) 5 3 = 0 → s.buf it false (it.f 4 2) = some p →
        s.mayTransmit = true → s.fget PLC_KEY_TX.IDX = 0 → s.fbit PLC_KEY0.VALID = true → s.keysBlocked = false → (s.lane (it.f 1 1 % 4)).queue.length < 64 →
      ∃ t, exec (.send n) s = .next t ∧ t.item n = some { it with inService := true }
        ∧ (t.lane (it.f 1 1 % 4)).queue = txInsert (s.lane (it.f 1 1 % 4)).queue
            { item := some n, node := it.f 2 2 % 32768, bcast := false, payload := p, flags := it.f 6 1, urgent := it.urgent } (fun y => nbit y.flags 6))
  ∧ (∀ s n it v, Turned s n 7 0 v it → ∃ t, exec (.send n) s = .next t ∧ DoneAs t n it v 0 ∧ t.plc = s.plc)
  ∧ (∀ s n it p, Ready s n 7 4 it → it.tenant = 0 → 0 < it.f 4 2 → it.f 4 2 ≤ 64 → s.laneOn (it.f 1 1 % 4) = true → s.buf it false (it.f 4 2) = some p →
    ∃ t, exec (.beaconSet n) s = .next t ∧ (t.lane (it.f 1 1 % 4)).beacon = p ∧ DoneAs t n it 0 0)

/-- An item that reads a node's entry writes its 32 bytes and its receive record to the task's data window, and leaves the node as it was. One that writes a node's entry has the outcome and the effect of a masked write by its tenant. REINJECT of a node's APDU, its
ledger its own tenant's with a parse task, joins the lane's ingest queue as a reading of that ledger. The check at issue refuses an item that names a node its tenant does not own with PROTECTION, and what that check refused ends with its status. The supervisor's command reads the entry its index names into its data registers, writes an entry whose addresses no other has, its reserved bits 0, or clears it, STATUS 0; the end of a
repair clears REPAIR. -/
def Obligations.NodeTable : Prop :=
  (∀ s n it, Ready s n 7 2 it → s.winOk it.task true (it.f 8 8) 40 = true →
    ∃ t, exec (.nodeRd n) s = .next t ∧ DoneAs t n it 0 0 ∧ t.plc = s.plc ∧ t.dram = s.dram
      ∧ t.winRead it.task true (it.f 8 8) 32 = s.node (it.f 2 2 % 32768))
  ∧ (∀ s n it b st s', Ready s n 7 3 it → s.buf it true 32 = some b →
      s.nodeWriteBy it.tenant (it.f 2 2 % 32768) (it.f 0x10 4) b = (st, s') →
    ∃ t, exec (.nodeWr n) s = .next t ∧ DoneAs t n it st 0 ∧ t.plc = s'.plc ∧ t.dram = s'.dram)
  ∧ (∀ s n it p l k, Ready s n 7 1 it → 0 < it.f 4 2 → it.f 4 2 ≤ 4096 → s.buf it false (it.f 4 2) = some p →
      s.nodeLedger (it.f 2 2 % 32768) = some (l, k) → (tget [] s.pip.ingest (it.f 1 1 % 4)).length < 256 → s.ownsLedger k l = true → s.tenOn k = true → s.ten.active.ownsNode k (it.f 2 2 % 32768) = true →
      s.ledExists l = true → (s.routeTask k 0).isSome = true →
    ∃ t r, exec (.reinject n) s = .next t ∧ DoneAs t n it 0 0 ∧ tget [] t.pip.ingest (it.f 1 1 % 4) = tget [] s.pip.ingest (it.f 1 1 % 4) ++ [r]
      ∧ r.ledger = some l ∧ r.tenant = k ∧ r.apdu = p ∧ r.origin = .lane (it.f 1 1 % 4))
  ∧ (∀ (s : State) (it : Item), s.tenOn it.tenant = true → it.engine = 7 → it.op < 4 → (it.op = 0 → nbit (it.f 2 2) 15 = false) → s.ten.active.ownsNode it.tenant (it.f 2 2 % 32768) = false →
    s.issueVerdict it = 0x23)
  ∧ (∀ s n it op v, Turned s n 7 op v it →
    (op = 2 → ∃ t, exec (.nodeRd n) s = .next t ∧ DoneAs t n it v 0 ∧ t.plc = s.plc)
    ∧ (op = 3 → ∃ t, exec (.nodeWr n) s = .next t ∧ DoneAs t n it v 0 ∧ t.plc = s.plc)
    ∧ (op = 1 → ∃ t, exec (.reinject n) s = .next t ∧ DoneAs t n it v 0 ∧ t.pip = s.pip))
  ∧ (∀ s host, Open s host .plc → ∃ t, exec (.plcNodeRead host) s = .next t ∧ t.plc = s.plc ∧ t.fget PLC_NODE_RES.STATUS host = 0
      ∧ (∀ k, k < 8 → t.fget PLC_NODE_D.DATA (8 * host + k) = s.nf (s.fget PLC_NODE_IDX.NODE host) (4 * k) 4) ∧ t = { s with regs := t.regs })
  ∧ (∀ s host e, Open s host .plc → s.plc.nodes = [] → e = (List.range 8).flatMap (fun k => leB 4 (s.fget PLC_NODE_D.DATA (8 * host + k))) →
    ∃ t, exec (.plcNodeWrite host) s = .next t ∧ t.node (s.fget PLC_NODE_IDX.NODE host) = nodeMask e ∧ t.fget PLC_NODE_RES.STATUS host = 0)
  ∧ (∀ s host, Open s host .plc → ∃ t, exec (.plcNodeClear host) s = .next t ∧ t.node (s.fget PLC_NODE_IDX.NODE host) = List.replicate 32 0
      ∧ (∀ j, j ≠ s.fget PLC_NODE_IDX.NODE host → t.node j = s.node j) ∧ t.fget PLC_NODE_RES.STATUS host = 0 ∧ t.dram = s.dram)
  ∧ (∀ s, ∃ t, exec .nodeIndexRepairDone s = .next t ∧ t.fget PLC_NT_STAT.REPAIR = 0 ∧ OnlyRegs [PLC_NT_STAT.REPAIR.id] s t)

/-- An MRT frame of type `typ` from host `h` arrives whole on external port `p`, ON in END mode, and meets the conditions of a frame of that host. -/
structure MrtForm (s : State) (p h typ : Nat) (f : List Byte) : Prop where
  mode : s.mode ≠ 0
  port : p < 2
  on : s.fget ETH_P_STAT.STATE p = 2
  len : 60 ≤ f.length ∧ f.length ≤ 9212
  endMode : s.fget ETH_CFG.MODE = 0
  etype : ethType f = s.fget RNG_MRT.ETYPE ∧ ethType f ≠ 0x8808 ∧ ptpOf f = none
  kind : leAt (f.drop (ethOff f)) 1 1 = typ
  host : leAt (f.drop (ethOff f)) 2 1 % 8 = h
  okHost : s.mrtFrom h p f = true
  form : mrtForm (f.drop (ethOff f)) 0 = true

/-- As above, its tag right under `key`, which gives `body`. -/
def MrtIn (s : State) (p h typ : Nat) (f key body : List Byte) : Prop :=
  MrtForm s p h typ f ∧ mrtOpen key (f.drop (ethOff f)) = some body

/-- As above within the host's open session, with nothing of the device's unacknowledged or queued. -/
def MrtOn (s : State) (p h typ : Nat) (f body : List Byte) : Prop :=
  MrtIn s p h typ f (s.host h).mrt.key body ∧ (s.host h).mrt.isOpen = true ∧ leAt (f.drop (ethOff f)) 4 4 = s.mrtSession h
    ∧ (s.host h).mrt.unacked = [] ∧ (s.host h).mrt.queued = []

/-- How far a DATA frame's SEQ lies after the expected one. -/
def seqAhead (s : State) (h : Nat) (f : List Byte) : Nat := (leAt (f.drop (ethOff f)) 8 4 + 2 ^ 32 - (s.host h).mrt.rxExp) % 2 ^ 32

/-- With no session open a HELLO under the key of the host's DERIVE slot opens one: a non-zero SESSION, the frame's nonce and a drawn one, the session key derived from both, SEQ 1, one TXC used (before what an event that coming UP signals may send on it), and the attachment UP if allowed. A frame whose tag fails is counted and leaves
the sessions. A DATA frame below the expected SEQ, or held already, is counted as a duplicate; one within 63 after it is held; one further on is counted and nothing else. One at the expected SEQ with none held advances it by one; with one DESC item for the free tail slot of an ON ring of the host
it stores the descriptor there and advances the tail. An ACK that covers some of the unacknowledged frames removes exactly those. A NAK that names the oldest, and the RTO, send it again: one TXC and one retransmission more, nothing else of the session; after RETRIES the RTO closes the session. A keep-alive uses one TXC. CLOSE and
the timeout close: no session, SESSION 0, the attachment DOWN (stated for a host without rings, where no lock is held). Without a session none of these three changes anything. -/
def Obligations.MrtSession : Prop :=
  (∀ s p h f body slot, MrtIn s p h 1 f (mrtKey (s.slotKey slot).key h 0 [] []) body → slot = s.fget RNG_H_MRT_CFG.KEY_SLOT h → s.slotIs slot 3 = true → s.keysBlocked = false →
      s.fbit KV_STAT.TRNG_OK = true → leAt (f.drop (ethOff f)) 4 4 = 0 → (s.host h).mrt.isOpen = false →
    ∃ t n dn, exec (.hello p f) s = .next t ∧ 0 < n ∧ n < 2 ^ 32 ∧ t.fget RNG_H_SESSION.SESSION h = n
      ∧ Sends { isOpen := true, hostNonce := fit 16 body, devNonce := dn, key := mrtKey (s.slotKey slot).key h n (fit 16 body) dn, txc := 1 } (t.host h).mrt
      ∧ dn.length = 16 ∧ (t.host h).port = p ∧ (s.rng.attach = true → s.fbit RNG_H_CTRL.ALLOW h = true → t.fbit RNG_H_STAT.UP h = true) ∧ t.dram = s.dram ∧ t.pending = s.pending)
  ∧ (∀ s p h f, MrtForm s p h 0x10 f → (s.host h).mrt.isOpen = true → leAt (f.drop (ethOff f)) 4 4 = s.mrtSession h → mrtOpen (s.host h).mrt.key (f.drop (ethOff f)) = none →
    ∃ t, exec (.data p f) s = .next t ∧ Counted RNG_H_RX_AUTH.COUNT h s t ∧ Quiet [ETH_P_RXOK.COUNT.id, RNG_H_RX_AUTH.COUNT.id] s t)
  ∧ (∀ s p h f body, MrtOn s p h 0x10 f body →
    (2 ^ 31 ≤ seqAhead s h f ∨ (tget none (s.host h).mrt.held (leAt (f.drop (ethOff f)) 8 4)).isSome = true → ∃ t, exec (.data p f) s = .next t ∧ Counted RNG_H_RX_DUP.COUNT h s t
      ∧ (t.host h).mrt = { (s.host h).mrt with txc := (s.host h).mrt.txc + 1 } ∧ t.rng.rings = s.rng.rings ∧ t.dram = s.dram)
    ∧ (64 ≤ seqAhead s h f → seqAhead s h f < 2 ^ 31 → tget none (s.host h).mrt.held (leAt (f.drop (ethOff f)) 8 4) = none → ∃ t, exec (.data p f) s = .next t ∧ Counted RNG_H_RX_OOW.COUNT h s t
      ∧ (t.host h).mrt = (s.host h).mrt ∧ t.rng.rings = s.rng.rings ∧ t.out = s.out)
    ∧ (0 < seqAhead s h f → seqAhead s h f < 64 → tget none (s.host h).mrt.held (leAt (f.drop (ethOff f)) 8 4) = none → ∃ t, exec (.data p f) s = .next t
      ∧ tget none (t.host h).mrt.held (leAt (f.drop (ethOff f)) 8 4) = some (leB 1 (leAt (f.drop (ethOff f)) 0x1A 1) ++ body)
      ∧ (t.host h).mrt.rxExp = (s.host h).mrt.rxExp ∧ (t.host h).mrt.nakFor = some (s.host h).mrt.rxExp ∧ t.rng.rings = s.rng.rings)
    ∧ (seqAhead s h f = 0 → (s.host h).mrt.rxExp < 2 ^ 32 → (s.host h).mrt.held = [] → leAt (f.drop (ethOff f)) 0x1A 1 = 0 → ∃ t, exec (.data p f) s = .next t
      ∧ (t.host h).mrt = { (s.host h).mrt with rxExp := ((s.host h).mrt.rxExp + 1) % 2 ^ 32, nakFor := none, txc := (s.host h).mrt.txc + 1 } ∧ t.rng.rings = s.rng.rings)
    ∧ (∀ r slot d, seqAhead s h f = 0 → (s.host h).mrt.rxExp < 2 ^ 32 → (s.host h).mrt.held = [] → leAt (f.drop (ethOff f)) 0x1A 1 = 1 → body = mrtItem 1 r slot d → r < 4096 → slot < s.ringSize r → s.ringSize r ≤ 65536 →
        64 ≤ d.length → d.length ≤ 8192 → descBytes body 1 ≤ 8388608 - s.mrtUsed h → s.ringHost r = h → s.fbit RNG_H_STAT.UP h = true → s.fget RNG_R_CFG.TYPE r = 0 → s.fget RNG_R_STAT.STATE r = 2 →
        slot = s.fget RNG_R_SQ.TAIL r → s.desc r slot = none → tget none (s.ring r).stored slot = none →
      ∃ t, exec (.data p f) s = .next t ∧ tget none (t.ring r).stored slot = some d ∧ t.fget RNG_R_SQ.TAIL r = (slot + 1) % s.ringSize r
        ∧ (t.host h).mrt.rxExp = ((s.host h).mrt.rxExp + 1) % 2 ^ 32 ∧ (∀ q, q ≠ r → t.ring q = s.ring q) ∧ t.dram = s.dram))
  ∧ (∀ s p h f body ack, MrtIn s p h 0x30 f (s.host h).mrt.key body → (s.host h).mrt.isOpen = true → leAt (f.drop (ethOff f)) 4 4 = s.mrtSession h → (s.host h).mrt.queued = [] →
      ack = leAt (f.drop (ethOff f)) 0x0C 4 → newer32 ack (s.host h).mrt.txSeq = false → (∃ x ∈ (s.host h).mrt.unacked, newer32 ack x.seq = true) →
    ∃ t, exec (.ack p f) s = .next t ∧ (t.host h).mrt = { (s.host h).mrt with unacked := (s.host h).mrt.unacked.filter (fun x => !newer32 ack x.seq), retx := 0 }
      ∧ t.rng.rings = s.rng.rings ∧ t.dram = s.dram ∧ t.out = s.out)
  ∧ (∀ s p h f body x rest, MrtIn s p h 0x31 f (s.host h).mrt.key body → (s.host h).mrt.isOpen = true → leAt (f.drop (ethOff f)) 4 4 = s.mrtSession h →
      (s.host h).mrt.unacked = x :: rest → leAt (f.drop (ethOff f)) 0x0C 4 = x.seq → (∀ y ∈ (s.host h).mrt.unacked, newer32 x.seq y.seq = false) → (s.host h).mrt.retx < s.fget RNG_MRT_TMO.RETRIES →
    ∃ t, exec (.nak p f) s = .next t ∧ Counted RNG_H_TX_RETX.COUNT h s t ∧ (t.host h).mrt = { (s.host h).mrt with retx := (s.host h).mrt.retx + 1, txc := (s.host h).mrt.txc + 1 })
  ∧ (∀ s p h f body, MrtOn s p h 0x40 f body → (∀ e ∈ tget [] s.regs RNG_R_STAT.STATE.id, s.ringHost e.1 ≠ h) → s.prm.locks = [] →
    ∃ t, exec (.close p f) s = .next t ∧ (t.host h).mrt = {} ∧ t.fget RNG_H_SESSION.SESSION h = 0 ∧ t.fbit RNG_H_STAT.UP h = false ∧ t.dram = s.dram)
  ∧ (∀ s h, h < 8 → (s.host h).mrt.isOpen = true →
    (∀ x rest, (s.host h).mrt.unacked = x :: rest → (s.host h).mrt.retx < s.fget RNG_MRT_TMO.RETRIES → ∃ t, exec (.mrtRtoExpiry h) s = .next t ∧ Counted RNG_H_TX_RETX.COUNT h s t
      ∧ (t.host h).mrt = { (s.host h).mrt with retx := (s.host h).mrt.retx + 1, txc := (s.host h).mrt.txc + 1, nakFor := none } ∧ t.rng.rings = s.rng.rings)
    ∧ ((s.host h).mrt.unacked = [] → exec (.mrtRtoExpiry h) s = .next (s.setMrt h { (s.host h).mrt with nakFor := none }))
    ∧ (∃ t, exec (.mrtKeepalive h) s = .next t ∧ (t.host h).mrt = { (s.host h).mrt with txc := (s.host h).mrt.txc + 1 } ∧ t.rng.rings = s.rng.rings ∧ t.dram = s.dram)
    ∧ ((∀ e ∈ tget [] s.regs RNG_R_STAT.STATE.id, s.ringHost e.1 ≠ h) → s.prm.locks = [] →
      (∃ t, exec (.mrtSessionTimeout h) s = .next t ∧ (t.host h).mrt = {} ∧ t.fget RNG_H_SESSION.SESSION h = 0 ∧ t.fbit RNG_H_STAT.UP h = false)
      ∧ (∀ x rest, (s.host h).mrt.unacked = x :: rest → s.fget RNG_MRT_TMO.RETRIES ≤ (s.host h).mrt.retx → ∃ t, exec (.mrtRtoExpiry h) s = .next t ∧ (t.host h).mrt = {} ∧ t.fbit RNG_H_STAT.UP h = false)))
  ∧ (∀ s h, (s.host h).mrt.isOpen = false → exec (.mrtRtoExpiry h) s = .next s ∧ exec (.mrtKeepalive h) s = .next s ∧ exec (.mrtSessionTimeout h) s = .next s)

/-- A frame arrives whole on a port that is ON. -/
def Arrives (s : State) (p : Nat) (f : List Byte) : Prop :=
  s.mode ≠ 0 ∧ p < 3 ∧ s.fget ETH_P_STAT.STATE p = 2 ∧ 60 ≤ f.length ∧ f.length ≤ 9212

/-- The key a host's three ETH_FDB registers name. -/
def fdbKeyOf (s : State) (host : Nat) : Nat :=
  s.fget ETH_FDB_KEY_LO.MAC_LO host + s.fget ETH_FDB_KEY_HI.MAC_HI host * 2 ^ 32 + s.fget ETH_FDB_KEY_HI.VLAN host * 2 ^ 48

/-- A frame with a wrong FCS is counted as an error and changes nothing else; a pause frame is counted; in END mode one that is not for the unit is counted as dropped. In BRIDGE mode, with an empty forwarding table, a frame that is not for the unit has its source entered for its
port and leaves unchanged on the other port, if that is ON with its link up. ENABLE turns an OFF port ON, and an ON port to DRAINING. A link change sets LINK and, up, the speed. CLR clears a port's six counters. FDB commands on the host's key: LOOKUP of a present sound entry
answers it and its port mask, of an absent key 0; INSERT_STATIC of an absent key into an empty set adds it; DELETE removes it; FLUSH_DYNAMIC leaves the static entries. In PRP mode supervision advances its sequence; in another mode nothing happens. A forgotten node leaves the table, every other node stays. A port with a
PTP instance sends its request: the next request number, the next slot of the PTP area. -/
def Obligations.EthernetPorts : Prop :=
  (∀ s p f bs bd, s.mode ≠ 0 → p < 3 → s.fget ETH_P_STAT.STATE p = 2 → ∃ t, exec (.ethFrameReceived p f false bs bd) s = .next t ∧ Counted ETH_P_RXERR.COUNT p s t
      ∧ OnlyRegs [ETH_P_RXERR.COUNT.id] s t)
  ∧ (∀ s p f bs bd, Arrives s p f → ethType f = 0x8808 → ∃ t, exec (.ethFrameReceived p f true bs bd) s = .next t ∧ Counted ETH_P_PAUSE.COUNT p s t ∧ Counted ETH_P_RXOK.COUNT p s t
      ∧ OnlyRegs [ETH_P_RXOK.COUNT.id, ETH_P_PAUSE.COUNT.id] s t)
  ∧ (∀ s p f bs bd, Arrives s p f → p < 2 → ethType f ≠ 0x8808 → s.fget ETH_CFG.MODE = 0 → s.forUs f = false → ∃ t, exec (.ethFrameReceived p f true bs bd) s = .next t
      ∧ Counted ETH_P_RXDROP.COUNT p s t ∧ OnlyRegs [ETH_P_RXOK.COUNT.id, ETH_P_RXDROP.COUNT.id] s t)
  ∧ (∀ s p f q, Arrives s p f → p < 2 → q = 1 - p → ethType f ≠ 0x8808 → s.fget ETH_CFG.MODE = 1 → s.forUs f = false → s.eth.fdb.ents = [] → ethOff f = 14 → f.take 6 ≠ slice f 6 6 →
      s.fget ETH_P_STAT.STATE q = 2 → s.fbit ETH_P_STAT.LINK q = true →
    ∃ t, exec (.ethFrameReceived p f true [] []) s = .next t ∧ t.out = s.out ++ [.frame 0 q f] ∧ Counted ETH_P_TXOK.COUNT q s t
      ∧ t.eth.fdb.ents = [{ key := fdbKey (slice f 6 6) 0, value := 2 ^ p, hit := true, bucket := s.fdbSet (fdbKey (slice f 6 6) 0), way := 0 }] ∧ t.fget ETH_FDB_CFG.ENTRIES = 1
      ∧ t.dram = s.dram ∧ t.rng = s.rng)
  ∧ (∀ s host value n, OpenW s host .eth 0 n →
    (nbit value 0 = true → s.fget ETH_P_STAT.STATE n = 0 → ∃ t, exec (.ethPortEnable host value) s = .next t ∧ t.fget ETH_P_STAT.STATE n = 2 ∧ t.fget ETH_P_STAT.GEN n = (s.fget ETH_P_STAT.GEN n + 1) % 256
      ∧ OnlyRegs [ETH_P_CTRL.ENABLE.id, ETH_P_STAT.STATE.id, ETH_P_STAT.ENABLE_LATCHED.id, ETH_P_STAT.GEN.id] s t)
    ∧ (nbit value 0 = false → s.fget ETH_P_STAT.STATE n = 2 → ∃ t, exec (.ethPortEnable host value) s = .next t ∧ t.fget ETH_P_STAT.STATE n = 1
      ∧ OnlyRegs [ETH_P_CTRL.ENABLE.id, ETH_P_STAT.STATE.id] s t)
    ∧ (nbit value 0 = true → ∃ t, exec (.ethPClr host value) s = .next t ∧ (∀ g ∈ portCounters, t.fget g n = 0) ∧ OnlyRegs (portCounters.map Fld.id) s t))
  ∧ (∀ s p speed, p < 3 → (∃ t, exec (.ethLinkChange p true speed) s = .next t ∧ t.fget ETH_P_STAT.LINK p = 1 ∧ t.fget ETH_P_STAT.SPEED_NOW p = speed % ETH_P_STAT.SPEED_NOW.span
      ∧ Quiet [ETH_P_STAT.LINK.id, ETH_P_STAT.SPEED_NOW.id] s t)
    ∧ (∃ t, exec (.ethLinkChange p false speed) s = .next t ∧ t.fget ETH_P_STAT.LINK p = 0 ∧ Quiet [ETH_P_STAT.LINK.id] s t))
  ∧ (∀ s host value, Open s host .eth → (∀ x ∈ s.eth.fdb.ents, x.bad = false) →
    (∀ e, value % 8 = 1 → s.eth.fdb.ents.find? (fun x => x.key == fdbKeyOf s host) = some e → ∃ t, exec (.fdbLookup host value []) s = .next t ∧ t.fget ETH_FDB_RES.STATUS = 0
      ∧ t.fget ETH_FDB_RES.HIT = 1 ∧ t.fget ETH_FDB_RES.STATIC = b2n e.isStatic ∧ t.fget ETH_FDB_VAL.PORTS host = e.value % 8 ∧ (e.isStatic = true → t.eth = s.eth))
    ∧ (value % 8 = 1 → s.eth.fdb.ents.any (fun x => x.key == fdbKeyOf s host) = false → ∃ t, exec (.fdbLookup host value []) s = .next t ∧ t.fget ETH_FDB_RES.HIT = 0 ∧ t.fget ETH_FDB_RES.STATUS = 0 ∧ t.eth = s.eth)
    ∧ (value % 8 = 2 → s.eth.fdb.ents.any (fun x => x.key == fdbKeyOf s host) = false → s.eth.fdb.ents.any (fun x => x.bucket == s.fdbSet (fdbKeyOf s host)) = false →
      ∃ t, exec (.fdbInsertStatic host value []) s = .next t ∧ t.fget ETH_FDB_RES.STATUS = 0 ∧ t.eth.fdb.ents = s.eth.fdb.ents
        ++ [{ key := fdbKeyOf s host, value := s.fget ETH_FDB_VAL.PORTS host, isStatic := true, hit := true, bucket := s.fdbSet (fdbKeyOf s host), way := 0 }])
    ∧ (value % 8 = 3 → ∃ t, exec (.fdbDelete host value []) s = .next t ∧ t.fget ETH_FDB_RES.STATUS = 0 ∧ t.eth.fdb.ents = s.eth.fdb.ents.filter (fun x => x.key != fdbKeyOf s host))
    ∧ (value % 8 = 4 → ∃ t, exec (.flushDynamic host value) s = .next t ∧ t.fget ETH_FDB_RES.STATUS = 0 ∧ t.eth.fdb.ents = s.eth.fdb.ents.filter (·.isStatic) ∧ t.eth.nodes = s.eth.nodes))
  ∧ (∀ s, s.fget ETH_CFG.MODE = 2 → ∃ t, exec .prpSupervision s = .next t ∧ t.eth.supSeq = (s.eth.supSeq + 1) % 65536 ∧ t.eth.prpSeq = (s.eth.prpSeq + 1) % 65536 ∧ t.eth.nodes = s.eth.nodes ∧ t.dram = s.dram)
  ∧ (∀ s, s.fget ETH_CFG.MODE ≠ 2 → exec .prpSupervision s = .next s)
  ∧ (∀ s node, s.eth.nodes.any (fun n => n.mac == node) = true → (∃ t, exec (.prpNodeForget node none) s = .next t ∧ t.eth.nodes = s.eth.nodes.filter (fun n => n.mac != node) ∧ t.eth.fdb = s.eth.fdb)
    ∧ (∀ l, ∃ t, exec (.prpNodeForget node (some l)) s = .next t ∧ t.fget EVT_S_CNT.COUNT 459 = (s.fget EVT_S_CNT.COUNT 459 + 1) % EVT_S_CNT.COUNT.span ∧ Quiet [] s t))
  ∧ (∀ s p, s.ptpOn p = true → ∃ t, exec (.ptpRequestSend p) s = .next t ∧ tget 0 t.eth.reqSeq p = (tget 0 s.eth.reqSeq p + 1) % 65536 ∧ t.eth.slot = (s.eth.slot + 1) % 256
      ∧ t.eth.ptpSeq = (s.eth.ptpSeq + 1) % 2 ^ 32 ∧ t.eth.fdb = s.eth.fdb ∧ t.rng.routes = s.rng.routes
      ∧ (∀ a, (a < s.fget ETH_PTP_LO.BASE_LO * 65536 + s.fget ETH_PTP_HI.BASE_HI * 2 ^ 32 + 256 * s.eth.slot ∨
          s.fget ETH_PTP_LO.BASE_LO * 65536 + s.fget ETH_PTP_HI.BASE_HI * 2 ^ 32 + 256 * s.eth.slot + 256 ≤ a) → t.mget a = s.mget a))

/-- ENABLE 1 turns an OFF radio ON, outside the centre role, listening; in the centre role it is refused; ENABLE 0 takes an ON radio with no connection and nothing to send to DRAINING. A preamble takes a listening radio, or one in a window, to SYNC; in SYNC or PAYLOAD outside a window a stronger one by the margin captures it, a weaker one
is counted and ignored. The sync word leads to PAYLOAD, its absence outside a window to LISTEN. A frame with a wrong FCS is counted; an acknowledgement of the node waited for completes the frame; a secured frame whose tag fails is counted only; an unsecured frame of an unknown source goes to its slow-path slot in DRAM and
nowhere else. The head of a free radio's queue that gains the channel with both buckets holding its debit is on air and both are debited; without the budget it waits; without leave to transmit it ends with NO_CREDIT. Its end completes a frame that needs no acknowledgement, and any other waits for one; a missed acknowledgement
with attempts left puts it back in front, behind URGENT frames. Too long a wait for budget ends with NO_CREDIT, for a meter with TIMEOUT. SEND of a frame that passes its checks joins the queue; one the check at issue refused ends with that status. REINJECT joins the radio's ingest queue. CLR clears the counters. -/
def Obligations.RadioFrames : Prop :=
  (∀ s host value n, OpenW s host .rfm 0 n →
    (nbit value 0 = true → s.centre = false → s.fget RFM_R_STAT.STATE n = 0 → ∃ t, exec (.radioEnable host value) s = .next t
      ∧ t.fget RFM_R_STAT.STATE n = 2 ∧ t.fget RFM_R_STAT.GEN n = (s.fget RFM_R_STAT.GEN n + 1) % 256 ∧ t.fget RFM_R_STAT.RXSTATE n = 0 ∧ (t.radio n).queue = (s.radio n).queue ∧ t.rfm.conns = s.rfm.conns)
    ∧ (nbit value 0 = true → s.centre = true → ∃ t, exec (.radioEnable host value) s = .next t ∧ t.fget RFM_ERR.ROLE = 1 ∧ t.fget RFM_R_STAT.STATE n = s.fget RFM_R_STAT.STATE n ∧ t.rfm = s.rfm)
    ∧ (nbit value 0 = false → s.fget RFM_R_STAT.STATE n = 2 → s.connsOf n = [] → (s.radio n).queue = [] → (s.radio n).ack = none → (s.radio n).held = [] → (s.radio n).resp = none →
      ∃ t, exec (.radioEnable host value) s = .next t ∧ t.fget RFM_R_STAT.STATE n = 1 ∧ tget [] t.pip.ingest (4 + n) = [] ∧ (t.radio n).joins = [] ∧ (t.radio n).air = (s.radio n).air ∧ t.dram = s.dram)
    ∧ (nbit value 0 = true → ∃ t, exec (.rfmRClr host value) s = .next t ∧ (∀ f ∈ radioCounters, t.fget f n = 0 ∧ ∀ k, k ≠ n → t.fget f k = s.fget f k) ∧ OnlyRegs (radioCounters.map Fld.id) s t))
  ∧ (∀ s n rssi, n < 2 → s.radioOn n = true →
    (s.rx n = 0 ∨ s.rx n = 4 → ∃ t, exec (.rfPreambleDetect n rssi) s = .next t ∧ t.rx n = 1 ∧ (∃ w, (t.radio n).now = some { rssi := rssi, win := w })
      ∧ (t.radio n).queue = (s.radio n).queue ∧ OnlyRegs [RFM_R_STAT.RXSTATE.id] { s with rfm := t.rfm } t)
    ∧ (∀ c, s.rx n = 1 ∨ s.rx n = 2 → (s.radio n).now = some c → (s.radio n).win = none →
      (c.rssi + (s.fget RFM_R_CAP.MARGIN n : Nat) ≤ rssi → ∃ t, exec (.rfPreambleDetect n rssi) s = .next t ∧ t.rx n = 1 ∧ (t.radio n).now = some { rssi := rssi } ∧ Counted RFM_R_CAPLOST.COUNT n s t)
      ∧ (rssi < c.rssi + (s.fget RFM_R_CAP.MARGIN n : Nat) → ∃ t, exec (.rfPreambleDetect n rssi) s = .next t ∧ Counted RFM_R_CAPIGN.COUNT n s t ∧ OnlyRegs [RFM_R_CAPIGN.COUNT.id] s t)))
  ∧ (∀ s n, s.rx n = 1 → (∃ t, exec (.syncWord n true) s = .next t ∧ t.rx n = 2 ∧ OnlyRegs [RFM_R_STAT.RXSTATE.id] s t)
    ∧ ((s.radio n).win = none → ∃ t, exec (.syncWord n false) s = .next t ∧ t.rx n = 0 ∧ (t.radio n).now = none ∧ (t.radio n).queue = (s.radio n).queue))
  ∧ (∀ s n now (f : RfFrame), n < 2 → s.rx n = 2 → (s.radio n).win = none →
    (∃ t, exec (.rfFrameReceived n now false f) s = .next t ∧ t.rx n = 0 ∧ (t.radio n).now = none ∧ Counted RFM_R_CRCERR.COUNT n s t ∧ OnlyRegs [RFM_R_STAT.RXSTATE.id, RFM_R_CRCERR.COUNT.id] { s with rfm := t.rfm } t)
    ∧ (∀ x h k it, f.kind = 1 → f.parity = false → s.radioNode f.srcKind f.src = some h → (s.radio n).ack = some x → x.node = h → x.item = some k → s.item k = some it →
      ∃ t, exec (.rfFrameReceived n now true f) s = .next t ∧ t.rx n = 0 ∧ (t.radio n).ack = none ∧ (∃ r, DoneAs t k it 0 r) ∧ Counted RFM_R_RXOK.COUNT n s t ∧ Counted RFM_R_TXOK.COUNT n s t)
    ∧ (f.kind = 0 → f.secured = true → f.tagOk = false → ∃ t, exec (.rfFrameReceived n now true f) s = .next t ∧ t.rx n = 0 ∧ Counted RFM_R_SECFAIL.COUNT n s t
      ∧ OnlyRegs [RFM_R_STAT.RXSTATE.id, RFM_R_RXOK.COUNT.id, RFM_R_SECFAIL.COUNT.id] { s with rfm := t.rfm } t)
    ∧ (∀ a q, f.kind = 0 → f.secured = false → f.parity = false → f.toEui = false → s.isRfUs f.dst = false → f.mesh = none → s.radioNode f.srcKind f.src = none → s.rfm.recent = [] → s.mode ≠ 4 → q = (s.radio n).slowSeq →
        a = s.base RFM_SLOW_LO.BASE_LO 22 RFM_SLOW_HI.BASE_HI + n * 2097152 + q % 512 * 4096 →
      ∃ t, exec (.rfFrameReceived n now true f) s = .next t ∧ t.rx n = 0 ∧ (t.radio n).slowSeq = (q + 1) % 2 ^ 32 ∧ t.mread a 4 = leB 4 q ∧ ∀ b, (b < a ∨ a + 4096 ≤ b) → t.mget b = s.mget b))
  ∧ (∀ s n now x rest air, n < 2 → s.radioOn n = true → (s.radio n).air = none → (s.radio n).win = none → (s.radio n).resp = none → (s.radio n).ack = none → (s.radio n).queue = x :: rest →
    (s.mayTransmit = true → s.connsOf n = [] →
      (s.radHolds n air = true → ∃ t y, exec (.rfTxStart n now true air) s = .next t ∧ (t.radio n).queue = rest ∧ (t.radio n).air = some y ∧ y.payload = x.payload ∧ y.item = x.item
        ∧ y.attempts = x.attempts + 1 ∧ y.est = s.radEst n air ∧ t.fget RFM_R_STAT.TX_ON n = 1 ∧ t.rx n = 3
        ∧ t.fget RFM_R_TOKENS.UJ n = tokAdd (s.fget RFM_R_TOKENS.UJ n) (-(s.radEst n air : Int)) (s.fget RFM_R_BUDGET.DEPTH n * 1000)
        ∧ t.fget RFM_R_AIRTOK.US n = tokAdd (s.fget RFM_R_AIRTOK.US n) (-(100 * air : Nat)) (s.fget RFM_R_DUTY.DUTY n * 3600000)
        ∧ Out.mac 2 n 0 (if x.bcast then 0xFFFF else x.node) x.payload ∈ t.out)
      ∧ (s.radHolds n air = false → ∃ t, exec (.rfTxStart n now true air) s = .next t ∧ (t.radio n).queue = { x with waiting := true } :: rest ∧ (t.radio n).air = none
        ∧ t.fget RFM_R_TOKENS.UJ n = s.fget RFM_R_TOKENS.UJ n))
    ∧ (∀ g k it, s.mayTransmit = false → x.item = some k → s.item k = some it → ∃ t, exec (.rfTxStart n now g air) s = .next t ∧ (t.radio n).queue = rest ∧ (∃ r, DoneAs t k it 0x24 r)
      ∧ Counted RFM_R_TXFAIL.COUNT n s t))
  ∧ (∀ s n x, (s.radio n).air = some x → x.what = 0 →
    (∀ k it, x.bcast = true ∨ nbit x.flags 0 = true → x.item = some k → s.item k = some it → ∃ t, exec (.rfTxEnd n) s = .next t ∧ (t.radio n).air = none ∧ t.fget RFM_R_STAT.TX_ON n = 0 ∧ t.rx n = 0
      ∧ Counted RFM_R_TXOK.COUNT n s t ∧ DoneAs t k it 0 (x.total % 256 + x.mode * 2 ^ 8 + x.air % 2 ^ 16 * 2 ^ 16 + x.energy * 2 ^ 32))
    ∧ (x.bcast = false → nbit x.flags 0 = false → s.radioOn n = true → ∃ t, exec (.rfTxEnd n) s = .next t ∧ (t.radio n).air = none ∧ t.fget RFM_R_STAT.TX_ON n = 0 ∧ t.rx n = 0
      ∧ (t.radio n).ack = some x ∧ (t.radio n).queue = (s.radio n).queue))
  ∧ (∀ s n x, (s.radio n).ack = some x → s.radioOn n = true → x.attempts < s.fget RFM_R_MAC.MAX_ATT n → ∃ t, exec (.rfAckTimeout n) s = .next t ∧ (t.radio n).ack = none
      ∧ (t.radio n).queue = requeue (s.radio n).queue x ∧ t.dram = s.dram)
  ∧ (∀ s n x rest k it, (s.radio n).queue = x :: rest → x.waiting = true → x.item = some k → s.item k = some it → ∃ t, exec (.rfBudgetWaitExpiry n) s = .next t ∧ (t.radio n).queue = rest
      ∧ (∃ r, DoneAs t k it 0x24 r) ∧ Counted RFM_R_TXFAIL.COUNT n s t)
  ∧ (∀ s n x k it, (s.radio n).held.find? (fun y => y.item == some k) = some x → s.item k = some it → ∃ t, exec (.wmbHoldExpiry n k) s = .next t ∧ (t.radio n).held = (s.radio n).held.erase x
      ∧ (∃ r, DoneAs t k it 0x20 r) ∧ Counted RFM_R_TXFAIL.COUNT n s t)
  ∧ (∀ s n it p r node, Ready s n 8 0 it → r = it.f 1 1 % 2 → node = it.f 2 2 % 32768 → nbit (it.f 2 2) 15 = false →
    0 < it.f 4 2 → it.f 4 2 ≤ 2000 → s.radioOn r = true → nbits (it.f 6 1) 3 1 = 0 → nbits (s.nf node 0x15 1) 4 3 = 0 → s.buf it false (it.f 4 2) = some p →
        s.mayTransmit = true → s.radQueued r < 64 → (s.rfKey (s.fget RFM_KEY_TX.IDX) true).isSome = true →
      ∃ t, exec (.rfSend n) s = .next t ∧ t.item n = some { it with inService := true }
        ∧ (t.radio r).queue = txInsert (s.radio r).queue { item := some n, node := node, payload := p, flags := it.f 6 1, urgent := it.urgent } (fun y => nbit y.flags 2))
  ∧ (∀ s n it v, Turned s n 8 0 v it → ∃ t, exec (.rfSend n) s = .next t ∧ DoneAs t n it v 0 ∧ t.rfm = s.rfm)
  ∧ (∀ s n it p l k r node, Ready s n 8 1 it → r = it.f 1 1 % 2 → node = it.f 2 2 % 32768 →
    0 < it.f 4 2 → it.f 4 2 ≤ 4096 → s.radioOn r = true → s.buf it false (it.f 4 2) = some p → s.nodeLedger node = some (l, k) →
        (tget [] s.pip.ingest (4 + r)).length < 128 → s.ownsLedger k l = true → s.tenOn k = true → s.ten.active.ownsNode k node = true → s.ledExists l = true → (s.routeTask k 0).isSome = true →
      ∃ t d, exec (.rfReinject n) s = .next t ∧ DoneAs t n it 0 0 ∧ tget [] t.pip.ingest (4 + r) = tget [] s.pip.ingest (4 + r) ++ [d] ∧ d.ledger = some l ∧ d.tenant = k ∧ d.apdu = p ∧ d.origin = .radio r)
  ∧ (∀ s n it v, Turned s n 8 1 v it → ∃ t, exec (.rfReinject n) s = .next t ∧ DoneAs t n it v 0 ∧ t.pip = s.pip)

/-- A connection of radio `n`, CONNECTED, its radio ON with nothing on air, its supervision time not passed at `now`. -/
def Alive (s : State) (n k now : Nat) : Prop :=
  connRadio k = n ∧ n < 2 ∧ s.radioOn n = true ∧ s.connState k = 2 ∧ (s.connX k).sent = true ∧ max s.rfm.clk now - (s.connX k).lastRx < s.cf k 0x0E 2 * 10000

/-- CONNECT by tenant 0 for a JOIN_REQ still in time, its occupancy allowed and the node not connected, makes the first free connection CONNECTING with the item's parameters and forgets the request; no byte outside the record changes. CONNECT_IND is on air, from then on the connection has its first event ahead. Without a frame in time
the record is FREE and CONNECT ends with TIMEOUT. A window opens on a free receiver no later than its latest anchor; later it is a conflict and the next event follows; on a busy receiver it waits. A window that closes unheard is missed: the next event, or, with supervision passed, the connection is FREE and lost. An
EMPTY frame whose PDU opens in an event that has its anchor is counted, its PCNT and the moment kept; one that does not open ends the event, counted; one with a PCNT not above the last is counted as a replay. An event's end closes the window for the next event. UPDATE is accepted while CONNECTED for an INSTANT far enough ahead, and applied, the item answered,
when INSTANT is the current event. TERMINATE is noted for the next event. A connection item of another tenant than 0 ends with PROTECTION and sets RFM_R_ERR.CONN, and so does a CONNECT that the check at issue refused with PROTECTION; that check refuses a radio item that names a node its tenant does not own. CONN_RD gives the record's 64 bytes. -/
def Obligations.RadioConnections : Prop :=
  (∀ s n it r node k k0 i j h, Ready s n 8 2 it → it.tenant = 0 → r = it.f 1 1 % 2 → node = it.f 2 2 % 32768 → s.radioOn r = true → i = it.f 0x12 2 →
      paramOk i (it.f 0x14 1) (it.f 0x16 2) = true → 5 ≤ it.f 0x15 1 → it.f 0x15 1 ≤ 16 → s.chmapOk r (it.f 0x18 8) = true → s.fbit RFM_R_CFG.CSM_EN r = true → s.fget RFM_R_CFG.PERS r = 0 →
      (s.radio r).joins.find? (fun j => j.seq == it.f 0x24 4) = some j → s.rfm.clk + 1000 ≤ j.ended + j.delay * 1000 →
      (List.range 2048).find? (fun k => (tget none s.rfm.conns (2048 * r + k)).isNone) = some k0 → k = 2048 * r + k0 → nbit (s.nf node 0x18 2) 15 = false →
      h = ((j.sca + s.fget RFM_R_DRIFT.LOCAL_PPM r) * ((it.f 0x14 1 + 1) * i * 1000) + 999999) / 1000000 + s.fget RFM_R_WIN.JIT r →
      (s.occ r).1 * i + (2 * h + s.fget RFM_R_WIN.T_SET r + s.tps r) * (s.occ r).2 ≤ s.fget RFM_R_WIN.OCC_MAX r * 10 * (s.occ r).2 * i →
    ∃ t, exec (.connect n) s = .next t ∧ t.item n = some { it with inService := true } ∧ t.connState k = 1 ∧ t.cf k 4 2 = node ∧ t.cf k 0x0A 2 = i ∧ t.cf k 0x0E 2 = it.f 0x16 2 ∧ t.cf k 0x10 8 = it.f 0x18 8
      ∧ t.connX k = { item := some n, chan := j.chan, due := j.ended + j.delay * 1000 } ∧ (t.radio r).joins = (s.radio r).joins.erase j
      ∧ ∀ a, (a < s.connAddr k ∨ s.connAddr k + 64 ≤ a) → t.mget a = s.mget a)
  ∧ (∀ s k now air n key, n = connRadio k → s.connState k = 1 → (s.connX k).sent = false → s.radioOn n = true → s.mayTransmit = true → (s.radio n).air = none → s.rfKey (s.fget RFM_KEY_TX.IDX) true = some key →
    ∃ t, exec (.connectIndSend k now air) s = .next t ∧ (t.connX k).sent = true ∧ (t.connX k).lastRx = now + 100 * air ∧ (t.connX k).gone = s.cf k 0x0A 2 * 1000 ∧ (t.connX k).item = (s.connX k).item
      ∧ t.connState k = 1 ∧ (t.radio n).air.isSome = true ∧ t.rx n = 3 ∧ t.fget RFM_R_STAT.TX_ON n = 1 ∧ ∀ a, (a < s.connAddr k ∨ s.connAddr k + 64 ≤ a) → t.mget a = s.mget a)
  ∧ (∀ s k i it, s.connState k = 1 → (s.connX k).item = some i → (s.connX k).queue = [] → (s.connX k).upd = none → (s.connX k).termItem = none → s.item i = some it →
    ∃ t, exec (.connectingTimeout k) s = .next t ∧ t.connState k = 0 ∧ tget none t.rfm.conns k = none ∧ DoneAs t i it 0x20 0 ∧ ∀ a, a ≠ s.connAddr k + 6 → t.mget a = s.mget a)
  ∧ (∀ s k now n, Alive s n k now → (s.connX k).upd = none →
    ((s.radio n).win = none → s.rx n = 0 → (s.radio n).waiting = [] →
      ((now : Int) ≤ s.pred k + (s.connH k (s.connX k).gone : Nat) → ∃ t, exec (.windowOpen k now) s = .next t ∧ (t.radio n).win = some k ∧ t.rx n = 4 ∧ (t.connX k).conflicts = 0 ∧ t.dram = s.dram)
      ∧ (s.pred k + (s.connH k (s.connX k).gone : Nat) < (now : Int) → ∃ t, exec (.windowOpen k now) s = .next t ∧ (t.radio n).win = none ∧ t.rx n = 0 ∧ Counted RFM_R_WINCONF.COUNT n s t
        ∧ t.cf k 8 2 = (s.cf k 8 2 + 1) % 65536 ∧ (t.connX k).gone = (s.connX k).gone + s.cf k 0x0A 2 * 1000))
    ∧ (s.rx n ≠ 0 → (s.radio n).waiting = [] → (s.radio n).win = none → ∃ t, exec (.windowOpen k now) s = .next t ∧ (t.radio n).waiting = [k] ∧ (t.radio n).win = none ∧ t.rx n = s.rx n ∧ t.dram = s.dram))
  ∧ (∀ s k now n, Alive s n k now → (s.radio n).win = some k →
    (s.rx n = 4 → ∃ t, exec (.windowClose n now) s = .next t ∧ (t.radio n).win = none ∧ t.rx n = 0 ∧ Counted RFM_R_WINMISS.COUNT n s t ∧ t.connState k = 2 ∧ t.cf k 8 2 = (s.cf k 8 2 + 1) % 65536
      ∧ (t.connX k).anchored = false)
    ∧ (s.rx n = 2 → ∃ t, exec (.connectionEventEnd n now true) s = .next t ∧ (t.radio n).win = none ∧ t.rx n = 0 ∧ Counted RFM_R_CRCERR.COUNT n s t ∧ t.cf k 8 2 = (s.cf k 8 2 + 1) % 65536)
    ∧ (s.rx n = 0 → (s.connX k).anchored = true → ∃ t, exec (.connectionEventEnd n now false) s = .next t ∧ (t.radio n).win = none ∧ t.rx n = 0 ∧ t.cf k 8 2 = (s.cf k 8 2 + 1) % 65536 ∧ (t.connX k).anchored = false)
    ∧ (∀ an ki pdu lqi rssi air, s.rx n = 2 → s.csmOpen ki (s.cf k 0 4) (s.cf k 8 2) pdu = none → ∃ t, exec (.csmFrameExchange n an now ki pdu lqi rssi air) s = .next t ∧ (t.radio n).win = none ∧ t.rx n = 0
      ∧ Counted RFM_R_SECFAIL.COUNT n s t)
    ∧ (∀ an ki pdu lqi rssi air c pc p, s.rx n = 2 → s.csmOpen ki (s.cf k 0 4) (s.cf k 8 2) pdu = some (c, pc, p) → s.mode ≠ 4 → (s.connX k).any = false →
      (pc ≤ s.cf k 0x2C 4 → ∃ t, exec (.csmFrameExchange n an now ki pdu lqi rssi air) s = .next t ∧ Counted RFM_R_REPLAY.COUNT n s t ∧ Counted RFM_R_RXOK.COUNT n s t ∧ t.connX k = s.connX k ∧ t.dram = s.dram)
      ∧ (s.cf k 0x2C 4 < pc → c % 4 = 1 → (s.connX k).anchored = true → (s.connX k).flight = none → ∃ t, exec (.csmFrameExchange n an now ki pdu lqi rssi air) s = .next t ∧ Counted RFM_R_RXOK.COUNT n s t
        ∧ t.cf k 0x2C 4 = pc ∧ (t.connX k).any = true ∧ (t.connX k).lastRx = max s.rfm.clk now ∧ t.connState k = 2 ∧ ∀ a, (a < s.connAddr k ∨ s.connAddr k + 64 ≤ a) → t.mget a = s.mget a)))
  ∧ (∀ s k now n, connRadio k = n → n < 2 → (s.radio n).win = some k → s.rx n = 4 → s.connState k = 2 → s.cf k 0x0E 2 * 10000 ≤ max s.rfm.clk now - (s.connX k).lastRx →
    ∃ t, exec (.windowClose n now) s = .next t ∧ t.connState k = 0 ∧ tget none t.rfm.conns k = none ∧ (t.radio n).win = none ∧ Counted RFM_R_CONNLOST.COUNT n s t ∧ Counted RFM_R_WINMISS.COUNT n s t)
  ∧ (∀ s k u it, (s.connX k).upd = some u → s.connState k = 3 → s.item u.item = some it →
    (s.cf k 8 2 = s.cf k 0x30 2 → ∃ t, exec (.updateInstant k) s = .next t ∧ t.connState k = 2 ∧ (t.connX k).upd = none ∧ DoneAs t u.item it 0 0
      ∧ (if u.map then t.cf k 0x10 8 = u.chmap % 2 ^ 64 else t.cf k 0x0A 2 = u.interval % 65536 ∧ t.cf k 0x0C 1 = u.latency % 256 ∧ t.cf k 0x0E 2 = u.sup % 65536)
      ∧ ∀ a, (a < s.connAddr k ∨ s.connAddr k + 64 ≤ a) → t.mget a = s.mget a)
    ∧ (s.cf k 8 2 ≠ s.cf k 0x30 2 → exec (.updateInstant k) s = .next s))
  ∧ (∀ s n it r k, it.tenant = 0 → r = it.f 1 1 % 2 → s.radioOn r = true → k = it.conn → k < 4096 → connRadio k = r →
    (Ready s n 8 3 it → s.connState k = 2 → ((s.cf k 0x0C 1 + 6 : Nat) : Int) ≤ sval 16 (it.f 0x20 2 + 65536 - s.cf k 8 2) →
        (if nbit (it.f 6 1) 4 then s.chmapOk r (it.f 0x18 8) = true else paramOk (it.f 0x12 2) (it.f 0x14 1) (it.f 0x16 2) = true) →
      ∃ t u, exec (.connUpdate n) s = .next t ∧ t.item n = some { it with inService := true } ∧ t.connState k = 3 ∧ t.cf k 0x30 2 = it.f 0x20 2 ∧ (t.connX k).upd = some u ∧ u.item = n ∧ u.acked = false
        ∧ u.map = nbit (it.f 6 1) 4 ∧ u.chmap = it.f 0x18 8 ∧ u.interval = it.f 0x12 2 ∧ u.latency = it.f 0x14 1 ∧ u.sup = it.f 0x16 2)
    ∧ (Ready s n 8 4 it → 2 ≤ s.connState k → (s.connX k).term = false → ∃ t, exec (.terminate n) s = .next t ∧ t.item n = some { it with inService := true }
      ∧ t.connX k = { s.connX k with term := true, termItem := some n } ∧ t.dram = s.dram)
    ∧ (Ready s n 8 5 it → s.winOk it.task true (it.f 8 8) 64 = true → ∃ t, exec (.connRd n) s = .next t ∧ DoneAs t n it 0 0 ∧ t.winRead it.task true (it.f 8 8) 64 = s.mread (s.connAddr k) 64
      ∧ t.rfm = s.rfm ∧ t.dram = s.dram))
  ∧ (∀ s n it op, it.tenant ≠ 0 → Ready s n 8 op it →
    (op = 2 → ∃ t, exec (.connect n) s = .next t ∧ DoneAs t n it 0x23 0 ∧ t.fget RFM_R_ERR.CONN (it.f 1 1 % 2) = 1 ∧ t.rfm = s.rfm ∧ t.dram = s.dram)
    ∧ (op = 3 → ∃ t, exec (.connUpdate n) s = .next t ∧ DoneAs t n it 0x23 0 ∧ t.fget RFM_R_ERR.CONN (it.f 1 1 % 2) = 1 ∧ t.rfm = s.rfm ∧ t.dram = s.dram)
    ∧ (op = 4 → ∃ t, exec (.terminate n) s = .next t ∧ DoneAs t n it 0x23 0 ∧ t.fget RFM_R_ERR.CONN (it.f 1 1 % 2) = 1 ∧ t.rfm = s.rfm ∧ t.dram = s.dram)
    ∧ (op = 5 → ∃ t, exec (.connRd n) s = .next t ∧ DoneAs t n it 0x23 0 ∧ t.fget RFM_R_ERR.CONN (it.f 1 1 % 2) = 1 ∧ t.rfm = s.rfm ∧ t.dram = s.dram))
  ∧ (∀ (s : State) (it : Item), s.tenOn it.tenant = true → it.engine = 8 → it.op < 6 → (it.op = 0 → nbit (it.f 2 2) 15 = false) → s.ten.active.ownsNode it.tenant (it.f 2 2 % 32768) = false →
    s.issueVerdict it = 0x23)
  ∧ (∀ s n it, Turned s n 8 2 0x23 it → ∃ t, exec (.connect n) s = .next t ∧ DoneAs t n it 0x23 0 ∧ t.fget RFM_R_ERR.CONN (it.f 1 1 % 2) = 1 ∧ t.rfm = s.rfm ∧ t.dram = s.dram)

/-- The item's output, and nothing else of the windows' memories, is written. -/
def OutWritten (s t : State) (it : Item) (b : List Byte) : Prop :=
  t.winRead it.task (nbit (it.f 1 1) 1) (it.f 0x10 4) b.length = b
    ∧ (nbit (it.f 1 1) 1 = true → t.dram = s.dram ∧ ∀ a, (a < s.winAddr it.task (it.f 0x10 4) ∨ s.winAddr it.task (it.f 0x10 4) + b.length ≤ a) → tget 0 t.dstore a = tget 0 s.dstore a)
    ∧ (nbit (it.f 1 1) 1 = false → t.dstore = s.dstore ∧ ∀ a, (a < s.xwinBase it.task + it.f 0x10 4 ∨ s.xwinBase it.task + it.f 0x10 4 + b.length ≤ a) → t.mget a = s.mget a)

/-- The item's output has room for some bytes. -/
def Fits (s : State) (it : Item) (b : List Byte) : Prop := s.winOk it.task (nbit (it.f 1 1) 1) (it.f 0x10 4) b.length = true

/-- The item ends with an output and a result word. -/
def Gives (c : Instr) (s : State) (n : Nat) (it : Item) (b : List Byte) (r : Nat) : Prop := ∃ t, exec c s = .next t ∧ DoneAs t n it 0 r ∧ OutWritten s t it b

/-- The item ends with a status and no output. -/
def Ends (c : Instr) (s : State) (n : Nat) (it : Item) (st : Nat) : Prop := ∃ t, exec c s = .next t ∧ DoneAs t n it st 0 ∧ t.dram = s.dram ∧ t.dstore = s.dstore

/-- The item ends with a status; no memory of its task changes. -/
def Refused (c : Instr) (s : State) (n st : Nat) : Prop :=
  ∃ t x, exec c s = .next t ∧ t.item n = some x ∧ x.done = some (st, 0) ∧ x.pin = none ∧ t.dram = s.dram ∧ t.dstore = s.dstore

/-- The item waits for a change of slot `m` that the vault has begun; the slot's former key is still there. -/
def Begins (s t : State) (n : Nat) (it : Item) (m : Nat) (c : SlotChg) : Prop :=
  t.item n = some { it with inService := true } ∧ t.vslot m = { s.vslot m with current := some c } ∧ t.fget KV_S_INFO.STATE m = 2 ∧ (∀ j, j ≠ m → t.vslot j = s.vslot j)
    ∧ t.dram = s.dram ∧ t.dstore = s.dstore

/-- A slot without a change under way, its former key either unpinned or with room in the pool. -/
def Idle (s : State) (m : Nat) : Prop := (s.vslot m).current = none ∧ ((s.vslot m).pins = 0 ∨ s.fget KV_POOL.OLDGEN < 256)

/-- A command that serves work items of an engine of 0 to 4 with an OP, but for the random source. -/
def KeyItem (c : Instr) (n e o : Nat) : Prop :=
  (c = .gcmEncrypt n ∧ e = 0 ∧ o = 0) ∨ (c = .gcmDecrypt n ∧ e = 0 ∧ o = 1) ∨ (c = .ctr n ∧ e = 0 ∧ o = 2) ∨ (c = .ccmEncrypt n ∧ e = 0 ∧ o = 3)
    ∨ (c = .ccmDecrypt n ∧ e = 0 ∧ o = 4) ∨ (c = .cmacGenerate n ∧ e = 0 ∧ o = 5) ∨ (c = .cmacVerify n ∧ e = 0 ∧ o = 6) ∨ (c = .ecdsaVerify n ∧ e = 1 ∧ o = 0)
    ∨ (c = .ecdsaSign n ∧ e = 1 ∧ o = 1) ∨ (c = .ecdh n ∧ e = 1 ∧ o = 2) ∨ (c = .keygen n ∧ e = 1 ∧ o = 3) ∨ (c = .publicKey n ∧ e = 1 ∧ o = 4)
    ∨ (c = .sha256 n ∧ e = 2 ∧ o = 0) ∨ (c = .sha384 n ∧ e = 2 ∧ o = 1) ∨ (c = .sha512 n ∧ e = 2 ∧ o = 2) ∨ (c = .hmacGenerate n ∧ e = 2 ∧ o = 3)
    ∨ (c = .hmacVerify n ∧ e = 2 ∧ o = 4) ∨ (c = .keyUpdate n ∧ e = 4 ∧ o = 0) ∨ (c = .vaultErase n ∧ e = 4 ∧ o = 1) ∨ (c = .generate n ∧ e = 4 ∧ o = 2)
    ∨ (c = .derive n ∧ e = 4 ∧ o = 3) ∨ (c = .rewrap n ∧ e = 4 ∧ o = 4) ∨ (c = .info n ∧ e = 4 ∧ o = 5) ∨ (c = .identSign n ∧ e = 4 ∧ o = 6)

/-- An item with a key of the right class and attribute, within its limits and with room for its output, ends OK with exactly that output: AES-GCM and CCM* with the tag after the text, CTR, CMAC (its first 8 bytes in the result word), the signature, the public key, the digests, HMAC, the slot's 32 INFO bytes, the identity's signature, the
number of random bytes asked for. A wrong tag, MAC or signature ends with AUTH_FAIL and no output; a right one of a verification ends OK. A key of another class or attribute, or none, ends with KEY_ATTR or NO_KEY. With keys blocked every item that is not one of the random source ends with NO_KEY, and with a
verdict of its check every one with that verdict; neither writes anything. -/
def Obligations.CryptoItems : Prop :=
  (∀ s n it k d a v, s.itKey it [1, 2] [0] = (0, k) →
    (Ready s n 0 0 it → gcmOk it = true → s.aesIn it 0 = some (d, a, v) → Fits s it (gcmCrypt k.key v d ++ (gcmTag k.key v a (gcmCrypt k.key v d)).take (it.f 2 1)) →
      Gives (.gcmEncrypt n) s n it (gcmCrypt k.key v d ++ (gcmTag k.key v a (gcmCrypt k.key v d)).take (it.f 2 1)) 0)
    ∧ (Ready s n 0 2 it → it.f 0x18 4 ≤ 4096 → it.f 3 1 = 16 → s.itIn it 0 (it.f 0x18 4) = some d → Fits s it (aesCtr k.key (slice it.bytes 0x28 16) d) →
      Gives (.ctr n) s n it (aesCtr k.key (slice it.bytes 0x28 16) d) 0)
    ∧ (Ready s n 0 3 it → ccmOk it = true → s.aesIn it 0 = some (d, a, v) → Fits s it (ccmCrypt k.key v d ++ ccmTag k.key v a d (it.f 2 1)) →
      Gives (.ccmEncrypt n) s n it (ccmCrypt k.key v d ++ ccmTag k.key v a d (it.f 2 1)) 0)
    ∧ (Ready s n 0 5 it → it.f 0x18 4 ≤ 768 → 4 ≤ it.f 2 1 → it.f 2 1 ≤ 16 → s.itIn it 0 (it.f 0x18 4) = some d → Fits s it ((cmac k.key d).take (it.f 2 1)) →
      Gives (.cmacGenerate n) s n it ((cmac k.key d).take (it.f 2 1)) (ofLe (((cmac k.key d).take (it.f 2 1)).take 8))))
  ∧ (∀ s n it k d a v len, s.itKey it [1, 2] [1] = (0, k) → len = it.f 0x18 4 →
    (Ready s n 0 1 it → gcmOk it = true → s.aesIn it (it.f 2 1) = some (d, a, v) →
      ((gcmTag k.key v a (d.take len)).take (it.f 2 1) = d.drop len → Fits s it (gcmCrypt k.key v (d.take len)) → Gives (.gcmDecrypt n) s n it (gcmCrypt k.key v (d.take len)) 0)
      ∧ ((gcmTag k.key v a (d.take len)).take (it.f 2 1) ≠ d.drop len → Ends (.gcmDecrypt n) s n it 0x10))
    ∧ (Ready s n 0 4 it → ccmOk it = true → s.aesIn it (it.f 2 1) = some (d, a, v) →
      (ccmTag k.key v a (ccmCrypt k.key v (d.take len)) (it.f 2 1) = d.drop len → Fits s it (ccmCrypt k.key v (d.take len)) → Gives (.ccmDecrypt n) s n it (ccmCrypt k.key v (d.take len)) 0)
      ∧ (ccmTag k.key v a (ccmCrypt k.key v (d.take len)) (it.f 2 1) ≠ d.drop len → Ends (.ccmDecrypt n) s n it 0x10))
    ∧ (Ready s n 0 6 it → len ≤ 768 → 4 ≤ it.f 2 1 → it.f 2 1 ≤ 16 → s.itIn it 0 len = some d → s.itAux it (it.f 2 1) = some a →
      Ends (.cmacVerify n) s n it (if (cmac k.key d).take (it.f 2 1) = a then 0 else 0x10)))
  ∧ (∀ s n it c d a len, itCurve it = some c → len = it.f 0x18 4 →
    (Ready s n 1 0 it → len = 32 ∨ len = 48 → s.itIn it 0 (len + 2 * c.bytes) = some d → s.itAux it (2 * c.bytes) = some a →
      Ends (.ecdsaVerify n) s n it (if c.verify a (d.drop len) (d.take len) then 0 else 0x10))
    ∧ (∀ k, Ready s n 1 1 it → len = 32 ∨ len = 48 → s.itKey it [itEcType it] [0] = (0, k) → s.itIn it 0 len = some d → Fits s it (c.sign (ofBe k.key) d) → Gives (.ecdsaSign n) s n it (c.sign (ofBe k.key) d) 0)
    ∧ (∀ k, Ready s n 1 4 it → s.itKey it [itEcType it] [0, 3] = (0, k) → Fits s it (c.pub (ofBe k.key)) → Gives (.publicKey n) s n it (c.pub (ofBe k.key)) 0))
  ∧ (∀ s n it d len, len = it.f 0x18 4 → len ≤ 1048576 → s.itIn it 0 len = some d →
    (Ready s n 2 0 it → Fits s it (sha256 d) → Gives (.sha256 n) s n it (sha256 d) 0)
    ∧ (Ready s n 2 1 it → Fits s it (sha384 d) → Gives (.sha384 n) s n it (sha384 d) 0)
    ∧ (Ready s n 2 2 it → Fits s it (sha512 d) → Gives (.sha512 n) s n it (sha512 d) 0)
    ∧ (∀ k, Ready s n 2 3 it → s.itKey it [3, 6] [0] = (0, k) → Fits s it (hmac256 k.key d) → Gives (.hmacGenerate n) s n it (hmac256 k.key d) 0)
    ∧ (∀ k a, Ready s n 2 4 it → s.itKey it [3, 6] [1] = (0, k) → s.itAux it 32 = some a → Ends (.hmacVerify n) s n it (if hmac256 k.key d = a then 0 else 0x10)))
  ∧ (∀ s n it, Ready s n 3 0 it →
    (s.fbit KV_STAT.TRNG_OK = true → 0 < it.f 0x18 4 → it.f 0x18 4 ≤ 64 → s.winOk it.task (nbit (it.f 1 1) 1) (it.f 0x10 4) (it.f 0x18 4) = true → ∃ b, b.length = it.f 0x18 4 ∧ Gives (.randomBytes n) s n it b 0)
    ∧ (s.fbit KV_STAT.TRNG_OK = false → Ends (.randomBytes n) s n it 0xFF))
  ∧ (∀ s n it, (Ready s n 4 5 it → it.pin.isSome = true → Fits s it (s.slotInfo (hSlot it.handle)) → Gives (.info n) s n it (s.slotInfo (hSlot it.handle)) 0)
    ∧ (∀ d, Ready s n 4 6 it → it.tenant = 0 → it.f 0x18 4 = 32 → s.vault.identity ≠ 0 → s.itIn it 0 32 = some d → Fits s it (p256.sign s.vault.identity (sha256 (d ++ s.devId))) →
      Gives (.identSign n) s n it (p256.sign s.vault.identity (sha256 (d ++ s.devId))) 0))
  ∧ (∀ s n it e k, e ≠ 0 →
    (Ready s n 0 0 it → s.itKey it [1, 2] [0] = (e, k) → Ends (.gcmEncrypt n) s n it e) ∧ (Ready s n 0 1 it → s.itKey it [1, 2] [1] = (e, k) → Ends (.gcmDecrypt n) s n it e)
    ∧ (Ready s n 2 3 it → s.itKey it [3, 6] [0] = (e, k) → Ends (.hmacGenerate n) s n it e) ∧ (Ready s n 2 4 it → s.itKey it [3, 6] [1] = (e, k) → Ends (.hmacVerify n) s n it e))
  ∧ (∀ s n it c e o, KeyItem c n e o → s.item n = some it → it.engine = e → it.op = o → it.done = none → it.inService = false →
    (it.verdict ≠ 0 → Ends c s n it it.verdict) ∧ (it.verdict = 0 → s.keysBlocked = true → Ends c s n it 0x15))

/-- A right destination handle, the tenant's own, whose slot has no change under way: ECDH, KEYGEN, GENERATE and DERIVE begin its change, to the shared x-coordinate with attribute DERIVE, a drawn scalar whose public key waits for OUT, drawn bytes of the type's length, the key derived from the label and context at AUX. A label that begins with SVX- is
refused with PROTECTION. ERASE of a right handle begins a change to EMPTY, of a wrong one ends with NO_KEY. A key-update message that passes its checks and loads a key stores its COUNTER with its authority and begins the change; one that fails ends with its status and changes no slot and no counter. With room in the blob store REWRAP stores the ledger's blob under the second key with
the new generation, in DRAM and in the store, and gives that generation. -/
def Obligations.KeyItems : Prop :=
  (∀ s n it m, m = hSlot it.handle2 → s.destOk it = 0 → Idle s m → s.fbit KV_STAT.TRNG_OK = true →
    (∀ c k p x, Ready s n 1 2 it → itCurve it = some c → s.itKey it [itEcType it] [3] = (0, k) → s.itAux it (2 * c.bytes) = some p → c.ecdh (ofBe k.key) p = some x →
      ∃ t, exec (.ecdh n) s = .next t ∧ Begins s t n it m { src := .item n, typ := if c.bytes = 32 then 3 else 6, attr := 3, key := x })
    ∧ (∀ c, Ready s n 1 3 it → itCurve it = some c → attrOk (itEcType it) (it.f 3 1 % 4) = true → (∀ d, Fits s it (c.pub d)) →
      ∃ t d, exec (.keygen n) s = .next t ∧ 0 < d ∧ Begins s t n it m { src := .item n, typ := itEcType it, attr := it.f 3 1 % 4, key := beB c.bytes d, out := c.pub d })
    ∧ (∀ typ, Ready s n 4 2 it → typ = it.f 2 1 → typ = 1 ∨ typ = 2 ∨ typ = 3 ∨ typ = 6 → attrOk typ (it.f 3 1 % 4) = true →
      ∃ t b, exec (.generate n) s = .next t ∧ b.length = keyLen typ ∧ Begins s t n it m { src := .item n, typ := typ, attr := it.f 3 1 % 4, key := b })
    ∧ (∀ k typ x l c, Ready s n 4 3 it → s.itKey it [3, 6] [3] = (0, k) → typ = it.f 2 1 → typ = 1 ∨ typ = 2 ∨ typ = 3 ∨ typ = 6 → attrOk typ (it.f 3 1 % 4) = true → it.f 0x1C 2 ≤ 64 →
        s.itAux it (it.f 0x1C 2) = some x → splitLabel x = some (l, c) →
      (l.take 4 ≠ ascii "SVX-" → ∃ t, exec (.derive n) s = .next t ∧ Begins s t n it m { src := .item n, typ := typ, attr := it.f 3 1 % 4, key := kdf k.key l c (8 * keyLen typ) })
      ∧ (l.take 4 = ascii "SVX-" → Refused (.derive n) s n 0x23)))
  ∧ (∀ s n it, Ready s n 4 1 it →
    (s.handleOk it.handle = true → Idle s (hSlot it.handle) → ∃ t, exec (.vaultErase n) s = .next t ∧ Begins s t n it (hSlot it.handle) { src := .item n, typ := 0 })
    ∧ (s.handleOk it.handle = false → Refused (.vaultErase n) s n 0x15))
  ∧ (∀ s n it m plain e, Ready s n 4 0 it → it.f 0x18 4 ≤ 192 → s.itIn it 0 (it.f 0x18 4) = some m → s.kuCheck m it.tenant = (e, plain) →
    (e = 0 → leAt m 1 1 = 1 → leAt m 2 1 = 0 → s.mode ≠ 2 → Idle s (hSlot (leAt m 0x1C 4)) → leAt m 3 1 ≠ 0 →
      ∃ t, exec (.keyUpdate n) s = .next t ∧ t.get64 KV_S_CNT_LO.CNT_LO KV_S_CNT_HI.CNT_HI (hSlot (leAt m 0x18 4)) = leAt m 0x10 8
        ∧ Begins s t n it (hSlot (leAt m 0x1C 4)) ⟨.item n, leAt m 3 1, leAt m 4 1, plain.take (keyLen (leAt m 3 1)), plain.drop (keyLen (leAt m 3 1)), some (leAt m 0x10 8), [], some (hSlot (leAt m 0x18 4)), s.authCnt (hSlot (leAt m 0x18 4))⟩)
    ∧ (e ≠ 0 → ∃ t x, exec (.keyUpdate n) s = .next t ∧ t.item n = some x ∧ x.done = some (e, 0) ∧ (∀ j, t.fget KV_S_INFO.STATE j = s.fget KV_S_INFO.STATE j ∧ t.fget KV_S_INFO.GEN j = s.fget KV_S_INFO.GEN j
        ∧ t.fget KV_S_CNT_LO.CNT_LO j = s.fget KV_S_CNT_LO.CNT_LO j ∧ t.fget KV_S_CNT_HI.CNT_HI j = s.fget KV_S_CNT_HI.CNT_HI j) ∧ t.dram = s.dram ∧ t.dstore = s.dstore))
  ∧ (∀ s n it l k k2 p su ak b, Ready s n 4 4 it → l = it.f 0x20 4 % 2 ^ 21 → s.itKey it [1, 2] [2] = (0, k) → s.itKey { it with pin := it.pin2 } [1, 2] [2] = (0, k2) →
      s.fbit LDG_CFG.BLOB_VALID = true → blobOpen k (s.mread (s.blobAddr l) 64) none l it.tenant = some (p, su, ak) → blobFits su ak k2.ak.length = true → s.blobRoom l = true →
      b = blobWrap k2 su ak (it.f 0x23 1) l it.tenant p →
    ∃ t, exec (.rewrap n) s = .next t ∧ DoneAs t n it 0 (it.f 0x23 1) ∧ t.mread (s.blobAddr l) b.length = b ∧ tget [] t.vault.blobs l = b
      ∧ (∀ a, (a < s.blobAddr l ∨ s.blobAddr l + b.length ≤ a) → t.mget a = s.mget a) ∧ (∀ j, j ≠ l → tget [] t.vault.blobs j = tget [] s.vault.blobs j))

/-- A read of the fuse array changes no cell and no value in use, and clears the age. PROGRAM with its confirmation, of a word the mode allows whose copies agree, ORs the data into all three copies and gives STATUS 0; of another word it is refused with 0x23, without its confirmation it is an error. LOCK in PROVISION with a DEV_ID locks. A verified sealed record
loads the waiting key: its type, attribute and key, the next generation, LOADED, one more sealed record, KV_SEAL.SEQ one higher; a failed one leaves the slot's key and sets KV_ERR.SEAL. Releasing a pin's last use drops the unpinned old keys of that generation. Re-masking keeps the key. ERASE of a loaded idle slot begins its change; of a busy one it is an error. A failed
health test clears TRNG_OK, a passed restart sets it. A reseed changes only what is drawn later. KV_ZEROIZE with its value, no session open and no reading admitted, empties all 4,096 slots at their next generation, clears the key registers and leads to ZEROIZED, but in HOLDUP; another value is an error. Step 5 sets the next bit of ZCOUNT. -/
def Obligations.Vault : Prop :=
  (∀ s host dev, Open s host .kv → ∃ t, exec (.reread host dev) s = .next t ∧ t.vault.fuse = s.vault.fuse ∧ t.vault.cells = s.vault.cells ∧ t.fget KV_FUSE_AGE.S = 0 ∧ t.fget KV_FUSE_RES.STATUS = 0)
  ∧ (∀ s dev, ∃ t, exec (.fusePeriodicReread dev) s = .next t ∧ t.vault.fuse = s.vault.fuse ∧ t.vault.cells = s.vault.cells ∧ t.fget KV_FUSE_AGE.S = 0 ∧ t.vault.slots = s.vault.slots)
  ∧ (∀ s host c w v a, Open s host .kv → w = s.fget KV_FUSE_ADDR.WORD host → v = s.fget KV_FUSE_DATA.DATA host →
    (c = 0x4655 → s.fuseMay w = true → (∀ k, k < 3 → tget 0 s.vault.cells (w + 512 * k) = a) → tget 0 s.vault.acc w = a →
      ∃ t, exec (.program host c []) s = .next t ∧ (∀ k, k < 3 → tget 0 t.vault.cells (w + 512 * k) = Nat.lor a v) ∧ tget 0 t.vault.acc w = Nat.lor a v ∧ t.fget KV_FUSE_RES.STATUS = 0
        ∧ (∀ j, (∀ k, k < 3 → j ≠ w + 512 * k) → tget 0 t.vault.cells j = tget 0 s.vault.cells j) ∧ t.vault.fuse = s.vault.fuse)
    ∧ (c = 0x4655 → s.fuseMay w = false → ∃ t, exec (.program host c []) s = .next t ∧ t.fget KV_FUSE_RES.STATUS = 0x23 ∧ t.fget KV_ERR.FUSE = 1 ∧ t.vault = s.vault)
    ∧ (c ≠ 0x4655 → ∃ t, exec (.program host c []) s = .next t ∧ t.fget KV_ERR.CMD = 1 ∧ t.vault = s.vault))
  ∧ (∀ s host a, Open s host .kv → s.mode = 2 → tget 0 s.vault.acc 16 ≠ 0 ∨ tget 0 s.vault.acc 17 ≠ 0 → (∀ k, k < 3 → tget 0 s.vault.cells (8 + 512 * k) = a) → tget 0 s.vault.acc 8 = a →
    ∃ t, exec (.lock host 0x4C4B []) s = .next t ∧ t.fget KV_PROV_STAT.LOCKED = 1 ∧ t.fget KV_STAT.LOCKED = 1 ∧ (∀ k, k < 3 → tget 0 t.vault.cells (8 + 512 * k) = Nat.lor a 0xFFFFFFFF))
  ∧ (∀ s host c, Open s host .kv → s.mode ≠ 2 ∨ c ≠ 0x4C4B → ∃ t, exec (.lock host c []) s = .next t ∧ t.vault = s.vault ∧ t.fget KV_PROV_STAT.LOCKED = s.fget KV_PROV_STAT.LOCKED)
  ∧ (∀ s m c, (s.vslot m).current = some c → (s.vslot m).waiting = [] → 0 < c.typ → c.typ ≤ 6 → c.attr < 4 → c.src = .reg → m < 4096 →
    (s.storeFull = false → (s.vslot m).pins = 0 ∨ s.fget KV_POOL.OLDGEN < 256 → ∃ t, exec (.sealRecordDone m true) s = .next t ∧ (t.vslot m).current = none ∧ t.slotKey m = ⟨c.typ, c.attr, c.key, c.ak⟩ ∧ t.slotGen m = (s.slotGen m + 1) % 256
      ∧ t.fget KV_S_INFO.STATE m = 1 ∧ t.fget KV_SEAL.SEQ = (s.fget KV_SEAL.SEQ + 1) % 2 ^ 32 ∧ t.vault.store.length = s.vault.store.length + 1 ∧ t.fget KV_S_RES.STATUS m = 0 ∧ t.fget KV_S_RES.BUSY m = 0
      ∧ ((s.vslot m).pins = 0 → (t.vslot m).old = (s.vslot m).old) ∧ (∀ j, j ≠ m → t.vslot j = s.vslot j))
    ∧ (∃ t, exec (.sealRecordDone m false) s = .next t ∧ (t.vslot m).current = none ∧ t.slotKey m = s.slotKey m ∧ t.slotGen m = s.slotGen m ∧ t.fget KV_ERR.SEAL = 1 ∧ t.fget KV_S_RES.STATUS m = 0x40
      ∧ t.vault.store = s.vault.store))
  ∧ (∀ s m g, ∃ t, exec (.pinRelease m g) s = .next t ∧ t.vslot m = { s.vslot m with old := (s.vslot m).old.filter (fun o => !(o.gen == g && o.pins == 0)) } ∧ (∀ j, j ≠ m → t.vslot j = s.vslot j)
      ∧ t.slotKey m = s.slotKey m)
  ∧ (∀ s m, (s.vslot m).cells.length = (s.vslot m).mask.length → ∃ t, exec (.keyRemask m) s = .next t ∧ t.slotKey m = s.slotKey m ∧ t.regs = s.regs ∧ (∀ j, j ≠ m → t.vslot j = s.vslot j))
  ∧ (∀ s host m, OpenW s host .kv 0 m →
    (s.fbit KV_S_RES.BUSY m = false → s.slotLoaded m = true → Idle s m → ∃ t, exec (.erase host) s = .next t ∧ (t.vslot m).current = some { src := .reg, typ := 0 } ∧ t.fget KV_S_RES.BUSY m = 1
      ∧ t.fget KV_S_INFO.STATE m = 2 ∧ t.slotKey m = s.slotKey m ∧ OnlyRegs [KV_S_RES.BUSY.id, KV_S_INFO.STATE.id] { s with vault := t.vault } t)
    ∧ (s.fbit KV_S_RES.BUSY m = true → ∃ t, exec (.erase host) s = .next t ∧ t.fget KV_ERR.CMD = 1 ∧ t.vault = s.vault))
  ∧ (∀ s w, ∃ t, exec (.trngTestFail w) s = .next t ∧ t.fbit KV_STAT.TRNG_OK = false ∧ t.fget KV_ERR.TRNG = 1 ∧ Counted KV_TRNG.FAILS 0 s t ∧ t.vault = s.vault
      ∧ (if w = 0 then t.fget KV_TRNG.RCT = 1 else t.fget KV_TRNG.APT = 1))
  ∧ (∀ s, s.fbit KV_STAT.TRNG_OK = false → (∃ t, exec (.trngRestartTest true) s = .next t ∧ t.fbit KV_STAT.TRNG_OK = true ∧ Quiet [KV_STAT.TRNG_OK.id] s t) ∧ exec (.trngRestartTest false) s = .next s)
  ∧ (∀ s, exec .drbgReseed s = .next { s with freeCtr := s.freeCtr + 1 })
  ∧ (∀ s host v, Open s host .kv →
    (v % 2 ^ 32 = 0x5A45524F → s.pip.tags = [] → s.pip.fills = [] → (∀ h, h < 9 → (s.host h).mrt.isOpen = false) → AirFree s → ∃ t, exec (.kvZeroize host v) s = .next t
      ∧ (∀ m, m < 4096 → t.fget KV_S_INFO.STATE m = 0 ∧ t.fget KV_S_INFO.TYPE m = 0 ∧ t.slotGen m = (s.slotGen m + 1) % 256 ∧ t.vslot m = {}) ∧ (∀ f ∈ keyRegs, t.fget f = 0)
      ∧ t.vault.zeroStep5 = true ∧ (s.mode ≠ 10 → t.mode = 11) ∧ (s.mode = 10 → t.mode = 10 ∧ t.pow.cold = true))
    ∧ (v % 2 ^ 32 ≠ 0x5A45524F → ∃ t, exec (.kvZeroize host v) s = .next t ∧ t.fget KV_ERR.CMD = 1 ∧ t.vault = s.vault ∧ t.mode = s.mode))
  ∧ (∀ s z k, s.vault.zeroStep5 = true → (∀ c, c < 3 → tget 0 s.vault.cells (10 + 512 * c) = z) → tget 0 s.vault.acc 10 = z → (List.range 32).find? (fun j => !nbit z j) = some k →
    ∃ t, exec (.zeroizeFuseDone []) s = .next t ∧ t.fget KV_ZCOUNT.COUNT = popcount (Nat.lor z (2 ^ k)) ∧ t.vault.zeroStep5 = false ∧ t.vault.zeroPending = false
      ∧ (∀ c, c < 3 → tget 0 t.vault.cells (10 + 512 * c) = Nat.lor z (2 ^ k)))
  ∧ (∀ s dev, s.vault.zeroStep5 = false → exec (.zeroizeFuseDone dev) s = .next s)

/-- The supervisor writes UPD_STAGE_CMD with an OP and a bank, no staging command being under way. -/
def Stage (s : State) (host value op b : Nat) : Prop :=
  Open s host .upd ∧ nbits value 3 0 = op ∧ nbits value 8 8 = b ∧ s.fbit UPD_STAGE_RES.BUSY = false

/-- Images of a bank's set that the running set has with another HASH, or (with `new`) not at all, in activation order. -/
def Differ (s : State) (b : Nat) (new : Bool) : List (Nat × Nat) :=
  ((inOrder (s.setEntries b)).filter (fun e => match s.imgIn s.runBank (e.kind, e.inst) with | some o => o.hash != e.hash | none => new)).map (fun e => (e.kind, e.inst))

/-- OPEN makes a bank that is not running WRITING, an ARMED one STAGED, and is refused in the other states. WRITE_BLOCK and VERIFY of a WRITING bank are BUSY until they end; of another they are refused. A write that ends well leaves the sector equal to the staging buffer and its CRC; a verification that
passes makes the bank STAGED, one that fails gives its status and reason and leaves the bank. ARM and DISARM move a bank between STAGED and ARMED. ACTIVATE_NOW with an ARMED bank, in a mode that allows it, enters UPDATE with the differing images to do; in another mode but RESTRICTED it is an error. CONFIRM, and CONFIRM_S seconds without a trial
fault, make the TRIAL bank LKG and the former one OLD. The last image of an activation, its units drained, a kind that loads nothing, ends it: TRIAL, back in the former mode. REVERT, and a failure, make the bank BAD and the images of it to restore in reverse order (stated for a first image without units). RAISE_FLOOR at or below the floor changes no fuse.
BOOT's steps run once, from BOOT; after three failed ones they end in RESTRICTED. -/
def Obligations.VersionSets : Prop :=
  (∀ s host v b, Stage s host v 1 b →
    (s.runs b = false → (s.bankState b = 3 ∨ s.bankState b = 0 ∨ s.bankState b = 2 ∨ s.bankState b = 6 ∨ s.bankState b = 7) →
      ∃ t, exec (.stageOpen host v) s = .next t ∧ t.bankState b = (if s.bankState b = 3 then 2 else 1) ∧ t.fget UPD_STAGE_RES.STATUS = 0
        ∧ OnlyRegs [UPD_STAGE_CMD.BANK.id, UPD_STAGE_RES.STATUS.id, UPD_STAGE_RES.REASON.id, (bankSt b).id] s t)
    ∧ (s.runs b = true ∨ s.bankState b = 1 ∨ s.bankState b = 4 ∨ s.bankState b = 5 → ∃ t, exec (.stageOpen host v) s = .next t ∧ t.bankState b = s.bankState b ∧ t.fget UPD_ERR.CMD = 1))
  ∧ (∀ s host v b, (s.bankState b = 1 →
      (Stage s host v 2 b → ∃ t, exec (.writeBlock host v) s = .next t ∧ t.upd.cmd = some ⟨2, b, s.fget UPD_STAGE_OFS.SECTOR host⟩ ∧ t.fget UPD_STAGE_RES.BUSY = 1 ∧ t.nand = s.nand ∧ t.bankState b = 1)
      ∧ (Stage s host v 3 b → ∃ t, exec (.verify host v) s = .next t ∧ t.upd.cmd = some ⟨3, b, 0⟩ ∧ t.fget UPD_STAGE_RES.BUSY = 1 ∧ t.nand = s.nand ∧ t.bankState b = 1))
    ∧ (s.bankState b ≠ 1 → (Stage s host v 2 b → ∃ t, exec (.writeBlock host v) s = .next t ∧ t.upd = s.upd ∧ t.fget UPD_ERR.CMD = 1 ∧ t.fbit UPD_STAGE_RES.BUSY = false)
      ∧ (Stage s host v 3 b → ∃ t, exec (.verify host v) s = .next t ∧ t.upd = s.upd ∧ t.fget UPD_ERR.CMD = 1 ∧ t.fbit UPD_STAGE_RES.BUSY = false)))
  ∧ (∀ s c, s.upd.cmd = some c →
    (c.op = 2 → ∃ t, exec (.stageCommandDone false []) s = .next t ∧ t.upd = { s.upd with cmd := none } ∧ t.fget UPD_STAGE_RES.BUSY = 0 ∧ t.fget UPD_STAGE_RES.STATUS = 0
      ∧ t.qread (bankBase c.bank + 65536 * c.sector) 65536 = s.stageBuf ∧ t.fget UPD_STAGE_CRC.CRC = crc32 s.stageBuf % 2 ^ 32
      ∧ ∀ a, (a < bankBase c.bank + 65536 * c.sector ∨ bankBase c.bank + 65536 * c.sector + 65536 ≤ a) → t.qget a = s.qget a)
    ∧ (∀ st r x, c.op ≠ 2 → s.setCheck c.bank false = (st, r, x) → st < 256 → r < 16 → ∃ t, exec (.stageCommandDone false []) s = .next t ∧ t.upd.cmd = none ∧ t.fget UPD_STAGE_RES.BUSY = 0 ∧ t.fget UPD_STAGE_RES.STATUS = st
      ∧ (st = 0 → t.bankState c.bank = 2) ∧ (0 < st → t.fget UPD_STAGE_RES.REASON = r ∧ t.bankState c.bank = s.bankState c.bank ∧ t.nand = s.nand)))
  ∧ (∀ s host v b, (Stage s host v 4 b → s.bankState b = 2 → ∃ t, exec (.stageArm host v) s = .next t ∧ t.bankState b = 3
      ∧ OnlyRegs [UPD_STAGE_CMD.BANK.id, UPD_STAGE_RES.STATUS.id, UPD_STAGE_RES.REASON.id, (bankSt b).id] s t)
    ∧ (Stage s host v 4 b → s.bankState b ≠ 2 → ∃ t, exec (.stageArm host v) s = .next t ∧ t.bankState b = s.bankState b ∧ t.fget UPD_ERR.CMD = 1)
    ∧ (∀ k, Stage s host v 5 b → s.bankIn 3 = k → k < 2 → ∃ t, exec (.disarm host v) s = .next t ∧ t.bankState k = 2 ∧ OnlyRegs [UPD_STAGE_CMD.BANK.id, UPD_STAGE_RES.STATUS.id, UPD_STAGE_RES.REASON.id, (bankSt k).id] s t))
  ∧ (∀ s host v b k img rest, Stage s host v 6 b → nbits v 31 16 = 0x5550 → s.bankIn 3 = k → k < 2 → s.upd.act = none →
    (s.mode = 4 ∨ s.mode = 5 ∨ s.mode = 6 ∨ s.mode = 7 ∨ s.mode = 8 → Differ s k true = img :: rest → s.actUnits img = [] →
      ∃ t, exec (.stageActivateNow host v) s = .next t ∧ t.mode = 9 ∧ t.upd.act = some { bank := k, todo := img :: rest, back := s.mode } ∧ t.fget UPD_ACT_PROG.DONE = 0 ∧ t.dram = s.dram)
    ∧ (s.mode = 1 ∨ s.mode = 2 ∨ s.mode = 9 ∨ s.mode = 10 ∨ s.mode = 11 → ∃ t, exec (.stageActivateNow host v) s = .next t ∧ t.mode = s.mode ∧ t.upd = s.upd ∧ t.fget UPD_ERR.MODE = 1))
  ∧ (∀ s b, s.bankIn 4 = b → b < 2 →
    (∀ host v x, Stage s host v 7 x → ∃ t, exec (.stageConfirm host v) s = .next t ∧ t.bankState b = 5 ∧ (s.bankIn 5 < 2 → t.bankState (s.bankIn 5) = 6) ∧ t.upd = s.upd)
    ∧ (s.fget UPD_CFG.CONFIRM_S ≠ 0 → s.upd.trialFault = false → ∃ t, exec .trialConfirmExpiry s = .next t ∧ t.bankState b = 5 ∧ (s.bankIn 5 < 2 → t.bankState (s.bankIn 5) = 6) ∧ t.upd = s.upd)
    ∧ (s.fget UPD_CFG.CONFIRM_S = 0 → exec .trialConfirmExpiry s = .next s)
    ∧ (∀ host v x, Stage s host v 8 x → nbits v 31 16 = 0x5550 → (∀ i, (Differ s b false).reverse.head? = some i → s.actUnits i = []) →
      ∃ t, exec (.revert host v) s = .next t ∧ t.bankState b = 7 ∧ (Differ s b false ≠ [] → ∃ a, t.upd.act = some a ∧ a.restoring = true ∧ a.bank = b ∧ a.todo = (Differ s b false).reverse ∧ a.back = s.mode)))
  ∧ (∀ s a img rest, s.upd.act = some a → a.todo = img :: rest → a.restoring = false → a.bank < 2 →
    (s.upd.trialFault = false → s.actUnits img = [] → ∃ t, exec .activationFailure s = .next t ∧ t.bankState a.bank = 7 ∧ t.upd.act
        = some { bank := a.bank, todo := img :: a.done.reverse, back := a.back, restoring := true, why := (img.1, img.2, 0x40) })
    ∧ (s.actUnits img = [] → ∃ t r, exec .actTmoExpiry s = .next t ∧ t.bankState a.bank = 7 ∧ t.upd.act = some { bank := a.bank, todo := img :: a.done.reverse, back := a.back, restoring := true, why := (img.1, img.2, r) })
    ∧ (∀ e, s.imgIn a.bank img = some e → s.badBlock a.bank e = none → e.kind = 4 ∨ e.kind = 5 ∨ e.kind = 6 → a.kept = [] → rest = [] → a.back < 16 → s.ten.phase = .idle → s.mode = 9 → s.pow.updFault = false → s.pow.due = false →
      ∃ t, exec .imageActivate s = .next t ∧ t.upd.act = none ∧ t.bankState a.bank = 4 ∧ t.fget (bankTries a.bank) = 0 ∧ t.mode = a.back ∧ t.dram = s.dram))
  ∧ (∀ s, s.upd.act = none → exec .actTmoExpiry s = .next s ∧ (s.upd.trialFault = false → exec .activationFailure s = .next s ∧ exec .imageActivate s = .next s))
  ∧ (∀ s host v b dev, Stage s host v 9 b → nbits v 31 16 = 0x5550 → s.bankIn 5 < 2 → nbit (leAt (s.setDesc_ (s.bankIn 5)) 6 2) 0 = true →
    (leAt (s.setDesc_ (s.bankIn 5)) 0x14 2 ≤ s.fget UPD_SEC_FLOOR.FLOOR → ∃ t, exec (.raiseFloor host v dev) s = .next t ∧ t.vault = s.vault ∧ t.fget UPD_STAGE_RES.STATUS = 0 ∧ t.fget UPD_SEC_FLOOR.FLOOR = s.fget UPD_SEC_FLOOR.FLOOR)
    ∧ (s.fget UPD_SEC_FLOOR.FLOOR < leAt (s.setDesc_ (s.bankIn 5)) 0x14 2 → ∃ t, exec (.raiseFloor host v dev) s = .next t ∧ t.fget UPD_SEC_FLOOR.FLOOR = min t.floorCount 2048 ∧ t.vault.slots = s.vault.slots
      ∧ t.vault.fuse = s.vault.fuse ∧ ∀ w, w % 512 < 64 → tget 0 t.vault.cells w = tget 0 s.vault.cells w))
  ∧ (∀ s env, s.mode = 1 → s.pow.booted = false → ∃ t, exec (.boot env) s = .next t ∧ t.pow.booted = true ∧ (3 ≤ s.fget PWR_RST_CAUSE.BOOT_FAILS → t.mode = 3 ∧ t.pow.boot = some 3))
  ∧ (∀ s env, s.mode ≠ 0 → s.mode ≠ 1 ∨ s.pow.booted = true → exec (.boot env) s = .next s)

/-- A campaign item, checked, of the tenant that opened the campaign, whose state is `st`. -/
def CampReady (s : State) (n op c st : Nat) (it : Item) : Prop :=
  Ready s n 9 op it ∧ c = it.f 1 1 % 16 ∧ s.fget UPD_C_STAT.STATE c = st ∧ (st ≠ 0 → s.fget UPD_C_STAT.TENANT c = it.tenant)

/-- OPEN of an image that meets the limits, in a partition of the tenant with room, makes the campaign LOADING with every block missing, its identity, owner and partition as asked. WRITE stores bytes of the image. SEAL of an image with the right hash makes it STAGED, of another ends with AUTH_FAIL. SEND on an ON lane with room queues the announcement
and goes on. MERGE of no blocks, or within the image, ends OK and never makes fewer blocks missing. PREP_ACT within its limits stores the target and the lanes and makes it ARMED. READ gives the image's bytes. CLOSE leaves it FREE with its registers 0. Another tenant's item, or one the state does not allow, ends with PROTECTION. A SENT campaign whose target cycle is reached is ACTIVATED. -/
def Obligations.Campaigns : Prop :=
  (∀ s n c it h size blk cnt part, CampReady s n 0 c 0 it → size = it.f 0x1C 4 → blk = it.f 0x20 2 → part = it.f 3 1 → 0 < size → size ≤ 2 ^ 24 → blk % 16 = 0 → 64 ≤ blk → blk ≤ 384 → cnt = (size + blk - 1) / blk → cnt ≤ 65535 →
      ownerOf s.ten.active.part part = some it.tenant → s.fbit P_CFG.VALID part = true → s.buf it false 32 = some h → size ≤ s.campSpace part →
    ∃ t, exec (.campOpen n) s = .next t ∧ DoneAs t n it 0 0 ∧ t.fget UPD_C_STAT.STATE c = 1 ∧ t.fget UPD_C_STAT.TENANT c = it.tenant % 1024 ∧ t.fget UPD_C_IMAGE.ID c = it.f 0x18 4 ∧ t.fget UPD_C_BLOCKS.MISSING c = cnt
      ∧ t.fget UPD_C_BLOCKS.COUNT c = cnt ∧ (t.camp c).hash = h ∧ (t.camp c).size = size ∧ (∀ k, k < cnt → t.campMissing c k = true) ∧ (∀ a, (a < s.campMap c ∨ s.campMap c + 8192 ≤ a) → t.mget a = s.mget a))
  ∧ (∀ s n c it b, CampReady s n 1 c 1 it → it.f 0x10 4 + it.f 4 4 ≤ (s.camp c).size → s.buf it false (it.f 4 4) = some b → s.nandReady = true →
    ∃ t, exec (.campWrite n) s = .next t ∧ DoneAs t n it 0 0 ∧ (t.camp c).bytes (it.f 0x10 4) b.length = b ∧ (t.camp c).size = (s.camp c).size ∧ (∀ j, j ≠ c → t.camp j = s.camp j) ∧ t.fget UPD_C_STAT.STATE c = 1)
  ∧ (∀ s n c it, CampReady s n 2 c 1 it → s.ftlMedia false = true →
    (sha256 ((s.camp c).bytes 0 (s.camp c).size) = (s.camp c).hash → ∃ t, exec (.campSeal n) s = .next t ∧ DoneAs t n it 0 0 ∧ t.fget UPD_C_STAT.STATE c = 2 ∧ t.upd = s.upd)
    ∧ (sha256 ((s.camp c).bytes 0 (s.camp c).size) ≠ (s.camp c).hash → ∃ t, exec (.campSeal n) s = .next t ∧ DoneAs t n it 0x10 0 ∧ t.fget UPD_C_STAT.STATE c = 1 ∧ t.upd = s.upd))
  ∧ (∀ s n c st it k, CampReady s n 3 c st it → 2 ≤ st → st ≤ 5 → (s.camp c).send = none → k < 4 → nbit (it.f 2 1 % 16) k = true → s.laneOn k = true → (s.lane k).queue.length < 64 → s.mayTransmit = true →
      s.fget PLC_KEY_TX.IDX = 0 → s.fbit PLC_KEY0.VALID = true → s.keysBlocked = false →
    ∃ t d x, exec (.campSend n) s = .next t ∧ t.item n = some { it with inService := true } ∧ (t.camp c).send = some d ∧ d.item = n ∧ k ∈ d.lanes ∧ d.sent = 0 ∧ d.cur = none
      ∧ (t.lane k).queue = (s.lane k).queue ++ [x] ∧ x.bcast = true ∧ x.camp = some (c, none) ∧ t.dram = s.dram)
  ∧ (∀ s n c st it b, CampReady s n 4 c st it → 2 ≤ st → st ≤ 5 → s.fget UPD_C_BLOCKS.COUNT c ≤ 65535 → s.buf it false ((it.f 0x14 2 + 7) / 8) = some b →
    ∃ t, exec (.merge n) s = .next t ∧ DoneAs t n it 0 0 ∧ (∀ k, k < 65536 → s.campMissing c k = true → t.campMissing c k = true) ∧ (∀ a, (a < s.campMap c ∨ s.campMap c + 8192 ≤ a) → t.mget a = s.mget a) ∧ t.upd = s.upd)
  ∧ (∀ s n c it g tg, CampReady s n 5 c 2 it → g = it.f 0x16 1 → tg = it.f 0x24 6 → 0 < g → g ≤ 15 → s.cycleNow + g + 2 ≤ tg → tg ≤ s.cycleNow + 65535 →
    ∃ t, exec (.prepAct n) s = .next t ∧ DoneAs t n it 0 0 ∧ t.fget UPD_C_STAT.STATE c = 3 ∧ (t.camp c).target = tg ∧ (t.camp c).gap = g ∧ (t.camp c).mask = it.f 2 1 % 16 ∧ t.fget UPD_C_TGT_LO.CYC_LO c = tg % 2 ^ 32)
  ∧ (∀ s n c st it, CampReady s n 6 c st it → 2 ≤ st → st ≤ 5 → it.f 0x10 4 + it.f 4 4 ≤ (s.camp c).size → s.winOk it.task false (it.f 8 8) (it.f 4 4) = true → s.ftlMedia false = true →
    ∃ t, exec (.campRead n) s = .next t ∧ DoneAs t n it 0 0 ∧ t.winRead it.task false (it.f 8 8) (it.f 4 4) = (s.camp c).bytes (it.f 0x10 4) (it.f 4 4) ∧ t.upd = s.upd
      ∧ ∀ a, (a < s.xwinBase it.task + it.f 8 8 ∨ s.xwinBase it.task + it.f 8 8 + it.f 4 4 ≤ a) → t.mget a = s.mget a)
  ∧ (∀ s n c st it, CampReady s n 7 c st it → 1 ≤ st → st ≤ 5 → (s.camp c).send = none →
    ∃ t, exec (.campClose n) s = .next t ∧ DoneAs t n it 0 0 ∧ t.fget UPD_C_STAT.STATE c = 0 ∧ t.camp c = {} ∧ t.fget UPD_C_STAT.TENANT c = 0 ∧ t.fget UPD_C_BLOCKS.COUNT c = 0 ∧ (∀ j, j ≠ c → t.camp j = s.camp j) ∧ t.dram = s.dram)
  ∧ (∀ s n c it op, Ready s n 9 op it → c = it.f 1 1 % 16 → s.fget UPD_C_STAT.STATE c ≠ 0 → s.fget UPD_C_STAT.TENANT c ≠ it.tenant →
    (op = 0 → Ends (.campOpen n) s n it 0x23) ∧ (op = 1 → Ends (.campWrite n) s n it 0x23) ∧ (op = 2 → Ends (.campSeal n) s n it 0x23) ∧ (op = 3 → (s.camp c).send = none → Ends (.campSend n) s n it 0x23)
    ∧ (op = 4 → Ends (.merge n) s n it 0x23) ∧ (op = 5 → Ends (.prepAct n) s n it 0x23) ∧ (op = 6 → Ends (.campRead n) s n it 0x23) ∧ (op = 7 → Ends (.campClose n) s n it 0x23))
  ∧ (∀ s c, c < 16 → (s.fget UPD_C_STAT.STATE c = 4 → ∃ t, exec (.campaignTargetReached c) s = .next t ∧ t.fget UPD_C_STAT.STATE c = 5 ∧ Quiet [UPD_C_STAT.STATE.id] s t)
    ∧ (s.fget UPD_C_STAT.STATE c ≠ 4 → exec (.campaignTargetReached c) s = .next s))

/-- The supervisor writes STO_QCMD with an OP, the confirmation being right, and no command is under way. -/
def QCmd (s : State) (host value op : Nat) : Prop :=
  Open s host .sto ∧ nbits value 3 0 = op ∧ nbits value 31 16 = 0x5153 ∧ s.fbit STO_QRES.BUSY = false

/-- A command on configuration memory ends with PROTECTION and its error bit, and no byte of the device changes. -/
def QProt (c : Instr) (s : State) : Prop := ∃ t, exec c s = .next t ∧ t.fget STO_QRES.STATUS = 0x23 ∧ t.fget STO_ERR.QSPI = 1 ∧ t.nand = s.nand ∧ t.dram = s.dram

/-- READ of a region with a stated layout fills the buffer with the device's bytes. PROGRAM of the device certificate or the user area ands the buffer's bytes into the device's, with MEDIA_ERROR where the result differs from the buffer; ERASE of an aligned sector of them makes its bytes 0xFF; no other byte changes. A region that the table
does not allow, or none, and an ERASE that is not aligned end with PROTECTION and STO_ERR.QSPI. PROGRAM, ERASE and BOOTHDR without the confirmation change nothing and set STO_ERR.CMD. BOOTHDR with a valid copy writes the other one from the buffer with SEQ one above and its CRC, and leaves the valid one (with one valid copy: log entry 34).
With fewer than two erased sectors the vault store's oldest used sector is freed, and every record that is its slot's newest is kept; else compaction does nothing. -/
def Obligations.ConfigMemory : Prop :=
  (∀ s host v a n, QCmd s host v 1 → a = s.fget STO_QADDR.ADDR host → n = s.fget STO_QLEN.LEN host →
    (∀ r, s.qRegion a n = some r → r ≠ 2 → r ≠ 3 → r ≠ 6 → r ≠ 7 → ∃ t, exec (.qspiRead host v) s = .next t ∧ t.qbufRead n = s.qread a n ∧ t.fget STO_QRES.STATUS = 0 ∧ t.nand.qspi = s.nand.qspi ∧ t.dram = s.dram)
    ∧ (s.qRegion a n = some 6 ∨ s.qRegion a n = none → QProt (.qspiRead host v) s))
  ∧ (∀ s host v a n w, QCmd s host v 2 → a = s.fget STO_QADDR.ADDR host → n = s.fget STO_QLEN.LEN host → w = List.zipWith (· &&& ·) (s.qbufRead n) (s.qread a n) →
    (s.qRegion a n = some 4 ∨ s.qRegion a n = some 10 → ∃ t, exec (.qspiProgram host v) s = .next t ∧ t.qread a n = w ∧ t.fget STO_QRES.STATUS = (if w = s.qbufRead n then 0 else 0x40)
      ∧ (∀ x, (x < a ∨ a + n ≤ x) → t.qget x = s.qget x) ∧ t.nand.qbuf = s.nand.qbuf ∧ t.dram = s.dram)
    ∧ (s.qRegion a n ≠ some 4 → s.qRegion a n ≠ some 10 → QProt (.qspiProgram host v) s))
  ∧ (∀ s host v a, QCmd s host v 3 → a = s.fget STO_QADDR.ADDR host →
    ((s.qRegion a 1 = some 4 ∨ s.qRegion a 1 = some 10) → a % 65536 = 0 → ∃ t, exec (.qspiErase host v) s = .next t ∧ t.fget STO_QRES.STATUS = 0
      ∧ (∀ x, a ≤ x → x < a + 65536 → t.qget x = 0xFF) ∧ (∀ x, (x < a ∨ a + 65536 ≤ x) → t.qget x = s.qget x) ∧ t.dram = s.dram)
    ∧ (s.qRegion a 1 ≠ some 4 ∧ s.qRegion a 1 ≠ some 10 ∨ a % 65536 ≠ 0 → QProt (.qspiErase host v) s))
  ∧ (∀ s host v, Open s host .sto → nbits v 31 16 ≠ 0x5153 →
    (nbits v 3 0 = 2 → ∃ t, exec (.qspiProgram host v) s = .next t ∧ t.fget STO_ERR.CMD = 1 ∧ t.nand = s.nand)
    ∧ (nbits v 3 0 = 3 → ∃ t, exec (.qspiErase host v) s = .next t ∧ t.fget STO_ERR.CMD = 1 ∧ t.nand = s.nand)
    ∧ (nbits v 3 0 = 4 → ∃ t, exec (.boothdr host v) s = .next t ∧ t.fget STO_ERR.CMD = 1 ∧ t.nand = s.nand))
  ∧ (∀ s host v c, QCmd s host v 4 → s.qBytes ≠ 0 → s.bootCopy = some c → ∃ t, exec (.boothdr host v) s = .next t ∧ t.fget STO_QRES.STATUS = 0 ∧ t.bootHdr c = s.bootHdr c
    ∧ (t.bootHdr (1 - c)).take 16 = (s.qbufRead 32).take 16 ∧ leAt (t.bootHdr (1 - c)) 0x10 4 = (leAt (s.bootHdr c) 0x10 4 + 1) % 2 ^ 32
    ∧ leAt (t.bootHdr (1 - c)) 0x1C 4 = crc32 ((t.bootHdr (1 - c)).take 28) % 2 ^ 32 ∧ (∀ x, 131072 ≤ x → t.qget x = s.qget x) ∧ t.dram = s.dram)
  ∧ (∀ s, (s.vault.used.length ≤ 30 → exec .vaultStoreCompact s = .next s)
    ∧ (∀ sec rest, s.vault.used = sec :: rest → 30 ≤ rest.length → ∃ t, exec .vaultStoreCompact s = .next t ∧ sec ∉ t.vault.used
      ∧ (∀ r, r ∈ s.vault.store → (∀ x, x ∈ s.vault.store → x.slot = r.slot → x.seq ≤ r.seq) → ∃ x, x ∈ t.vault.store ∧ x = { r with sector := x.sector })
      ∧ t.vault.slots = s.vault.slots ∧ t.regs = s.regs ∧ t.nand = s.nand))

/-- The commands that serve flash items: OP, the partition kind they need, and whether they write. -/
def FlashRow (c : Instr) (n o : Nat) (append : Option Bool) (writes : Bool) : Prop :=
  (c = .ftlRead n ∧ o = 0 ∧ append = none ∧ writes = false) ∨ (c = .ftlWrite n ∧ o = 1 ∧ append = some false ∧ writes = true) ∨ (c = .append n ∧ o = 2 ∧ append = some true ∧ writes = true)
    ∨ (c = .trim n ∧ o = 3 ∧ append = some false ∧ writes = true) ∨ (c = .reclaim n ∧ o = 4 ∧ append = some true ∧ writes = true) ∨ (c = .ftlInfo n ∧ o = 5 ∧ append = none ∧ writes = false)

/-- A flash item of the tenant's own partition of the right kind, NAND taking it, no other item waiting. -/
def FlashIn (s : State) (n o : Nat) (it : Item) (p : Nat) (append : Option Bool) (writes : Bool) : Prop :=
  Ready s n 5 o it ∧ s.nand.jobs = [] ∧ s.ftlPart it append = some p ∧ s.ftlMedia writes = true

/-- An item that NAND's state does not take ends with MEDIA_ERROR, and any other of a partition that is not VALID, or of the other kind, with PROTECTION. READ copies the sectors, zeros for one never written, or the retained bytes of its range. WRITE of a sector whose log block has room stores the window's bytes as its content and waits for its page; one that needs a merge waits with
its sectors unplaced. APPEND that fits adds the bytes at HEAD and waits for its pages with HEAD's former value as its result; without WRAP one that does not fit ends with NO_CREDIT and sets FULL. TRIM makes its sectors unwritten. RECLAIM moves TAIL to ADDR rounded down to a block and drops the bytes before it. INFO gives the capacity and the blocks in use.
Ranges outside the partition end with PROTECTION. What an item leaves of memory and of other sectors is stated with each. -/
def Obligations.FlashItems : Prop :=
  (∀ s n it c o ap w, FlashRow c n o ap w → Ready s n 5 o it → s.nand.jobs = [] →
    (s.ftlMedia w = false → Ends c s n it 0x40)
    ∧ (s.ftlMedia w = true → s.ftlPart it ap = none → Ends c s n it 0x23))
  ∧ (∀ s n it p cnt a, FlashIn s n 0 it p none false → cnt = it.f 4 4 → a = it.f 8 8 →
    (s.fbit P_CFG.KIND p = false →
      (0 < cnt → cnt ≤ 16 → a + cnt ≤ s.partSectors p → s.winOk it.task false (it.f 0x10 8) (cnt * 4096) = true → (∀ k d, tget none (s.part p).sectors k = some d → d.length = 4096) →
        ∃ t, exec (.ftlRead n) s = .next t ∧ DoneAs t n it 0 0 ∧ (∀ k, k < cnt → t.winRead it.task false (it.f 0x10 8 + 4096 * k) 4096 = (tget none (s.part p).sectors (a + k)).getD (List.replicate 4096 0))
          ∧ (∀ x, (x < s.xwinBase it.task + it.f 0x10 8 ∨ s.xwinBase it.task + it.f 0x10 8 + cnt * 4096 ≤ x) → t.mget x = s.mget x) ∧ t.parts = s.parts)
      ∧ (cnt = 0 ∨ 16 < cnt ∨ s.partSectors p < a + cnt → Ends (.ftlRead n) s n it 0x23))
    ∧ (s.fbit P_CFG.KIND p = true →
      (0 < cnt → cnt ≤ 65536 → s.partTail p ≤ a → a + cnt ≤ s.partHead p → s.winOk it.task false (it.f 0x10 8) cnt = true → (s.part p).bytes.length = s.partHead p - s.partTail p →
        ∃ t, exec (.ftlRead n) s = .next t ∧ DoneAs t n it 0 0 ∧ t.winRead it.task false (it.f 0x10 8) cnt = ((s.part p).bytes.drop (a - s.partTail p)).take cnt
          ∧ (∀ x, (x < s.xwinBase it.task + it.f 0x10 8 ∨ s.xwinBase it.task + it.f 0x10 8 + cnt ≤ x) → t.mget x = s.mget x) ∧ t.parts = s.parts)
      ∧ (a < s.partTail p ∨ s.partHead p < a + cnt → Ends (.ftlRead n) s n it 0x23)))
  ∧ (∀ s n it p a, FlashIn s n 1 it p (some false) true → it.f 4 4 = 1 → a = it.f 8 8 → a + 1 ≤ s.partSectors p → s.winOk it.task false (it.f 0x10 8) 4096 = true → 0 < s.blkSectors →
    (∀ lb s1, s.logFor p (a / s.blkSectors) (some n) = (some lb, s1) →
      ∃ t page, exec (.ftlWrite n) s = .next t ∧ t.item n = some { it with inService := true } ∧ tget none (t.part p).sectors a = some (s.winRead it.task false (it.f 0x10 8) 4096)
        ∧ (∀ k, k ≠ a → tget none (t.part p).sectors k = tget none (s.part p).sectors k) ∧ t.nand.jobs = [{ item := n, part := p, pages := [(lb.phys, page)] }] ∧ t.dram = s.dram)
    ∧ ((s.logFor p (a / s.blkSectors) (some n)).1 = none →
      ∃ t, exec (.ftlWrite n) s = .next t ∧ t.item n = some { it with inService := true } ∧ (t.part p).sectors = (s.part p).sectors ∧ t.nand.jobs = [{ item := n, part := p, todo := [a] }] ∧ t.dram = s.dram))
  ∧ (∀ s n it p cnt, FlashIn s n 2 it p (some true) true → cnt = it.f 4 4 → 0 < cnt → cnt ≤ 65536 → s.winOk it.task false (it.f 0x10 8) cnt = true →
    (s.partHead p + cnt ≤ s.partCap p + s.partTail p → s.partHead p + cnt < 2 ^ 64 →
      ∃ t, exec (.append n) s = .next t ∧ (t.part p).bytes = (s.part p).bytes ++ s.winRead it.task false (it.f 0x10 8) cnt ∧ t.partHead p = s.partHead p + cnt ∧ t.partTail p = s.partTail p ∧ t.fget P_STAT.FULL p = 0 ∧ t.dram = s.dram
        ∧ ((∃ pages, pages ≠ [] ∧ t.nand.jobs = [{ item := n, part := p, pages := pages, result := s.partHead p }] ∧ t.item n = some { it with inService := true })
          ∨ (t.nand.jobs = [] ∧ DoneAs t n { it with inService := true } 0 (s.partHead p))))
    ∧ (s.partCap p + s.partTail p < s.partHead p + cnt → s.partTail p ≤ s.partHead p → s.fbit P_CFG.WRAP p = false →
      Ends (.append n) s n it 0x24 ∧ ∀ t, exec (.append n) s = .next t → t.fget P_STAT.FULL p = 1 ∧ t.parts = s.parts ∧ t.partHead p = s.partHead p))
  ∧ (∀ s n it p cnt a, FlashIn s n 3 it p (some false) true → cnt = it.f 4 4 → a = it.f 8 8 →
    (0 < cnt → cnt ≤ 16 → a + cnt ≤ s.partSectors p → ∃ t, exec (.trim n) s = .next t ∧ DoneAs t n it 0 0 ∧ (∀ k, a ≤ k → k < a + cnt → tget none (t.part p).sectors k = none)
      ∧ (∀ k, (k < a ∨ a + cnt ≤ k) → tget none (t.part p).sectors k = tget none (s.part p).sectors k) ∧ t.dram = s.dram)
    ∧ (s.partSectors p < a + cnt → Ends (.trim n) s n it 0x23))
  ∧ (∀ s n it p a, FlashIn s n 4 it p (some true) true → a = it.f 8 8 →
    (s.partTail p ≤ a → a ≤ s.partHead p → 0 < s.blockBytes → ∃ t pos, exec (.reclaim n) s = .next t ∧ pos = max (a / s.blockBytes * s.blockBytes) (s.partTail p) ∧ DoneAs t n it 0 pos ∧ t.partTail p = pos ∧ t.partHead p = s.partHead p
      ∧ (t.part p).bytes = (s.part p).bytes.drop (pos - s.partTail p) ∧ t.dram = s.dram)
    ∧ (a < s.partTail p ∨ s.partHead p < a → Ends (.reclaim n) s n it 0x23))
  ∧ (∀ s n it p, FlashIn s n 5 it p none false →
    ∃ t, exec (.ftlInfo n) s = .next t ∧ DoneAs t n it 0 ((if s.fbit P_CFG.KIND p then s.fget P_SIZE.BLOCKS p else s.partSectors p) + s.fget P_USED.BLOCKS p * 2 ^ 32) ∧ t.parts = s.parts ∧ t.dram = s.dram)

/-- FORMAT, confirmed, while UNFORMATTED or READY, with no block bad and no erase failing: NAND is READY and empty, and every block that was not RETIRED is FREE with one more erase; without the confirmation it is STO_ERR.CMD. The last page an item waits for completes it with its result. A program failure of an OPEN block counts and makes it RELOCATING; of another block it is nothing.
An erase that ends makes a STALE block FREE with one more erase; one that fails counts and retires it, taking from the die's spare. A codeword that does not decode, where parity does not help, counts, ends its reader with MEDIA_ERROR and makes a DATA block RELOCATING; where parity helps nothing is counted. A merge of a log block in order makes it the data block; another merge
makes a new block of the current sectors and counts; the log block is STALE then, no sector changes. A checkpoint goes to the other slot, and none is written while NAND is not READY. Wear levelling moves the data of the one least-erased DATA block once the spread is exceeded. The HOLDUP flush programs the image to an erased area once. -/
def Obligations.NandBlocks : Prop :=
  (∀ s host v, Open s host .sto → nbit v 0 = true →
    (nbits v 31 16 = 0x464D → s.fget STO_NAND_STAT.STATE = 1 ∨ s.fget STO_NAND_STAT.STATE = 4 → s.fget STO_NAND_GEOM.BPD ≤ 16384 →
      ∃ t, exec (.format host v [] []) s = .next t ∧ t.fget STO_NAND_STAT.STATE = 4 ∧ t.parts = [] ∧ t.nand.jobs = [] ∧ t.nand.hu = [] ∧ t.nand.mapped = true ∧ t.dram = s.dram
        ∧ (∀ d k, d < s.fget STO_INFO.DIES → k < s.fget STO_NAND_GEOM.BPD → (s.phys (d * 16384 + k)).st ≠ 6 → t.phys (d * 16384 + k) = { erases := (s.phys (d * 16384 + k)).erases + 1 }))
    ∧ (nbits v 31 16 ≠ 0x464D ∨ (s.fget STO_NAND_STAT.STATE ≠ 1 ∧ s.fget STO_NAND_STAT.STATE ≠ 4) → ∀ bad fails, ∃ t, exec (.format host v bad fails) s = .next t ∧ t.fget STO_ERR.CMD = 1 ∧ t.nand = s.nand ∧ t.parts = s.parts))
  ∧ (∀ s b page bits j it, (s.phys b).st = 1 → page < (s.phys b).pages → (s.phys b).from_ = none → s.nand.jobs = [j] → j.held = false → j.todo = [] → j.pages = [(b, page)] → s.item j.item = some it →
    s.fget D_ECC.MAX_BITS (dieOf b) ≤ 255 → ∃ t, exec (.pageProgramDone b page bits) s = .next t ∧ DoneAs t j.item it 0 j.result ∧ t.nand.jobs = [] ∧ t.fget D_ECC.MAX_BITS (dieOf b) = max (s.fget D_ECC.MAX_BITS (dieOf b)) (min bits 255) ∧ t.dram = s.dram)
  ∧ (∀ s b, ((s.phys b).st = 1 → ∃ t, exec (.programFailure b) s = .next t ∧ (t.phys b).st = 4 ∧ Counted D_FAIL.PROGRAM (dieOf b) s t ∧ t.scb = s.scb ∧ t.dram = s.dram)
    ∧ ((s.phys b).st ≠ 1 → exec (.programFailure b) s = .next s))
  ∧ (∀ s b, (s.phys b).st = 5 →
    (∃ t, exec (.blockEraseDone b true) s = .next t ∧ t.phys b = { erases := (s.phys b).erases + 1 } ∧ (∀ x, x ≠ b → t.phys x = s.phys x) ∧ t.parts = s.parts ∧ t.dram = s.dram)
    ∧ (2 ≤ s.fget D_SPARE.FREE (dieOf b) → s.fget D_SPARE.FREE (dieOf b) < 65536 → ∃ t, exec (.blockEraseDone b false) s = .next t ∧ t.phys b = { st := 6, erases := (s.phys b).erases } ∧ Counted D_FAIL.ERASE (dieOf b) s t ∧ Counted D_BLOCKS.RETIRED (dieOf b) s t
      ∧ t.fget D_SPARE.FREE (dieOf b) = s.fget D_SPARE.FREE (dieOf b) - 1 ∧ t.dram = s.dram))
  ∧ (∀ s b ok, (s.phys b).st ≠ 5 → exec (.blockEraseDone b ok) s = .next s)
  ∧ (∀ s b, (∀ i n it, i = some n → s.item n = some it → it.engine = 5 → it.op = 0 → it.done = none → (s.phys b).st = 3 →
      ∃ t, exec (.uncorrectableRead b i) s = .next t ∧ DoneAs t n it 0x40 0 ∧ Counted D_UNCORR.COUNT (dieOf b) s t ∧ (t.phys b).st = 4 ∧ t.dram = s.dram)
    ∧ (∀ i, 2 ≤ s.fget STO_INFO.DIES →
      ((s.phys b).st = 1 → exec (.uncorrectableRead b i) s = .next s)
      ∧ ((s.phys b).st = 2 → ∃ t, exec (.uncorrectableRead b i) s = .next t ∧ (t.phys b).st = 4 ∧ t.scb = s.scb ∧ t.regs = s.regs ∧ t.dram = s.dram))
    ∧ (s.fget STO_INFO.DIES < 2 → (s.phys b).st = 1 → ∃ t, exec (.uncorrectableRead b none) s = .next t ∧ Counted D_UNCORR.COUNT (dieOf b) s t ∧ t.nand = s.nand))
  ∧ (∀ s p lb rest n cur, (s.part p).merging = lb :: rest → s.nand.jobs = [] → n = s.blkSectors → cur = (List.range n).filter (fun o => (tget none (s.part p).sectors (lb.logical * n + o)).isSome) → cur ≠ [] →
    (lb.sectors = List.range n → ∃ t, exec (.mergeDone p) s = .next t ∧ tget none (t.part p).map lb.logical = some (lb.phys, cur) ∧ (t.part p).merging = rest ∧ (t.part p).sectors = (s.part p).sectors
      ∧ (∀ b live, tget none (s.part p).map lb.logical = some (b, live) → (s.phys b).st = 3 → (t.phys b).st = 5) ∧ t.dram = s.dram)
    ∧ (∀ c s1, lb.sectors ≠ List.range n → s.takeBlk (s.fget P_CFG.DIES p) (some p) = some (c, s1) → ∃ t, exec (.mergeDone p) s = .next t ∧ tget none (t.part p).map lb.logical = some (c, cur) ∧ (t.part p).merging = rest
      ∧ (t.part p).sectors = (s.part p).sectors ∧ Counted P_MERGES.COUNT p s t ∧ ((s.phys lb.phys).st = 2 → (t.phys lb.phys).st = 5) ∧ t.dram = s.dram))
  ∧ (∀ s, (s.nandReady = true → ∃ t, exec .mapCheckpoint s = .next t ∧ t = { s with nand := { s.nand with mapped := true, mapSlot := 1 - s.nand.mapSlot } })
    ∧ (s.nandReady = false → exec .mapCheckpoint s = .next s))
  ∧ (∀ s d k, (s.fget D_ERASE.MAX d ≤ s.fget D_ERASE.MEAN d + s.fget STO_NAND_CFG.WL_DELTA * 100 → exec (.wearLevelMove d) s = .next s)
    ∧ (s.nandReady = true → s.fget D_ERASE.MEAN d + s.fget STO_NAND_CFG.WL_DELTA * 100 < s.fget D_ERASE.MAX d → k < s.fget STO_NAND_GEOM.BPD → (s.phys (d * 16384 + k)).st = 3 →
      (∀ x, x < s.fget STO_NAND_GEOM.BPD → x ≠ k → (s.phys (d * 16384 + x)).st = 3 → (s.phys (d * 16384 + k)).erases < (s.phys (d * 16384 + x)).erases) →
      ∃ t, exec (.wearLevelMove d) s = .next t ∧ (t.phys (d * 16384 + k)).st = 4 ∧ t.regs = s.regs ∧ t.scb = s.scb ∧ t.dram = s.dram))
  ∧ (∀ s a, s.mode = 10 → s.nand.flushed = false → a = s.fget STO_HU_STAT.AREA →
    (s.fget STO_NAND_STAT.STATE = 4 ∨ s.fget STO_NAND_STAT.STATE = 5 → tget none s.nand.hu a = none →
      ∃ t, exec .holdupFlush s = .next t ∧ tget none t.nand.hu a = some s.huImage ∧ (∀ x, x ≠ a → tget none t.nand.hu x = tget none s.nand.hu x) ∧ t.nand.huSeq = s.nand.huSeq + 1 ∧ t.ldg = s.ldg ∧ t.ink = s.ink ∧ t.regs = s.regs)
    ∧ (tget none s.nand.hu a ≠ none → exec .holdupFlush s = .next s))
  ∧ (∀ s, s.mode ≠ 10 → exec .holdupFlush s = .next s)

/-- A record type of R457 that the engines write, a body that fits and a tenant. -/
def InkForm (typ tenant : Nat) (body : List Byte) : Prop :=
  typ ∈ [2, 3, 4, 0x10, 0x11, 0x12, 0x20, 0x21, 0x22, 0x30, 0x40, 0x50, 0x51, 0x60] ∧ body.length ≤ 1008 ∧ tenant < 1024

/-- The record that is stored next, and the bytes it takes. -/
def inkNext (s : State) (typ tenant : Nat) (body : List Byte) : InkRec :=
  { seq := s.fget INK_SEQ.SEQ, typ := typ, tenant := tenant, crit := inkCrit typ, opsec := s.fget MPT_OPSEC.SECONDS, pcyc := s.fget MPT_PCYC.COUNT, body := fit ((body.length + 7) / 8 * 8) body }

/-- The freeze is released: its GAP record is stored where there is room. -/
def Thawed (s t : State) (reason : Nat) : Prop :=
  t.fget INK_STAT.FREEZE = 0 ∧ (s.ink.gapDue = false → s.inkUnflushed + 32 ≤ 524288 →
    t.ink.recs = s.ink.recs ++ [inkNext s 1 0 (gapBody (s.fget INK_SUPP.COUNT) s.ink.firstOp s.ink.lastOp reason)])

/-- A FREEZE with POST takes hold: at once, or after POST records. -/
def Frozen (s t : State) (post : Nat) : Prop :=
  t.fget INK_SUPP.COUNT = 0 ∧ t.ink.recs = s.ink.recs ∧ (post = 0 → t.fget INK_STAT.FREEZE = 2) ∧ (0 < post → t.fget INK_STAT.FREEZE = 1 ∧ t.ink.post = post)

/-- With no freeze and room, a record takes the next number and is appended, after a GAP record with REASON 4 where a drop came before; nothing but the recorder's own registers changes. A frozen recorder suppresses and counts what is not CRIT. The last of POST records freezes it. Without room a record is dropped and counted. A flush leaves no record in the buffer.
FREEZE from off takes hold at once or after POST records, is nothing during a freeze, and is an error above 4,096; RELEASE and the time limit end it with the GAP record of their reason. TAKE latches OLDEST and NEWEST for the host. A read gives the record with OK, the oldest with EVICTED, nothing with NO_CREDIT, or nothing with MEDIA_ERROR. The items do the same for a task:
WRITE with its number as result, READ copying the records to the window, SNAP with both numbers, FREEZE and RELEASE for tenant 0 only; a TYPE, LEN or tenant that is not allowed ends with PROTECTION. Another engine's type is no record. -/
def Obligations.InkwellRecorder : Prop :=
  (∀ s typ ten body, InkForm typ ten body → s.fget INK_STAT.FREEZE = 0 → s.inkUnflushed + 16 + (body.length + 7) / 8 * 8 + 32 ≤ 507904 →
    ∃ t, exec (.inkwellRecord typ ten body) s = .next t ∧ t = { s with regs := t.regs, ink := t.ink } ∧ (∀ f i, f.id ∉ [INK_SEQ.SEQ.id, INK_STAT.USED.id] → t.fget f i = s.fget f i)
      ∧ (s.ink.gapDue = false → t.ink = { s.ink with recs := s.ink.recs ++ [inkNext s typ ten body] } ∧ t.fget INK_SEQ.SEQ = (s.fget INK_SEQ.SEQ + 1) % 2 ^ 32)
      ∧ (s.ink.gapDue = true → t.ink.recs = s.ink.recs ++ [inkNext s 1 0 (gapBody 0 0 0 4), { inkNext s typ ten body with seq := (s.fget INK_SEQ.SEQ + 1) % 2 ^ 32 }] ∧ t.ink.gapDue = false))
  ∧ (∀ s typ ten body, InkForm typ ten body → inkCrit typ = false → s.fget INK_STAT.FREEZE = 2 →
    ∃ t, exec (.inkwellRecord typ ten body) s = .next t ∧ t.ink.recs = s.ink.recs ∧ Counted INK_SUPP.COUNT 0 s t ∧ t.fget INK_SEQ.SEQ = s.fget INK_SEQ.SEQ ∧ t.ink.lastOp = s.fget MPT_OPSEC.SECONDS ∧ t.dram = s.dram)
  ∧ (∀ s typ ten body, InkForm typ ten body → s.fget INK_STAT.FREEZE = 1 → s.ink.gapDue = false → s.inkUnflushed + 16 + (body.length + 7) / 8 * 8 ≤ 507904 →
    ∃ t, exec (.inkwellRecord typ ten body) s = .next t ∧ t.ink.recs = s.ink.recs ++ [inkNext s typ ten body] ∧ (s.ink.post ≤ 1 → t.fget INK_STAT.FREEZE = 2) ∧ (1 < s.ink.post → t.fget INK_STAT.FREEZE = 1 ∧ t.ink.post = s.ink.post - 1))
  ∧ (∀ s typ ten body, InkForm typ ten body → s.fget INK_STAT.FREEZE ≠ 2 → 524288 < s.inkUnflushed + 16 + (body.length + 7) / 8 * 8 →
    ∃ t, exec (.inkwellRecord typ ten body) s = .next t ∧ t.ink = { s.ink with gapDue := true } ∧ Counted INK_DROP.COUNT 0 s t ∧ t.fget INK_SEQ.SEQ = s.fget INK_SEQ.SEQ ∧ t.dram = s.dram)
  ∧ (∀ s typ ten body, ¬ InkForm typ ten body → exec (.inkwellRecord typ ten body) s = .next s)
  ∧ (∀ s, ∃ t, exec .inkwellFlush s = .next t ∧ t = { s with regs := t.regs, ink := t.ink } ∧ (∀ r ∈ t.ink.recs, r.place ≠ .buffer) ∧ t.fget INK_STAT.USED = 0 ∧ (∀ f i, f.id ≠ INK_STAT.USED.id → t.fget f i = s.fget f i)
    ∧ (s.ink.recs.foldl (fun a r => a + r.size) 0 ≤ (if s.nandReady then s.nand.inkBlocks * s.blockBytes else 16 * 65536) → t.ink.recs.map InkRec.bytes = s.ink.recs.map InkRec.bytes))
  ∧ (∀ s host v, Open s host .sto → nbit v 0 = true →
    (nbits v 28 16 ≤ 4096 → s.fget INK_STAT.FREEZE = 0 → ∃ t, exec (.freeze host v) s = .next t ∧ Frozen s t (nbits v 28 16) ∧ t.dram = s.dram)
    ∧ (nbits v 28 16 ≤ 4096 → s.fget INK_STAT.FREEZE ≠ 0 → exec (.freeze host v) s = .next s)
    ∧ (4096 < nbits v 28 16 → ∃ t, exec (.freeze host v) s = .next t ∧ t.fget STO_ERR.RANGE = 1 ∧ t.ink = s.ink))
  ∧ (∀ s host v, Open s host .sto → nbit v 1 = true → nbits v 28 16 ≤ 4096 →
    (s.fget INK_STAT.FREEZE ≠ 0 → ∃ t, exec (.inkRelease host v) s = .next t ∧ Thawed s t 0 ∧ t.dram = s.dram)
    ∧ (s.fget INK_STAT.FREEZE = 0 → exec (.inkRelease host v) s = .next s))
  ∧ (∀ s, (s.fget INK_STAT.FREEZE = 2 → ∃ t, exec .freezeMaxExpiry s = .next t ∧ Thawed s t 1 ∧ t.dram = s.dram) ∧ (s.fget INK_STAT.FREEZE ≠ 2 → exec .freezeMaxExpiry s = .next s))
  ∧ (∀ s host v, Open s host .sto → nbit v 0 = true → ∃ t, exec (.inkSnapTake host v) s = .next t ∧ t.fget INK_SNAP_NEW.SEQ host = s.inkNewest
    ∧ (∀ r rest, s.ink.recs = r :: rest → t.fget INK_SNAP_OLD.SEQ host = r.seq % 2 ^ 32) ∧ (s.ink.recs = [] → t.fget INK_SNAP_OLD.SEQ host = s.fget INK_SEQ.SEQ % 2 ^ 32)
    ∧ OnlyRegs [INK_SNAP_OLD.SEQ.id, INK_SNAP_NEW.SEQ.id] s t ∧ ∀ h, h ≠ host → t.fget INK_SNAP_OLD.SEQ h = s.fget INK_SNAP_OLD.SEQ h)
  ∧ (∀ s host v q fails, Open s host .sto → q = v % 2 ^ 32 →
    (newer32 q s.inkNewest = true → ∃ t, exec (.inkRdSeq host v fails) s = .next t ∧ t.fget INK_RD_RES.STATUS host = 0x24 ∧ t.ink = { s.ink with window := [] } ∧ t.fget INK_RD_SEQ.SEQ host = q)
    ∧ (∀ r, newer32 q s.inkNewest = false → s.ink.recs.find? (fun x => x.seq == q) = some r →
      (fails = false → ∃ t, exec (.inkRdSeq host v fails) s = .next t ∧ t.fget INK_RD_RES.STATUS host = 0 ∧ t.ink = { s.ink with window := r.bytes })
      ∧ (fails = true → r.place = .nand → ∃ t, exec (.inkRdSeq host v fails) s = .next t ∧ t.fget INK_RD_RES.STATUS host = 0x40 ∧ t.ink = { s.ink with window := [] }))
    ∧ (∀ r rest, newer32 q s.inkNewest = false → s.ink.recs.find? (fun x => x.seq == q) = none → s.ink.recs = r :: rest → fails = false →
      ∃ t, exec (.inkRdSeq host v fails) s = .next t ∧ t.fget INK_RD_RES.STATUS host = 0x31 ∧ t.ink = { s.ink with window := r.bytes }))
  ∧ (∀ s n it, Ready s n 6 0 it →
    (∀ b, 0x1000 ≤ it.f 2 2 → it.f 2 2 ≤ 0x1FFF → 8 ≤ it.f 4 2 → it.f 4 2 ≤ 1008 → s.buf it false (it.f 4 2) = some b →
      (s.fget INK_STAT.FREEZE = 0 → s.ink.gapDue = false → s.fget INK_SEQ.SEQ < 2 ^ 32 → s.inkUnflushed + 1024 ≤ 507904 →
        ∃ t, exec (.inkItemWrite n) s = .next t ∧ DoneAs t n it 0 (s.fget INK_SEQ.SEQ) ∧ t.ink.recs = s.ink.recs ++ [inkNext s (it.f 2 2) it.tenant b] ∧ t.dram = s.dram)
      ∧ (s.fget INK_STAT.FREEZE = 2 → ∃ t, exec (.inkItemWrite n) s = .next t ∧ DoneAs t n it 0 (2 ^ 32) ∧ t.ink.recs = s.ink.recs ∧ t.dram = s.dram))
    ∧ (it.f 2 2 < 0x1000 ∨ 0x1FFF < it.f 2 2 ∨ it.f 4 2 < 8 ∨ 1008 < it.f 4 2 → Ends (.inkItemWrite n) s n it 0x23))
  ∧ (∀ s n it, Ready s n 6 1 it → (∀ fails, newer32 (it.f 0x10 4) s.inkNewest = true → Ends (.inkItemRead n fails) s n it 0x24)
    ∧ (newer32 (it.f 0x10 4) s.inkNewest = false → Ends (.inkItemRead n true) s n it 0x40)
    ∧ (∀ st x b k nx, s.inkAt (it.f 0x10 4) = (st, some x) → st ≠ 0x24 → inkTake it.tenant (it.f 0x14 4) (s.ink.recs.dropWhile (fun y => y.seq != x.seq)) = (b, k, nx) → s.winOk it.task false (it.f 8 8) b.length = true →
      ∃ t, exec (.inkItemRead n false) s = .next t ∧ DoneAs t n it st (k + nx.getD (s.fget INK_SEQ.SEQ) * 2 ^ 32) ∧ t.winRead it.task false (it.f 8 8) b.length = b ∧ t.ink = s.ink
        ∧ ∀ a, (a < s.xwinBase it.task + it.f 8 8 ∨ s.xwinBase it.task + it.f 8 8 + b.length ≤ a) → t.mget a = s.mget a))
  ∧ (∀ s n it, Ready s n 6 2 it → ∃ t, exec (.inkItemSnap n) s = .next t ∧ DoneAs t n it 0 (s.inkOldest + s.inkNewest * 2 ^ 32) ∧ t.ink = s.ink ∧ t.dram = s.dram)
  ∧ (∀ s n it, (Ready s n 6 3 it → (it.tenant ≠ 0 ∨ 4096 < it.f 0x18 2 → Ends (.inkItemFreeze n) s n it 0x23)
      ∧ (it.tenant = 0 → it.f 0x18 2 ≤ 4096 → s.fget INK_STAT.FREEZE = 0 → ∃ t, exec (.inkItemFreeze n) s = .next t ∧ DoneAs t n it 0 0 ∧ Frozen s t (it.f 0x18 2) ∧ t.dram = s.dram))
    ∧ (Ready s n 6 4 it → (it.tenant ≠ 0 → Ends (.inkItemRelease n) s n it 0x23)
      ∧ (it.tenant = 0 → s.fget INK_STAT.FREEZE ≠ 0 → ∃ t, exec (.inkItemRelease n) s = .next t ∧ DoneAs t n it 0 0 ∧ Thawed s t 0 ∧ t.dram = s.dram)))

/-- The capacitance in force in 0.1 µF, and E_AVAIL in µJ at a measured voltage in 10 mV (R484). -/
def capOf (s : State) : Nat := if s.fbit RES_C_MEAS.VALID then min (s.fget RES_C_MEAS.C) (10 * s.fget RES_HU_CAP.C_NOM) else 10 * s.fget RES_HU_CAP.C_NOM

/-- E_AVAIL in µJ at a measured voltage in 10 mV (R484). -/
def availOf (s : State) (v : Nat) : Nat :=
  capOf s * (100 - s.fget RES_HU_CAP.DERATE) * s.fget RES_HU_PWR.ETA * (min v (10 * s.fget RES_HU_CFG.V_PF) ^ 2 - (10 * s.fget RES_HU_CFG.V_MIN) ^ 2) / 2000000000

/-- E_COST in µJ of `b` bytes (R485), times in µs. -/
def costOf (s : State) (b : Nat) : Nat :=
  let p := (4096 + b + s.pageBytes - 1) / s.pageBytes
  let us := (p + s.fget STO_INFO.DIES - 1) / s.fget STO_INFO.DIES * s.fget STO_HU_TPROG.US + 1000 + 100 * s.fget RES_HU_PWR.T_ENTRY
  (s.fget RES_HU_PWR.P_HU * us + 10 * s.fget RES_HU_PWR.ETA - 1) / (10 * s.fget RES_HU_PWR.ETA)

/-- What keeps a capacitance test waiting (R487). -/
def TestBarred (s : State) : Prop := s.fbit RES_HU_STAT.WITHHOLD = true ∨ s.mode = 10 ∨ s.fget RES_V_NOW.V < 10 * s.fget RES_HU_CFG.V_PF + 10 * s.fget RES_HU_TEST.DV + 100

/-- A test that is asked for starts, or waits. -/
def TestAsked (s t : State) : Prop :=
  (TestBarred s → t = { s with pow := { s.pow with testWait := true } }) ∧ (¬ TestBarred s → t.fget RES_HU_STAT.TESTING = 1 ∧ t.pow = { s.pow with testWait := false } ∧ OnlyRegs [RES_HU_STAT.TESTING.id] { s with pow := t.pow, out := t.out } t)

/-- Nothing that HOLDUP would have to end: no reading, no frame on the air, lanes and radios not ON, no key change, no claim, no session of the pair. -/
def Calm (s : State) : Prop :=
  s.pip.tags = [] ∧ AirFree s ∧ (∀ n, n < 4 → s.fget PLC_L_STAT.STATE n ≠ 2) ∧ (∀ n, n < 2 → s.fget RFM_R_STAT.STATE n ≠ 2) ∧ s.vault.slots = [] ∧ s.pairState ≠ 4

/-- A reset of a kind (1 cold, 2 warm) for a cause has begun: BOOT, with what R522 keeps. -/
def Rebooted (s t : State) (kind cause : Nat) : Prop :=
  t.mode = 1 ∧ t.fget PWR_RST_CAUSE.CAUSE = cause ∧ t.pow.kind = kind ∧ t.pow.booted = false ∧ t.dram = (if kind = 2 then s.dram else []) ∧ t.fget MPT_OPSEC.SECONDS = s.fget MPT_OPSEC.SECONDS
    ∧ t.vault.cells = s.vault.cells ∧ t.vault.store = s.vault.store ∧ t.parts = s.parts ∧ t.nand.qspi = s.nand.qspi ∧ t.pip.tags = [] ∧ t.scb.items = [] ∧ t.scb.ctxs = [] ∧ t.pending = s.pending

/-- A cost update stores the voltage and power, E_AVAIL and E_COST by their formulas, the bytes to flush and UNCOVERED, and starts or ends withholding by the rule with its hysteresis; with EN 0 nothing is withheld. A test that is asked for starts or waits; its result is by the formula, C_NOM where the voltage hardly fell, and sets RES_ERR.CAP when
it is low. A voltage below V_PF enters HOLDUP (stated for a machine with nothing to end), with GRANT 0, the outputs off and the freeze released. The flush's end is recorded; a reset that was held takes effect then, and a thermal cause leads to VAULT with the buck stage off. The voltage's return after the flush makes a reset, cold after ZEROIZED. -/
def Obligations.ReservoirAndHoldup : Prop :=
  (∀ s v mw, s.mode ≠ 0 → v < 65536 → mw < 65536 → 0 < s.fget STO_INFO.DIES → ∃ t, exec (.reservoirCostUpdate v mw) s = .next t ∧ t.fget RES_V_NOW.V = v ∧ t.fget RES_P_NOW.MW = mw
    ∧ t.fget RES_HU_BYTES.BYTES = s.flushBytes % 2 ^ 32 ∧ t.fget RES_E_COST.UJ = costOf s s.flushBytes % 2 ^ 32 ∧ t.fget RES_E_AVAIL.UJ = availOf s v % 2 ^ 32
    ∧ t.fbit RES_HU_STAT.UNCOVERED = !(s.fbit RES_HU_CFG.EN && s.fbit RES_C_MEAS.VALID) ∧ t.dram = s.dram
    ∧ (s.fbit RES_HU_CFG.EN = false → t.fbit RES_HU_STAT.WITHHOLD = false)
    ∧ (s.fbit RES_HU_CFG.EN = true → s.fbit RES_HU_STAT.WITHHOLD = false →
      (t.fget RES_E_AVAIL.UJ < t.fget RES_E_COST.UJ + s.fget RES_HU_GUARD.GUARD → t.fbit RES_HU_STAT.WITHHOLD = true ∧ t.fbit PIP_WITHHOLD.ACTIVE = true ∧ t.fbit RES_HU_STAT.EARLY = true ∧ ∀ r ∈ t.ink.recs, r.place ≠ .buffer)
      ∧ (t.fget RES_E_COST.UJ + s.fget RES_HU_GUARD.GUARD ≤ t.fget RES_E_AVAIL.UJ → t.fbit RES_HU_STAT.WITHHOLD = false ∧ t.ink = s.ink))
    ∧ (s.fbit RES_HU_CFG.EN = true → s.fbit RES_HU_STAT.WITHHOLD = true →
      (t.fbit RES_HU_STAT.WITHHOLD = false ↔ t.fget RES_E_COST.UJ + s.fget RES_HU_GUARD.GUARD + s.fget RES_HU_GUARD.HYST ≤ t.fget RES_E_AVAIL.UJ)))
  ∧ (∀ s v mw, s.mode = 0 → exec (.reservoirCostUpdate v mw) s = .next s)
  ∧ (∀ s host v, Open s host .res → nbit v 0 = true → s.fbit RES_HU_STAT.TESTING = false → ∃ t, exec (.test host v) s = .next t ∧ TestAsked s t)
  ∧ (∀ s, (s.mode ≠ 0 → s.fget RES_HU_TEST.PERIOD_H ≠ 0 ∨ s.pow.testWait = true → s.fbit RES_HU_STAT.TESTING = false → ∃ t, exec .capTestPeriod s = .next t ∧ TestAsked s t)
    ∧ (s.fget RES_HU_TEST.PERIOD_H = 0 → s.pow.testWait = false → exec .capTestPeriod s = .next s))
  ∧ (∀ s v1 v2 e c, s.fbit RES_HU_STAT.TESTING = true → s.fget RES_HU_CAP.C_NOM < 65536 → c = (if v1 < v2 + 25 then 10 * s.fget RES_HU_CAP.C_NOM else min (200000 * e / (v1 * v1 - v2 * v2)) (2 ^ 20 - 1)) →
    ∃ t, exec (.capTestEnd v1 v2 e) s = .next t ∧ t.fbit RES_HU_STAT.TESTING = false ∧ t.fget RES_C_MEAS.C = c ∧ t.fbit RES_C_MEAS.VALID = true ∧ t.fbit RES_HU_STAT.UNCOVERED = !s.fbit RES_HU_CFG.EN ∧ t.dram = s.dram
      ∧ (100 * c < s.fget RES_HU_CAP.C_MIN_PCT * 10 * s.fget RES_HU_CAP.C_NOM → t.fget RES_ERR.CAP = 1))
  ∧ (∀ s v1 v2 e, s.fbit RES_HU_STAT.TESTING = false → exec (.capTestEnd v1 v2 e) s = .next s)
  ∧ (∀ s v, (s.mode = 4 ∨ s.mode = 5 ∨ s.mode = 6 ∨ s.mode = 7 ∨ s.mode = 8 ∨ s.mode = 9 ∨ s.mode = 11 → v < 10 * s.fget RES_HU_CFG.V_PF → Calm s →
      ∃ t, exec (.holdupEntry v) s = .next t ∧ t.mode = 10 ∧ t.nand.flushed = false ∧ t.upd.act = none ∧ t.fget RES_PAIR_STAT.GRANT = 0 ∧ t.fget SAF_IO_STAT.OUT = 0 ∧ t.fget INK_STAT.FREEZE = 0 ∧ t.fget RES_HU_STAT.TESTING = 0
        ∧ t.pow.thermal = false ∧ (t.pow.cold = true ↔ s.mode = 11) ∧ t.pow.held = none ∧ t.dram = s.dram)
    ∧ (s.mode = 10 ∨ 10 * s.fget RES_HU_CFG.V_PF ≤ v → exec (.holdupEntry v) s = .next s))
  ∧ (∀ s, s.mode = 10 → s.nand.flushed = false →
    (s.pow.held = none → s.pow.thermal = false → exec .holdupFlushDone s = .next { s with nand := { s.nand with flushed := true, jobs := [] } })
    ∧ (s.pow.held = none → s.pow.thermal = true → ∃ t, exec .holdupFlushDone s = .next t ∧ t.mode = 0 ∧ t.pow.hot = true ∧ t.pow.vsys = false ∧ t.dram = [] ∧ t.parts = s.parts ∧ t.vault.cells = s.vault.cells)
    ∧ (∀ k c, s.pow.held = some (k, c) → c < 16 → ∃ t, exec .holdupFlushDone s = .next t ∧ Rebooted s t (if s.pow.cold then 1 else k) c))
  ∧ (∀ s v, (s.mode = 10 → s.nand.flushed = true → s.pow.thermal = false → 10 * s.fget RES_HU_CFG.V_PF + 200 ≤ v → ∃ t, exec (.holdupReturn v) s = .next t ∧ Rebooted s t (if s.pow.cold then 1 else 2) 8)
    ∧ (s.mode ≠ 10 ∨ s.nand.flushed = false ∨ s.pow.thermal = true ∨ v < 10 * s.fget RES_HU_CFG.V_PF + 200 → exec (.holdupReturn v) s = .next s))

/-- The channel runs: RUN or DEGRADED. -/
def Runs (s : State) : Prop := s.safState = 1 ∨ s.safState = 2

/-- A scan that finds no fault of the logic, the sources or the outputs. -/
def CleanScan (s : State) (c : SafScan) : Prop :=
  c.self = [] ∧ c.samples = [] ∧ c.tpBad = 0 ∧ ∀ o, o < 4 → s.fbit SAF_OUT_CFG.EN o = true → nbit (s.fget SAF_IO_STAT.OUT) o = nbit c.rb o

/-- The channel is SAFE with every output off and SAF_KILL low. -/
def SafeNow (t : State) : Prop := t.safState = 3 ∧ t.fget SAF_IO_STAT.OUT = 0 ∧ t.fget SAF_STAT.KILL = 1

/-- SAF_CMD with the confirmation value. -/
def SafCmd (s : State) (host v : Nat) : Prop := Open s host .saf ∧ nbits v 31 16 = 0x5346

/-- After every scan in a powered mode an output is energized exactly when the channel runs, GRANT is 1, the mode allows it, its EN and REQ bits are 1, no fault holds it off, and no used function that names it is in demand or LATCHED. A scan without faults qualifies each input's level, puts a function in demand exactly while an input of its mask is, and leaves a MANUAL function that
leaves demand LATCHED. LOGIC, CLOCK, SUPPLY, a wrong configuration CRC, an output that does not fall in its pulse, and the DEG timer make a running channel SAFE; a failed kill test and an output that does not rise make RUN DEGRADED with the DEG timer. ARM from OFF with the right CRC gives RUN with the MANUAL functions LATCHED, SAF_KILL high; with another CRC it is an error. RESET and
RESTART act as stated; a wrong confirmation is an error. A tamper cause without its EN bit is nothing; in VAULT it sets the pending zeroize, in ZEROIZED its bit. EN bits are set, never cleared. -/
def Obligations.SafetyChannel : Prop :=
  (∀ s c, (s.mode = 0 → exec (.safetyScan c) s = .next s)
    ∧ (s.mode ≠ 0 → ∃ t, exec (.safetyScan c) s = .next t ∧ ∀ o, o < 4 → (nbit (t.fget SAF_IO_STAT.OUT) o = true ↔
        Runs t ∧ t.fbit RES_PAIR_STAT.GRANT = true ∧ (t.mode = 5 ∨ t.mode = 6 ∨ t.mode = 7 ∨ t.mode = 8 ∨ t.mode = 9) ∧ t.fbit SAF_OUT_CFG.EN o = true ∧ nbit (t.fget SAF_OUT_REQ.REQ) o = true ∧ nbit t.saf.heldOff o = false
          ∧ ∀ f, f < 8 → t.fbit SAF_FN.EN f = true → nbit (t.fget SAF_FN.OUT f) o = true → nbit (t.fget SAF_STAT.DEMAND) f = false ∧ nbit (t.fget SAF_STAT.LATCHED) f = false)))
  ∧ (∀ s c, s.mode ≠ 0 → Runs s → CleanScan s c → s.safCrc = s.fget SAF_CFG_CRC.CRC → ∃ t, exec (.safetyScan c) s = .next t ∧ t.safState = s.safState
    ∧ (∀ i hi us, i < 8 → c.inputs[i]? = some (hi, us) → s.fbit SAF_IN_CFG.EN i = true → nbit (t.fget SAF_IO_STAT.DEMAND) i = (if us < s.fget SAF_TIMING.FILTER then nbit (s.fget SAF_IO_STAT.DEMAND) i else !hi))
    ∧ (∀ f, f < 8 → nbit (t.fget SAF_STAT.DEMAND) f = (s.fbit SAF_FN.EN f && decide (Nat.land (s.fget SAF_FN.IN f) t.safDemand ≠ 0))
      ∧ nbit (t.fget SAF_STAT.LATCHED) f = (nbit (s.fget SAF_STAT.LATCHED) f || (nbit (s.fget SAF_STAT.DEMAND) f && !nbit (t.fget SAF_STAT.DEMAND) f && s.fbit SAF_FN.RESTART f))))
  ∧ (∀ s c k, s.mode ≠ 0 → Runs s → k = 10 ∨ k = 11 ∨ k = 12 → c.self = [k] → (k, 0) ∉ s.saf.faults → AirFree s → ∃ t, exec (.safetyScan c) s = .next t ∧ SafeNow t ∧ t.saf.noRefresh = true ∧ (s.fget SAF_STAT.FAULT = 0 → t.fget SAF_STAT.FAULT = k))
  ∧ (∀ s c, s.mode ≠ 0 → Runs s → CleanScan s c → s.safCrc ≠ s.fget SAF_CFG_CRC.CRC → (13, 0) ∉ s.saf.faults → AirFree s → ∃ t, exec (.safetyScan c) s = .next t ∧ SafeNow t)
  ∧ (∀ s o, (4 ≤ o ∨ nbit (s.fget SAF_IO_STAT.OUT) o = false → ∀ a b, exec (.offPulse o a b) s = .next s)
    ∧ (o < 4 → nbit (s.fget SAF_IO_STAT.OUT) o = true → Runs s → AirFree s →
      (∃ t, exec (.offPulse o true true) s = .next t ∧ t = { s with out := t.out })
      ∧ (∀ b, (5, o) ∉ s.saf.faults → ∃ t, exec (.offPulse o false b) s = .next t ∧ SafeNow t)
      ∧ ((6, o) ∉ s.saf.faults → ∃ t, exec (.offPulse o true false) s = .next t ∧ t.safState = 2 ∧ nbit t.saf.heldOff o = true ∧ nbit (t.fget SAF_IO_STAT.OUT) o = false)))
  ∧ (∀ s, (Runs s → s.fget SAF_IO_STAT.OUT = 0 → (∃ t, exec (.killTest true) s = .next t ∧ t = { s with out := t.out })
      ∧ ((7, 0) ∉ s.saf.faults → s.safState = 1 → AirFree s → ∃ t, exec (.killTest false) s = .next t ∧ t.safState = 2 ∧ t.fget SAF_DEG.LEFT = 60 * s.fget SAF_DEG.DEG_MAX % 65536))
    ∧ (s.fget SAF_IO_STAT.OUT ≠ 0 → ∀ ok, exec (.killTest ok) s = .next s))
  ∧ (∀ s host v, SafCmd s host v → nbit v 0 = true →
    (s.safState = 0 → s.safCrc = s.fget SAF_CFG_CRC.CRC → ∃ t, exec (.safArm host v true) s = .next t ∧ t.safState = 1 ∧ t.fget SAF_STAT.KILL = 0
      ∧ ∀ f, f < 8 → nbit (t.fget SAF_STAT.LATCHED) f = (nbit (s.fget SAF_STAT.LATCHED) f || (s.fbit SAF_FN.EN f && s.fbit SAF_FN.RESTART f)))
    ∧ (∀ ok, s.safState = 0 → s.safCrc ≠ s.fget SAF_CFG_CRC.CRC → ∃ t, exec (.safArm host v ok) s = .next t ∧ t.safState = 0 ∧ t.fget SAF_ERR.CRC = 1 ∧ t.saf = s.saf)
    ∧ (∀ ok, s.safState ≠ 0 → exec (.safArm host v ok) s = .next s))
  ∧ (∀ s host v, SafCmd s host v → nbit v 1 = true →
    (s.safState = 2 → (∃ t, exec (.safReset host v true) s = .next t ∧ t.safState = 1 ∧ t.fget SAF_STAT.FAULT = 0 ∧ t.fget SAF_IO_STAT.FORCED = 0 ∧ t.fget SAF_DEG.LEFT = 0 ∧ t.saf.faults = [] ∧ t.saf.heldOff = 0)
      ∧ (∃ t, exec (.safReset host v false) s = .next t ∧ t.safState = 2 ∧ t.fget SAF_ERR.CMD = 1 ∧ t.saf = s.saf))
    ∧ (∀ p, s.safState = 3 → ((∀ e ∈ s.saf.faults, e.1 ≠ 10 ∧ e.1 ≠ 11 ∧ e.1 ≠ 12) → ∃ t, exec (.safReset host v p) s = .next t ∧ t.safState = 0 ∧ t.fget SAF_STAT.FAULT = 0)
      ∧ (∀ e, e ∈ s.saf.faults → e.1 = 10 ∨ e.1 = 11 ∨ e.1 = 12 → ∃ t, exec (.safReset host v p) s = .next t ∧ t.safState = 3 ∧ t.fget SAF_ERR.CMD = 1 ∧ t.saf = s.saf))
    ∧ (∀ p, s.safState = 0 → exec (.safReset host v p) s = .next s))
  ∧ (∀ s host v, SafCmd s host v → nbits v 15 8 ≠ 0 → ∃ t, exec (.restart host v) s = .next t ∧ t.safState = s.safState ∧ ∀ f, f < 8 → nbit (t.fget SAF_STAT.LATCHED) f = (nbit (s.fget SAF_STAT.LATCHED) f && !nbit v (8 + f)))
  ∧ (∀ s host v, Open s host .saf → nbits v 31 16 ≠ 0x5346 →
    (nbit v 0 = true → ∃ t, exec (.safArm host v true) s = .next t ∧ t.fget SAF_ERR.CMD = 1 ∧ t.safState = s.safState) ∧ (nbit v 1 = true → ∃ t, exec (.safReset host v true) s = .next t ∧ t.fget SAF_ERR.CMD = 1 ∧ t.safState = s.safState)
    ∧ (nbits v 15 8 ≠ 0 → ∃ t, exec (.restart host v) s = .next t ∧ t.fget SAF_ERR.CMD = 1 ∧ t.fget SAF_STAT.LATCHED = s.fget SAF_STAT.LATCHED))
  ∧ (∀ s, (s.safState = 2 → AirFree s → ∃ t, exec .degTimerExpiry s = .next t ∧ SafeNow t ∧ t.fget SAF_DEG.LEFT = 0) ∧ (s.safState ≠ 2 → exec .degTimerExpiry s = .next s))
  ∧ (∀ s c, (5 ≤ c ∨ nbit (s.fget SAF_TAMP_CFG.LOOP + 16 * s.fget SAF_TAMP_CFG.MESH) c = false → exec (.tamperDetect c) s = .next s)
    ∧ (c < 5 → nbit (s.fget SAF_TAMP_CFG.LOOP + 16 * s.fget SAF_TAMP_CFG.MESH) c = true →
      (s.mode = 0 → ∃ t, exec (.tamperDetect c) s = .next t ∧ nbit (t.fget SAF_TAMP_STAT.CAUSE) c = true ∧ t.vault = { s.vault with zeroPending := true, zeroTamper := true } ∧ t.mode = 0)
      ∧ (s.mode = 11 → ∃ t, exec (.tamperDetect c) s = .next t ∧ nbit (t.fget SAF_TAMP_STAT.CAUSE) c = true ∧ t.vault = s.vault ∧ t.mode = 11)
      ∧ (s.mode ≠ 0 → s.mode ≠ 11 → s.pip.tags = [] → s.pip.fills = [] → (∀ h, h < 9 → (s.host h).mrt.isOpen = false) → AirFree s → ∃ t, exec (.tamperDetect c) s = .next t ∧ nbit (t.fget SAF_TAMP_STAT.CAUSE) c = true
        ∧ t.vault.zeroPending = true ∧ t.vault.zeroTamper = true ∧ t.vault.slots = [] ∧ (s.mode ≠ 10 → t.mode = 11))))
  ∧ (∀ s host v, Open s host .saf → s.fget SAF_TAMP_CFG.LOOP < 16 → ∃ t, exec (.tampCfgWrite host v 0) s = .next t ∧ t.fget SAF_TAMP_CFG.LOOP = Nat.lor (s.fget SAF_TAMP_CFG.LOOP) (v % 16)
    ∧ t.fget SAF_TAMP_CFG.MESH = Nat.lor (s.fget SAF_TAMP_CFG.MESH) (nbits v 4 4) % 2 ∧ OnlyRegs [SAF_TAMP_CFG.LOOP.id, SAF_TAMP_CFG.MESH.id] s t)

/-- What a detected fault does (R518): its bit, and by the mode DEGRADED, a released claim, or a note of it. -/
def Detected (s t : State) (bit : Nat) : Prop :=
  nbit (t.fget PWR_FAULT.CAUSE) bit = true ∧ (∀ j, j < 7 → j ≠ bit → nbit (t.fget PWR_FAULT.CAUSE) j = nbit (s.fget PWR_FAULT.CAUSE) j)
    ∧ (s.mode = 5 ∨ s.mode = 6 ∨ s.mode = 7 →
      (s.mayRelease = false → t.mode = 8 ∧ t.fget PWR_MODE_STAT.RETURN = s.mode ∧ t.fget PWR_DEG.LEFT = s.fget PWR_DEG.DEG_MAX % 65536 ∧ t.pow.timer = true ∧ t.pow.deg = 60 * s.fget PWR_DEG.DEG_MAX)
      ∧ (s.mayRelease = true → t.mode = 4 ∧ t.pairState = 5 ∧ t.fget RES_PAIR_STAT.GRANT = 0 ∧ t.fget RES_PAIR_STAT.CLAIM_OUT = 0))
    ∧ (s.mode = 4 → t.mode = 4 ∧ t.pair.faulty = true) ∧ (s.mode = 9 → t.mode = 9 ∧ t.pow.updFault = true)
    ∧ (s.mode < 4 ∨ s.mode = 8 ∨ 9 < s.mode → t.mode = s.mode ∧ t.pow = s.pow ∧ t.pair = s.pair)

/-- A request that the mode does not allow sets PWR_ERR.MODE and changes no mode. -/
def NotNow (c : Instr) (s : State) : Prop := ∃ t, exec c s = .next t ∧ t.fget PWR_ERR.MODE = 1 ∧ t.mode = s.mode ∧ t.pow = s.pow ∧ t.dram = s.dram

/-- PWR_MODE_REQ with an OP and its confirmation value. -/
def ModeReq (s : State) (host v op : Nat) : Prop := Open s host .pwr ∧ nbits v 3 0 = op ∧ nbits v 31 16 = 0x4D44

/-- A reset request: at once, held in HOLDUP until the flush ends (a cold one before a warm one), nothing in VAULT. -/
def ResetAsked (c : Instr) (s : State) (kind cause : Nat) : Prop :=
  (s.mode ≠ 0 → s.mode ≠ 10 → ∃ t, exec c s = .next t ∧ Rebooted s t kind cause)
    ∧ (s.mode = 10 → s.nand.flushed = false → ∃ t, exec c s = .next t ∧ t = { s with pow := t.pow } ∧ t.pow.held = (match s.pow.held with | some (1, c) => some (1, c) | _ => some (kind, cause)))
    ∧ (s.mode = 10 → s.nand.flushed = true → ∃ t, exec c s = .next t ∧ Rebooted s t (if s.pow.cold then 1 else kind) cause)

/-- HVIN's rise starts the buck stage from VAULT unless it is stopped or hot; its fall clears the failed starts. Groups are enabled one after another; a group that is late is a failed start, and the third stops the buck stage with cause RAIL. VSYS falling switches the rails off and leads to VAULT with what the vault domain, NAND and configuration memory hold. A rail out of tolerance is a cold
reset; in warning it is a detected fault. VBAT low sets its bits; VBAT lost in VAULT clears the vault domain. The sensors are stored with the highest of 0 to 7. A qualified crossing changes the band by one and sets the throttle, and at CRIT enters HOLDUP with a thermal cause; one that does not stand is nothing. Role entry, its conditions met, gives the role mode with GRANT,
or STANDBY in LISTEN; a BOOT that is late is a cold reset and counts. -/
def Obligations.PowerChain : Prop :=
  (∀ s v, ∃ t, exec (.hvinRise v) s = .next t ∧ t = { s with regs := t.regs, pow := t.pow } ∧ t.fget PWR_HVIN.V = v % 65536
      ∧ t.pow = (if s.mode = 0 ∧ s.pow.stopped = false ∧ s.pow.hot = false ∧ s.pow.vsys = false then { s.pow with hv := true, vsys := true, group := 0 } else { s.pow with hv := true }))
  ∧ (∀ s v, ∃ t, exec (.hvinFall v) s = .next t ∧ t.fget PWR_HVIN.V = v % 65536 ∧ OnlyRegs [PWR_HVIN.V.id] { s with pow := { s.pow with hv := false, fails := 0, retry := false, stopped := false } } t)
  ∧ (∀ s g, s.mode = 0 → s.pow.hv = true → s.pow.vsys = true → s.pow.stopped = false → s.pow.retry = false → s.pow.group = g → g < 5 →
    ∃ t, exec .railGroupEnable s = .next t ∧ t.pow = { s.pow with group := g + 1 } ∧ t.out = s.out ++ [.pin 4 (g + 1) 1])
  ∧ (∀ s, s.mode = 0 → s.pow.vsys = true → s.pow.stopped = false → s.pow.retry = false → s.pow.group ≠ 0 →
    (s.pow.fails < 2 → ∃ t, exec .failedStart s = .next t ∧ t.pow = { s.pow with group := 0, fails := s.pow.fails + 1, retry := true } ∧ t.fget PWR_RAIL_STAT.GOOD = 0)
    ∧ (2 ≤ s.pow.fails → ∃ t, exec .failedStart s = .next t ∧ t.pow = { s.pow with group := 0, fails := 3, stopped := true, vsys := false, railStart := true } ∧ t.fget PWR_RST_CAUSE.CAUSE = 4))
  ∧ (∀ s, s.mode ≠ 0 → exec .failedStart s = .next s ∧ exec .railGroupEnable s = .next s ∧ exec .vbatLost s = .next s ∧ exec .thermalRestart s = .next s)
  ∧ (∀ s, ∃ t, exec .startRetry s = .next t ∧ t = { s with pow := { s.pow with retry := false } })
  ∧ (∀ s mv, ∃ t, exec (.vsysFall mv) s = .next t ∧ t.mode = 0 ∧ t.pow.vsys = false ∧ t.pow.group = 0 ∧ t.vault.cells = s.vault.cells ∧ t.parts = s.parts ∧ t.nand.qspi = s.nand.qspi ∧ t.pending = s.pending
    ∧ (s.mode ≠ 0 → t.dram = [] ∧ t.scb.items = [] ∧ t.fget MPT_OPSEC.SECONDS = s.fget MPT_OPSEC.SECONDS ∧ t.ink.recs = s.ink.recs.filter (fun r => r.place != .buffer)))
  ∧ (∀ s r, (r < 7 → s.mode ≠ 0 → ∃ t, exec (.railFault r) s = .next t ∧ Rebooted s t 1 4) ∧ (7 ≤ r ∨ s.mode = 0 → exec (.railFault r) s = .next s))
  ∧ (∀ s r, (r < 7 → s.mode ≠ 0 → AirFree s → ∃ t, exec (.railWarn r) s = .next t ∧ nbit (t.fget PWR_RAIL_STAT.WARN) r = true ∧ Detected s t 5) ∧ (7 ≤ r ∨ s.mode = 0 → exec (.railWarn r) s = .next s))
  ∧ (∀ s mv, (mv < 2200 → s.mode ≠ 0 → ∃ t, exec (.vbatLow mv) s = .next t ∧ t.fget PWR_VBAT.MV = mv ∧ t.fget PWR_VBAT.LOW = 1 ∧ t.mode = s.mode ∧ t.vault = s.vault ∧ t.dram = s.dram) ∧ (2200 ≤ mv → mv < 65536 → s.mode ≠ 0 → ∃ t, exec (.vbatLow mv) s = .next t ∧ t.fget PWR_VBAT.MV = mv ∧ t.fget PWR_VBAT.LOW = 0 ∧ t.mode = s.mode ∧ t.dram = s.dram))
  ∧ (∀ s, s.mode = 0 → s.pow.vsys = false → ∃ t, exec .vbatLost s = .next t ∧ t.fget MPT_OPSEC.SECONDS = 0 ∧ t.fget MPT_PCYC.COUNT = 0 ∧ t.fget PWR_RST_CAUSE.BOOT_FAILS = 0 ∧ t.fget SAF_TAMP_STAT.CAUSE = 0 ∧ t.time.saved = none
    ∧ t.vault = { s.vault with vaultSeq := none, zeroPending := false, zeroTamper := false } ∧ t.pow = { s.pow with vbatGone := true } ∧ t.parts = s.parts ∧ t.nand = s.nand)
  ∧ (∀ s temps, s.mode ≠ 0 → temps.length = 9 → ∃ t m, exec (.thermalSample temps) s = .next t ∧ (∀ k, k < 9 → t.fget PWR_TEMP.T k = uval 16 (temps.getD k 0)) ∧ m < 8 ∧ (∀ k, k < 8 → temps.getD k 0 ≤ temps.getD m 0)
    ∧ t.fget PWR_TJMAX.SENSOR = m ∧ t.fget PWR_TJMAX.T = uval 16 (temps.getD m 0) ∧ OnlyRegs [PWR_TEMP.T.id, PWR_TJMAX.SENSOR.id, PWR_TJMAX.T.id] s t)
  ∧ (∀ s k dev, s.mode ≠ 0 → k < 6 →
    (s.fget PWR_TBAND.BAND = k → s.thr k ≤ s.tjMax → k < 5 → ∃ t, exec (.thermalCrossing k true dev) s = .next t ∧ t.fget PWR_TBAND.BAND = k + 1 ∧ t.fbit PWR_THROTTLE.ACTIVE = (decide (4 ≤ k) && s.fbit PWR_THERM_CFG.THROTTLE_EN) ∧ t.mode = s.mode ∧ t.dram = s.dram)
    ∧ (s.fget PWR_TBAND.BAND = 5 → k = 5 → s.thr 5 ≤ s.tjMax → s.mode = 5 ∨ s.mode = 6 → Calm s → ∃ t, exec (.thermalCrossing k true dev) s = .next t ∧ t.fget PWR_TBAND.BAND = 6 ∧ t.mode = 10 ∧ t.pow.thermal = true)
    ∧ (s.fget PWR_TBAND.BAND = k + 1 → s.tjMax < s.thr k - 30 → ∃ t, exec (.thermalCrossing k false dev) s = .next t ∧ t.fget PWR_TBAND.BAND = k ∧ t.fbit PWR_THROTTLE.ACTIVE = (decide (5 ≤ k) && s.fbit PWR_THERM_CFG.THROTTLE_EN) ∧ t.mode = s.mode)
    ∧ (s.tjMax < s.thr k → exec (.thermalCrossing k true dev) s = .next s) ∧ (s.thr k - 30 ≤ s.tjMax → exec (.thermalCrossing k false dev) s = .next s))
  ∧ (∀ s, s.mode = 0 → s.pow.hot = true → s.pow.vsys = false → s.pow.hv = true → ∃ t, exec .thermalRestart s = .next t ∧ t = { s with pow := { s.pow with vsys := true, group := 0 } })
  ∧ (∀ s, (s.mode = 1 → ∃ t, exec .dramInitDone s = .next t ∧ t = { s with pow := { s.pow with dram := true } }) ∧ (s.mode ≠ 1 → exec .dramInitDone s = .next s))
  ∧ (∀ s ms, s.mode = 1 → s.pow.booted = true → s.pow.dram = true → s.pow.boot = none → s.fget PWR_TBAND.BAND ≤ 4 → s.pow.hot = false → s.fbit RES_HU_STAT.TESTING = false → AirFree s →
    ∃ t, exec (.roleEntry ms) s = .next t ∧ t.fget PWR_RST_CAUSE.BOOT_FAILS = 0 ∧ t.pow.entered = true ∧ t.fget PWR_BOOT.LAST_MS = min ms 65535 ∧ t.dram = s.dram
      ∧ (s.pair.en = false → t.mode = (if s.centre then 6 else 5) ∧ t.fbit RES_PAIR_STAT.GRANT = true) ∧ (s.pair.en = true → t.mode = 4 ∧ t.pairState = 1 ∧ t.fget RES_PAIR_STAT.GRANT = 0))
  ∧ (∀ s ms, s.mode ≠ 1 ∨ s.pow.booted = false ∨ s.pow.dram = false ∨ 4 < s.fget PWR_TBAND.BAND → exec (.roleEntry ms) s = .next s)
  ∧ (∀ s, (s.mode = 1 → s.fget PWR_RST_CAUSE.BOOT_FAILS < 3 → s.pow.dram = false → ∃ t, exec .bootTimeout s = .next t ∧ Rebooted s t 1 5 ∧ t.fget PWR_RST_CAUSE.BOOT_FAILS = s.fget PWR_RST_CAUSE.BOOT_FAILS + 1)
    ∧ (s.mode ≠ 1 ∨ 3 ≤ s.fget PWR_RST_CAUSE.BOOT_FAILS → exec .bootTimeout s = .next s))

/-- A request is valid in the modes R517 names and else sets PWR_ERR.MODE; without its confirmation it sets PWR_ERR.CMD. ISLAND and CONNECT change between CONCENTRATOR and ISLANDED. DEGRADE and the causes of R518 are detected faults: the bit, then DEGRADED with its return mode and timer, or STANDBY with the claim released to a synced partner, or a note of it. RESUME ends DEGRADED in the return mode
unless something bars it. The backhaul's state, held long enough, changes to ISLANDED and back. The DEGRADED timer's end is a warm reset, deferred in UPDATE. Warm, cold and RST_N resets begin BOOT with what they keep, wait in HOLDUP for the flush, and a warm one is refused in ZEROIZED. -/
def Obligations.ModesAndResets : Prop :=
  (∀ s host v, ModeReq s host v 1 → (s.centre = false → s.mode = 5 → ∃ t, exec (.island host v) s = .next t ∧ t.mode = 7 ∧ t.fget CHIP_MODE.PREV_MODE = 5 ∧ t.pow = s.pow ∧ t.dram = s.dram) ∧ (s.centre = true ∨ s.mode ≠ 5 → NotNow (.island host v) s))
  ∧ (∀ s host v, ModeReq s host v 2 → (s.centre = false → s.mode = 7 → ∃ t, exec (.connectReq host v) s = .next t ∧ t.mode = 5 ∧ t.fget CHIP_MODE.PREV_MODE = 7 ∧ t.pow = s.pow ∧ t.dram = s.dram) ∧ (s.centre = true ∨ s.mode ≠ 7 → NotNow (.connectReq host v) s))
  ∧ (∀ s host v, ModeReq s host v 3 → (4 ≤ s.mode → s.mode ≤ 9 → AirFree s → ∃ t, exec (.degrade host v) s = .next t ∧ Detected s t 4) ∧ (s.mode < 4 ∨ 9 < s.mode → NotNow (.degrade host v) s))
  ∧ (∀ s host v, ModeReq s host v 4 →
    (s.mode = 8 → s.resumeBarred = false → s.fget PWR_MODE_STAT.RETURN < 16 → ∃ t, exec (.resume host v) s = .next t ∧ t.mode = s.fget PWR_MODE_STAT.RETURN ∧ t.fget PWR_FAULT.CAUSE = 0 ∧ t.fget PWR_DEG.LEFT = 0 ∧ t.pow = { s.pow with timer := false, deg := 0 } ∧ t.dram = s.dram)
    ∧ (s.mode = 8 ∨ s.mode = 4 → s.resumeBarred = true → ∃ t, exec (.resume host v) s = .next t ∧ t.fget PWR_ERR.RESUME = 1 ∧ t.mode = s.mode ∧ t.pow = s.pow ∧ t.fget PWR_FAULT.CAUSE = s.fget PWR_FAULT.CAUSE)
    ∧ (s.mode ≠ 8 → s.mode ≠ 4 → NotNow (.resume host v) s))
  ∧ (∀ s host v, Open s host .pwr → nbits v 31 16 ≠ 0x4D44 →
    (nbits v 3 0 = 1 → ∃ t, exec (.island host v) s = .next t ∧ t.fget PWR_ERR.CMD = 1 ∧ t.mode = s.mode) ∧ (nbits v 3 0 = 2 → ∃ t, exec (.connectReq host v) s = .next t ∧ t.fget PWR_ERR.CMD = 1 ∧ t.mode = s.mode)
    ∧ (nbits v 3 0 = 3 → ∃ t, exec (.degrade host v) s = .next t ∧ t.fget PWR_ERR.CMD = 1 ∧ t.mode = s.mode) ∧ (nbits v 3 0 = 4 → ∃ t, exec (.resume host v) s = .next t ∧ t.fget PWR_ERR.CMD = 1 ∧ t.mode = s.mode))
  ∧ (∀ s b, (b < 7 → s.mode ≠ 0 → AirFree s → ∃ t, exec (.detectedFault b) s = .next t ∧ Detected s t b) ∧ (7 ≤ b ∨ s.mode = 0 → exec (.detectedFault b) s = .next s))
  ∧ (∀ s, s.centre = false → s.fbit PWR_ISL.EN = true →
    (s.backhaulUp = false → s.mode = 5 → ∃ t, exec (.islandDelayExpiry false) s = .next t ∧ t.mode = 7) ∧ (s.backhaulUp = true → s.mode = 7 → ∃ t, exec (.islandDelayExpiry true) s = .next t ∧ t.mode = 5)
    ∧ (s.backhaulUp = true → exec (.islandDelayExpiry false) s = .next s) ∧ (s.backhaulUp = false → exec (.islandDelayExpiry true) s = .next s))
  ∧ (∀ s up, s.centre = true ∨ s.fbit PWR_ISL.EN = false → exec (.islandDelayExpiry up) s = .next s)
  ∧ (∀ s, (s.pow.timer = true → s.mode = 8 → ∃ t, exec .degradedTimerExpiry s = .next t ∧ Rebooted s t 2 6)
    ∧ (s.pow.timer = true → s.mode = 9 → ∃ t, exec .degradedTimerExpiry s = .next t ∧ t = { s with pow := { s.pow with timer := false, due := true, deg := 0 } })
    ∧ (s.pow.timer = false ∨ (s.mode ≠ 8 ∧ s.mode ≠ 9) → exec .degradedTimerExpiry s = .next s))
  ∧ (∀ s host v, Open s host .pwr → nbits v 31 16 = 0x5253 → (nbits v 1 0 = 1 → (s.mode ≠ 11 → ResetAsked (.warm host v) s 2 3) ∧ (s.mode = 11 → NotNow (.warm host v) s)) ∧ (nbits v 1 0 = 2 → ResetAsked (.cold host v) s 1 2))
  ∧ (∀ s host v, Open s host .pwr → nbits v 31 16 ≠ 0x5253 →
    (nbits v 1 0 = 1 → ∃ t, exec (.warm host v) s = .next t ∧ t.fget PWR_ERR.CMD = 1 ∧ t.mode = s.mode ∧ t.dram = s.dram) ∧ (nbits v 1 0 = 2 → ∃ t, exec (.cold host v) s = .next t ∧ t.fget PWR_ERR.CMD = 1 ∧ t.mode = s.mode ∧ t.dram = s.dram))
  ∧ (∀ s, ResetAsked .rstNLow s 1 1 ∧ (s.mode = 0 → exec .rstNLow s = .next s))

/-- A supervisor write to the owner entry of a ring that is not OFF, and one that would change the owner entry of a task that is not OFF, with no switch under way, leave the pending bank as it is and set TEN_ERR.OWNER_BUSY; nothing but the error registers and what a signal changes is different. -/
def Obligations.OwnerEntriesOfBusyUnits : Prop :=
  (∀ s host r value, Open s host .ten → s.ten.phase = .idle → r < 4096 → s.fget RNG_R_STAT.STATE r ≠ 0 →
    ∃ t, exec (.tenPendingWrite host (0x20000 + 4 * r) 32 value) s = .next t ∧ t.fget TEN_ERR.OWNER_BUSY = 1 ∧ Quiet [TEN_ERR.OWNER_BUSY.id, TEN_ERR_ADDR.OFFSET.id] s t)
  ∧ (∀ s host k value, Open s host .ten → s.ten.phase = .idle → k < 4096 → s.fget TSK_STAT.STATE k ≠ 0 → tget 0 s.ten.pend.task k ≠ Nat.land (value % 65536) 0x83FF →
    ∃ t, exec (.tenPendingWrite host (0x24000 + 2 * k) 16 value) s = .next t ∧ t.fget TEN_ERR.OWNER_BUSY = 1 ∧ Quiet [TEN_ERR.OWNER_BUSY.id, TEN_ERR_ADDR.OFFSET.id] s t)

/-- A unit of a pair that is ACTIVE, in a role mode, with nothing on the air, detects a fault. If its partner was heard and shows STANDBY with SYNCED, the claim is released: the pair state is RELEASED, CLAIM_OUT stops, GRANT is 0 and the mode STANDBY. Otherwise the mode is DEGRADED, and the pair state, CLAIM_OUT and GRANT stay as they are. -/
def Obligations.FaultOfAnActiveUnit : Prop :=
  ∀ s b, b < 7 → s.mode = 5 ∨ s.mode = 6 ∨ s.mode = 7 → s.pair.en = true → s.pairState = 4 → AirFree s →
    (s.pair.heard = true ∧ s.fget RES_PAIR_STAT.PARTNER_STATE = 2 ∧ s.pair.partnerSynced = true →
      ∃ t, exec (.detectedFault b) s = .next t ∧ t.pairState = 5 ∧ t.fget RES_PAIR_STAT.CLAIM_OUT = 0 ∧ t.fget RES_PAIR_STAT.GRANT = 0 ∧ t.mode = 4)
    ∧ (¬ (s.pair.heard = true ∧ s.fget RES_PAIR_STAT.PARTNER_STATE = 2 ∧ s.pair.partnerSynced = true) →
      ∃ t, exec (.detectedFault b) s = .next t ∧ t.mode = 8 ∧ t.pairState = 4 ∧ t.fget RES_PAIR_STAT.CLAIM_OUT = s.fget RES_PAIR_STAT.CLAIM_OUT ∧ t.fget RES_PAIR_STAT.GRANT = s.fget RES_PAIR_STAT.GRANT)

/-- The host of a command that is a write of a supervisor register (R38): every register but the per-host ones and the selectors. -/
def supvCommand : Instr → Option Nat
  | .chipLock host _ => some host
  | .switch host => some host
  | .tenPendingWrite host _ _ _ => some host
  | .tenEnable host _ => some host
  | .clear host _ => some host
  | .routeEntryWrite host _ _ => some host
  | .resyncNand host => some host
  | .resyncPtnr host => some host
  | .resyncHost host => some host
  | .rebuildDone host => some host
  | .take host => some host
  | .rebuild host _ _ => some host
  | .quarClear host _ => some host
  | .requar host _ => some host
  | .arm host _ => some host
  | .cancel host _ => some host
  | .activateNow host _ => some host
  | .mptLoadLo host _ => some host
  | .nominal60Change host _ => some host
  | .snapTake host _ => some host
  | .invalidate host _ => some host
  | .step host _ => some host
  | .confirm host _ => some host
  | .gtTrimWrite host _ _ => some host
  | .gridSelWrite host _ => some host
  | .compareArm host _ => some host
  | .membValWrite host _ => some host
  | .markTableWrite host _ _ => some host
  | .metrologyEnable host _ => some host
  | .balNodeEnable host _ => some host
  | .taskEnable host _ => some host
  | .openCmd host => some host
  | .seal host => some host
  | .release host => some host
  | .instructionStoreWrite host _ _ => some host
  | .pageOwnerWrite host _ _ _ => some host
  | .tskCmdClr host _ => some host
  | .queueEnable host _ => some host
  | .flush host _ => some host
  | .clrHigh host _ => some host
  | .tableEnable host _ => some host
  | .sweepNow host _ => some host
  | .tClr host _ => some host
  | .scrubBad host _ => some host
  | .lockGroupEnable host _ => some host
  | .ringEnable host _ => some host
  | .rngRClr host _ => some host
  | .evtRouteWrite host _ _ => some host
  | .evtSClr host _ => some host
  | .laneEnable host _ => some host
  | .combiningGroupWrite host _ => some host
  | .plcNodeRead host => some host
  | .plcNodeWrite host => some host
  | .plcNodeClear host => some host
  | .plcLClr host _ => some host
  | .clrTrim host _ => some host
  | .radioEnable host _ => some host
  | .rfmRClr host _ => some host
  | .reread host _ => some host
  | .program host _ _ => some host
  | .lock host _ _ => some host
  | .kvZeroize host _ => some host
  | .erase host => some host
  | .stageOpen host _ => some host
  | .writeBlock host _ => some host
  | .verify host _ => some host
  | .stageArm host _ => some host
  | .disarm host _ => some host
  | .stageActivateNow host _ => some host
  | .stageConfirm host _ => some host
  | .revert host _ => some host
  | .raiseFloor host _ _ => some host
  | .qspiRead host _ => some host
  | .qspiProgram host _ => some host
  | .qspiErase host _ => some host
  | .boothdr host _ => some host
  | .format host _ _ _ => some host
  | .freeze host _ => some host
  | .inkRelease host _ => some host
  | .inkSnapTake host _ => some host
  | .inkRdSeq host _ _ => some host
  | .ethPortEnable host _ => some host
  | .fdbLookup host _ _ => some host
  | .fdbInsertStatic host _ _ => some host
  | .fdbDelete host _ _ => some host
  | .flushDynamic host _ => some host
  | .ethPClr host _ => some host
  | .claimRelease host _ => some host
  | .claimTake host _ => some host
  | .test host _ => some host
  | .safArm host _ _ => some host
  | .safReset host _ _ => some host
  | .restart host _ => some host
  | .tampCfgWrite host _ _ => some host
  | .island host _ => some host
  | .connectReq host _ => some host
  | .degrade host _ => some host
  | .resume host _ => some host
  | .warm host _ => some host
  | .cold host _ => some host
  | .padFuncWrite host _ => some host
  | _ => none

/-- Where a run that began at `s0` stands while every waiting command is a write of a supervisor register by a host that is not the supervisor: nothing but the error record of R38 and what its signal changes is different. -/
def OthersOnly (s0 s : State) : Prop :=
  (∀ c ∈ s.pending, ∃ h, supvCommand c = some h ∧ h ≠ s0.supv) ∧ Quiet [CHIP_ERR.NOT_SUPV.id, CHIP_ERR_INFO.HOST.id, CHIP_ERR_INFO.OFFSET.id] { s0 with pending := s.pending } s

/-- An invariant of every step, for the 101 commands that write a supervisor register: while every waiting command is one of a host that is not the supervisor, each step goes on, takes the front command, and keeps the invariant that nothing but the error record and what its signal changes differs from the state the run began in: no mode, tenancy, memory, key, ledger, queue, table or calendar,
and no such host becomes the supervisor. A block that answers records each attempt: NOT_SUPV, and the host. A silent block, as every block is in VAULT, is left as it is. -/
def Obligations.OtherHostsChangeNothing : Prop :=
  (∀ s0 s, s.pending ≠ [] → OthersOnly s0 s → ∃ t, step s = .next t ∧ OthersOnly s0 t ∧ t.pending = s.pending.tail)
  ∧ (∀ s c h, supvCommand c = some h → h ≠ s.supv →
    ((∀ b, s.silent b = false) → c.wellFormed = true → ∃ t, exec c s = .next t ∧ t.fget CHIP_ERR.NOT_SUPV = 1 ∧ t.fget CHIP_ERR_INFO.HOST = h)
    ∧ (s.mode = 0 → exec c s = .next s))

/-- State.reset: no command waits, every register field reads its row's reset value but tenant 0's journal quota of 64, DRAM is in canonical form and reads 0 everywhere (the model's choice, log entry 5), no work item, tag, session or frame exists, and the invariant of OtherHostsChangeNothing holds. Values of rows for which the spec gives no reset value are the model's own (log entry 26). -/
def Obligations.ResetState : Prop :=
  State.reset.pending = [] ∧ (∀ f i, f.id ≠ LDG_T_JBUF.QUOTA.id → State.reset.fget f i = f.rst) ∧ State.reset.fget LDG_T_JBUF.QUOTA 0 = 64 ∧ (∀ i, i ≠ 0 → State.reset.fget LDG_T_JBUF.QUOTA i = LDG_T_JBUF.QUOTA.rst)
    ∧ MemOk State.reset ∧ (∀ a, State.reset.mget a = 0) ∧ State.reset.scb.items = [] ∧ State.reset.pip.tags = [] ∧ (∀ h, (State.reset.host h).mrt.isOpen = false) ∧ AirFree State.reset ∧ OthersOnly State.reset State.reset
end

