-- ==== Sys2Proof/Laws/Cipher.lean ====
section
/-! SUPPORT. Lengths of the AES and GCM functions, and what a receiver reads from a frame its sender sealed. -/
namespace Sys2Proof.Laws
open Sys2Proof Sys2Proof.Machine

theorem leB_length (n v : Nat) : (leB n v).length = n := by
  induction n generalizing v with
  | zero => rfl
  | succ n ih => simp [leB, ih]

theorem beB_length (n v : Nat) : (beB n v).length = n := by simp [beB, leB_length]

theorem slice_length (l : List Byte) (off n : Nat) : (slice l off n).length = n := by
  simp only [slice, List.length_append, List.length_take, List.length_drop, List.length_replicate]; omega

theorem fit_length (n : Nat) (l : List Byte) : (fit n l).length = n := slice_length l 0 n

theorem xorB_length (a b : List Byte) : (xorB a b).length = min a.length b.length := by simp [xorB]

theorem xorB_xorB (d s : List Byte) (h : d.length ≤ s.length) : xorB (xorB d s) s = d := by
  induction d generalizing s with
  | nil => simp [xorB]
  | cons x d ih =>
    cases s with
    | nil => simp at h
    | cons y s =>
      have := ih s (by simpa using h)
      simp only [xorB] at this
      simp only [xorB, List.zipWith_cons_cons, this, BitVec.xor_assoc, BitVec.xor_self, BitVec.xor_zero]

/-- Every key-schedule word has four bytes if the first words have. -/
theorem aesExpand_words (nk n i : Nat) (rc : Byte) (ws : List (List Byte)) (h : ∀ w ∈ ws, w.length = 4) (hn : 0 < nk) (hl : nk ≤ ws.length) :
    (aesExpand nk n i rc ws).length = ws.length + n ∧ ∀ w ∈ aesExpand nk n i rc ws, w.length = 4 := by
  induction n generalizing i rc ws with
  | zero => exact ⟨rfl, h⟩
  | succ n ih =>
    have hd : ∀ l : List (List Byte), l ≠ [] → (∀ w ∈ l, w.length = 4) → (l.headD []).length = 4 := by
      intro l hl hw
      cases l with
      | nil => exact absurd rfl hl
      | cons a t => exact hw a (by simp)
    have h1 : (ws.headD []).length = 4 := hd ws (by intro e; simp [e] at hl; omega) h
    have h2 : ((ws.drop (nk - 1)).headD []).length = 4 := by
      refine hd _ ?_ (fun w hw => h w (List.mem_of_mem_drop hw))
      intro e
      have := congrArg List.length e
      simp at this
      omega
    have hx : ∀ t : List Byte, t.length = 4 → (xorB t ((ws.drop (nk - 1)).headD [])).length = 4 := by
      intro t ht; rw [xorB_length, ht, h2]; rfl
    have key : ∀ t : List Byte, t.length = 4 →
        ∀ w ∈ xorB t ((ws.drop (nk - 1)).headD []) :: ws, w.length = 4 := by
      intro t ht w hw
      rcases List.mem_cons.mp hw with rfl | hw
      · exact hx t ht
      · exact h w hw
    have len : ∀ m : List Byte, m.length = 4 → ∃ a b c d, m = [a, b, c, d] := by
      intro m hm
      match m, hm with
      | [a, b, c, d], _ => exact ⟨a, b, c, d, rfl⟩
    have step : ∀ t rc', t.length = 4 →
        (aesExpand nk n (i + 1) rc' (xorB t ((ws.drop (nk - 1)).headD []) :: ws)).length = ws.length + (n + 1)
        ∧ ∀ w ∈ aesExpand nk n (i + 1) rc' (xorB t ((ws.drop (nk - 1)).headD []) :: ws), w.length = 4 := by
      intro t rc' ht
      have := ih (i + 1) rc' (xorB t ((ws.drop (nk - 1)).headD []) :: ws) (key t ht) (by simp; omega)
      refine ⟨?_, this.2⟩
      rw [this.1]; simp; omega
    simp only [aesExpand]
    apply step
    split
    · obtain ⟨a, b, c, d, e⟩ := len ((ws.headD []).map sbox) ((List.length_map ..).trans h1)
      rw [e]; rfl
    · split
      · exact (List.length_map ..).trans h1
      · exact h1

theorem chunksN_lengths {α : Type} (k n m : Nat) (l : List α) (hk : 0 < k) (h : l.length = k * m) (hn : m ≤ n) :
    (chunksN k n l).length = m ∧ ∀ c ∈ chunksN k n l, c.length = k := by
  induction n generalizing m l with
  | zero => 
    obtain rfl : m = 0 := by omega
    exact ⟨rfl, by simp [chunksN]⟩
  | succ n ih =>
    cases m with
    | zero => 
      have : l = [] := List.eq_nil_of_length_eq_zero (by simpa using h)
      subst this
      exact ⟨rfl, by simp [chunksN]⟩
    | succ m =>
      have hl : l.length = k + k * m := by rw [h, Nat.mul_succ]; omega
      have ne : l.isEmpty = false := by
        cases l with
        | nil => simp at hl; omega
        | cons => rfl
      have := ih m (l.drop k) (by simp; omega) (by omega)
      simp only [chunksN, ne, Bool.false_eq_true, if_false]
      refine ⟨by simp [this.1], fun c hc => ?_⟩
      rcases List.mem_cons.mp hc with rfl | hc
      · simp; omega
      · exact this.2 c hc

theorem chunks_lengths {α : Type} (k m : Nat) (l : List α) (hk : 0 < k) (h : l.length = k * m) :
    (chunks k l).length = m ∧ ∀ c ∈ chunks k l, c.length = k :=
  chunksN_lengths k l.length m l hk h (by rw [h]; exact Nat.le_mul_of_pos_left m hk)

theorem flatten_length {α : Type} (k : Nat) (ls : List (List α)) (h : ∀ c ∈ ls, c.length = k) : ls.flatten.length = k * ls.length := by
  induction ls with
  | nil => rfl
  | cons a t ih => simp [h a (by simp), ih (fun c hc => h c (by simp [hc])), Nat.mul_add]; omega

theorem chunksN_mem {α : Type} (k n : Nat) (l : List α) : ∀ c ∈ chunksN k n l, ∀ x ∈ c, x ∈ l := by
  induction n generalizing l with
  | zero => simp [chunksN]
  | succ n ih =>
    intro c hc x hx
    rw [chunksN] at hc
    split at hc
    · simp at hc
    · rcases List.mem_cons.mp hc with rfl | hc
      · exact List.mem_of_mem_take hx
      · exact List.mem_of_mem_drop (ih (l.drop k) c hc x hx)

/-- Round keys of a 16-byte or 32-byte key. -/
theorem aesKeys_lengths' (key : List Byte) (nk nr : Nat) (hk : (nk = 4 ∧ nr = 10) ∨ (nk = 8 ∧ nr = 14)) (h : key.length = 4 * nk) :
    (aesKeys key).length = nr + 1 ∧ ∀ k ∈ aesKeys key, k.length = 16 := by
  have c := chunks_lengths 4 nk key (by omega) h
  have w := aesExpand_words nk (4 * (nk + 7) - nk) nk 1 (chunks 4 key).reverse (fun x hx => c.2 x (by simpa using hx)) (by omega) (by simp [c.1])
  have e : aesKeys key = (chunks 4 (aesExpand nk (4 * (nk + 7) - nk) nk 1 (chunks 4 key).reverse).reverse).map List.flatten := by
    unfold aesKeys; rw [h, Nat.mul_div_cancel_left nk (by decide)]
  rw [e]
  generalize aesExpand nk (4 * (nk + 7) - nk) nk 1 (chunks 4 key).reverse = ws at w ⊢
  have r := chunks_lengths 4 (nr + 1) ws.reverse (by omega) (by simp only [List.length_reverse, w.1, c.1]; omega)
  refine ⟨by simp [r.1], fun k hk => ?_⟩
  obtain ⟨g, hg, rfl⟩ := List.mem_map.mp hk
  rw [flatten_length 4 g (fun x hx => ?_), r.2 g hg]
  exact w.2 x (by simpa using chunksN_mem 4 _ _ g hg x hx)

theorem aesKeys_lengths (key : List Byte) (h : key.length = 16) : (aesKeys key).length = 11 ∧ ∀ k ∈ aesKeys key, k.length = 16 :=
  aesKeys_lengths' key 4 10 (.inl ⟨rfl, rfl⟩) h

/-- A block's length, from the round keys'. -/
theorem aesEnc_length' (key blk : List Byte) (n : Nat) (k : (aesKeys key).length = n + 1 ∧ ∀ k ∈ aesKeys key, k.length = 16) : (aesEnc key blk).length = 16 := by
  have kl : ∀ r, r < n + 1 → ((aesKeys key).getD r []).length = 16 := by
    intro r hr
    rw [List.getD_eq_getElem?_getD, List.getElem?_eq_getElem (by omega)]
    exact k.2 _ (List.getElem_mem _)
  have fold : ∀ (f : List Byte → Nat → List Byte) (l : List Nat) (st : List Byte), st.length = 16 → (∀ st r, r ∈ l → st.length = 16 → (f st r).length = 16) →
      (l.foldl f st).length = 16 := by
    intro f l
    induction l with
    | nil => intro st hs _; exact hs
    | cons a t ih => intro st hs hf; exact ih _ (hf st a (by simp) hs) (fun st r hr => hf st r (by simp [hr]))
  unfold aesEnc
  apply fold
  · rw [xorB_length, fit_length]
    have := kl 0 (by omega)
    rw [List.getD_eq_getElem?_getD] at this
    rw [List.headD_eq_head?_getD, List.head?_eq_getElem?, this]; rfl
  · intro st r hr hs
    have hr : r < n := by simpa [k.1] using hr
    rw [xorB_length, kl (r + 1) (by omega)]
    split
    · simp
    · have c := chunks_lengths 4 4 ((List.range 16).map (fun i => sbox (byteAt st (i * 5 % 16)))) (by omega) (by simp)
      rw [flatten_length 4 _ (by intro x hx; obtain ⟨y, _, rfl⟩ := List.mem_map.mp hx; simp [mixCol])]
      simp [c.1]

theorem aesEnc_length (key blk : List Byte) (h : key.length = 16) : (aesEnc key blk).length = 16 := aesEnc_length' key blk 10 (aesKeys_lengths key h)

theorem aesEnc_length32 (key blk : List Byte) (h : key.length = 32) : (aesEnc key blk).length = 16 :=
  aesEnc_length' key blk 14 (aesKeys_lengths' key 8 14 (.inr ⟨rfl, rfl⟩) h)

theorem gcmTag_length32 (key nonce aad ct : List Byte) (h : key.length = 32) : (gcmTag key nonce aad ct).length = 16 := by
  simp [gcmTag, xorB_length, beB_length, aesEnc_length32 key _ h]

theorem ctrStream_length (key : List Byte) (step : List Byte → List Byte) (n : Nat) (c : List Byte) (h : key.length = 16) :
    (ctrStream key step n c).length = 16 * n := by
  induction n generalizing c with
  | zero => rfl
  | succ n ih => simp [ctrStream, ih, aesEnc_length key c h]; omega

theorem gcmTag_length (key nonce aad ct : List Byte) (h : key.length = 16) : (gcmTag key nonce aad ct).length = 16 := by
  simp [gcmTag, xorB_length, beB_length, aesEnc_length key _ h]

theorem gcmCrypt_length (key nonce d : List Byte) (h : key.length = 16) : (gcmCrypt key nonce d).length = d.length := by
  simp [gcmCrypt, xorB_length, ctrStream_length key _ _ _ h]; omega

/-- Decrypting what was encrypted gives it back. -/
theorem gcmCrypt_gcmCrypt (key nonce d : List Byte) (h : key.length = 16) : gcmCrypt key nonce (gcmCrypt key nonce d) = d := by
  have l := gcmCrypt_length key nonce d h
  rw [gcmCrypt, l, gcmCrypt]
  exact xorB_xorB d _ (by rw [ctrStream_length key _ _ _ h]; omega)

theorem slice_append (a b c : List Byte) (off n : Nat) (ha : a.length = off) (hb : b.length = n) : slice (a ++ b ++ c) off n = b := by
  subst ha hb
  simp [slice]

/-- The receiver opens a payload made of a header, the body encrypted under its nonce, and the tag of both. -/
theorem mrtOpen_frame (key hdr body nonce : List Byte) (h : key.length = 16) (hh : hdr.length = 32) (hl : leAt hdr 0x18 2 = body.length)
    (hf : nbit (leAt hdr 3 1) 0 = true) (hn : nonce = mrtNonce (leAt hdr 4 4) (leAt hdr 3 1 / 2 % 2) (leAt hdr 0x10 8)) :
    mrtOpen key (hdr ++ gcmCrypt key nonce body ++ gcmTag key nonce hdr (gcmCrypt key nonce body)) = some body := by
  have cl := gcmCrypt_length key nonce body h
  have tl := gcmTag_length key nonce hdr (gcmCrypt key nonce body) h
  have pre : ∀ off n, off + n ≤ 32 → leAt (hdr ++ gcmCrypt key nonce body ++ gcmTag key nonce hdr (gcmCrypt key nonce body)) off n = leAt hdr off n := by
    intro off n ho
    simp only [leAt, slice, List.append_assoc]
    rw [List.drop_append_of_le_length (by omega), List.take_append_of_le_length (by simp; omega)]
  have e1 : slice (hdr ++ gcmCrypt key nonce body ++ gcmTag key nonce hdr (gcmCrypt key nonce body)) 0 32 = hdr := by
    have := slice_append [] hdr (gcmCrypt key nonce body ++ gcmTag key nonce hdr (gcmCrypt key nonce body)) 0 32 rfl hh
    simpa using this
  have e2 := slice_append hdr (gcmCrypt key nonce body) (gcmTag key nonce hdr (gcmCrypt key nonce body)) 32 body.length hh cl
  have e3 := slice_append (hdr ++ gcmCrypt key nonce body) (gcmTag key nonce hdr (gcmCrypt key nonce body)) [] (32 + body.length) 16 (by simp [hh, cl]) tl
  rw [List.append_nil] at e3
  unfold mrtOpen
  simp only [pre 0x18 2 (by omega), pre 3 1 (by omega), pre 4 4 (by omega), pre 0x10 8 (by omega), hl, hf, ← hn, e1, e2, e3, ne_eq, not_true, if_false, if_true,
    gcmCrypt_gcmCrypt key nonce body h]

/-- The value of the little-endian bytes of a number. -/
theorem ofLe_leB (n v : Nat) : ofLe (leB n v) = v % 256 ^ n := by
  induction n generalizing v with
  | zero => simp [leB, ofLe, Nat.mod_one]
  | succ n ih =>
    show v % 256 + 256 * ofLe (leB n (v / 256)) = v % 256 ^ (n + 1)
    rw [ih, Nat.pow_succ, Nat.mul_comm (256 ^ n) 256, Nat.mod_mul]

/-- A little-endian field between two lists. -/
theorem leAt_mid (a c : List Byte) (off n v : Nat) (h : a.length = off) : leAt (a ++ (leB n v ++ c)) off n = v % 256 ^ n := by
  rw [← List.append_assoc, leAt, slice_append a (leB n v) c off n h (leB_length n v), ofLe_leB]

theorem shaRound_length {w : Nat} (p : ShaPar w) (st : List (BitVec w)) (kw : BitVec w × BitVec w) : (shaRound p st kw).length = st.length := by
  unfold shaRound; split <;> rfl

theorem foldl_length {α β : Type} (f : List α → β → List α) (n : Nat) (h : ∀ st b, st.length = n → (f st b).length = n) (l : List β) (st : List α)
    (hs : st.length = n) : (l.foldl f st).length = n := by
  induction l generalizing st with
  | nil => exact hs
  | cons b t ih => exact ih _ (h st b hs)

theorem sha2_length {w : Nat} (p : ShaPar w) (iv : List (BitVec w)) (m : List Byte) (h : iv.length = 8) : (sha2 p iv m).length = 8 * (w / 8) := by
  unfold sha2
  have b : ∀ st blk, st.length = 8 → (shaBlock p st blk).length = 8 := by
    intro st blk hs
    simp only [shaBlock, List.length_zipWith, hs]
    rw [foldl_length _ 8 (fun st kw h => (shaRound_length p st kw).trans h) _ st hs]; rfl
  have l := foldl_length (shaBlock p) 8 b
    (chunks (w * 2) (m ++ [0x80] ++ List.replicate ((w * 2 - (m.length + 1 + w / 4) % (w * 2)) % (w * 2)) 0 ++ beB (w / 4) (8 * m.length))) iv h
  simp only [List.length_flatMap, beB_length]
  rw [List.map_const', l]; simp [List.replicate]; omega

theorem sha256_length (m : List Byte) : (sha256 m).length = 32 := sha2_length _ _ m (by simp [primes80])

theorem hmac256_length (key m : List Byte) : (hmac256 key m).length = 32 := sha256_length _

/-- An MRT key has 16 bytes. -/
theorem mrtKey_length (secret : List Byte) (host session : Nat) (hn dn : List Byte) : (mrtKey secret host session hn dn).length = 16 := by
  simp [mrtKey, kdf, hmac256_length]

theorem aesEnc_nil (b : List Byte) : aesEnc [] b = [] := by
  have e : ∃ x, aesEnc [] b = xorB x [] := ⟨_, rfl⟩
  obtain ⟨x, e⟩ := e
  rw [e]
  exact List.eq_nil_of_length_eq_zero (by rw [xorB_length]; simp)

/-- An empty key makes an empty tag, so a frame under it never opens. -/
theorem gcmTag_nil (nonce aad ct : List Byte) : gcmTag [] nonce aad ct = [] :=
  List.eq_nil_of_length_eq_zero (by simp [gcmTag, xorB_length, aesEnc_nil])

theorem mrtOpen_nil (pay : List Byte) : mrtOpen [] pay = none := by
  unfold mrtOpen
  refine if_pos (fun e => ?_)
  have := congrArg List.length e
  rw [gcmTag_nil, slice_length] at this
  exact absurd this (by decide)

theorem cbcMac_length (key data : List Byte) (h : key.length = 16) : (cbcMac key data).length = 16 :=
  foldl_length _ 16 (fun _ _ _ => aesEnc_length key _ h) _ _ rfl

theorem ccmTag_length (key nonce aad d : List Byte) (t : Nat) (h : key.length = 16) (ht : t ≤ 16) : (ccmTag key nonce aad d t).length = t := by
  simp [ccmTag, ccmMac, xorB_length, cbcMac_length key _ h, aesEnc_length key _ h]; omega

/-- A signature has at most two scalars. -/
theorem sign_le (c : Curve) (d : Nat) (h : List Byte) : (c.sign d h).length ≤ 2 * c.bytes := by
  unfold Curve.sign Curve.signWith
  split
  · simp
  · simp [beB_length]; omega

/-- A public key has at most two coordinates. -/
theorem pub_le (c : Curve) (d : Nat) : (c.pub d).length ≤ 2 * c.bytes := by
  unfold Curve.pub
  split
  · simp [beB_length]; omega
  · simp

/-- A range with a longer one's room has room. -/
theorem winOk_of_le (s : State) (t : Nat) (data : Bool) (off n m : Nat) (h : n ≤ m) (w : s.winOk t data off m = true) : s.winOk t data off n = true := by
  simp only [State.winOk, decide_eq_true_eq] at *
  omega

end Sys2Proof.Laws
end

