-- ==== Sys2Proof/Laws/Aes.lean ====
section
/-! SUPPORT. AES decryption undoes AES encryption, and RFC 3394 unwrapping undoes wrapping. -/
namespace Sys2Proof.Laws
open Sys2Proof Sys2Proof.Machine

/-! ### One column -/

theorem gmulN_xor (n : Nat) (a x y : Byte) : gmulN n a (x ^^^ y) = gmulN n a x ^^^ gmulN n a y := by
  induction n generalizing a x y with
  | zero => simp [gmulN]
  | succ n ih =>
    rw [gmulN, gmulN, gmulN, BitVec.ushiftRight_xor_distrib, ih, BitVec.getLsbD_xor]
    generalize gmulN n (xtime a) (x >>> 1) = p
    generalize gmulN n (xtime a) (y >>> 1) = q
    cases x.getLsbD 0 <;> cases y.getLsbD 0 <;> simp
    · ac_rfl
    · ac_rfl
    · rw [show a ^^^ p ^^^ (a ^^^ q) = (a ^^^ a) ^^^ (p ^^^ q) by ac_rfl]; simp

theorem gmul_xor (a x y : Byte) : gmul a (x ^^^ y) = gmul a x ^^^ gmul a y := gmulN_xor 8 a x y

theorem gmul_zero (a : Byte) : gmul a 0 = 0 := by simp [gmul, gmulN]

/-- A property of every byte holds where it holds of the 256 numbers. -/
theorem byte_all (p : Byte → Bool) (h : (List.range 256).all (fun n => p (BitVec.ofNat 8 n)) = true) (b : Byte) : p b = true := by
  have := List.all_eq_true.mp h b.toNat (List.mem_range.mpr b.isLt)
  rwa [BitVec.ofNat_toNat, BitVec.setWidth_eq] at this

/-- The coefficients of the two MixColumns cancel. -/
theorem mix_coeffs (x : Byte) :
    (gmul 14 (gmul 2 x) ^^^ gmul 11 (gmul 1 x) ^^^ gmul 13 (gmul 1 x) ^^^ gmul 9 (gmul 3 x) = x)
    ∧ (gmul 14 (gmul 3 x) ^^^ gmul 11 (gmul 2 x) ^^^ gmul 13 (gmul 1 x) ^^^ gmul 9 (gmul 1 x) = 0)
    ∧ (gmul 14 (gmul 1 x) ^^^ gmul 11 (gmul 3 x) ^^^ gmul 13 (gmul 2 x) ^^^ gmul 9 (gmul 1 x) = 0)
    ∧ (gmul 14 (gmul 1 x) ^^^ gmul 11 (gmul 1 x) ^^^ gmul 13 (gmul 3 x) ^^^ gmul 9 (gmul 2 x) = 0) := by
  have := byte_all (fun x => (gmul 14 (gmul 2 x) ^^^ gmul 11 (gmul 1 x) ^^^ gmul 13 (gmul 1 x) ^^^ gmul 9 (gmul 3 x) == x)
    && (gmul 14 (gmul 3 x) ^^^ gmul 11 (gmul 2 x) ^^^ gmul 13 (gmul 1 x) ^^^ gmul 9 (gmul 1 x) == 0)
    && (gmul 14 (gmul 1 x) ^^^ gmul 11 (gmul 3 x) ^^^ gmul 13 (gmul 2 x) ^^^ gmul 9 (gmul 1 x) == 0)
    && (gmul 14 (gmul 1 x) ^^^ gmul 11 (gmul 1 x) ^^^ gmul 13 (gmul 3 x) ^^^ gmul 9 (gmul 2 x) == 0)) (by decide +kernel) x
  simpa only [Bool.and_eq_true, beq_iff_eq, and_assoc] using this

/-- One entry of a column, mixed and mixed back: the sum over the column, regrouped by its bytes. -/
theorem mix_sum (m0 m1 m2 m3 : Byte) (a0 a1 a2 a3 b0 b1 b2 b3 c0 c1 c2 c3 d0 d1 d2 d3 : Byte) :
    gmul m0 (a0 ^^^ b0 ^^^ c0 ^^^ d0) ^^^ gmul m1 (a1 ^^^ b1 ^^^ c1 ^^^ d1) ^^^ gmul m2 (a2 ^^^ b2 ^^^ c2 ^^^ d2) ^^^ gmul m3 (a3 ^^^ b3 ^^^ c3 ^^^ d3)
      = (gmul m0 a0 ^^^ gmul m1 a1 ^^^ gmul m2 a2 ^^^ gmul m3 a3) ^^^ (gmul m0 b0 ^^^ gmul m1 b1 ^^^ gmul m2 b2 ^^^ gmul m3 b3)
        ^^^ (gmul m0 c0 ^^^ gmul m1 c1 ^^^ gmul m2 c2 ^^^ gmul m3 c3) ^^^ (gmul m0 d0 ^^^ gmul m1 d1 ^^^ gmul m2 d2 ^^^ gmul m3 d3) := by
  simp only [gmul_xor]
  ac_rfl

theorem mixCol_eq (p q r t x y z w : Byte) : mixCol [p, q, r, t] [x, y, z, w] = [gmul p x ^^^ gmul q y ^^^ gmul r z ^^^ gmul t w, gmul t x ^^^ gmul p y ^^^ gmul q z ^^^ gmul r w,
    gmul r x ^^^ gmul t y ^^^ gmul p z ^^^ gmul q w, gmul q x ^^^ gmul r y ^^^ gmul t z ^^^ gmul p w] := by
  simp [mixCol, byteAt, List.range, List.range.loop]

theorem mixCol_mixCol (a b c d : Byte) : mixCol [14, 11, 13, 9] (mixCol [2, 3, 1, 1] [a, b, c, d]) = [a, b, c, d] := by
  obtain ⟨a0, a1, a2, a3⟩ := mix_coeffs a
  obtain ⟨b0, b1, b2, b3⟩ := mix_coeffs b
  obtain ⟨c0, c1, c2, c3⟩ := mix_coeffs c
  obtain ⟨d0, d1, d2, d3⟩ := mix_coeffs d
  rw [mixCol_eq, mixCol_eq, mix_sum, mix_sum, mix_sum, mix_sum]
  have r1 : ∀ x y z w : Byte, x ^^^ y ^^^ z ^^^ w = y ^^^ z ^^^ w ^^^ x := fun x y z w => by ac_rfl
  have r2 : ∀ x y z w : Byte, x ^^^ y ^^^ z ^^^ w = z ^^^ w ^^^ x ^^^ y := fun x y z w => by ac_rfl
  have r3 : ∀ x y z w : Byte, x ^^^ y ^^^ z ^^^ w = w ^^^ x ^^^ y ^^^ z := fun x y z w => by ac_rfl
  rw [a0, b1, c2, d3, (r1 _ _ _ _).trans a3, (r1 _ _ _ _).trans b0, (r1 _ _ _ _).trans c1, (r1 _ _ _ _).trans d2,
    (r2 _ _ _ _).trans a2, (r2 _ _ _ _).trans b3, (r2 _ _ _ _).trans c0, (r2 _ _ _ _).trans d1,
    (r3 _ _ _ _).trans a1, (r3 _ _ _ _).trans b2, (r3 _ _ _ _).trans c3, (r3 _ _ _ _).trans d0]
  simp

/-! ### One round -/

/-- The inverses of the 256 bytes. -/
def ginvTab : List Byte :=
  [0, 1, 141, 246, 203, 82, 123, 209, 232, 79, 41, 192, 176, 225, 229, 199, 116, 180, 170, 75, 153, 43, 96, 95, 88, 63, 253, 204, 255, 64, 238, 178]
  ++ [58, 110, 90, 241, 85, 77, 168, 201, 193, 10, 152, 21, 48, 68, 162, 194, 44, 69, 146, 108, 243, 57, 102, 66, 242, 53, 32, 111, 119, 187, 89, 25]
  ++ [29, 254, 55, 103, 45, 49, 245, 105, 167, 100, 171, 19, 84, 37, 233, 9, 237, 92, 5, 202, 76, 36, 135, 191, 24, 62, 34, 240, 81, 236, 97, 23]
  ++ [22, 94, 175, 211, 73, 166, 54, 67, 244, 71, 145, 223, 51, 147, 33, 59, 121, 183, 151, 133, 16, 181, 186, 60, 182, 112, 208, 6, 161, 250, 129, 130]
  ++ [131, 126, 127, 128, 150, 115, 190, 86, 155, 158, 149, 217, 247, 2, 185, 164, 222, 106, 50, 109, 216, 138, 132, 114, 42, 20, 159, 136, 249, 220, 137, 154]
  ++ [251, 124, 46, 195, 143, 184, 101, 72, 38, 200, 18, 74, 206, 231, 210, 98, 12, 224, 31, 239, 17, 117, 120, 113, 165, 142, 118, 61, 189, 188, 134, 87]
  ++ [11, 40, 47, 163, 218, 212, 228, 15, 169, 39, 83, 4, 27, 252, 172, 230, 122, 7, 174, 99, 197, 219, 226, 234, 148, 139, 196, 213, 157, 248, 144, 107]
  ++ [177, 13, 214, 235, 198, 14, 207, 173, 8, 78, 215, 227, 93, 80, 30, 179, 91, 35, 56, 52, 104, 70, 3, 140, 221, 156, 125, 160, 205, 26, 65, 28]

theorem ginv_tab (b : Byte) : ginv b = ginvTab.getD b.toNat 0 := by
  simpa using byte_all (fun b => ginv b == ginvTab.getD b.toNat 0) (by decide +kernel) b

theorem ginv_ginv (b : Byte) : ginv (ginv b) = b := by
  rw [ginv_tab, ginv_tab]
  simpa using byte_all (fun b => ginvTab.getD (ginvTab.getD b.toNat 0).toNat 0 == b) (by decide +kernel) b

theorem sboxInv_sbox (b : Byte) : sboxInv (sbox b) = b := by
  have e : ∀ i : Byte, (i ^^^ i.rotateLeft 1 ^^^ i.rotateLeft 2 ^^^ i.rotateLeft 3 ^^^ i.rotateLeft 4 ^^^ 0x63#8).rotateLeft 1
      ^^^ (i ^^^ i.rotateLeft 1 ^^^ i.rotateLeft 2 ^^^ i.rotateLeft 3 ^^^ i.rotateLeft 4 ^^^ 0x63#8).rotateLeft 3
      ^^^ (i ^^^ i.rotateLeft 1 ^^^ i.rotateLeft 2 ^^^ i.rotateLeft 3 ^^^ i.rotateLeft 4 ^^^ 0x63#8).rotateLeft 6 ^^^ 0x05#8 = i := by
    intro i
    simpa using byte_all (fun i => (i ^^^ i.rotateLeft 1 ^^^ i.rotateLeft 2 ^^^ i.rotateLeft 3 ^^^ i.rotateLeft 4 ^^^ 0x63#8).rotateLeft 1
      ^^^ (i ^^^ i.rotateLeft 1 ^^^ i.rotateLeft 2 ^^^ i.rotateLeft 3 ^^^ i.rotateLeft 4 ^^^ 0x63#8).rotateLeft 3
      ^^^ (i ^^^ i.rotateLeft 1 ^^^ i.rotateLeft 2 ^^^ i.rotateLeft 3 ^^^ i.rotateLeft 4 ^^^ 0x63#8).rotateLeft 6 ^^^ 0x05#8 == i) (by decide +kernel) i
  simp only [sboxInv, sbox]
  rw [e, ginv_ginv]

/-- SubBytes and ShiftRows, and their inverses. -/
def subShift (st : List Byte) : List Byte := (List.range 16).map (fun i => sbox (byteAt st (i * 5 % 16)))
def subShiftInv (st : List Byte) : List Byte := (List.range 16).map (fun i => sboxInv (byteAt st (i * 13 % 16)))
def mixAll (m st : List Byte) : List Byte := ((chunks 4 st).map (mixCol m)).flatten

theorem subShift_length (st : List Byte) : (subShift st).length = 16 := by simp [subShift]

/-- A list of 16 bytes, byte by byte. -/
theorem list16 (l : List Byte) (h : l.length = 16) : ∃ a b c d e f g i j k m n o p q r, l = [a, b, c, d, e, f, g, i, j, k, m, n, o, p, q, r] := by
  match l, h with
  | [a, b, c, d, e, f, g, i, j, k, m, n, o, p, q, r], _ => exact ⟨a, b, c, d, e, f, g, i, j, k, m, n, o, p, q, r, rfl⟩

theorem subShiftInv_subShift (st : List Byte) (h : st.length = 16) : subShiftInv (subShift st) = st := by
  obtain ⟨a, b, c, d, e, f, g, i, j, k, m, n, o, p, q, r, rfl⟩ := list16 st h
  simp [subShift, subShiftInv, byteAt, List.range, List.range.loop, sboxInv_sbox]

theorem mixAll_length (m st : List Byte) (h : st.length = 16) : (mixAll m st).length = 16 := by
  have c := chunks_lengths 4 4 st (by omega) h
  rw [mixAll, flatten_length 4 _ (by intro x hx; obtain ⟨y, _, rfl⟩ := List.mem_map.mp hx; simp [mixCol])]
  simp [c.1]

theorem mixAll_mixAll (st : List Byte) (h : st.length = 16) : mixAll [14, 11, 13, 9] (mixAll [2, 3, 1, 1] st) = st := by
  obtain ⟨a, b, c, d, e, f, g, i, j, k, m, n, o, p, q, r, rfl⟩ := list16 st h
  have ch : ∀ a b c d e f g i j k m n o p q r : Byte, chunks 4 [a, b, c, d, e, f, g, i, j, k, m, n, o, p, q, r] = [[a, b, c, d], [e, f, g, i], [j, k, m, n], [o, p, q, r]] :=
    fun _ _ _ _ _ _ _ _ _ _ _ _ _ _ _ _ => rfl
  have e4 : ∀ (v : List Byte) (x y z w : Byte), ∃ x' y' z' w', mixCol v [x, y, z, w] = [x', y', z', w'] := fun v x y z w => ⟨_, _, _, _, rfl⟩
  obtain ⟨a', b', c', d', h1⟩ := e4 [2, 3, 1, 1] a b c d
  obtain ⟨e', f', g', i', h2⟩ := e4 [2, 3, 1, 1] e f g i
  obtain ⟨j', k', m', n', h3⟩ := e4 [2, 3, 1, 1] j k m n
  obtain ⟨o', p', q', r', h4⟩ := e4 [2, 3, 1, 1] o p q r
  have k1 := mixCol_mixCol a b c d
  have k2 := mixCol_mixCol e f g i
  have k3 := mixCol_mixCol j k m n
  have k4 := mixCol_mixCol o p q r
  rw [h1] at k1
  rw [h2] at k2
  rw [h3] at k3
  rw [h4] at k4
  rw [mixAll, mixAll, ch]
  simp only [List.map_cons, List.map_nil, h1, h2, h3, h4, List.flatten_cons, List.flatten_nil, List.cons_append, List.nil_append, ch, k1, k2, k3, k4]

/-! ### The cipher -/

/-- The state of an encryption after `r` of `nr` rounds. -/
def encAt (ks : List (List Byte)) (nr : Nat) (blk : List Byte) : Nat → List Byte
  | 0 => xorB blk (ks.getD 0 [])
  | r + 1 => xorB (if r + 1 = nr then subShift (encAt ks nr blk r) else mixAll [2, 3, 1, 1] (subShift (encAt ks nr blk r))) (ks.getD (r + 1) [])

theorem foldl_range {α : Type} (f : α → Nat → α) (e : Nat → α) (n : Nat) (h : ∀ r, r < n → f (e r) r = e (r + 1)) : (List.range n).foldl f (e 0) = e n := by
  induction n with
  | zero => rfl
  | succ n ih => rw [List.range_succ, List.foldl_append, ih (fun r hr => h r (by omega))]; exact h n (by omega)

/-- Round keys of 16 bytes, one more than rounds. -/
def KeysOk (key : List Byte) (nr : Nat) : Prop := (aesKeys key).length = nr + 1 ∧ ∀ k ∈ aesKeys key, k.length = 16

theorem KeysOk.at {key : List Byte} {nr : Nat} (h : KeysOk key nr) (r : Nat) (hr : r ≤ nr) : ((aesKeys key).getD r []).length = 16 := by
  rw [List.getD_eq_getElem?_getD, List.getElem?_eq_getElem (by have := h.1; omega)]
  exact h.2 _ (List.getElem_mem _)

theorem encAt_length {key blk : List Byte} {nr : Nat} (h : KeysOk key nr) (hb : blk.length = 16) (r : Nat) (hr : r ≤ nr) : (encAt (aesKeys key) nr blk r).length = 16 := by
  cases r with
  | zero => rw [encAt, xorB_length, h.at 0 hr, hb]; rfl
  | succ r =>
    rw [encAt, xorB_length, h.at _ hr]
    split
    · rw [subShift_length]; rfl
    · rw [mixAll_length _ _ (subShift_length _)]; rfl

theorem fit_self (b : List Byte) (n : Nat) (h : b.length = n) : fit n b = b := by
  simp [fit, slice, h, List.take_of_length_le (Nat.le_of_eq h)]

theorem aesEnc_encAt {key blk : List Byte} {nr : Nat} (h : KeysOk key nr) (hb : blk.length = 16) : aesEnc key blk = encAt (aesKeys key) nr blk nr := by
  have s : (aesKeys key).headD [] = (aesKeys key).getD 0 [] := by
    rw [List.headD_eq_head?_getD, List.head?_eq_getElem?, List.getD_eq_getElem?_getD]
  unfold aesEnc
  simp only [h.1, Nat.add_sub_cancel, fit_self blk 16 hb, s]
  exact foldl_range _ (encAt (aesKeys key) nr blk) nr (fun r _ => rfl)

/-- Decryption undoes encryption. -/
theorem aesDec_aesEnc' {key blk : List Byte} {m : Nat} (h : KeysOk key (m + 1)) (hb : blk.length = 16) : aesDec key (aesEnc key blk) = blk := by
  have le := fun r hr => encAt_length h hb r hr
  have e0 : xorB (encAt (aesKeys key) (m + 1) blk (m + 1)) ((aesKeys key).getD (m + 1) []) = subShift (encAt (aesKeys key) (m + 1) blk m) := by
    rw [encAt, if_pos rfl, xorB_xorB _ _ (Nat.le_of_eq (by rw [subShift_length, h.at _ (Nat.le_refl _)]))]
  have fin := foldl_range (fun st r =>
      if r + 1 = m + 1 then xorB (subShiftInv st) ((aesKeys key).getD (m + 1 - 1 - r) []) else mixAll [14, 11, 13, 9] (xorB (subShiftInv st) ((aesKeys key).getD (m + 1 - 1 - r) [])))
    (fun r => if r = m + 1 then blk else subShift (encAt (aesKeys key) (m + 1) blk (m - r))) (m + 1) (fun r hr => by
      have lr := le (m - r) (by omega)
      simp only [if_neg (Nat.ne_of_lt hr), subShiftInv_subShift _ lr, Nat.add_sub_cancel]
      by_cases hm : r + 1 = m + 1
      · have hz : m - r = 0 := by omega
        rw [if_pos hm, if_pos hm, hz, encAt, xorB_xorB _ _ (Nat.le_of_eq (by rw [hb, h.at 0 (by omega)]))]
      · obtain ⟨j, hj⟩ : ∃ j, m - r = j + 1 := ⟨m - r - 1, by omega⟩
        rw [if_neg hm, if_neg hm, hj, encAt, if_neg (by omega), xorB_xorB _ _ (Nat.le_of_eq (by rw [mixAll_length _ _ (subShift_length _), h.at _ (by omega)])),
          mixAll_mixAll _ (subShift_length _), show m - (r + 1) = j by omega])
  unfold aesDec
  simp only [h.1, Nat.add_sub_cancel]
  rw [aesEnc_encAt h hb, fit_self _ _ (le _ (Nat.le_refl _)), e0]
  rw [if_neg (by omega), if_pos rfl] at fin
  exact fin

/-- For a key of 16 bytes. -/
theorem aesDec_aesEnc (key blk : List Byte) (hk : key.length = 16) (hb : blk.length = 16) : aesDec key (aesEnc key blk) = blk :=
  aesDec_aesEnc' (m := 9) (aesKeys_lengths key hk) hb

/-! ### Key wrap -/

theorem kuRound_append (key : List Byte) (xs ys : List Nat) (a : List Byte) (rs : List (List Byte)) :
    kuRound key (xs ++ ys) a rs = kuRound key ys (kuRound key xs a rs).1 (kuRound key xs a rs).2 := by
  induction xs generalizing a rs with
  | nil => rfl
  | cons t ts ih => exact ih _ _

/-- The unwrap rounds undo the wrap rounds. -/
theorem kuRound_kwRound (key : List Byte) (hk : key.length = 16) (ts : List Nat) (a : List Byte) (rs : List (List Byte)) (ha : a.length = 8)
    (hr : ∀ r ∈ rs, r.length = 8) (h0 : rs ≠ []) :
    let w := kwRound key ts a rs
    kuRound key ts.reverse w.1 w.2 = (a, rs) ∧ w.1.length = 8 ∧ w.2.length = rs.length ∧ ∀ r ∈ w.2, r.length = 8 := by
  induction ts generalizing a rs with
  | nil => exact ⟨rfl, ha, rfl, hr⟩
  | cons t ts ih =>
    have hp : 0 < rs.length := List.length_pos_iff.mpr h0
    have hi : (t - 1) % rs.length < rs.length := Nat.mod_lt _ hp
    have li : (rs.getD ((t - 1) % rs.length) []).length = 8 := by
      rw [List.getD_eq_getElem?_getD, List.getElem?_eq_getElem hi]
      exact hr _ (List.getElem_mem _)
    have lb : (a ++ rs.getD ((t - 1) % rs.length) []).length = 16 := by rw [List.length_append, ha, li]
    have le := aesEnc_length key (a ++ rs.getD ((t - 1) % rs.length) []) hk
    have de := aesDec_aesEnc key _ hk lb
    generalize hb : aesEnc key (a ++ rs.getD ((t - 1) % rs.length) []) = b at le de
    have l1 : (xorB (b.take 8) (beB 8 t)).length = 8 := by rw [xorB_length, List.length_take, le, beB_length]; rfl
    have l2 : (b.drop 8).length = 8 := by rw [List.length_drop, le]
    have hs : ∀ r ∈ rs.set ((t - 1) % rs.length) (b.drop 8), r.length = 8 := by
      intro r hm
      rcases List.mem_or_eq_of_mem_set hm with h | rfl
      · exact hr r h
      · exact l2
    obtain ⟨k1, k2, k3, k4⟩ := ih (xorB (b.take 8) (beB 8 t)) (rs.set ((t - 1) % rs.length) (b.drop 8)) l1 hs (by
      intro e
      have := congrArg List.length e
      rw [List.length_set] at this
      exact h0 (List.eq_nil_of_length_eq_zero this))
    simp only [kwRound, hb]
    refine ⟨?_, k2, by rw [k3, List.length_set], k4⟩
    rw [List.reverse_cons, kuRound_append, k1, kuRound, kuRound]
    simp only [List.length_set]
    have gs : (rs.set ((t - 1) % rs.length) (b.drop 8)).getD ((t - 1) % rs.length) [] = b.drop 8 := by
      rw [List.getD_eq_getElem?_getD, List.getElem?_set_self hi]; rfl
    rw [gs, xorB_xorB _ _ (by rw [List.length_take, le, beB_length]; exact Nat.min_le_left _ _), List.take_append_drop, de]
    rw [List.take_left' ha, List.drop_left' ha, List.set_set]
    have e : rs.set ((t - 1) % rs.length) (rs.getD ((t - 1) % rs.length) []) = rs := by
      rw [List.getD_eq_getElem?_getD, List.getElem?_eq_getElem hi]
      exact List.set_getElem_self _
    rw [e]

theorem chunksN_flatten (k n : Nat) (l : List Byte) (hk : 0 < k) (h : l.length ≤ n) : (chunksN k n l).flatten = l := by
  induction n generalizing l with
  | zero => rw [List.eq_nil_of_length_eq_zero (by omega : l.length = 0)]; rfl
  | succ n ih =>
    rw [chunksN]
    split
    · rename_i e
      rw [List.isEmpty_iff.mp e]; rfl
    · rename_i e
      have : l ≠ [] := fun e' => e (List.isEmpty_iff.mpr e')
      have := List.length_pos_iff.mpr this
      rw [List.flatten_cons, ih _ (by rw [List.length_drop]; omega), List.take_append_drop]

theorem flatten_chunksN (k n : Nat) (rs : List (List Byte)) (hk : 0 < k) (h : ∀ r ∈ rs, r.length = k) (hn : rs.length ≤ n) : chunksN k n rs.flatten = rs := by
  induction n generalizing rs with
  | zero => rw [List.eq_nil_of_length_eq_zero (by omega : rs.length = 0)]; rfl
  | succ n ih =>
    cases rs with
    | nil => rfl
    | cons r t =>
      have hr := h r (by simp)
      have hc : (r ++ t.flatten).isEmpty = false := by
        cases r with
        | nil => simp at hr; omega
        | cons => rfl
      rw [List.flatten_cons, chunksN, hc]
      simp only [Bool.false_eq_true, if_false]
      rw [List.take_left' hr, List.drop_left' hr, ih t (fun x hx => h x (by simp [hx])) (by simpa using hn)]

/-- Unwrapping undoes wrapping, for data of whole 8-byte blocks. -/
theorem keyUnwrap_keyWrap (key iv data : List Byte) (n : Nat) (hk : key.length = 16) (hi : iv.length = 8) (hd : data.length = 8 * (n + 1)) :
    keyUnwrap key iv (keyWrap key iv data) = some data ∧ (keyWrap key iv data).length = 8 + data.length := by
  have c := chunks_lengths 8 (n + 1) data (by omega) hd
  have f : (chunks 8 data).flatten = data := chunksN_flatten 8 _ data (by omega) (Nat.le_refl _)
  have h0 : chunks 8 data ≠ [] := fun e => by rw [e] at c; simp at c
  obtain ⟨w, hw⟩ : ∃ w, kwRound key ((List.range (6 * (chunks 8 data).length)).map (· + 1)) iv (chunks 8 data) = w := ⟨_, rfl⟩
  have kw : keyWrap key iv data = w.1 ++ w.2.flatten := by rw [← hw]; rfl
  have hu := kuRound_kwRound key hk ((List.range (6 * (chunks 8 data).length)).map (· + 1)) iv (chunks 8 data) hi c.2 h0
  simp only [hw] at hu
  obtain ⟨u, u1, u2, u3⟩ := hu
  rw [kw]
  unfold keyUnwrap
  have fl := flatten_length 8 w.2 u3
  have g : chunks 8 w.2.flatten = w.2 := flatten_chunksN 8 _ w.2 (by omega) u3 (by rw [fl]; omega)
  refine ⟨?_, by rw [List.length_append, u1, fl, u2, c.1, hd]⟩
  simp only [List.drop_left' u1, List.take_left' u1, g, u2, u, f, if_true]

end Sys2Proof.Laws
end

