-- ==== Sys2Proof/Laws/Tables.lean ====
section
/-! SUPPORT. Laws of the sparse tables, of register fields, and of DRAM: what a read gives after a write, and that writes keep the canonical form. -/
namespace Sys2Proof.Machine

variable {α : Type}

@[simp] theorem tget_nil (d : α) (i : Nat) : tget d [] i = d := rfl

theorem tget_cons (d : α) (k : Nat) (v : α) (t : Tab α) (i : Nat) : tget d ((k, v) :: t) i = if k = i then v else tget d t i := rfl

theorem tget_tins (d : α) (t : Tab α) (i : Nat) (v : α) (j : Nat) : tget d (tins t i v) j = if i = j then v else tget d t j := by
  induction t with
  | nil => simp [tins, tget]
  | cons p t ih =>
    obtain ⟨k, w⟩ := p
    simp only [tins]
    split
    · simp only [tget_cons]
    · split
      · subst_vars; simp only [tget_cons]; split <;> rfl
      · simp only [tget_cons, ih]; split <;> split <;> simp_all

theorem tget_filter (d : α) (t : Tab α) (i j : Nat) : tget d (t.filter (fun p => p.1 != i)) j = if i = j then d else tget d t j := by
  induction t with
  | nil => simp [tget]
  | cons p t ih =>
    obtain ⟨k, w⟩ := p
    by_cases hk : k = i
    · subst hk; simp only [List.filter, bne_self_eq_false, ih, tget_cons]; split <;> simp_all
    · have hb : (k != i) = true := by simpa using hk
      simp only [List.filter, hb, tget_cons, ih]; split <;> split <;> simp_all

/-- A read after a write gives the value written, at its key; every other key reads as before. -/
theorem tget_tput [DecidableEq α] (d : α) (t : Tab α) (i : Nat) (v : α) (j : Nat) :
    tget d (tput d t i v) j = if i = j then v else tget d t j := by
  unfold tput
  split
  · subst_vars; exact tget_filter v t i j
  · exact tget_tins d t i v j

@[simp] theorem tget_tput_same [DecidableEq α] (d : α) (t : Tab α) (i : Nat) (v : α) : tget d (tput d t i v) i = v := by
  simp [tget_tput]

theorem tget_tput_ne [DecidableEq α] (d : α) (t : Tab α) {i j : Nat} (v : α) (h : i ≠ j) : tget d (tput d t i v) j = tget d t j := by
  simp [tget_tput, h]

/-! ### The canonical form -/

/-- Every key of the table is above `b`. -/
def above (b : Nat) (t : Tab α) : Prop := ∀ p ∈ t, b < p.1

theorem tabWf_cons [DecidableEq α] (d : α) (k : Nat) (v : α) (t : Tab α) :
    tabWf d ((k, v) :: t) = true ↔ v ≠ d ∧ above k t ∧ tabWf d t = true := by
  induction t generalizing k v with
  | nil => simp [tabWf, above]
  | cons p t ih =>
    obtain ⟨k', v'⟩ := p
    simp only [tabWf, Bool.and_eq_true, bne_iff_ne, ne_eq, decide_eq_true_eq, above, List.mem_cons, forall_eq_or_imp]
    constructor
    · rintro ⟨⟨h1, h2⟩, h3⟩
      refine ⟨h1, ⟨h2, fun q hq => ?_⟩, h3⟩
      exact Nat.lt_trans h2 (((ih k' v').1 h3).2.1 q hq)
    · rintro ⟨h1, ⟨h2, -⟩, h3⟩
      exact ⟨⟨h1, h2⟩, h3⟩

theorem mem_tins {t : Tab α} {i : Nat} {v : α} {p : Nat × α} (h : p ∈ tins t i v) : p = (i, v) ∨ p ∈ t := by
  induction t with
  | nil => simpa [tins] using h
  | cons q t ih =>
    obtain ⟨k, w⟩ := q
    simp only [tins] at h
    split at h
    · simpa using h
    · split at h
      · rcases List.mem_cons.1 h with h | h
        · exact .inl h
        · exact .inr (List.mem_cons_of_mem _ h)
      · rcases List.mem_cons.1 h with h | h
        · exact .inr (h ▸ List.mem_cons_self)
        · exact (ih h).imp id (List.mem_cons_of_mem _)

theorem tabWf_tins [DecidableEq α] (d : α) (t : Tab α) (i : Nat) (v : α) (hv : v ≠ d) (h : tabWf d t = true) : tabWf d (tins t i v) = true := by
  induction t with
  | nil => simpa [tins, tabWf] using hv
  | cons p t ih =>
    obtain ⟨k, w⟩ := p
    obtain ⟨h1, h2, h3⟩ := (tabWf_cons d k w t).1 h
    simp only [tins]
    split
    · rename_i hik
      refine (tabWf_cons d i v _).2 ⟨hv, ?_, h⟩
      intro q hq
      rcases List.mem_cons.1 hq with rfl | hq
      · exact hik
      · exact Nat.lt_trans hik (h2 q hq)
    · split
      · subst_vars; exact (tabWf_cons d _ v t).2 ⟨hv, h2, h3⟩
      · refine (tabWf_cons d k w _).2 ⟨h1, ?_, ih h3⟩
        intro q hq
        rcases mem_tins hq with rfl | hq
        · show k < i; omega
        · exact h2 q hq

theorem tabWf_filter [DecidableEq α] (d : α) (t : Tab α) (f : Nat × α → Bool) (h : tabWf d t = true) : tabWf d (t.filter f) = true := by
  induction t with
  | nil => rfl
  | cons p t ih =>
    obtain ⟨k, w⟩ := p
    obtain ⟨h1, h2, h3⟩ := (tabWf_cons d k w t).1 h
    simp only [List.filter]
    split
    · exact (tabWf_cons d k w _).2 ⟨h1, fun q hq => h2 q (List.mem_filter.1 hq).1, ih h3⟩
    · exact ih h3

/-- A write keeps the canonical form. -/
theorem tabWf_tput [DecidableEq α] (d : α) (t : Tab α) (i : Nat) (v : α) (h : tabWf d t = true) : tabWf d (tput d t i v) = true := by
  unfold tput
  split
  · exact tabWf_filter d t _ h
  · rename_i hv; exact tabWf_tins d t i v hv h

/-! ### Register fields -/

theorem fget_congr {s t : State} (h : t.regs = s.regs) (f : Fld) (i : Nat) : t.fget f i = s.fget f i := by unfold State.fget; rw [h]

/-- A field reads the value stored in it, cut to its width. -/
@[simp] theorem fget_fset_same (s : State) (f : Fld) (i v : Nat) : (s.fset f i v).fget f i = v % f.span := by
  simp [State.fget, State.fset]

/-- Storing one field leaves every other field alone. -/
theorem fget_fset_ne (s : State) (f g : Fld) (i j v : Nat) (h : f.id ≠ g.id) : (s.fset f i v).fget g j = s.fget g j := by
  simp only [State.fget, State.fset, tget_tput_ne _ _ _ h]

/-- Storing one instance of a field leaves its other instances alone. -/
theorem fget_fset_inst (s : State) (f : Fld) (i j v : Nat) (h : i ≠ j) : (s.fset f i v).fget f j = s.fget f j := by
  simp only [State.fget, State.fset, tget_tput_same, tget_tput_ne _ _ _ h]

theorem fget_fset (s : State) (f : Fld) (i j v : Nat) : (s.fset f i v).fget f j = if i = j then v % f.span else s.fget f j := by
  split
  · subst_vars; exact fget_fset_same s f _ v
  · rename_i h; exact fget_fset_inst s f i j v h

/-! ### DRAM -/

/-- DRAM reads the byte written. -/
@[simp] theorem mget_mput_same (s : State) (a : Nat) (v : Byte) : (s.mput a v).mget a = v := by simp [State.mget, State.mput]

/-- A byte written leaves every other byte alone. -/
theorem mget_mput_ne (s : State) (a b : Nat) (v : Byte) (h : a ≠ b) : (s.mput a v).mget b = s.mget b := by
  simp only [State.mget, State.mput, tget_tput_ne _ _ _ h]

/-- A byte write keeps DRAM canonical. -/
theorem mput_wf (s : State) (a : Nat) (v : Byte) (h : Memory.wf s.dram = true) : Memory.wf (s.mput a v).dram = true :=
  tabWf_tput _ _ _ _ h

/-- A write of bytes keeps DRAM canonical. -/
theorem mwrite_wf (s : State) (a : Nat) (l : List Byte) (h : Memory.wf s.dram = true) : Memory.wf (s.mwrite a l).dram = true := by
  induction l generalizing s a with
  | nil => exact h
  | cons b t ih => exact ih _ _ (mput_wf s a b h)

/-- Bytes outside the written range read as before. -/
theorem mget_mwrite_out (s : State) (a : Nat) (l : List Byte) (b : Nat) (h : b < a ∨ a + l.length ≤ b) : (s.mwrite a l).mget b = s.mget b := by
  induction l generalizing s a with
  | nil => rfl
  | cons v t ih =>
    simp only [List.length_cons] at h
    rw [State.mwrite, ih _ _ (by omega), mget_mput_ne _ _ _ _ (by omega)]

/-- DRAM is canonical at reset. -/
theorem reset_dram_wf : Memory.wf State.reset.dram = true := rfl

end Sys2Proof.Machine
end

