-- ==== Sys2Proof/Laws/State.lean ====
section
/-! SUPPORT. One lemma per component per update: what each update of the state leaves as it was. -/
namespace Sys2Proof.Machine

@[simp] theorem fset_pending (s : State) (f : Fld) (i v : Nat) : (s.fset f i v).pending = s.pending := rfl
@[simp] theorem fset_dram (s : State) (f : Fld) (i v : Nat) : (s.fset f i v).dram = s.dram := rfl
@[simp] theorem fset_sels (s : State) (f : Fld) (i v : Nat) : (s.fset f i v).sels = s.sels := rfl
@[simp] theorem fset_ten (s : State) (f : Fld) (i v : Nat) : (s.fset f i v).ten = s.ten := rfl
@[simp] theorem fset_rng (s : State) (f : Fld) (i v : Nat) : (s.fset f i v).rng = s.rng := rfl
@[simp] theorem fset_tasks (s : State) (f : Fld) (i v : Nat) : (s.fset f i v).tasks = s.tasks := rfl
@[simp] theorem fset_poolUse (s : State) (f : Fld) (i v : Nat) : (s.fset f i v).poolUse = s.poolUse := rfl
@[simp] theorem fset_poolQ (s : State) (f : Fld) (i v : Nat) : (s.fset f i v).poolQ = s.poolQ := rfl
@[simp] theorem fset_ink (s : State) (f : Fld) (i v : Nat) : (s.fset f i v).ink = s.ink := rfl
@[simp] theorem fset_dstore (s : State) (f : Fld) (i v : Nat) : (s.fset f i v).dstore = s.dstore := rfl
@[simp] theorem fset_pip (s : State) (f : Fld) (i v : Nat) : (s.fset f i v).pip = s.pip := rfl
@[simp] theorem fset_ldg (s : State) (f : Fld) (i v : Nat) : (s.fset f i v).ldg = s.ldg := rfl
@[simp] theorem fset_parts (s : State) (f : Fld) (i v : Nat) : (s.fset f i v).parts = s.parts := rfl
@[simp] theorem fset_nand (s : State) (f : Fld) (i v : Nat) : (s.fset f i v).nand = s.nand := rfl
@[simp] theorem fset_time (s : State) (f : Fld) (i v : Nat) : (s.fset f i v).time = s.time := rfl
@[simp] theorem fset_pair (s : State) (f : Fld) (i v : Nat) : (s.fset f i v).pair = s.pair := rfl
@[simp] theorem fset_scb (s : State) (f : Fld) (i v : Nat) : (s.fset f i v).scb = s.scb := rfl
@[simp] theorem fset_prm (s : State) (f : Fld) (i v : Nat) : (s.fset f i v).prm = s.prm := rfl
@[simp] theorem fset_vault (s : State) (f : Fld) (i v : Nat) : (s.fset f i v).vault = s.vault := rfl
@[simp] theorem fset_bal (s : State) (f : Fld) (i v : Nat) : (s.fset f i v).bal = s.bal := rfl
@[simp] theorem fset_plc (s : State) (f : Fld) (i v : Nat) : (s.fset f i v).plc = s.plc := rfl
@[simp] theorem fset_rfm (s : State) (f : Fld) (i v : Nat) : (s.fset f i v).rfm = s.rfm := rfl
@[simp] theorem fset_upd (s : State) (f : Fld) (i v : Nat) : (s.fset f i v).upd = s.upd := rfl
@[simp] theorem fset_eth (s : State) (f : Fld) (i v : Nat) : (s.fset f i v).eth = s.eth := rfl
@[simp] theorem fset_saf (s : State) (f : Fld) (i v : Nat) : (s.fset f i v).saf = s.saf := rfl
@[simp] theorem fset_pow (s : State) (f : Fld) (i v : Nat) : (s.fset f i v).pow = s.pow := rfl
@[simp] theorem fset_out (s : State) (f : Fld) (i v : Nat) : (s.fset f i v).out = s.out := rfl
@[simp] theorem fset_freeCtr (s : State) (f : Fld) (i v : Nat) : (s.fset f i v).freeCtr = s.freeCtr := rfl

@[simp] theorem fadd_pending (s : State) (f : Fld) (i n : Nat) : (s.fadd f i n).pending = s.pending := rfl
@[simp] theorem fadd_dram (s : State) (f : Fld) (i n : Nat) : (s.fadd f i n).dram = s.dram := rfl
@[simp] theorem fadd_sels (s : State) (f : Fld) (i n : Nat) : (s.fadd f i n).sels = s.sels := rfl
@[simp] theorem fadd_ten (s : State) (f : Fld) (i n : Nat) : (s.fadd f i n).ten = s.ten := rfl
@[simp] theorem fadd_rng (s : State) (f : Fld) (i n : Nat) : (s.fadd f i n).rng = s.rng := rfl
@[simp] theorem fadd_tasks (s : State) (f : Fld) (i n : Nat) : (s.fadd f i n).tasks = s.tasks := rfl
@[simp] theorem fadd_poolUse (s : State) (f : Fld) (i n : Nat) : (s.fadd f i n).poolUse = s.poolUse := rfl
@[simp] theorem fadd_poolQ (s : State) (f : Fld) (i n : Nat) : (s.fadd f i n).poolQ = s.poolQ := rfl
@[simp] theorem fadd_ink (s : State) (f : Fld) (i n : Nat) : (s.fadd f i n).ink = s.ink := rfl
@[simp] theorem fadd_dstore (s : State) (f : Fld) (i n : Nat) : (s.fadd f i n).dstore = s.dstore := rfl
@[simp] theorem fadd_pip (s : State) (f : Fld) (i n : Nat) : (s.fadd f i n).pip = s.pip := rfl
@[simp] theorem fadd_ldg (s : State) (f : Fld) (i n : Nat) : (s.fadd f i n).ldg = s.ldg := rfl
@[simp] theorem fadd_parts (s : State) (f : Fld) (i n : Nat) : (s.fadd f i n).parts = s.parts := rfl
@[simp] theorem fadd_nand (s : State) (f : Fld) (i n : Nat) : (s.fadd f i n).nand = s.nand := rfl
@[simp] theorem fadd_time (s : State) (f : Fld) (i n : Nat) : (s.fadd f i n).time = s.time := rfl
@[simp] theorem fadd_pair (s : State) (f : Fld) (i n : Nat) : (s.fadd f i n).pair = s.pair := rfl
@[simp] theorem fadd_scb (s : State) (f : Fld) (i n : Nat) : (s.fadd f i n).scb = s.scb := rfl
@[simp] theorem fadd_prm (s : State) (f : Fld) (i n : Nat) : (s.fadd f i n).prm = s.prm := rfl
@[simp] theorem fadd_vault (s : State) (f : Fld) (i n : Nat) : (s.fadd f i n).vault = s.vault := rfl
@[simp] theorem fadd_bal (s : State) (f : Fld) (i n : Nat) : (s.fadd f i n).bal = s.bal := rfl
@[simp] theorem fadd_plc (s : State) (f : Fld) (i n : Nat) : (s.fadd f i n).plc = s.plc := rfl
@[simp] theorem fadd_rfm (s : State) (f : Fld) (i n : Nat) : (s.fadd f i n).rfm = s.rfm := rfl
@[simp] theorem fadd_upd (s : State) (f : Fld) (i n : Nat) : (s.fadd f i n).upd = s.upd := rfl
@[simp] theorem fadd_eth (s : State) (f : Fld) (i n : Nat) : (s.fadd f i n).eth = s.eth := rfl
@[simp] theorem fadd_saf (s : State) (f : Fld) (i n : Nat) : (s.fadd f i n).saf = s.saf := rfl
@[simp] theorem fadd_pow (s : State) (f : Fld) (i n : Nat) : (s.fadd f i n).pow = s.pow := rfl
@[simp] theorem fadd_out (s : State) (f : Fld) (i n : Nat) : (s.fadd f i n).out = s.out := rfl
@[simp] theorem fadd_freeCtr (s : State) (f : Fld) (i n : Nat) : (s.fadd f i n).freeCtr = s.freeCtr := rfl

@[simp] theorem fsub_pending (s : State) (f : Fld) (i n : Nat) : (s.fsub f i n).pending = s.pending := rfl
@[simp] theorem fsub_dram (s : State) (f : Fld) (i n : Nat) : (s.fsub f i n).dram = s.dram := rfl
@[simp] theorem fsub_sels (s : State) (f : Fld) (i n : Nat) : (s.fsub f i n).sels = s.sels := rfl
@[simp] theorem fsub_ten (s : State) (f : Fld) (i n : Nat) : (s.fsub f i n).ten = s.ten := rfl
@[simp] theorem fsub_rng (s : State) (f : Fld) (i n : Nat) : (s.fsub f i n).rng = s.rng := rfl
@[simp] theorem fsub_tasks (s : State) (f : Fld) (i n : Nat) : (s.fsub f i n).tasks = s.tasks := rfl
@[simp] theorem fsub_poolUse (s : State) (f : Fld) (i n : Nat) : (s.fsub f i n).poolUse = s.poolUse := rfl
@[simp] theorem fsub_poolQ (s : State) (f : Fld) (i n : Nat) : (s.fsub f i n).poolQ = s.poolQ := rfl
@[simp] theorem fsub_ink (s : State) (f : Fld) (i n : Nat) : (s.fsub f i n).ink = s.ink := rfl
@[simp] theorem fsub_dstore (s : State) (f : Fld) (i n : Nat) : (s.fsub f i n).dstore = s.dstore := rfl
@[simp] theorem fsub_pip (s : State) (f : Fld) (i n : Nat) : (s.fsub f i n).pip = s.pip := rfl
@[simp] theorem fsub_ldg (s : State) (f : Fld) (i n : Nat) : (s.fsub f i n).ldg = s.ldg := rfl
@[simp] theorem fsub_parts (s : State) (f : Fld) (i n : Nat) : (s.fsub f i n).parts = s.parts := rfl
@[simp] theorem fsub_nand (s : State) (f : Fld) (i n : Nat) : (s.fsub f i n).nand = s.nand := rfl
@[simp] theorem fsub_time (s : State) (f : Fld) (i n : Nat) : (s.fsub f i n).time = s.time := rfl
@[simp] theorem fsub_pair (s : State) (f : Fld) (i n : Nat) : (s.fsub f i n).pair = s.pair := rfl
@[simp] theorem fsub_scb (s : State) (f : Fld) (i n : Nat) : (s.fsub f i n).scb = s.scb := rfl
@[simp] theorem fsub_prm (s : State) (f : Fld) (i n : Nat) : (s.fsub f i n).prm = s.prm := rfl
@[simp] theorem fsub_vault (s : State) (f : Fld) (i n : Nat) : (s.fsub f i n).vault = s.vault := rfl
@[simp] theorem fsub_bal (s : State) (f : Fld) (i n : Nat) : (s.fsub f i n).bal = s.bal := rfl
@[simp] theorem fsub_plc (s : State) (f : Fld) (i n : Nat) : (s.fsub f i n).plc = s.plc := rfl
@[simp] theorem fsub_rfm (s : State) (f : Fld) (i n : Nat) : (s.fsub f i n).rfm = s.rfm := rfl
@[simp] theorem fsub_upd (s : State) (f : Fld) (i n : Nat) : (s.fsub f i n).upd = s.upd := rfl
@[simp] theorem fsub_eth (s : State) (f : Fld) (i n : Nat) : (s.fsub f i n).eth = s.eth := rfl
@[simp] theorem fsub_saf (s : State) (f : Fld) (i n : Nat) : (s.fsub f i n).saf = s.saf := rfl
@[simp] theorem fsub_pow (s : State) (f : Fld) (i n : Nat) : (s.fsub f i n).pow = s.pow := rfl
@[simp] theorem fsub_out (s : State) (f : Fld) (i n : Nat) : (s.fsub f i n).out = s.out := rfl
@[simp] theorem fsub_freeCtr (s : State) (f : Fld) (i n : Nat) : (s.fsub f i n).freeCtr = s.freeCtr := rfl

@[simp] theorem fsat_pending (s : State) (f : Fld) (i n : Nat) : (s.fsat f i n).pending = s.pending := rfl
@[simp] theorem fsat_dram (s : State) (f : Fld) (i n : Nat) : (s.fsat f i n).dram = s.dram := rfl
@[simp] theorem fsat_sels (s : State) (f : Fld) (i n : Nat) : (s.fsat f i n).sels = s.sels := rfl
@[simp] theorem fsat_ten (s : State) (f : Fld) (i n : Nat) : (s.fsat f i n).ten = s.ten := rfl
@[simp] theorem fsat_rng (s : State) (f : Fld) (i n : Nat) : (s.fsat f i n).rng = s.rng := rfl
@[simp] theorem fsat_tasks (s : State) (f : Fld) (i n : Nat) : (s.fsat f i n).tasks = s.tasks := rfl
@[simp] theorem fsat_poolUse (s : State) (f : Fld) (i n : Nat) : (s.fsat f i n).poolUse = s.poolUse := rfl
@[simp] theorem fsat_poolQ (s : State) (f : Fld) (i n : Nat) : (s.fsat f i n).poolQ = s.poolQ := rfl
@[simp] theorem fsat_ink (s : State) (f : Fld) (i n : Nat) : (s.fsat f i n).ink = s.ink := rfl
@[simp] theorem fsat_dstore (s : State) (f : Fld) (i n : Nat) : (s.fsat f i n).dstore = s.dstore := rfl
@[simp] theorem fsat_pip (s : State) (f : Fld) (i n : Nat) : (s.fsat f i n).pip = s.pip := rfl
@[simp] theorem fsat_ldg (s : State) (f : Fld) (i n : Nat) : (s.fsat f i n).ldg = s.ldg := rfl
@[simp] theorem fsat_parts (s : State) (f : Fld) (i n : Nat) : (s.fsat f i n).parts = s.parts := rfl
@[simp] theorem fsat_nand (s : State) (f : Fld) (i n : Nat) : (s.fsat f i n).nand = s.nand := rfl
@[simp] theorem fsat_time (s : State) (f : Fld) (i n : Nat) : (s.fsat f i n).time = s.time := rfl
@[simp] theorem fsat_pair (s : State) (f : Fld) (i n : Nat) : (s.fsat f i n).pair = s.pair := rfl
@[simp] theorem fsat_scb (s : State) (f : Fld) (i n : Nat) : (s.fsat f i n).scb = s.scb := rfl
@[simp] theorem fsat_prm (s : State) (f : Fld) (i n : Nat) : (s.fsat f i n).prm = s.prm := rfl
@[simp] theorem fsat_vault (s : State) (f : Fld) (i n : Nat) : (s.fsat f i n).vault = s.vault := rfl
@[simp] theorem fsat_bal (s : State) (f : Fld) (i n : Nat) : (s.fsat f i n).bal = s.bal := rfl
@[simp] theorem fsat_plc (s : State) (f : Fld) (i n : Nat) : (s.fsat f i n).plc = s.plc := rfl
@[simp] theorem fsat_rfm (s : State) (f : Fld) (i n : Nat) : (s.fsat f i n).rfm = s.rfm := rfl
@[simp] theorem fsat_upd (s : State) (f : Fld) (i n : Nat) : (s.fsat f i n).upd = s.upd := rfl
@[simp] theorem fsat_eth (s : State) (f : Fld) (i n : Nat) : (s.fsat f i n).eth = s.eth := rfl
@[simp] theorem fsat_saf (s : State) (f : Fld) (i n : Nat) : (s.fsat f i n).saf = s.saf := rfl
@[simp] theorem fsat_pow (s : State) (f : Fld) (i n : Nat) : (s.fsat f i n).pow = s.pow := rfl
@[simp] theorem fsat_out (s : State) (f : Fld) (i n : Nat) : (s.fsat f i n).out = s.out := rfl
@[simp] theorem fsat_freeCtr (s : State) (f : Fld) (i n : Nat) : (s.fsat f i n).freeCtr = s.freeCtr := rfl

@[simp] theorem setTask_pending (s : State) (t : Nat) (r : Task) : (s.setTask t r).pending = s.pending := rfl
@[simp] theorem setTask_dram (s : State) (t : Nat) (r : Task) : (s.setTask t r).dram = s.dram := rfl
@[simp] theorem setTask_sels (s : State) (t : Nat) (r : Task) : (s.setTask t r).sels = s.sels := rfl
@[simp] theorem setTask_ten (s : State) (t : Nat) (r : Task) : (s.setTask t r).ten = s.ten := rfl
@[simp] theorem setTask_rng (s : State) (t : Nat) (r : Task) : (s.setTask t r).rng = s.rng := rfl
@[simp] theorem setTask_poolUse (s : State) (t : Nat) (r : Task) : (s.setTask t r).poolUse = s.poolUse := rfl
@[simp] theorem setTask_poolQ (s : State) (t : Nat) (r : Task) : (s.setTask t r).poolQ = s.poolQ := rfl
@[simp] theorem setTask_ink (s : State) (t : Nat) (r : Task) : (s.setTask t r).ink = s.ink := rfl
@[simp] theorem setTask_dstore (s : State) (t : Nat) (r : Task) : (s.setTask t r).dstore = s.dstore := rfl
@[simp] theorem setTask_pip (s : State) (t : Nat) (r : Task) : (s.setTask t r).pip = s.pip := rfl
@[simp] theorem setTask_ldg (s : State) (t : Nat) (r : Task) : (s.setTask t r).ldg = s.ldg := rfl
@[simp] theorem setTask_parts (s : State) (t : Nat) (r : Task) : (s.setTask t r).parts = s.parts := rfl
@[simp] theorem setTask_nand (s : State) (t : Nat) (r : Task) : (s.setTask t r).nand = s.nand := rfl
@[simp] theorem setTask_time (s : State) (t : Nat) (r : Task) : (s.setTask t r).time = s.time := rfl
@[simp] theorem setTask_pair (s : State) (t : Nat) (r : Task) : (s.setTask t r).pair = s.pair := rfl
@[simp] theorem setTask_scb (s : State) (t : Nat) (r : Task) : (s.setTask t r).scb = s.scb := rfl
@[simp] theorem setTask_prm (s : State) (t : Nat) (r : Task) : (s.setTask t r).prm = s.prm := rfl
@[simp] theorem setTask_vault (s : State) (t : Nat) (r : Task) : (s.setTask t r).vault = s.vault := rfl
@[simp] theorem setTask_bal (s : State) (t : Nat) (r : Task) : (s.setTask t r).bal = s.bal := rfl
@[simp] theorem setTask_plc (s : State) (t : Nat) (r : Task) : (s.setTask t r).plc = s.plc := rfl
@[simp] theorem setTask_rfm (s : State) (t : Nat) (r : Task) : (s.setTask t r).rfm = s.rfm := rfl
@[simp] theorem setTask_upd (s : State) (t : Nat) (r : Task) : (s.setTask t r).upd = s.upd := rfl
@[simp] theorem setTask_eth (s : State) (t : Nat) (r : Task) : (s.setTask t r).eth = s.eth := rfl
@[simp] theorem setTask_saf (s : State) (t : Nat) (r : Task) : (s.setTask t r).saf = s.saf := rfl
@[simp] theorem setTask_pow (s : State) (t : Nat) (r : Task) : (s.setTask t r).pow = s.pow := rfl
@[simp] theorem setTask_out (s : State) (t : Nat) (r : Task) : (s.setTask t r).out = s.out := rfl
@[simp] theorem setTask_freeCtr (s : State) (t : Nat) (r : Task) : (s.setTask t r).freeCtr = s.freeCtr := rfl
@[simp] theorem setTask_regs (s : State) (t : Nat) (r : Task) : (s.setTask t r).regs = s.regs := rfl
@[simp] theorem setTask_fget (s : State) (t : Nat) (r : Task) (g : Fld) (j : Nat) : (s.setTask t r).fget g j = s.fget g j := rfl

@[simp] theorem setRing_pending (s : State) (r : Nat) (v : Ring) : (s.setRing r v).pending = s.pending := rfl
@[simp] theorem setRing_dram (s : State) (r : Nat) (v : Ring) : (s.setRing r v).dram = s.dram := rfl
@[simp] theorem setRing_sels (s : State) (r : Nat) (v : Ring) : (s.setRing r v).sels = s.sels := rfl
@[simp] theorem setRing_ten (s : State) (r : Nat) (v : Ring) : (s.setRing r v).ten = s.ten := rfl
@[simp] theorem setRing_tasks (s : State) (r : Nat) (v : Ring) : (s.setRing r v).tasks = s.tasks := rfl
@[simp] theorem setRing_poolUse (s : State) (r : Nat) (v : Ring) : (s.setRing r v).poolUse = s.poolUse := rfl
@[simp] theorem setRing_poolQ (s : State) (r : Nat) (v : Ring) : (s.setRing r v).poolQ = s.poolQ := rfl
@[simp] theorem setRing_ink (s : State) (r : Nat) (v : Ring) : (s.setRing r v).ink = s.ink := rfl
@[simp] theorem setRing_dstore (s : State) (r : Nat) (v : Ring) : (s.setRing r v).dstore = s.dstore := rfl
@[simp] theorem setRing_pip (s : State) (r : Nat) (v : Ring) : (s.setRing r v).pip = s.pip := rfl
@[simp] theorem setRing_ldg (s : State) (r : Nat) (v : Ring) : (s.setRing r v).ldg = s.ldg := rfl
@[simp] theorem setRing_parts (s : State) (r : Nat) (v : Ring) : (s.setRing r v).parts = s.parts := rfl
@[simp] theorem setRing_nand (s : State) (r : Nat) (v : Ring) : (s.setRing r v).nand = s.nand := rfl
@[simp] theorem setRing_time (s : State) (r : Nat) (v : Ring) : (s.setRing r v).time = s.time := rfl
@[simp] theorem setRing_pair (s : State) (r : Nat) (v : Ring) : (s.setRing r v).pair = s.pair := rfl
@[simp] theorem setRing_scb (s : State) (r : Nat) (v : Ring) : (s.setRing r v).scb = s.scb := rfl
@[simp] theorem setRing_prm (s : State) (r : Nat) (v : Ring) : (s.setRing r v).prm = s.prm := rfl
@[simp] theorem setRing_vault (s : State) (r : Nat) (v : Ring) : (s.setRing r v).vault = s.vault := rfl
@[simp] theorem setRing_bal (s : State) (r : Nat) (v : Ring) : (s.setRing r v).bal = s.bal := rfl
@[simp] theorem setRing_plc (s : State) (r : Nat) (v : Ring) : (s.setRing r v).plc = s.plc := rfl
@[simp] theorem setRing_rfm (s : State) (r : Nat) (v : Ring) : (s.setRing r v).rfm = s.rfm := rfl
@[simp] theorem setRing_upd (s : State) (r : Nat) (v : Ring) : (s.setRing r v).upd = s.upd := rfl
@[simp] theorem setRing_eth (s : State) (r : Nat) (v : Ring) : (s.setRing r v).eth = s.eth := rfl
@[simp] theorem setRing_saf (s : State) (r : Nat) (v : Ring) : (s.setRing r v).saf = s.saf := rfl
@[simp] theorem setRing_pow (s : State) (r : Nat) (v : Ring) : (s.setRing r v).pow = s.pow := rfl
@[simp] theorem setRing_out (s : State) (r : Nat) (v : Ring) : (s.setRing r v).out = s.out := rfl
@[simp] theorem setRing_freeCtr (s : State) (r : Nat) (v : Ring) : (s.setRing r v).freeCtr = s.freeCtr := rfl
@[simp] theorem setRing_regs (s : State) (r : Nat) (v : Ring) : (s.setRing r v).regs = s.regs := rfl
@[simp] theorem setRing_fget (s : State) (r : Nat) (v : Ring) (g : Fld) (j : Nat) : (s.setRing r v).fget g j = s.fget g j := rfl

@[simp] theorem setHost_pending (s : State) (h : Nat) (v : HostA) : (s.setHost h v).pending = s.pending := rfl
@[simp] theorem setHost_dram (s : State) (h : Nat) (v : HostA) : (s.setHost h v).dram = s.dram := rfl
@[simp] theorem setHost_sels (s : State) (h : Nat) (v : HostA) : (s.setHost h v).sels = s.sels := rfl
@[simp] theorem setHost_ten (s : State) (h : Nat) (v : HostA) : (s.setHost h v).ten = s.ten := rfl
@[simp] theorem setHost_tasks (s : State) (h : Nat) (v : HostA) : (s.setHost h v).tasks = s.tasks := rfl
@[simp] theorem setHost_poolUse (s : State) (h : Nat) (v : HostA) : (s.setHost h v).poolUse = s.poolUse := rfl
@[simp] theorem setHost_poolQ (s : State) (h : Nat) (v : HostA) : (s.setHost h v).poolQ = s.poolQ := rfl
@[simp] theorem setHost_ink (s : State) (h : Nat) (v : HostA) : (s.setHost h v).ink = s.ink := rfl
@[simp] theorem setHost_dstore (s : State) (h : Nat) (v : HostA) : (s.setHost h v).dstore = s.dstore := rfl
@[simp] theorem setHost_pip (s : State) (h : Nat) (v : HostA) : (s.setHost h v).pip = s.pip := rfl
@[simp] theorem setHost_ldg (s : State) (h : Nat) (v : HostA) : (s.setHost h v).ldg = s.ldg := rfl
@[simp] theorem setHost_parts (s : State) (h : Nat) (v : HostA) : (s.setHost h v).parts = s.parts := rfl
@[simp] theorem setHost_nand (s : State) (h : Nat) (v : HostA) : (s.setHost h v).nand = s.nand := rfl
@[simp] theorem setHost_time (s : State) (h : Nat) (v : HostA) : (s.setHost h v).time = s.time := rfl
@[simp] theorem setHost_pair (s : State) (h : Nat) (v : HostA) : (s.setHost h v).pair = s.pair := rfl
@[simp] theorem setHost_scb (s : State) (h : Nat) (v : HostA) : (s.setHost h v).scb = s.scb := rfl
@[simp] theorem setHost_prm (s : State) (h : Nat) (v : HostA) : (s.setHost h v).prm = s.prm := rfl
@[simp] theorem setHost_vault (s : State) (h : Nat) (v : HostA) : (s.setHost h v).vault = s.vault := rfl
@[simp] theorem setHost_bal (s : State) (h : Nat) (v : HostA) : (s.setHost h v).bal = s.bal := rfl
@[simp] theorem setHost_plc (s : State) (h : Nat) (v : HostA) : (s.setHost h v).plc = s.plc := rfl
@[simp] theorem setHost_rfm (s : State) (h : Nat) (v : HostA) : (s.setHost h v).rfm = s.rfm := rfl
@[simp] theorem setHost_upd (s : State) (h : Nat) (v : HostA) : (s.setHost h v).upd = s.upd := rfl
@[simp] theorem setHost_eth (s : State) (h : Nat) (v : HostA) : (s.setHost h v).eth = s.eth := rfl
@[simp] theorem setHost_saf (s : State) (h : Nat) (v : HostA) : (s.setHost h v).saf = s.saf := rfl
@[simp] theorem setHost_pow (s : State) (h : Nat) (v : HostA) : (s.setHost h v).pow = s.pow := rfl
@[simp] theorem setHost_out (s : State) (h : Nat) (v : HostA) : (s.setHost h v).out = s.out := rfl
@[simp] theorem setHost_freeCtr (s : State) (h : Nat) (v : HostA) : (s.setHost h v).freeCtr = s.freeCtr := rfl
@[simp] theorem setHost_regs (s : State) (h : Nat) (v : HostA) : (s.setHost h v).regs = s.regs := rfl
@[simp] theorem setHost_fget (s : State) (h : Nat) (v : HostA) (g : Fld) (j : Nat) : (s.setHost h v).fget g j = s.fget g j := rfl

@[simp] theorem mput_pending (s : State) (a : Nat) (v : Byte) : (s.mput a v).pending = s.pending := rfl
@[simp] theorem mput_sels (s : State) (a : Nat) (v : Byte) : (s.mput a v).sels = s.sels := rfl
@[simp] theorem mput_ten (s : State) (a : Nat) (v : Byte) : (s.mput a v).ten = s.ten := rfl
@[simp] theorem mput_rng (s : State) (a : Nat) (v : Byte) : (s.mput a v).rng = s.rng := rfl
@[simp] theorem mput_tasks (s : State) (a : Nat) (v : Byte) : (s.mput a v).tasks = s.tasks := rfl
@[simp] theorem mput_poolUse (s : State) (a : Nat) (v : Byte) : (s.mput a v).poolUse = s.poolUse := rfl
@[simp] theorem mput_poolQ (s : State) (a : Nat) (v : Byte) : (s.mput a v).poolQ = s.poolQ := rfl
@[simp] theorem mput_ink (s : State) (a : Nat) (v : Byte) : (s.mput a v).ink = s.ink := rfl
@[simp] theorem mput_dstore (s : State) (a : Nat) (v : Byte) : (s.mput a v).dstore = s.dstore := rfl
@[simp] theorem mput_pip (s : State) (a : Nat) (v : Byte) : (s.mput a v).pip = s.pip := rfl
@[simp] theorem mput_ldg (s : State) (a : Nat) (v : Byte) : (s.mput a v).ldg = s.ldg := rfl
@[simp] theorem mput_parts (s : State) (a : Nat) (v : Byte) : (s.mput a v).parts = s.parts := rfl
@[simp] theorem mput_nand (s : State) (a : Nat) (v : Byte) : (s.mput a v).nand = s.nand := rfl
@[simp] theorem mput_time (s : State) (a : Nat) (v : Byte) : (s.mput a v).time = s.time := rfl
@[simp] theorem mput_pair (s : State) (a : Nat) (v : Byte) : (s.mput a v).pair = s.pair := rfl
@[simp] theorem mput_scb (s : State) (a : Nat) (v : Byte) : (s.mput a v).scb = s.scb := rfl
@[simp] theorem mput_prm (s : State) (a : Nat) (v : Byte) : (s.mput a v).prm = s.prm := rfl
@[simp] theorem mput_vault (s : State) (a : Nat) (v : Byte) : (s.mput a v).vault = s.vault := rfl
@[simp] theorem mput_bal (s : State) (a : Nat) (v : Byte) : (s.mput a v).bal = s.bal := rfl
@[simp] theorem mput_plc (s : State) (a : Nat) (v : Byte) : (s.mput a v).plc = s.plc := rfl
@[simp] theorem mput_rfm (s : State) (a : Nat) (v : Byte) : (s.mput a v).rfm = s.rfm := rfl
@[simp] theorem mput_upd (s : State) (a : Nat) (v : Byte) : (s.mput a v).upd = s.upd := rfl
@[simp] theorem mput_eth (s : State) (a : Nat) (v : Byte) : (s.mput a v).eth = s.eth := rfl
@[simp] theorem mput_saf (s : State) (a : Nat) (v : Byte) : (s.mput a v).saf = s.saf := rfl
@[simp] theorem mput_pow (s : State) (a : Nat) (v : Byte) : (s.mput a v).pow = s.pow := rfl
@[simp] theorem mput_out (s : State) (a : Nat) (v : Byte) : (s.mput a v).out = s.out := rfl
@[simp] theorem mput_freeCtr (s : State) (a : Nat) (v : Byte) : (s.mput a v).freeCtr = s.freeCtr := rfl
@[simp] theorem mput_regs (s : State) (a : Nat) (v : Byte) : (s.mput a v).regs = s.regs := rfl
@[simp] theorem mput_fget (s : State) (a : Nat) (v : Byte) (g : Fld) (j : Nat) : (s.mput a v).fget g j = s.fget g j := rfl

@[simp] theorem emit_pending (s : State) (o : Out) : (s.emit o).pending = s.pending := rfl
@[simp] theorem emit_dram (s : State) (o : Out) : (s.emit o).dram = s.dram := rfl
@[simp] theorem emit_sels (s : State) (o : Out) : (s.emit o).sels = s.sels := rfl
@[simp] theorem emit_ten (s : State) (o : Out) : (s.emit o).ten = s.ten := rfl
@[simp] theorem emit_rng (s : State) (o : Out) : (s.emit o).rng = s.rng := rfl
@[simp] theorem emit_tasks (s : State) (o : Out) : (s.emit o).tasks = s.tasks := rfl
@[simp] theorem emit_poolUse (s : State) (o : Out) : (s.emit o).poolUse = s.poolUse := rfl
@[simp] theorem emit_poolQ (s : State) (o : Out) : (s.emit o).poolQ = s.poolQ := rfl
@[simp] theorem emit_ink (s : State) (o : Out) : (s.emit o).ink = s.ink := rfl
@[simp] theorem emit_dstore (s : State) (o : Out) : (s.emit o).dstore = s.dstore := rfl
@[simp] theorem emit_pip (s : State) (o : Out) : (s.emit o).pip = s.pip := rfl
@[simp] theorem emit_ldg (s : State) (o : Out) : (s.emit o).ldg = s.ldg := rfl
@[simp] theorem emit_parts (s : State) (o : Out) : (s.emit o).parts = s.parts := rfl
@[simp] theorem emit_nand (s : State) (o : Out) : (s.emit o).nand = s.nand := rfl
@[simp] theorem emit_time (s : State) (o : Out) : (s.emit o).time = s.time := rfl
@[simp] theorem emit_pair (s : State) (o : Out) : (s.emit o).pair = s.pair := rfl
@[simp] theorem emit_scb (s : State) (o : Out) : (s.emit o).scb = s.scb := rfl
@[simp] theorem emit_prm (s : State) (o : Out) : (s.emit o).prm = s.prm := rfl
@[simp] theorem emit_vault (s : State) (o : Out) : (s.emit o).vault = s.vault := rfl
@[simp] theorem emit_bal (s : State) (o : Out) : (s.emit o).bal = s.bal := rfl
@[simp] theorem emit_plc (s : State) (o : Out) : (s.emit o).plc = s.plc := rfl
@[simp] theorem emit_rfm (s : State) (o : Out) : (s.emit o).rfm = s.rfm := rfl
@[simp] theorem emit_upd (s : State) (o : Out) : (s.emit o).upd = s.upd := rfl
@[simp] theorem emit_eth (s : State) (o : Out) : (s.emit o).eth = s.eth := rfl
@[simp] theorem emit_saf (s : State) (o : Out) : (s.emit o).saf = s.saf := rfl
@[simp] theorem emit_pow (s : State) (o : Out) : (s.emit o).pow = s.pow := rfl
@[simp] theorem emit_freeCtr (s : State) (o : Out) : (s.emit o).freeCtr = s.freeCtr := rfl
@[simp] theorem emit_regs (s : State) (o : Out) : (s.emit o).regs = s.regs := rfl
@[simp] theorem emit_fget (s : State) (o : Out) (g : Fld) (j : Nat) : (s.emit o).fget g j = s.fget g j := rfl

/-! A field reads the same whatever other component is replaced. -/

@[simp] theorem fget_with_pending (s : State) (x) (g : Fld) (j : Nat) : (State.fget { s with pending := x } g j) = s.fget g j := rfl
@[simp] theorem fget_with_dram (s : State) (x) (g : Fld) (j : Nat) : (State.fget { s with dram := x } g j) = s.fget g j := rfl
@[simp] theorem fget_with_sels (s : State) (x) (g : Fld) (j : Nat) : (State.fget { s with sels := x } g j) = s.fget g j := rfl
@[simp] theorem fget_with_ten (s : State) (x) (g : Fld) (j : Nat) : (State.fget { s with ten := x } g j) = s.fget g j := rfl
@[simp] theorem fget_with_rng (s : State) (x) (g : Fld) (j : Nat) : (State.fget { s with rng := x } g j) = s.fget g j := rfl
@[simp] theorem fget_with_tasks (s : State) (x) (g : Fld) (j : Nat) : (State.fget { s with tasks := x } g j) = s.fget g j := rfl
@[simp] theorem fget_with_poolUse (s : State) (x) (g : Fld) (j : Nat) : (State.fget { s with poolUse := x } g j) = s.fget g j := rfl
@[simp] theorem fget_with_poolQ (s : State) (x) (g : Fld) (j : Nat) : (State.fget { s with poolQ := x } g j) = s.fget g j := rfl
@[simp] theorem fget_with_ink (s : State) (x) (g : Fld) (j : Nat) : (State.fget { s with ink := x } g j) = s.fget g j := rfl
@[simp] theorem fget_with_dstore (s : State) (x) (g : Fld) (j : Nat) : (State.fget { s with dstore := x } g j) = s.fget g j := rfl
@[simp] theorem fget_with_pip (s : State) (x) (g : Fld) (j : Nat) : (State.fget { s with pip := x } g j) = s.fget g j := rfl
@[simp] theorem fget_with_ldg (s : State) (x) (g : Fld) (j : Nat) : (State.fget { s with ldg := x } g j) = s.fget g j := rfl
@[simp] theorem fget_with_parts (s : State) (x) (g : Fld) (j : Nat) : (State.fget { s with parts := x } g j) = s.fget g j := rfl
@[simp] theorem fget_with_nand (s : State) (x) (g : Fld) (j : Nat) : (State.fget { s with nand := x } g j) = s.fget g j := rfl
@[simp] theorem fget_with_time (s : State) (x) (g : Fld) (j : Nat) : (State.fget { s with time := x } g j) = s.fget g j := rfl
@[simp] theorem fget_with_pair (s : State) (x) (g : Fld) (j : Nat) : (State.fget { s with pair := x } g j) = s.fget g j := rfl
@[simp] theorem fget_with_scb (s : State) (x) (g : Fld) (j : Nat) : (State.fget { s with scb := x } g j) = s.fget g j := rfl
@[simp] theorem fget_with_prm (s : State) (x) (g : Fld) (j : Nat) : (State.fget { s with prm := x } g j) = s.fget g j := rfl
@[simp] theorem fget_with_vault (s : State) (x) (g : Fld) (j : Nat) : (State.fget { s with vault := x } g j) = s.fget g j := rfl
@[simp] theorem fget_with_bal (s : State) (x) (g : Fld) (j : Nat) : (State.fget { s with bal := x } g j) = s.fget g j := rfl
@[simp] theorem fget_with_plc (s : State) (x) (g : Fld) (j : Nat) : (State.fget { s with plc := x } g j) = s.fget g j := rfl
@[simp] theorem fget_with_rfm (s : State) (x) (g : Fld) (j : Nat) : (State.fget { s with rfm := x } g j) = s.fget g j := rfl
@[simp] theorem fget_with_upd (s : State) (x) (g : Fld) (j : Nat) : (State.fget { s with upd := x } g j) = s.fget g j := rfl
@[simp] theorem fget_with_eth (s : State) (x) (g : Fld) (j : Nat) : (State.fget { s with eth := x } g j) = s.fget g j := rfl
@[simp] theorem fget_with_saf (s : State) (x) (g : Fld) (j : Nat) : (State.fget { s with saf := x } g j) = s.fget g j := rfl
@[simp] theorem fget_with_pow (s : State) (x) (g : Fld) (j : Nat) : (State.fget { s with pow := x } g j) = s.fget g j := rfl
@[simp] theorem fget_with_out (s : State) (x) (g : Fld) (j : Nat) : (State.fget { s with out := x } g j) = s.fget g j := rfl
@[simp] theorem fget_with_freeCtr (s : State) (x) (g : Fld) (j : Nat) : (State.fget { s with freeCtr := x } g j) = s.fget g j := rfl

/-! A store of a field does not depend on the other components, nor change them. -/

theorem fset_comm_ids (s : State) (f g : Fld) (i j v w k : Nat) (e : Fld) (h : f.id ≠ e.id) (h' : g.id ≠ e.id) :
    ((s.fset f i v).fset g j w).fget e k = s.fget e k := by
  rw [fget_fset_ne _ _ _ _ _ _ h', fget_fset_ne _ _ _ _ _ _ h]

theorem fget_fadd_ne (s : State) (f g : Fld) (i j n : Nat) (h : f.id ≠ g.id) : (s.fadd f i n).fget g j = s.fget g j := fget_fset_ne _ _ _ _ _ _ h
theorem fget_fsub_ne (s : State) (f g : Fld) (i j n : Nat) (h : f.id ≠ g.id) : (s.fsub f i n).fget g j = s.fget g j := fget_fset_ne _ _ _ _ _ _ h
theorem fget_fsat_ne (s : State) (f g : Fld) (i j n : Nat) (h : f.id ≠ g.id) : (s.fsat f i n).fget g j = s.fget g j := fget_fset_ne _ _ _ _ _ _ h

end Sys2Proof.Machine
end

