-- ==== Sys2Proof/Laws/Signal.lean ====
section
/-! SUPPORT. What signalling an event can change, once for all: counters of sources, rings, task inputs and pools, the rings themselves, the tasks'
queues, and the record of outputs. Everything else is as it was. -/
namespace Sys2Proof.Safety
open Sys2Proof.Machine Sys2Proof.Machine.Reg

variable {L : List Nat}

theorem Quiet.refl (s : State) : Quiet L s s := by constructor <;> intros <;> simp [Sends]

theorem Sends.trans {a b c : Mrt} (h : Sends a b) (k : Sends b c) : Sends a c := by
  unfold Sends at *
  rw [k, h]

theorem Quiet.trans {s t u : State} (h : Quiet L s t) (k : Quiet L t u) : Quiet L s u := by
  constructor
  · intro f i hf hg; rw [k.reg f i hf hg, h.reg f i hf hg]
  case rings =>
    intro r
    obtain ⟨a, b, c, d, e⟩ := h.rings r
    obtain ⟨a', b', c', d', e'⟩ := k.rings r
    exact ⟨a'.trans a, b'.trans b, c'.trans c, d'.trans d, e'.trans e⟩
  case hosts =>
    intro x
    obtain ⟨a, b, c, d⟩ := h.hosts x
    obtain ⟨a', b', c', d'⟩ := k.hosts x
    exact ⟨a'.trans a, b'.trans b, c.trans c', fun n => (d' n).trans (d n)⟩
  case eth => rw [k.eth, h.eth]
  case saved => intro x; exact (k.saved x).trans (h.saved x)
  all_goals first
    | rw [k.pending, h.pending] | rw [k.dram, h.dram] | rw [k.sels, h.sels] | rw [k.ten, h.ten] | rw [k.poolQ, h.poolQ] | rw [k.ink, h.ink]
    | rw [k.dstore, h.dstore] | rw [k.pip, h.pip] | rw [k.ldg, h.ldg] | rw [k.parts, h.parts] | rw [k.nand, h.nand] | rw [k.time, h.time]
    | rw [k.pair, h.pair] | rw [k.ctxs, h.ctxs] | rw [k.items, h.items] | rw [k.istore, h.istore] | rw [k.pages, h.pages] | rw [k.prm, h.prm]
    | rw [k.vault, h.vault] | rw [k.bal, h.bal] | rw [k.plc, h.plc] | rw [k.rfm, h.rfm] | rw [k.upd, h.upd] 
    | rw [k.saf, h.saf] | rw [k.pow, h.pow] | rw [k.freeCtr, h.freeCtr] | rw [k.routes, h.routes] | rw [k.attach, h.attach] | rw [k.prio0, h.prio0]

theorem Quiet.fset (s : State) (f : Fld) (i v : Nat) (h : f.id ∈ sigIds) : Quiet L s (s.fset f i v) := by
  constructor
  · intro g j _ hg; exact fget_fset_ne _ _ _ _ _ _ (fun e => hg (e ▸ h))
  all_goals intros
  all_goals first | rfl | exact ⟨rfl, rfl, rfl, rfl, rfl⟩ | exact ⟨rfl, rfl, rfl, fun _ => rfl⟩

theorem Quiet.fadd (s : State) (f : Fld) (i n : Nat) (h : f.id ∈ sigIds) : Quiet L s (s.fadd f i n) := Quiet.fset s f i _ h
theorem Quiet.fsat (s : State) (f : Fld) (i n : Nat) (h : f.id ∈ sigIds) : Quiet L s (s.fsat f i n) := Quiet.fset s f i _ h

theorem Quiet.setTask (s : State) (t : Nat) (r : Task) (h : r.saved = (s.task t).saved) : Quiet L s (s.setTask t r) := by
  constructor
  case saved =>
    intro k
    by_cases e : t = k
    · subst e; simp [State.task, State.setTask, h]
    · simp [State.task, State.setTask, tget_tput_ne _ _ _ e]
  all_goals intros
  all_goals first | rfl | exact ⟨rfl, rfl, rfl, rfl, rfl⟩ | exact ⟨rfl, rfl, rfl, fun _ => rfl⟩

theorem Quiet.setRing (s : State) (r : Nat) (v : Ring) (h1 : v.descs = (s.ring r).descs) (h2 : v.order = (s.ring r).order)
    (h3 : v.reads = (s.ring r).reads) (h4 : v.cpls = (s.ring r).cpls) (h5 : v.stored = (s.ring r).stored) : Quiet L s (s.setRing r v) := by
  constructor
  case rings =>
    intro k
    by_cases e : r = k
    · subst e; simp [State.ring, State.setRing, h1, h2, h3, h4, h5]
    · simp [State.ring, State.setRing, tget_tput_ne _ _ _ e]
  all_goals intros
  all_goals first | rfl | exact ⟨rfl, rfl, rfl, fun _ => rfl⟩

theorem Quiet.setHost (s : State) (h : Nat) (v : HostA) (h1 : Sends (s.host h).mrt v.mrt)
    (h2 : v.cond = (s.host h).cond) (h3 : v.port = (s.host h).port) (h4 : h < 3 ∨ 8 ≤ h → v.mrt = (s.host h).mrt) : Quiet L s (s.setHost h v) := by
  constructor
  case hosts =>
    intro k
    by_cases e : h = k
    · subst e
      have q : (s.setHost h v).host h = v := by simp [State.host, State.setHost]
      rw [q]
      exact ⟨h2, h3, h1, h4⟩
    · have q : (s.setHost h v).host k = s.host k := by simp [State.host, State.setHost, tget_tput_ne _ _ _ e]
      rw [q]
      exact ⟨rfl, rfl, rfl, fun _ => rfl⟩
  all_goals intros
  all_goals first | rfl | exact ⟨rfl, rfl, rfl, rfl, rfl⟩

/-- A host's record with the same session. -/
theorem Quiet.setHostSame (s : State) (h : Nat) (v : HostA) (h1 : v.mrt = (s.host h).mrt) (h2 : v.cond = (s.host h).cond)
    (h3 : v.port = (s.host h).port) : Quiet L s (s.setHost h v) :=
  Quiet.setHost s h v (by rw [h1]; rfl) h2 h3 (fun _ => h1)

theorem Quiet.emit (s : State) (o : Out) : Quiet L s (s.emit o) := by
  constructor
  all_goals intros
  all_goals first | rfl | exact ⟨rfl, rfl, rfl, rfl, rfl⟩ | exact ⟨rfl, rfl, rfl, fun _ => rfl⟩
theorem Quiet.poolUse (s : State) (x : Tab Nat) : Quiet L s { s with poolUse := x } := by
  constructor
  all_goals intros
  all_goals first | rfl | exact ⟨rfl, rfl, rfl, rfl, rfl⟩ | exact ⟨rfl, rfl, rfl, fun _ => rfl⟩
theorem Quiet.stamp (s : State) (n : Nat) : Quiet L s { s with scb := { s.scb with stamp := n } } := by
  constructor
  all_goals intros
  all_goals first | rfl | exact ⟨rfl, rfl, rfl, rfl, rfl⟩ | exact ⟨rfl, rfl, rfl, fun _ => rfl⟩
theorem Quiet.lastSec (s : State) (x : Tab Nat) : Quiet L s { s with rng := { s.rng with lastSec := x } } := by
  constructor
  all_goals intros
  all_goals first | rfl | exact ⟨rfl, rfl, rfl, rfl, rfl⟩ | exact ⟨rfl, rfl, rfl, fun _ => rfl⟩

theorem Quiet.here (s : State) (f : Fld) (i v : Nat) (h : f.id ∈ L) : Quiet L s (s.fset f i v) := by
  constructor
  · intro g j hg _; exact fget_fset_ne _ _ _ _ _ _ (fun e => hg (e ▸ h))
  all_goals intros
  all_goals first | rfl | exact ⟨rfl, rfl, rfl, rfl, rfl⟩ | exact ⟨rfl, rfl, rfl, fun _ => rfl⟩

theorem Quiet.mono {M : List Nat} {s t : State} (h : Quiet L s t) (hm : ∀ x ∈ L, x ∈ M) : Quiet M s t :=
  { h with reg := fun f i hf hs => h.reg f i (fun c => hf (hm _ c)) hs }

end Sys2Proof.Safety

namespace Sys2Proof.Machine
open Reg Sys2Proof.Safety

variable {L : List Nat}

theorem oncePerSec_quiet (s : State) (k : Nat) : Quiet L s (s.oncePerSec k).2 := by
  unfold State.oncePerSec
  dsimp only
  split
  · exact Quiet.refl s
  · exact Quiet.lastSec s _

theorem irq_quiet (s : State) (h v : Nat) : Quiet L s (s.irq h v) := by
  unfold State.irq
  dsimp only
  split
  · exact Quiet.refl s
  · split
    · split
      · exact Quiet.setHostSame s _ _ rfl rfl rfl
      · exact (Quiet.setHostSame s _ _ (by rfl) (by rfl) (by rfl)).trans (Quiet.emit _ _)
    · split
      · exact Quiet.setHostSame s _ _ rfl rfl rfl
      · exact Quiet.emit _ _

theorem coalesce_quiet (s : State) (r : Nat) (b : Bool) : Quiet L s (s.coalesce r b) := by
  unfold State.coalesce
  dsimp only
  split
  · exact Quiet.refl s
  · split
    · exact (Quiet.setRing s _ _ (by rfl) (by rfl) (by rfl) (by rfl) (by rfl)).trans (irq_quiet _ _ _)
    · exact Quiet.setRing s _ _ rfl rfl rfl rfl rfl

theorem prpSeq_quiet (s : State) (n : Nat) : Quiet L s { s with eth := { s.eth with prpSeq := n } } := by
  constructor
  all_goals intros
  all_goals first | rfl | exact ⟨rfl, rfl, rfl, rfl, rfl⟩ | exact ⟨rfl, rfl, rfl, fun _ => rfl⟩

theorem ethTx_quiet (s : State) (p : Nat) (f : List Byte) : Quiet L s (s.ethTx p f) := by
  unfold State.ethTx
  split
  · exact (Quiet.fsat s _ _ _ (by decide)).trans (Quiet.emit _ _)
  · exact Quiet.refl s

theorem ethSend_quiet (s : State) (p : Nat) (f : List Byte) : Quiet L s (s.ethSend p f) := by
  unfold State.ethSend
  split
  · exact ((prpSeq_quiet s _).trans (ethTx_quiet _ _ _)).trans (ethTx_quiet _ _ _)
  · exact ethTx_quiet _ _ _

theorem mrtOut_quiet (s : State) (h typ session seq count : Nat) (key body : List Byte) (hh : 3 ≤ h ∧ h < 8) :
    Quiet L s (s.mrtOut h typ session seq count key body) := by
  unfold State.mrtOut
  dsimp only
  rw [if_neg (by unfold pairHost; omega)]
  exact (Quiet.setHost s h _ (by rfl) (by rfl) (by rfl) (fun c => by omega)).trans (ethSend_quiet _ _ _)

/-- A DATA body to a host's session: what it changes is what a signal may. -/
theorem mrtData_quiet (s : State) (h : Nat) (body : List Byte) (hh : 3 ≤ h ∧ h < 8) : Quiet L s (s.mrtData h body) := by
  unfold State.mrtData
  dsimp only
  split
  · exact Quiet.refl s
  · split
    · exact Quiet.setHost s h _ (by rfl) (by rfl) (by rfl) (fun c => by omega)
    · exact (Quiet.setHost s h _ (by rfl) (by rfl) (by rfl) (fun c => by omega)).trans (mrtOut_quiet _ _ _ _ _ _ _ _ hh)

theorem mrtItemOut_quiet (s : State) (kind r slot : Nat) (data : List Byte) (hh : 3 ≤ s.ringHost r ∧ s.ringHost r < 8) :
    Quiet L s (s.mrtItemOut kind r slot data) := by
  unfold State.mrtItemOut
  split
  · exact mrtData_quiet _ _ _ hh
  · exact Quiet.fsat _ _ _ _ (by decide)

theorem produce_quiet (s : State) (r k : Nat) (b : List Byte) : Quiet L s (s.produce r k b) := by
  unfold State.produce
  dsimp only
  split
  · exact (Quiet.fsat s _ _ _ (by decide)).trans (Quiet.fsat _ _ _ _ (by decide))
  · have put : ∀ x : Tab (Option Prod), Quiet L s (s.setRing r { s.ring r with prods := x }) :=
      fun x => Quiet.setRing s _ _ (by rfl) (by rfl) (by rfl) (by rfl) (by rfl)
    have item : ∀ u : State, Quiet L s u → u.ringHost r = s.ringHost r → ∀ (n : Nat) (d : List Byte), Quiet L s
        (if 3 ≤ s.ringHost r ∧ s.ringHost r < 8 then u.mrtItemOut 3 r n d else u) := by
      intro u hu hr n d
      split
      · rename_i hh
        exact hu.trans (mrtItemOut_quiet _ _ _ _ _ (by rw [hr]; exact hh))
      · exact hu
    refine Quiet.trans ?_ (coalesce_quiet _ _ _)
    refine Quiet.trans ?_ (Quiet.fsat _ _ _ _ (by decide))
    refine Quiet.trans ?_ (Quiet.fset _ _ _ _ (by decide))
    split
    · exact ((item _ (put _) rfl _ _).trans (Quiet.fset _ _ _ _ (by decide))).trans (Quiet.fset _ _ _ _ (by decide))
    · exact (item _ (put _) rfl _ _).trans (Quiet.fset _ _ _ _ (by decide))

theorem deliverRaw_quiet (sg : State → Nat → List Byte → State) (hg : ∀ s n p, Quiet L s (sg s n p)) (s : State) (t i src : Nat)
    (pay : List Byte) (b : Bool) : Quiet L s (s.deliverRaw sg t i src pay b) := by
  have full : ∀ s : State, Quiet L s
      (match (s.fsat TSK_IN.OVERFLOW (8 * t + i)).oncePerSec (1000 + t) with
        | (true, s) => sg s 17 (leB 2 t ++ leB 1 i)
        | (false, s) => s) := by
    intro s
    have h1 : Quiet L s (s.fsat TSK_IN.OVERFLOW (8 * t + i)) := Quiet.fsat _ _ _ _ (by decide)
    have h2 := oncePerSec_quiet (L := L) (s.fsat TSK_IN.OVERFLOW (8 * t + i)) (1000 + t)
    split
    · rename_i u hu; rw [hu] at h2; exact (h1.trans h2).trans (hg _ _ _)
    · rename_i u hu; rw [hu] at h2; exact h1.trans h2
  unfold State.deliverRaw
  dsimp only
  split
  · exact Quiet.fsat _ _ _ _ (by decide)
  · split
    · split
      · exact full s
      · exact Quiet.fadd _ _ _ _ (by decide)
    · split
      · exact full s
      · split
        · exact (Quiet.fsat s SCB_POOL_EXH.COUNT 0 1 (by decide)).trans (full _)
        · split
          · exact (Quiet.setTask s _ _ (by rfl)).trans (Quiet.fadd _ _ _ _ (by decide))
          · have h3 : ∀ (r : Task) (x : Tab Nat), r.saved = (s.task t).saved → Quiet L s (({ (s.setTask t r).fadd TSK_IN.COUNT (8 * t + i) with poolUse := x } : State).fadd SCB_POOL.USED 0) := by
              intro r x hr
              exact (((Quiet.setTask s t r hr).trans (Quiet.fadd _ TSK_IN.COUNT (8 * t + i) 1 (by decide))).trans (Quiet.poolUse _ x)).trans
                (Quiet.fadd _ SCB_POOL.USED 0 1 (by decide))
            split
            · exact (h3 _ _ (by rfl)).trans (hg _ _ _)
            · exact h3 _ _ rfl

theorem markReady_quiet (s : State) (t : Nat) (w : Bool) : Quiet L s (s.markReady t w) := by
  unfold State.markReady
  split
  · exact (Quiet.stamp s _).trans (Quiet.setTask _ _ _ (by rfl))
  · exact Quiet.refl s

theorem deliverWith_quiet (sg : State → Nat → List Byte → State) (hg : ∀ s n p, Quiet L s (sg s n p)) (s : State) (t i src : Nat)
    (pay : List Byte) (b : Bool) : Quiet L s (s.deliverWith sg t i src pay b) :=
  (deliverRaw_quiet sg hg s t i src pay b).trans (markReady_quiet _ _ _)

theorem signalOnce_quiet (dl : State → Nat → Nat → Nat → List Byte → State) (hd : ∀ s t i n p, Quiet L s (dl s t i n p)) (s : State) (src : Nat)
    (pay : List Byte) : Quiet L s (s.signalOnce dl src pay).2 := by
  have h1 : Quiet L s (s.fadd EVT_S_CNT.COUNT src) := Quiet.fadd _ _ _ _ (by decide)
  have h2 : Quiet L s (if nbit (tget 0 (s.fadd EVT_S_CNT.COUNT src).rng.routes src) 15 = false ∧ nbit (tget 0 (s.fadd EVT_S_CNT.COUNT src).rng.routes src) 28 = false
      then (s.fadd EVT_S_CNT.COUNT src).fsat EVT_NOROUTE.COUNT 0 else s.fadd EVT_S_CNT.COUNT src) := by
    split
    · exact h1.trans (Quiet.fsat _ _ _ _ (by decide))
    · exact h1
  unfold State.signalOnce
  dsimp only
  revert h2
  generalize (if nbit (tget 0 (s.fadd EVT_S_CNT.COUNT src).rng.routes src) 15 = false ∧ nbit (tget 0 (s.fadd EVT_S_CNT.COUNT src).rng.routes src) 28 = false
      then (s.fadd EVT_S_CNT.COUNT src).fsat EVT_NOROUTE.COUNT 0 else s.fadd EVT_S_CNT.COUNT src) = c
  intro h2
  split
  · exact h2.trans (Quiet.fsat _ _ _ _ (by decide))
  · split
    · exact h2
    · have h3 : ∀ u : State, Quiet L s u → Quiet L s (if nbit (tget 0 (s.fadd EVT_S_CNT.COUNT src).rng.routes src) 28 = false then (false, u)
          else if u.prodRoom (nbits (tget 0 (s.fadd EVT_S_CNT.COUNT src).rng.routes src) 27 16) 32 then
            (false, u.produce (nbits (tget 0 (s.fadd EVT_S_CNT.COUNT src).rng.routes src) 27 16) 1
              (evtBody src (u.fget EVT_S_CNT.COUNT src) u.time.mpt pay))
          else (true, (u.fsat EVT_S_DROP.COUNT src).fsat RNG_R_DROP.COUNT (nbits (tget 0 (s.fadd EVT_S_CNT.COUNT src).rng.routes src) 27 16))).2 := by
        intro u hu
        split
        · exact hu
        · split
          · exact hu.trans (produce_quiet _ _ _ _)
          · exact (hu.trans (Quiet.fsat _ _ _ _ (by decide))).trans (Quiet.fsat _ _ _ _ (by decide))
      refine h3 _ ?_
      split
      · exact h2.trans (hd _ _ _ _ _)
      · exact h2

theorem signalWith_quiet (dl : State → Nat → Nat → Nat → List Byte → State) (hd : ∀ s t i n p, Quiet L s (dl s t i n p)) (s : State) (src : Nat)
    (pay : List Byte) : Quiet L s (s.signalWith dl src pay) := by
  unfold State.signalWith
  have h1 := signalOnce_quiet dl hd s src pay
  split
  · rename_i u hu; rw [hu] at h1; exact h1
  · rename_i u hu
    rw [hu] at h1
    have h2 := oncePerSec_quiet (L := L) u 29
    split
    · rename_i v hv; rw [hv] at h2; exact h1.trans h2
    · rename_i v hv; rw [hv] at h2; exact (h1.trans h2).trans (signalOnce_quiet dl hd _ _ _)

theorem signalN_quiet (n : Nat) : ∀ (s : State) (src : Nat) (pay : List Byte), Quiet L s (State.signalN n s src pay) := by
  induction n with
  | zero => intro s src pay; exact Quiet.refl s
  | succ n ih => intro s src pay; exact signalWith_quiet _ (fun s t i n p => deliverWith_quiet _ ih s t i n p false) s src pay

/-- What a signal changes, and that it changes nothing else. -/
theorem signal_quiet (s : State) (src : Nat) (pay : List Byte) : Quiet L s (s.signal src pay) := signalN_quiet 4 s src pay

/-- The same of a delivery to a task. -/
theorem deliver_quiet (s : State) (t i src : Nat) (pay : List Byte) (b : Bool) : Quiet L s (s.deliver t i src pay b) :=
  deliverWith_quiet _ signal_quiet s t i src pay b

theorem signal_fget (s : State) (src : Nat) (pay : List Byte) (f : Fld) (i : Nat) (h : f.id ∉ sigIds) :
    (s.signal src pay).fget f i = s.fget f i := (signal_quiet (L := []) s src pay).reg f i (by simp) h

theorem deliver_fget (s : State) (t j src : Nat) (pay : List Byte) (b : Bool) (f : Fld) (i : Nat) (h : f.id ∉ sigIds) :
    (s.deliver t j src pay b).fget f i = s.fget f i := (deliver_quiet (L := []) s t j src pay b).reg f i (by simp) h

theorem errSignal_quiet (s : State) (b : Blk) : Quiet L s (s.errSignal b) := by
  unfold State.errSignal
  split
  · exact Quiet.refl s
  · exact signal_quiet _ _ _

/-- The fields an error of a block in CHIP_ERR writes. -/
theorem errSet_quiet (s : State) (fs : List Fld) (info : State → State) (hi : ∀ s, Quiet L s (info s)) (hf : ∀ f ∈ fs, f.id ∈ L) :
    Quiet L s (s.errSet fs info) := by
  have hfold : ∀ (l : List Fld) (u : State), (∀ f ∈ l, f.id ∈ L) → Quiet L u (l.foldl (fun s g => s.fset g 0 1) u) := by
    intro l
    induction l with
    | nil => intro u _; exact Quiet.refl u
    | cons g l ih =>
      intro u h
      exact (Quiet.here u g 0 1 (h g List.mem_cons_self)).trans (ih _ (fun f hf => h f (List.mem_cons_of_mem _ hf)))
  unfold State.errSet
  split
  · exact Quiet.refl s
  · exact ((hi s).trans (hfold _ _ hf)).trans (errSignal_quiet _ _)

/-- An error recorded with an offset: the bit, the offset, and what a signal changes. -/
theorem errAt_quiet (s : State) (f : Fld) (off : Nat) : Quiet [f.id, (infoFld f.blk).id] s (s.errAt f off) :=
  errSet_quiet s _ _ (fun s => Quiet.here s _ _ _ (by simp)) (by simp)

/-- An error in CHIP_ERR: the bit, the host, the offset, and what a signal changes. -/
theorem chipErr_quiet (s : State) (f : Fld) (host addr : Nat) :
    Quiet [f.id, CHIP_ERR_INFO.HOST.id, CHIP_ERR_INFO.OFFSET.id] s (s.chipErr f host addr) :=
  errSet_quiet s _ _ (fun s => (Quiet.here s _ _ _ (by simp)).trans (Quiet.here _ _ _ _ (by simp))) (by simp)

/-- An error in RNG_ERR: the bit, host, ring, offset, and what a signal changes. -/
theorem rngErr_quiet (s : State) (f : Fld) (host ring : Nat) (off : Option Nat) :
    Quiet [f.id, RNG_ERR_INFO.HOST.id, RNG_ERR_INFO.RING.id, RNG_ERR_OFS.OFFSET.id] s (s.rngErr f host ring off) := by
  refine errSet_quiet s _ _ (fun s => ?_) (by simp)
  dsimp only
  split
  · exact ((Quiet.here s _ _ _ (by simp)).trans (Quiet.here _ _ _ _ (by simp))).trans (Quiet.here _ _ _ _ (by simp))
  · exact (Quiet.here s _ _ _ (by simp)).trans (Quiet.here _ _ _ _ (by simp))

end Sys2Proof.Machine
end

