-- ==== Sys2Proof/Laws/Gates.lean ====
section
/-! SUPPORT. What the gates of a register write do: an open gate is its body; a write by another host, or to a silent block, changes nothing but errors. -/
namespace Sys2Proof.Machine
open Sys2Proof.Safety

theorem gate_open {s : State} {host : Nat} {b : Blk} (h : Open s host b) (off : Nat) (body : State → State) :
    s.gate host b off body = body s := by
  unfold State.gate; rw [h.1, h.2]; simp

theorem gateW_open {s : State} {host : Nat} {b : Blk} {kind i : Nat} (h : OpenW s host b kind i) (off : Nat) (body : Nat → State → State) :
    s.gateW host b kind off body = body i s := by
  unfold State.gateW; rw [gate_open h.1, h.2]; simp

theorem gate_silent {s : State} {b : Blk} (h : s.silent b = true) (host off : Nat) (body : State → State) : s.gate host b off body = s := by
  unfold State.gate; simp [h]

theorem gate_other {s : State} {host : Nat} {b : Blk} (h : s.silent b = false) (hh : host ≠ s.supv) (off : Nat) (body : State → State) :
    s.gate host b off body = s.chipErr Reg.CHIP_ERR.NOT_SUPV host (b.addr off) := by
  unfold State.gate; simp [h, hh]

end Sys2Proof.Machine
end

