-- ==== Sys2Proof/Laws/Ink.lean ====
section
/-! SUPPORT. What storing an Inkwell record can change. -/
namespace Sys2Proof.Machine
open Reg Sys2Proof.Safety

/-- The recorder's own fields. -/
def inkIds : List Nat := [INK_SEQ.SEQ.id, INK_STAT.USED.id, INK_STAT.FREEZE.id, INK_SUPP.COUNT.id, INK_DROP.COUNT.id]

/-- `t` is `s` but for the recorder, the fields of `L`, and what a signal changes. -/
def QuietInk (L : List Nat) (s t : State) : Prop := ∃ x, Quiet L ({ s with ink := x } : State) t

theorem quiet_toInk {L : List Nat} {s t : State} (h : Quiet L s t) : QuietInk L s t := ⟨s.ink, h⟩

theorem QuietInk.trans {L : List Nat} {s t u : State} (h : QuietInk L s t) (k : QuietInk L t u) : QuietInk L s u := by
  obtain ⟨x, h⟩ := h
  obtain ⟨y, k⟩ := k
  refine ⟨y, ?_⟩
  have h2 : Quiet L ({ s with ink := y } : State) ({ t with ink := y } : State) := by
    constructor
    · exact fun f i hf hs => h.reg f i hf hs
    case rings => exact h.rings
    case hosts => exact h.hosts
    case saved => exact h.saved
    all_goals first
      | exact h.pending | exact h.dram | exact h.sels | exact h.ten | exact h.poolQ | rfl
      | exact h.dstore | exact h.pip | exact h.ldg | exact h.parts | exact h.nand | exact h.time
      | exact h.pair | exact h.ctxs | exact h.items | exact h.istore | exact h.pages | exact h.prm
      | exact h.vault | exact h.bal | exact h.plc | exact h.rfm | exact h.upd | exact h.eth
      | exact h.saf | exact h.pow | exact h.freeCtr | exact h.routes | exact h.attach | exact h.prio0
  exact h2.trans k

theorem QuietInk.reg {L : List Nat} {s t : State} (h : QuietInk L s t) (f : Fld) (i : Nat) (hf : f.id ∉ L) (hs : f.id ∉ sigIds) :
    t.fget f i = s.fget f i := by
  obtain ⟨x, h⟩ := h
  exact h.reg f i hf hs

theorem QuietInk.ite {L : List Nat} {s a b : State} {c : Prop} [Decidable c] (ha : QuietInk L s a) (hb : QuietInk L s b) :
    QuietInk L s (if c then a else b) := by split <;> assumption

theorem inkSet_quiet {L : List Nat} (s : State) (x : InkS) : QuietInk L s { s with ink := x } := ⟨x, Quiet.refl _⟩

theorem inkPut_quiet (s : State) (typ tenant : Nat) (body : List Byte) : QuietInk inkIds s (s.inkPut typ tenant body) := by
  unfold State.inkPut
  dsimp only
  exact ⟨_, Quiet.trans (Quiet.here _ INK_SEQ.SEQ _ _ (by decide)) (Quiet.here _ INK_STAT.USED _ _ (by decide))⟩

/-- What a record changes: the recorder, its five fields, and what a signal changes. -/
theorem inkRec_quiet (s : State) (typ tenant : Nat) (body : List Byte) : QuietInk inkIds s (s.inkRec typ tenant body) := by
  unfold State.inkRec
  dsimp only
  have h1 : ∀ x : InkS, QuietInk inkIds s ((({ s with ink := x } : State)).fsat INK_DROP.COUNT 0) :=
    fun x => (inkSet_quiet s x).trans (quiet_toInk (Quiet.here _ INK_DROP.COUNT _ _ (by decide)))
  have h2 := fun (u v : State) (b : Bool) (h : u.oncePerSec 136 = (b, v)) =>
    (by have h := congrArg Prod.snd h; have k := oncePerSec_quiet (L := inkIds) u 136; rw [h] at k; exact k : Quiet inkIds u v)
  refine QuietInk.ite ?_ (QuietInk.ite ?_ ?_)
  · exact (inkSet_quiet s _).trans (quiet_toInk (Quiet.here _ INK_SUPP.COUNT _ _ (by decide)))
  · split
    · rename_i u hu
      exact ((h1 _).trans (quiet_toInk (h2 _ _ _ hu))).trans (quiet_toInk (signal_quiet _ _ _))
    · rename_i u hu
      exact (h1 _).trans (quiet_toInk (h2 _ _ _ hu))
  · have h4 : QuietInk inkIds s (if s.ink.gapDue = true then
            (({ s with ink := { s.ink with gapDue := false } } : State)).inkPut 1 0 (gapBody 0 0 0 4) else s) :=
      QuietInk.ite ((inkSet_quiet s _).trans (inkPut_quiet _ _ _ _)) (quiet_toInk (Quiet.refl s))
    have h5 := h4.trans (inkPut_quiet _ typ tenant body)
    refine QuietInk.ite (QuietInk.ite ?_ ?_) ?_
    · exact ((h5.trans (inkSet_quiet _ _)).trans (quiet_toInk (Quiet.here _ INK_STAT.FREEZE _ _ (by decide)))).trans
        (quiet_toInk (signal_quiet _ _ _))
    · exact h5.trans (inkSet_quiet _ _)
    · exact h5

theorem inkRec_fget (s : State) (typ tenant : Nat) (body : List Byte) (f : Fld) (i : Nat) (hf : f.id ∉ inkIds) (hs : f.id ∉ sigIds) :
    (s.inkRec typ tenant body).fget f i = s.fget f i := (inkRec_quiet s typ tenant body).reg f i hf hs

end Sys2Proof.Machine
end

