-- ==== Sys2Proof/Tests/Slice0.lean ====
section
/-! SUPPORT. Tests: ill-formed terms, words written out from the encoding, single steps, and for every statement with hypotheses states and operands that meet them. -/
namespace Sys2Proof.Tests
open Sys2Proof Sys2Proof.Machine Sys2Proof.Machine.Reg Sys2Proof.Safety

set_option maxRecDepth 100000
set_option Elab.async false

/-- A state with some fields at other values: field, instance, value. -/
def put (s : State) (l : List (Fld × Nat × Nat)) : State := l.foldl (fun s e => s.fset e.1 e.2.1 e.2.2) s

/-- The state after reset with tenant 0 owning ring, task, event source, calendar and partition 0, ledgers, nodes and balance nodes, and with
64 KiB of data pages and of DRAM window for task 0, and 1,000 ledgers whose records and events go to task 0. -/
def own : State :=
  { put State.reset [(TSK_DATA.PAGES, 0, 16), (TSK_XWIN_SIZE.PAGES, 0, 16), (LDG_CFG.AREA_VALID, 0, 1), (LDG_COUNT.COUNT, 0, 1000)] with
    pip.routes := [(0, 0x80008000), (1, 0x80008000)]
    ten.active := { recs := [(1, 2000000), (8, 1048576), (11, 65536), (12, 69632), (13, 255)], ring := [(0, 0x80FF0000)], task := [(0, 0x8000)],
                    event := [(0, 0x8000)], cal := [(0, 0x8000)], part := [(0, 0x8000)] } }

/-- As above, with some fields at other values. -/
def st (l : List (Fld × Nat × Nat)) : State := put own l

/-- A work item of an engine and operation, with fields: offset, length, value. -/
def itm (engine op : Nat) (l : List (Nat × Nat × Nat)) : Item :=
  { task := 0, gen := 0, tenant := 0, ctx := 0, epoch := 0, engine := engine, urgent := false, ticket := 0,
    bytes := l.foldl (fun b e => splice b e.1 (leB e.2.1 e.2.2)) (fit 64 [BitVec.ofNat 8 op]) }

/-- Context 0 of task 0 about to issue the word `w`. -/
def issuing (w : Nat) (c : Ctx) : State :=
  { ((st [(SCB_BANK_LEN.LEN, 0, 1)]).setCtx 0 { c with task := some 0 }) with scb.istore := [(0, w)] }

/-- A connection 0 of radio 0 that is open, with an event due. -/
def alive : State :=
  (((st [(RFM_R_STAT.STATE, 0, 2)]).setConnX 0 (some { sent := true })).setCf 0 6 1 2).setCf 0 0x0E 2 100

/-- An MRT frame of host 3, as its host would send it. -/
def mrtF (key : List Byte) (typ session seq ack count : Nat) (body : List Byte) : List Byte :=
  List.replicate 12 0 ++ (beB 2 (State.reset.fget RNG_MRT.ETYPE) ++ (mrtHeader typ 3 0 session seq ack 1 body.length count 0 ++ gcmCrypt key (mrtNonce session 0 1) body
    ++ gcmTag key (mrtNonce session 0 1) (mrtHeader typ 3 0 session seq ack 1 body.length count 0) (gcmCrypt key (mrtNonce session 0 1) body)))

/-- Fields of a frame's header. -/
theorem hdr_fields (typ session seq ack len count : Nat) (ht : typ < 256) (hs : session < 2 ^ 32) (hb : len < 2 ^ 16) (hdr : List Byte)
    (e : hdr = mrtHeader typ 3 0 session seq ack 1 len count 0) :
    hdr.length = 32 ∧ leAt hdr 0 1 = 1 ∧ leAt hdr 1 1 = typ ∧ leAt hdr 2 1 = 3 ∧ leAt hdr 3 1 = 1 ∧ leAt hdr 4 4 = session ∧ leAt hdr 0x10 8 = 1
      ∧ leAt hdr 0x18 2 = len ∧ leAt hdr 8 4 = seq % 2 ^ 32 ∧ leAt hdr 0xC 4 = ack % 2 ^ 32 ∧ leAt hdr 0x1A 1 = count % 256 := by
  have gm : ∀ (a c : List Byte) (off n v : Nat), a.length = off → hdr = a ++ (leB n v ++ c) → leAt hdr off n = v % 256 ^ n := by
    intro a c off n v h e
    rw [e, Laws.leAt_mid a c off n v h]
  have go : ∀ (a c : List Byte) (off n v : Nat), a.length = off → v < 256 ^ n → hdr = a ++ (leB n v ++ c) → leAt hdr off n = v := by
    intro a c off n v h hv e
    rw [e, Laws.leAt_mid a c off n v h, Nat.mod_eq_of_lt hv]
  simp only [mrtHeader] at e
  refine ⟨by rw [e]; simp [Laws.leB_length], go [] _ 0 1 1 rfl (by decide) (by rw [e]; simp only [List.append_assoc, List.nil_append]; rfl),
    go (leB 1 1) _ 1 1 typ (Laws.leB_length ..) ht (by rw [e]; simp only [List.append_assoc]; rfl),
    go (leB 1 1 ++ leB 1 typ) _ 2 1 3 (by simp [Laws.leB_length]) (by decide) (by rw [e]; simp only [List.append_assoc]; rfl),
    go (leB 1 1 ++ leB 1 typ ++ leB 1 3) _ 3 1 1 (by simp [Laws.leB_length]) (by decide) (by rw [e]; simp only [List.append_assoc]; rfl),
    go (leB 1 1 ++ leB 1 typ ++ leB 1 3 ++ leB 1 1) _ 4 4 session (by simp [Laws.leB_length]) hs (by rw [e]; simp only [List.append_assoc]; rfl),
    go (leB 1 1 ++ leB 1 typ ++ leB 1 3 ++ leB 1 1 ++ leB 4 session ++ leB 4 seq ++ leB 4 ack) _ 0x10 8 1 (by simp [Laws.leB_length]) (by decide)
      (by rw [e]; simp only [List.append_assoc]; rfl),
    go (leB 1 1 ++ leB 1 typ ++ leB 1 3 ++ leB 1 1 ++ leB 4 session ++ leB 4 seq ++ leB 4 ack ++ leB 8 1) _ 0x18 2 len (by simp [Laws.leB_length]) hb
      (by rw [e]; simp only [List.append_assoc]; rfl),
    gm (leB 1 1 ++ leB 1 typ ++ leB 1 3 ++ leB 1 1 ++ leB 4 session) _ 8 4 seq (by simp [Laws.leB_length]) (by rw [e]; simp only [List.append_assoc]; rfl),
    gm (leB 1 1 ++ leB 1 typ ++ leB 1 3 ++ leB 1 1 ++ leB 4 session ++ leB 4 seq) _ 0xC 4 ack (by simp [Laws.leB_length]) (by rw [e]; simp only [List.append_assoc]; rfl),
    gm (leB 1 1 ++ leB 1 typ ++ leB 1 3 ++ leB 1 1 ++ leB 4 session ++ leB 4 seq ++ leB 4 ack ++ leB 8 1 ++ leB 2 len) _ 0x1A 1 count (by simp [Laws.leB_length])
      (by rw [e]; simp only [List.append_assoc]; rfl)⟩

/-- Where its parts lie. -/
theorem mrtF_parts (key : List Byte) (typ session seq ack count : Nat) (body : List Byte) (h : key.length = 16) (ht : typ < 256) (hs : session < 2 ^ 32)
    (hb : body.length < 2 ^ 16) :
    (mrtF key typ session seq ack count body).length = 62 + body.length ∧ slice (mrtF key typ session seq ack count body) 12 2 = [0x88, 0xB5]
    ∧ slice (mrtF key typ session seq ack count body) 6 6 = List.replicate 6 0
    ∧ leAt ((mrtF key typ session seq ack count body).drop 14) 0 1 = 1 ∧ leAt ((mrtF key typ session seq ack count body).drop 14) 1 1 = typ
    ∧ leAt ((mrtF key typ session seq ack count body).drop 14) 2 1 = 3 ∧ leAt ((mrtF key typ session seq ack count body).drop 14) 3 1 = 1
    ∧ leAt ((mrtF key typ session seq ack count body).drop 14) 0x18 2 = body.length
    ∧ leAt ((mrtF key typ session seq ack count body).drop 14) 4 4 = session ∧ leAt ((mrtF key typ session seq ack count body).drop 14) 8 4 = seq % 2 ^ 32
    ∧ leAt ((mrtF key typ session seq ack count body).drop 14) 0xC 4 = ack % 2 ^ 32 ∧ leAt ((mrtF key typ session seq ack count body).drop 14) 0x1A 1 = count % 256 := by
  have e : beB 2 (State.reset.fget RNG_MRT.ETYPE) = [0x88, 0xB5] := by decide
  obtain ⟨hl, b, c, d, f1, f2, -, f4, f5, f6, f7⟩ := hdr_fields typ session seq ack body.length count ht hs hb _ rfl
  unfold mrtF
  rw [e]
  have hc := Laws.gcmCrypt_length key (mrtNonce session 0 1) body h
  have htg := Laws.gcmTag_length key (mrtNonce session 0 1) (mrtHeader typ 3 0 session seq ack 1 body.length count 0) (gcmCrypt key (mrtNonce session 0 1) body) h
  generalize gcmTag key (mrtNonce session 0 1) (mrtHeader typ 3 0 session seq ack 1 body.length count 0) (gcmCrypt key (mrtNonce session 0 1) body) = tg at htg ⊢
  generalize gcmCrypt key (mrtNonce session 0 1) body = ct at hc ⊢
  generalize mrtHeader typ 3 0 session seq ack 1 body.length count 0 = hdr at *
  have dr : ∀ x : List Byte, (List.replicate 12 (0 : Byte) ++ ([0x88, 0xB5] ++ x)).drop 14 = x := fun _ => rfl
  have pre : ∀ off n, off + n ≤ 32 → leAt (hdr ++ ct ++ tg) off n = leAt hdr off n := by
    intro off n ho
    simp only [leAt, slice, List.append_assoc]
    rw [List.drop_append_of_le_length (Nat.le_trans (Nat.le_add_right _ _) (hl ▸ ho)), List.take_append_of_le_length (by simp [hl]; omega)]
  rw [dr, pre 0 1 (by decide), pre 1 1 (by decide), pre 2 1 (by decide), pre 3 1 (by decide), pre 0x18 2 (by decide), pre 4 4 (by decide),
    pre 8 4 (by decide), pre 0xC 4 (by decide), pre 0x1A 1 (by decide)]
  refine ⟨?_, Laws.slice_append (List.replicate 12 0) [0x88, 0xB5] _ 12 2 rfl rfl, Laws.slice_append (List.replicate 6 0) (List.replicate 6 0) _ 6 6 rfl rfl, b, c, d, f1, f4, f2, f5, f6, f7⟩
  simp only [List.length_append, List.length_replicate, hl, hc, htg, List.length_cons, List.length_nil]
  generalize body.length = n
  clear b c d f1 f2 f4 f5 f6 f7 pre dr hl hc htg h ht hb hs e
  omega

/-- The receiver opens it. -/
theorem mrtF_open (key : List Byte) (typ session seq ack count : Nat) (body : List Byte) (h : key.length = 16) (ht : typ < 256) (hs : session < 2 ^ 32)
    (hb : body.length < 2 ^ 16) :
    mrtOpen key ((mrtF key typ session seq ack count body).drop (ethOff (mrtF key typ session seq ack count body))) = some body := by
  obtain ⟨-, ty, -⟩ := mrtF_parts key typ session seq ack count body h ht hs hb
  have o : ethOff (mrtF key typ session seq ack count body) = 14 := by rw [ethOff, ty]; rfl
  rw [o, mrtF]
  obtain ⟨a, b, c, d, f1, f2, f3, f4, -⟩ := hdr_fields typ session seq ack body.length count ht hs hb _ rfl
  have e : beB 2 (State.reset.fget RNG_MRT.ETYPE) = [0x88, 0xB5] := by decide
  have dr : ∀ x : List Byte, (List.replicate 12 (0 : Byte) ++ ([0x88, 0xB5] ++ x)).drop 14 = x := fun _ => rfl
  rw [e, dr]
  exact Laws.mrtOpen_frame key _ body (mrtNonce session 0 1) h a f4 (by rw [f1]; rfl) (by rw [f1, f2, f3])

/-- Port 0 is ON; host 3 has an open session, number 7, with an all-zero key. -/
def mrtS (m : Mrt) : State := (st [(ETH_P_STAT.STATE, 0, 2), (RNG_H_MRT_CFG.PORTS, 3, 1), (RNG_H_SESSION.SESSION, 3, 7), (KV_STAT.TRNG_OK, 0, 1)]).setHost 3 { mrt := { m with isOpen := true, key := List.replicate 16 0 } }

/-- It has the form of a frame of host 3 where port 0 and the host are set up for it. -/
theorem mrtF_form {s : State} (key : List Byte) (typ session seq ack count : Nat) (body : List Byte) (h : key.length = 16) (ht : typ < 256) (hs : session < 2 ^ 32)
    (hb : body.length ≤ 1000 ∧ body.length % 8 = 0)
    (g : s.mode ≠ 0 ∧ s.fget ETH_P_STAT.STATE 0 = 2 ∧ s.fget ETH_CFG.MODE = 0 ∧ s.fget RNG_MRT.ETYPE = 0x88B5 ∧ s.fget RNG_H_MAC_LO.MAC_LO 3 = 0
      ∧ s.fget RNG_H_MAC_HI.MAC_HI 3 = 0 ∧ s.fbit RNG_H_MRT_CFG.VLAN_EN 3 = false ∧ nbit (s.fget RNG_H_MRT_CFG.PORTS 3) 0 = true ∧ 1062 ≤ s.fget RNG_MRT.MTU) :
    MrtForm s 0 3 typ (mrtF key typ session seq ack count body) := by
  obtain ⟨l, ty, m, a0, a1, a2, a3, a4, -⟩ := mrtF_parts key typ session seq ack count body h ht hs (Nat.lt_of_le_of_lt hb.1 (by decide))
  generalize mrtF key typ session seq ack count body = f at *
  obtain ⟨g0, g1, g2, g3, g4, g5, g6, g7, g8⟩ := g
  have l1 : 60 ≤ f.length ∧ f.length ≤ 9212 ∧ f.length ≤ 1062 ∧ 48 + body.length ≤ f.length - 14 := by
    clear ty m a0 a1 a2 a3 a4 g0 g1 g2 g3 g4 g5 g6 g7 g8
    omega
  have o : ethOff f = 14 := by rw [ethOff, ty]; rfl
  have et : ethType f = 0x88B5 := by rw [ethType, o, ty]; rfl
  refine ⟨g0, by decide, g1, ⟨l1.1, l1.2.1⟩, g2, ⟨by rw [et, g3], by rw [et]; decide, by simp [ptpOf, et]⟩, by rw [o, a1], by rw [o, a2], ?_, ?_⟩
  · have z : leB 4 0 ++ leB 2 0 = List.replicate 6 (0 : Byte) := by decide
    simp only [State.mrtFrom, g4, g5, g6, m, o, g7, z, List.length_drop, Bool.false_eq_true, if_false, beq_self_eq_true, ge_iff_le, Nat.le_refl, decide_true, Bool.true_and, Bool.and_true,
      decide_eq_true_eq]
    exact Nat.le_trans l1.2.2.1 g8
  · simp only [mrtForm, o, a0, a3, a4, List.length_drop, Bool.and_eq_true, decide_eq_true_eq, beq_iff_eq]
    exact ⟨⟨⟨l1.2.2.2, trivial⟩, hb.2⟩, trivial⟩

/-- The fields a receiver reads from it. -/
theorem mrtF_at (key : List Byte) (typ session seq ack count : Nat) (body : List Byte) (h : key.length = 16) (ht : typ < 256) (hs : session < 2 ^ 32)
    (hb : body.length < 2 ^ 16) (f : List Byte) (e : f = mrtF key typ session seq ack count body) :
    leAt (f.drop (ethOff f)) 4 4 = session ∧ leAt (f.drop (ethOff f)) 8 4 = seq % 2 ^ 32 ∧ leAt (f.drop (ethOff f)) 0xC 4 = ack % 2 ^ 32
      ∧ leAt (f.drop (ethOff f)) 0x1A 1 = count % 256 := by
  obtain ⟨-, ty, -, -, -, -, -, -, r⟩ := mrtF_parts key typ session seq ack count body h ht hs hb
  rw [← e] at ty r
  have o : ethOff f = 14 := by rw [ethOff, ty]; rfl
  rw [o]
  exact r

/-- A frame of host 3's open session. -/
abbrev mrtG (typ seq ack count : Nat) (body : List Byte) : List Byte := mrtF (List.replicate 16 0) typ 7 seq ack count body

/-- It arrives whole. -/
theorem mrtS_in (m : Mrt) (typ seq ack count : Nat) (body : List Byte) (ht : typ < 256) (hb : body.length ≤ 1000 ∧ body.length % 8 = 0) :
    MrtIn (mrtS m) 0 3 typ (mrtG typ seq ack count body) ((mrtS m).host 3).mrt.key body :=
  ⟨mrtF_form _ _ _ _ _ _ _ (by rfl) ht (by decide) hb
      (show (mrtS {}).mode ≠ 0 ∧ (mrtS {}).fget ETH_P_STAT.STATE 0 = 2 ∧ (mrtS {}).fget ETH_CFG.MODE = 0 ∧ (mrtS {}).fget RNG_MRT.ETYPE = 0x88B5
        ∧ (mrtS {}).fget RNG_H_MAC_LO.MAC_LO 3 = 0 ∧ (mrtS {}).fget RNG_H_MAC_HI.MAC_HI 3 = 0 ∧ (mrtS {}).fbit RNG_H_MRT_CFG.VLAN_EN 3 = false
        ∧ nbit ((mrtS {}).fget RNG_H_MRT_CFG.PORTS 3) 0 = true ∧ 1062 ≤ (mrtS {}).fget RNG_MRT.MTU by decide +kernel),
    mrtF_open (List.replicate 16 0) _ _ _ _ _ _ rfl ht (by decide) (Nat.lt_of_le_of_lt hb.1 (by decide))⟩

/-- Its session is the host's. -/
theorem mrtS_session (m : Mrt) (typ seq ack count : Nat) (body : List Byte) (ht : typ < 256) (hb : body.length ≤ 1000) :
    leAt ((mrtG typ seq ack count body).drop (ethOff (mrtG typ seq ack count body))) 4 4 = (mrtS m).mrtSession 3 :=
  (mrtF_at (List.replicate 16 0) typ 7 seq ack count body rfl ht (by decide) (Nat.lt_of_le_of_lt hb (by decide)) _ rfl).1

/-- It arrives within the open session. -/
theorem mrtS_on (m : Mrt) (typ seq ack count : Nat) (body : List Byte) (ht : typ < 256) (hb : body.length ≤ 1000 ∧ body.length % 8 = 0)
    (hm : m.unacked = [] ∧ m.queued = []) : MrtOn (mrtS m) 0 3 typ (mrtG typ seq ack count body) body :=
  ⟨mrtS_in m typ seq ack count body ht hb, rfl, mrtS_session m typ seq ack count body ht hb.1, hm.1, hm.2⟩

/-- How far its SEQ lies ahead. -/
theorem mrtS_ahead (m : Mrt) (typ seq ack count : Nat) (body : List Byte) (ht : typ < 256) (hb : body.length ≤ 1000) :
    seqAhead (mrtS m) 3 (mrtG typ seq ack count body) = (seq % 2 ^ 32 + 2 ^ 32 - m.rxExp) % 2 ^ 32 := by
  rw [seqAhead, (mrtF_at (List.replicate 16 0) typ 7 seq ack count body rfl ht (by decide) (Nat.lt_of_le_of_lt hb (by decide)) _ rfl).2.1]; rfl

/-- A radio PDU without payload of connection 0's access address and event 0. -/
def csmP (ctrl : Byte) (pc : Nat) : List Byte :=
  [0, 0, 0, 0, ctrl, 0] ++ leB 4 pc ++ ccmTag (List.replicate 16 0) (csmNonce 0 pc 0 0) [0, 0, 0, 0, ctrl, 0] [] 4

/-- It opens under the all-zero key. -/
theorem csmP_open (s : State) (ctrl : Byte) (pc : Nat) (hk : s.rfKey 0 false = some (List.replicate 16 0)) (hp : pc < 2 ^ 32) (hc : nbit ctrl.toNat 5 = true) :
    s.csmOpen 0 0 0 (csmP ctrl pc) = some (ctrl.toNat, pc, []) := by
  have lt := Laws.ccmTag_length (List.replicate 16 0) (csmNonce 0 pc 0 0) [0, 0, 0, 0, ctrl, 0] [] 4 rfl (by decide)
  have e1 : leAt (csmP ctrl pc) 4 1 = ctrl.toNat := by simp [leAt, slice, csmP, ofLe]
  have e2 : leAt (csmP ctrl pc) 5 1 = 0 := by simp [leAt, slice, csmP, ofLe]
  have e3 : leAt (csmP ctrl pc) 0 4 = 0 := by simp [leAt, slice, csmP, ofLe]
  have e4 : leAt (csmP ctrl pc) 6 4 = pc := by
    rw [csmP, List.append_assoc, Laws.leAt_mid [0, 0, 0, 0, ctrl, 0] _ 6 4 pc rfl]; exact Nat.mod_eq_of_lt hp
  have e5 : slice (csmP ctrl pc) 10 4 = ccmTag (List.replicate 16 0) (csmNonce 0 pc 0 0) [0, 0, 0, 0, ctrl, 0] [] 4 := by
    have := Laws.slice_append ([0, 0, 0, 0, ctrl, 0] ++ leB 4 pc) _ [] 10 4 rfl lt
    rwa [List.append_nil] at this
  have e6 : (csmP ctrl pc).take 6 = [0, 0, 0, 0, ctrl, 0] := by rw [csmP]; rfl
  have e7 : (csmP ctrl pc).length = 14 := by rw [csmP, List.length_append, lt]; simp [Laws.leB_length]
  have e8 : ∀ k n l, ccmCrypt k n (slice l 10 0) = [] := fun k n l => by simp [ccmCrypt, aesCtr, slice, xorB]
  simp [State.csmOpen, hk, e1, e2, e3, e4, e5, e6, e7, e8, hc]


/-- An item of AES operation `op` with a nonce of `vl` zeros, no text, no data, and a 4-byte tag in task 0's data page. -/
def tagI (op vl : Nat) : Item := { itm 0 op [(1, 1, 1), (2, 1, 4), (3, 1, vl)] with pin := some (0, 1) }

/-- It is item 1; slot 0 keeps the older all-zero key it pinned; the data page begins with the bytes `T`. -/
def tagS (op vl : Nat) (T : List Byte) : State :=
  { (own.setVslot 0 { old := [⟨1, 1, 1, List.replicate 16 0, [], 1⟩] }).setItem 1 (some (tagI op vl)) with
    dstore := [(0, T.getD 0 0), (1, T.getD 1 0), (2, T.getD 2 0), (3, T.getD 3 0)] }

/-- What an item's key and windows are does not depend on the data store. -/
theorem dstore_free (s : State) (l : List (Nat × Byte)) (it : Item) (x y : List Nat) :
    ({ s with dstore := l } : State).itKey it x y = s.itKey it x y ∧ (∀ n, ({ s with dstore := l } : State).item n = s.item n)
      ∧ ({ s with dstore := l } : State).keysBlocked = s.keysBlocked ∧ ∀ t d o n, ({ s with dstore := l } : State).winOk t d o n = s.winOk t d o n :=
  ⟨rfl, fun _ => rfl, rfl, fun _ _ _ _ => rfl⟩

/-- A 4-byte tag at the start of the data store is what an item without text and data reads. -/
theorem aesIn_at (s : State) (it : Item) (a b c d : Byte) (h : it.f 1 1 = 1 ∧ it.f 0x0C 4 = 0 ∧ it.f 0x18 4 = 0 ∧ it.f 0x1C 2 = 0)
    (w : s.winOk it.task true 0 4 = true ∧ s.winOk it.task false (it.f 0x14 4) 0 = true ∧ s.winAddr it.task 0 = 0) :
    ({ s with dstore := [(0, a), (1, b), (2, c), (3, d)] } : State).aesIn it 4 = some ([a, b, c, d], [], slice it.bytes 0x28 (it.f 3 1)) := by
  have r : ({ s with dstore := [(0, a), (1, b), (2, c), (3, d)] } : State).dread (s.winAddr it.task 0) 4 = [a, b, c, d] := by rw [w.2.2]; rfl
  have k := fun l => (dstore_free s l it [] []).2.2.2
  have wr : ∀ l, ({ s with dstore := l } : State).winAddr it.task 0 = s.winAddr it.task 0 := fun _ => rfl
  have z : nbit 1 0 = true ∧ nbit 1 2 = false := by decide
  simp only [State.aesIn, State.itIn, State.itAux, h.1, h.2.1, h.2.2.1, h.2.2.2, z.1, z.2, k, w.1, w.2.1, State.winRead, wr, r, if_true, if_false, Bool.false_eq_true]
  rfl

/-- The key is found and the tag is read. -/
theorem tagS_in (op vl : Nat) (ho : (op = 1 ∧ vl = 12) ∨ (op = 4 ∧ vl = 13)) (T : List Byte) (h : T.length = 4) :
    (tagS op vl T).itKey (tagI op vl) [1, 2] [1] = (0, ⟨1, 1, List.replicate 16 0, []⟩)
      ∧ (tagS op vl T).aesIn (tagI op vl) 4 = some (T, [], List.replicate vl 0) ∧ Ready (tagS op vl T) 1 0 op (tagI op vl)
      ∧ ∀ b : List Byte, b.length = 0 → Fits (tagS op vl T) (tagI op vl) b := by
  obtain ⟨rfl, rfl⟩ | ⟨rfl, rfl⟩ := ho
  all_goals
    match T, h with
    | [a, b, c, d], _ =>
      refine ⟨?_, ?_, ⟨?_, ?_⟩, fun x hx => ?_⟩
      · rw [tagS, (dstore_free _ _ _ _ _).1]; decide +kernel
      · exact (aesIn_at _ _ a b c d (by decide +kernel) (by decide +kernel)).trans (congrArg (fun v => some ([a, b, c, d], [], v)) (by decide +kernel))
      · rw [tagS, (dstore_free _ _ (tagI 0 0) [] []).2.1]; decide +kernel
      · rw [tagS, (dstore_free _ _ (tagI 0 0) [] []).2.2.1]; decide +kernel
      · rw [Fits, hx, tagS, (dstore_free _ _ (tagI 0 0) [] []).2.2.2]; decide +kernel

/-- Bytes as cells from an address. -/
def cells (k : Nat) : List Byte → List (Nat × Byte)
  | [] => []
  | b :: t => (k, b) :: cells (k + 1) t

theorem dread_skip (s : State) (k : Nat) (b : Byte) (c : List (Nat × Byte)) (a n : Nat) (h : k < a) :
    ({ s with dstore := (k, b) :: c } : State).dread a n = ({ s with dstore := c } : State).dread a n := by
  induction n generalizing a with
  | zero => rfl
  | succ n ih => rw [State.dread, ih (a + 1) (by omega), State.dread, tget_cons, if_neg (by omega)]

/-- The data store gives them back. -/
theorem dread_cells (s : State) (l : List Byte) (k : Nat) : ({ s with dstore := cells k l } : State).dread k l.length = l := by
  induction l generalizing k with
  | nil => rfl
  | cons b t ih => rw [cells, List.length_cons, State.dread, dread_skip _ _ _ _ _ _ (Nat.lt_succ_self k), ih, tget_cons, if_pos rfl]

/-- An item with its input at the start of task 0's data page reads it. -/
theorem itIn_cells (s : State) (it : Item) (l : List Byte) (h : nbit (it.f 1 1) 0 = true ∧ it.f 0x0C 4 = 0 ∧ s.winOk it.task true 0 l.length = true ∧ s.winAddr it.task 0 = 0) :
    ({ s with dstore := cells 0 l } : State).itIn it 0 l.length = some l := by
  have r : ({ s with dstore := cells 0 l } : State).dread (s.winAddr it.task 0) l.length = l := by rw [h.2.2.2]; exact dread_cells s l 0
  have wr : ({ s with dstore := cells 0 l } : State).winAddr it.task 0 = s.winAddr it.task 0 := rfl
  have k : ({ s with dstore := cells 0 l } : State).winOk it.task true 0 l.length = s.winOk it.task true 0 l.length := rfl
  simp only [State.itIn, h.1, h.2.1, k, h.2.2.1, State.winRead, wr, r, if_true]

/-- A field within the first part is that part's. -/
theorem slice_pre (a b : List Byte) (off n : Nat) (h : off + n ≤ a.length) : slice (a ++ b) off n = slice a off n := by
  simp only [slice]
  rw [List.drop_append_of_le_length (by omega), List.take_append_of_le_length (by simp; omega)]

theorem leAt_pre (a b : List Byte) (off n : Nat) (h : off + n ≤ a.length) : leAt (a ++ b) off n = leAt a off n := by rw [leAt, slice_pre a b off n h, leAt]

/-- The header of a key-update message: a 16-byte key of type 1 for slot 1, under the key of slot 0, counter 1. -/
def kuH : List Byte := [1, 1, 0, 1, 0, 0, 0, 0] ++ State.reset.devId ++ leB 8 1 ++ leB 4 0 ++ leB 4 1 ++ leB 4 0 ++ leB 2 16 ++ List.replicate 10 0

/-- The message's key, and the message. -/
def kuK : List Byte := kdf [] (ascii "SVX-KUPD") (State.reset.devId ++ leB 2 0 ++ leB 8 1) 256

def kuT : List Byte := gcmTag kuK (List.replicate 12 0) kuH (List.replicate 16 0)

def kuM : List Byte := kuH ++ (List.replicate 16 0 ++ kuT)

theorem kuT_length : kuT.length = 16 := Laws.gcmTag_length32 _ _ _ _ (by simp [kuK, kdf, Laws.hmac256_length])

/-- Tenant 0 owns slots 0 and 1; slot 0 holds a key of type 3 with attribute 3; item 1 gives the message. -/
def kuI : Item := itm 4 0 [(1, 1, 1), (0x18, 4, 80)]

def kuS0 : State := { (st [(KV_S_INFO.TYPE, 0, 3), (KV_S_INFO.ATTR, 0, 3)]).setItem 1 (some kuI) with ten.active := { own.ten.active with slot := [(0, 0x8000), (1, 0x8000)] } }

def kuS : State := { kuS0 with dstore := cells 0 kuM }

theorem kuS_in : kuS.itIn kuI 0 (kuI.f 0x18 4) = some kuM := by
  have l : kuM.length = 80 := by simp only [kuM, List.length_append, kuT_length]; decide
  have e : kuI.f 0x18 4 = kuM.length := by rw [l]; decide +kernel
  rw [e]
  exact itIn_cells kuS0 kuI kuM (by rw [l]; decide +kernel)

theorem kuM_at (off n : Nat) (h : off + n ≤ 48) : slice kuM off n = slice kuH off n := slice_pre kuH _ off n h

theorem kuS_check : kuS.kuCheck kuM 0 = (0, gcmCrypt kuK (List.replicate 12 0) (List.replicate 16 0)) := by
  have l : kuM.length = 80 := by simp only [kuM, List.length_append, kuT_length]; decide
  have a : ∀ off n, off + n ≤ 48 → leAt kuM off n = leAt kuH off n := fun off n h => leAt_pre kuH _ off n h
  have e1 : slice kuM 48 16 = List.replicate 16 0 := by
    rw [kuM, ← List.append_assoc]; exact Laws.slice_append kuH _ _ 48 16 rfl rfl
  have e2 : kuM.take 48 = kuH := List.take_left' rfl
  have e3 : kuM.drop 64 = kuT := by rw [kuM, ← List.append_assoc]; exact List.drop_left' rfl
  have f : kuForm kuM = true := by
    simp only [kuForm, l, a 0 1 (by decide), a 1 1 (by decide), a 2 1 (by decide), a 3 1 (by decide), a 4 1 (by decide), a 5 1 (by decide), a 0x24 2 (by decide)]
    decide +kernel
  have i : ∀ x : Nat, kuS.kuKek kuM x = kuS0.kuKek kuM x ∧ kuS.kuCnt 0 x = kuS0.kuCnt 0 x ∧ kuS.slotOwner x = kuS0.slotOwner x ∧ kuS.devId = kuS0.devId :=
    fun _ => ⟨rfl, rfl, rfl, rfl⟩
  have k : kuS0.kuKek kuM 0 = (0, ⟨3, 3, [], []⟩) := by
    simp only [State.kuKek, a 0x18 4 (by decide)]
    decide +kernel
  have b : leAt kuH 1 1 = 1 ∧ leAt kuH 2 1 = 0 ∧ leAt kuH 6 2 % 1024 = 0 ∧ leAt kuH 0x1C 4 = 1 ∧ leAt kuH 0x24 2 = 16 ∧ leAt kuH 0x10 8 = 1 ∧ leAt kuH 0x18 4 = 0
      ∧ kuS0.devId = slice kuH 8 8 ∧ slice kuH 0x10 8 = leB 8 1 ∧ kuS0.devId = State.reset.devId ∧ kuS0.kuCnt 0 (hSlot 0) = 0 ∧ kuS0.slotOwner (hSlot 1) = some 0 := by decide +kernel
  obtain ⟨b1, b2, b3, b4, b5, b6, b7, b8, b9, b10, b11, b12⟩ := b
  simp only [State.kuCheck, f, a 1 1 (by decide), a 2 1 (by decide), a 6 2 (by decide), a 0x1C 4 (by decide), a 0x24 2 (by decide), a 0x10 8 (by decide), a 0x18 4 (by decide),
    kuM_at 8 8 (by decide), kuM_at 0x10 8 (by decide), b1, b2, b3, b4, b5, b6, b7, (i _).1, (i _).2.1, (i _).2.2.1, (i 0).2.2.2, k, b11, b12, Nat.mul_zero, Nat.add_zero, e1, e2, e3, b9, ← b8]
  have t : kdf [] (ascii "SVX-KUPD") (State.reset.devId ++ leB 2 0 ++ leB 8 1) 256 = kuK ∧ gcmTag kuK (List.replicate 12 0) kuH (List.replicate 16 0) = kuT := ⟨rfl, rfl⟩
  have z : (if True then ((0 : Nat), (⟨3, 3, [], []⟩ : KeyMat)) else (0, ⟨3, 3, [], []⟩)) = (0, ⟨3, 3, [], []⟩) := rfl
  simp only [b10, z, t.1, t.2, ne_eq, not_true_eq_false, if_false, if_true, and_false, or_false, reduceCtorEq, Bool.true_eq_false]
  simp

theorem kuS_ready : Ready kuS 1 4 0 kuI := by
  refine ⟨?_, ?_⟩
  · rw [kuS, (dstore_free _ _ kuI [] []).2.1]; decide +kernel
  · rw [kuS, (dstore_free _ _ kuI [] []).2.2.1]; decide +kernel

/-- Bytes of a table from a key on. -/
def tread (t : List (Nat × Byte)) (a : Nat) : Nat → List Byte
  | 0 => []
  | n + 1 => tget 0 t a :: tread t (a + 1) n

theorem mread_tread (s : State) (a n : Nat) : s.mread a n = tread s.dram a n := by
  induction n generalizing a with
  | zero => rfl
  | succ n ih => rw [State.mread, ih, tread]; rfl

theorem tread_add (t : List (Nat × Byte)) (a m n : Nat) : tread t a (m + n) = tread t a m ++ tread t (a + m) n := by
  induction m generalizing a with
  | zero => simp [tread]
  | succ m ih => rw [Nat.succ_add, tread, tread, ih, List.cons_append, Nat.add_right_comm, Nat.add_assoc]

theorem tget_zero (t : List (Nat × Byte)) (a : Nat) (h : ∀ p ∈ t, p.1 ≠ a) : tget 0 t a = 0 := by
  induction t with
  | nil => rfl
  | cons p t ih => rw [tget_cons, if_neg (h p (by simp))]; exact ih (fun q hq => h q (by simp [hq]))

theorem tread_zero (t : List (Nat × Byte)) (a n : Nat) (h : ∀ p ∈ t, p.1 < a ∨ a + n ≤ p.1) : tread t a n = List.replicate n 0 := by
  induction n generalizing a with
  | zero => rfl
  | succ n ih =>
    rw [tread, ih (a + 1) (fun p hp => by have := h p hp; omega), List.replicate_succ, tget_zero t a (fun p hp => by have := h p hp; omega)]

/-- One byte of the CRC. -/
abbrev crcByte (c : BitVec 32) (b : Byte) : BitVec 32 := crcBits 8 (c ^^^ b.setWidth 32)

/-- The CRC over runs of zeros, with its value after each. -/
def crcRun (c : BitVec 32) : List (Nat × BitVec 32) → Bool
  | [] => true
  | (n, v) :: t => (List.replicate n (0 : Byte)).foldl crcByte c == v && crcRun v t

theorem crcRun_foldl (l : List (Nat × BitVec 32)) (c : BitVec 32) (h : crcRun c l = true) :
    (List.replicate ((l.map (·.1)).sum) (0 : Byte)).foldl crcByte c = (l.getLastD (0, c)).2 := by
  induction l generalizing c with
  | nil => rfl
  | cons p t ih =>
    obtain ⟨n, v⟩ := p
    simp only [crcRun, Bool.and_eq_true, beq_iff_eq] at h
    rw [List.map_cons, List.sum_cons, ← List.replicate_append_replicate, List.foldl_append, h.1, ih v h.2]
    cases t <;> rfl

/-- A calendar copy: one season, one week profile, one day profile with a switch point at minute 0, with its CRC; and with CHECK taken as 0. -/
def calH : List Byte := [0, 0, 0, 1, 0, 0, 0, 0, 0, 0, 0, 0, 0, 0, 0, 0, 0, 0, 0, 0, 0, 0, 0, 0, 1, 1, 1, 0, 0, 0, 0, 0]
def calB (w : List Byte) : List Byte := calH ++ (w ++ (List.replicate 1503 0 ++ ([0x80] ++ List.replicate 2556 0)))
def calD : List (Nat × Byte) := [(4099, 1), (4120, 1), (4121, 1), (4122, 1), (4128, 72), (4129, 85), (4130, 185), (4131, 157), (5635, 128)]
def calW : List Byte := [72, 85, 185, 157]

theorem calD_read : tread calD 4096 4096 = calB calW := by
  rw [show (4096 : Nat) = 32 + (4 + (1503 + (1 + 2556))) from rfl, tread_add, tread_add, tread_add, tread_add,
    tread_zero calD _ 1503 (by decide), tread_zero calD _ 2556 (by decide), calB]
  rfl

theorem calB_run1 : (List.replicate 1503 (0 : Byte)).foldl crcByte 0x16522548#32 = 0x21662580#32 := by
  have h := crcRun_foldl [(128, 0xc824b29e#32), (128, 0x4aaba4b9#32), (128, 0x9a5a821b#32), (128, 0xc3fb6b34#32), (128, 0x25de3612#32), (128, 0x77e58c#32), (128, 0xa9401dc5#32), (128, 0xd9fc207f#32), (128, 0xa671f459#32), (128, 0xb136d20e#32), (128, 0xabc612a4#32), (95, 0x21662580#32)] 0x16522548#32 (by decide +kernel)
  rwa [show (List.map (fun p : Nat × BitVec 32 => p.1) [(128, 0xc824b29e#32), (128, 0x4aaba4b9#32), (128, 0x9a5a821b#32), (128, 0xc3fb6b34#32), (128, 0x25de3612#32), (128, 0x77e58c#32), (128, 0xa9401dc5#32), (128, 0xd9fc207f#32), (128, 0xa671f459#32), (128, 0xb136d20e#32), (128, 0xabc612a4#32), (95, 0x21662580#32)]).sum = 1503 from rfl] at h

theorem calB_run2 : (List.replicate 2556 (0 : Byte)).foldl crcByte 0x216625#32 = 0x6246aab7#32 := by
  have h := crcRun_foldl [(128, 0xe0329f57#32), (128, 0xb9baef52#32), (128, 0x55fd7655#32), (128, 0x5a739e29#32), (128, 0xc4d256f7#32), (128, 0xbaf7db3c#32), (128, 0xd0dce077#32), (128, 0xd80be73a#32), (128, 0xeaf2740a#32), (128, 0x632e0006#32), (128, 0xb073f559#32), (128, 0x35cc52ac#32), (128, 0x69a9d041#32), (128, 0x269f4e6c#32), (128, 0x35d15696#32), (128, 0x724df245#32), (128, 0x2e9071ae#32), (128, 0x4147be7e#32), (128, 0x9458db51#32), (124, 0x6246aab7#32)] 0x216625#32 (by decide +kernel)
  rwa [show (List.map (fun p : Nat × BitVec 32 => p.1) [(128, 0xe0329f57#32), (128, 0xb9baef52#32), (128, 0x55fd7655#32), (128, 0x5a739e29#32), (128, 0xc4d256f7#32), (128, 0xbaf7db3c#32), (128, 0xd0dce077#32), (128, 0xd80be73a#32), (128, 0xeaf2740a#32), (128, 0x632e0006#32), (128, 0xb073f559#32), (128, 0x35cc52ac#32), (128, 0x69a9d041#32), (128, 0x269f4e6c#32), (128, 0x35d15696#32), (128, 0x724df245#32), (128, 0x2e9071ae#32), (128, 0x4147be7e#32), (128, 0x9458db51#32), (124, 0x6246aab7#32)]).sum = 2556 from rfl] at h

theorem calB_crc : crc32 (calB [0, 0, 0, 0]) = 0x9db95548 := by
  have e : ∀ l : List Byte, crc32 l = (l.foldl crcByte 0xFFFFFFFF#32 ^^^ 0xFFFFFFFF#32).toNat := fun _ => rfl
  rw [e, calB, List.foldl_append, List.foldl_append, List.foldl_append, List.foldl_append,
    show List.foldl crcByte (List.foldl crcByte 0xFFFFFFFF#32 calH) [0, 0, 0, 0] = 0x16522548#32 by decide +kernel, calB_run1,
    show List.foldl crcByte 0x21662580#32 [0x80] = 0x216625#32 by decide +kernel, calB_run2]
  decide +kernel

theorem calB_length : (calB calW).length = 4096 := by
  simp only [calB, List.length_append, List.length_replicate]
  rfl

/-- The copy passes ARM's checks. -/
theorem cal_ok : CalCopy.armReason (calB calW) = 0 ∧ CalCopy.flag (calB calW) 1 = false ∧ CalCopy.actTime (calB calW) = 0 := by
  have s : splice (fit 4096 (calB calW)) 0x20 [0, 0, 0, 0] = calB [0, 0, 0, 0] := by
    have f : fit 4096 (calB calW) = calB calW := by simp [fit, slice, calB_length, List.take_of_length_le (Nat.le_of_eq calB_length)]
    rw [f, splice, show (calB calW).take 0x20 = calH from rfl]
    exact congrArg (fun x => fit 0x20 calH ++ [0, 0, 0, 0] ++ x) (show (calB calW).drop 0x24 = List.replicate 1503 0 ++ ([0x80] ++ List.replicate 2556 0) from rfl)
  have k : CalCopy.checkOk (calB calW) = true := by rw [CalCopy.checkOk, s, calB_crc]; decide +kernel
  refine ⟨?_, by decide +kernel, by decide +kernel⟩
  unfold CalCopy.armReason
  simp only [k]
  decide +kernel

/-- The copy is read where it stands. -/
theorem calCopy_read (s : State) (h : s.dram = calD ∧ s.calAddr 0 true = 4096) : s.calCopy 0 true = calB calW := by
  rw [State.calCopy, h.2, mread_tread, h.1, calD_read]

/-- A DLMS reading without data, counter 1, with its tag under the all-zero key, and title 0. -/
def dlT : List Byte := (gcmTag (List.replicate 16 0) (List.replicate 8 0 ++ beB 4 1) (leB 1 0x30 ++ [] ++ []) []).take 12

def dlA : List Byte := [0xC8, 17, 0x30, 0, 0, 0, 1] ++ dlT

theorem dlT_length : dlT.length = 12 := by rw [dlT, List.length_take, Laws.gcmTag_length _ _ _ _ rfl]; rfl

/-- A content of 12 bytes of tag decrypts where the tag is right. -/
theorem dc_ok (s : State) (t : Nat) (K title : List Byte) (t0 t1 t2 t3 t4 t5 t6 t7 t8 t9 t10 t11 : Byte)
    (e : (gcmTag K (title ++ beB 4 1) (leB 1 0x30 ++ [] ++ []) []).take 12 = [t0, t1, t2, t3, t4, t5, t6, t7, t8, t9, t10, t11]) (g : gcmCrypt K (title ++ beB 4 1) [] = []) :
    s.decContent t (K, [], 0) none title [0x30, 0, 0, 0, 1, t0, t1, t2, t3, t4, t5, t6, t7, t8, t9, t10, t11] = .ok 1 [] := by
  have f1 : leAt [0x30, 0, 0, 0, 1, t0, t1, t2, t3, t4, t5, t6, t7, t8, t9, t10, t11] 0 1 = 0x30 := rfl
  have f2 : ofBe (slice [0x30, 0, 0, 0, 1, t0, t1, t2, t3, t4, t5, t6, t7, t8, t9, t10, t11] 1 4) = 1 := rfl
  have b : nbit 0x30 7 = false ∧ nbits 0x30 3 0 = 0 ∧ nbit 0x30 6 = false ∧ nbit 0x30 4 = true ∧ nbit 0x30 5 = true := by decide
  obtain ⟨b1, b2, b3, b4, b5⟩ := b
  unfold State.decContent
  rw [if_neg (by simp)]
  simp only [f1, f2, b1, b2, b3, b4, b5, List.length_cons, List.length_nil, List.drop_succ_cons, List.drop_zero, Nat.reduceAdd, Nat.reduceSub, List.take_zero, if_true]
  rw [e, g]
  simp

/-- It decrypts. -/
theorem dlA_ok (s : State) (r : Reading) (h : r.apdu = dlA ∧ r.len = 19 ∧ r.key = some (List.replicate 16 0, [], 0)) (ht : ledTitle (s.led (r.ledger.getD 0)) = List.replicate 8 0) :
    s.decrypt r = .ok 1 [] := by
  have e : (gcmTag (List.replicate 16 0) (List.replicate 8 0 ++ beB 4 1) (leB 1 0x30 ++ [] ++ []) []).take 12 = dlT := rfl
  have g : gcmCrypt (List.replicate 16 0) (List.replicate 8 0 ++ beB 4 1) [] = [] := List.eq_nil_of_length_eq_zero (by rw [Laws.gcmCrypt_length _ _ _ rfl]; rfl)
  have l := dlT_length
  obtain ⟨ha, hl, hk⟩ := h
  unfold dlA at ha
  generalize dlT = T at e l ha
  match T, l with
  | [t0, t1, t2, t3, t4, t5, t6, t7, t8, t9, t10, t11], _ =>
    have b : leAt r.apdu 0 1 = 0xC8 := by rw [ha]; rfl
    have d : dlmsContent r.apdu (decide ((0xC8 : Nat) = 0xDB ∨ (0xC8 : Nat) = 0xDC)) = some (none, [0x30, 0, 0, 0, 1, t0, t1, t2, t3, t4, t5, t6, t7, t8, t9, t10, t11]) := by
      rw [ha]; rfl
    have f : accForm r.apdu = true := by unfold accForm; rw [b]; rfl
    simp only [State.decrypt, hl, hk, ht, b, d, f]
    rw [if_neg (by decide), if_neg (by decide), if_pos trivial]
    exact dc_ok s _ _ _ _ _ _ _ _ _ _ _ _ _ _ _ e g

/-- What an answer holds, where there is one. -/
theorem some_getD (o : Option State) (d : State) (h : o.isSome = true) : o = some (o.getD d) := by cases o <;> simp at h ⊢

theorem tag_set (s : State) (i : Nat) (r : Reading) : (s.setTag i r).tag i = r := tget_tput_same _ _ _ _

theorem tag_setLed (s : State) (i j : Nat) (l : Led) : (s.setLed i l).tag j = s.tag j := rfl

theorem tread_cells (l : List Byte) (k : Nat) : tread (cells k l) k l.length = l := by
  have skip : ∀ (c : List (Nat × Byte)) (k : Nat) (b : Byte) (a n : Nat), k < a → tread ((k, b) :: c) a n = tread c a n := by
    intro c k b a n h
    induction n generalizing a with
    | zero => rfl
    | succ n ih => rw [tread, ih (a + 1) (by omega), tread, tget_cons, if_neg (by omega)]
  induction l generalizing k with
  | nil => rfl
  | cons b t ih => rw [cells, List.length_cons, tread, skip _ _ _ _ _ (Nat.lt_succ_self k), ih, tget_cons, if_pos rfl]

/-- The blob of ledger 0 of tenant 0 under the all-zero key, its key all zeros. -/
def blK : KeyMat := ⟨1, 2, List.replicate 16 0, []⟩

def blB : List Byte := blobWrap blK 0 false 0 0 0 (List.replicate 32 0)

/-- A header of ledger 0 of tenant 0, and data that unwraps, make a blob that opens. -/
theorem blob_parts (k : KeyMat) (w p b : List Byte) (gen : Option Nat) (h : gen = none ∨ gen = some 0) (lw : w.length = 40)
    (u : keyUnwrap k.key [1, 0, 0, 0, 0, 0, 0, 0] w = some p) (e : b = [1, 0, 0, 0, 0, 0, 0, 0] ++ (w ++ List.replicate 16 0)) :
    b.length = 64 ∧ blobOpen k b gen 0 0 = some (p, 0, false) := by
  have a : ∀ off n, off + n ≤ 8 → leAt b off n = leAt [1, 0, 0, 0, 0, 0, 0, 0] off n := fun off n h => by rw [e]; exact leAt_pre _ _ _ _ h
  have t : b.take 8 = [1, 0, 0, 0, 0, 0, 0, 0] := by rw [e]; exact List.take_left' rfl
  have d : slice b 8 40 = w := by rw [e, ← List.append_assoc]; exact Laws.slice_append _ _ _ 8 40 rfl lw
  have f : leAt [1, 0, 0, 0, 0, 0, 0, 0] 0 1 = 1 ∧ leAt [1, 0, 0, 0, 0, 0, 0, 0] 1 1 = 0 ∧ leAt [1, 0, 0, 0, 0, 0, 0, 0] 2 1 = 0 ∧ leAt [1, 0, 0, 0, 0, 0, 0, 0] 4 4 = 0
      ∧ nbit 0 2 = false ∧ nbits 0 20 0 = 0 ∧ nbits 0 30 21 = 0 ∧ ∀ n, blobFits 0 false n = true := ⟨by decide, by decide, by decide, by decide, by decide, by decide, by decide, fun _ => rfl⟩
  obtain ⟨f0, f1, f2, f4, f5, f6, f7, f8⟩ := f
  refine ⟨by rw [e, List.length_append, List.length_append, lw]; rfl, ?_⟩
  simp only [blobOpen, t, d, u, a 0 1 (by decide), a 1 1 (by decide), a 2 1 (by decide), a 4 4 (by decide), f0, f1, f2, f4, f5, f6, f7, f8, Nat.zero_mod, true_and, and_true]
  rcases h with rfl | rfl <;> simp

/-- It opens. -/
theorem blB_open (gen : Option Nat) (h : gen = none ∨ gen = some 0) : blB.length = 64 ∧ blobOpen blK blB gen 0 0 = some (List.replicate 32 0, 0, false) := by
  have hf : fit 32 (List.replicate 32 (0 : Byte)) = List.replicate 32 0 := by decide
  have hh : blobHeader 0 false 0 0 0 = [1, 0, 0, 0, 0, 0, 0, 0] := by decide
  obtain ⟨u, l⟩ := Laws.keyUnwrap_keyWrap blK.key [1, 0, 0, 0, 0, 0, 0, 0] (List.replicate 32 0) 3 rfl rfl rfl
  refine blob_parts blK _ _ blB gen h l u ?_
  rw [blB, blobWrap, hf, hh, List.append_assoc]

/-- A state with it at DRAM address 0 reads it. -/
theorem blB_read (s : State) (h : s.dram = cells 0 blB) : s.mread 0 64 = blB := by
  rw [mread_tread, h, ← (blB_open none (Or.inl rfl)).1, tread_cells]

/-! ### Ill-formed terms -/

/-- Ill-formed terms, one for each check. -/
theorem test_illformed_1 : ([
  .registerWrite 8 0 0, .registerWrite 0 (2 ^ 32) 0, .registerWrite 0 0 (2 ^ 32), .selectorWrite 8 0 0, .selectorWrite 0 (2 ^ 32) 0,
  .selectorWrite 0 0 (2 ^ 32), .windowReadRefused 8 0, .windowReadRefused 0 (2 ^ 32), .chipLock 8 0, .chipLock 0 (2 ^ 32), .switch 8,
  .tenPendingWrite 8 0 0 0, .tenPendingWrite 0 0 0 (2 ^ 32), .tenEnable 8 0, .tenEnable 0 (2 ^ 32), .doorbellSqTail 8 0 0, .doorbellSqTail 0 4096 0,
  .doorbellSqTail 0 0 (2 ^ 32), .doorbellHead 8 0 0, .doorbellHead 0 4096 0, .doorbellHead 0 0 (2 ^ 32), .descriptorFetchIssue 8,
  .descriptorFetched 4096 0 [], .descriptorFetchFail 4096 0, .taskCmdDeliver 4096 0, .apduReadDone 4096 0 [], .apduReadTimeout 4096 0,
  .classify 4096 0 0, .classify 0 0 6, .ingestQueueOffer 3 false, .journalAck 1024 0 0, .completionRebuild 1024 0 0 0 {}, .clear 8 0,
  .clear 0 (2 ^ 32), .routeEntryWrite 8 0 0, .routeEntryWrite 0 0 (2 ^ 32), .txnTimeout 512, .nandPartialFlush 1024, .sinkDown 1024 0, .resyncNand 8,
  .resyncPtnr 8, .resyncHost 8, .rebuildDone 8, .take 8, .ckptPeriodExpiry 1024, .ckptCopyDone 1024, .tenantRebuild 1024 0, .rebuild 8 0 false,
  .quarClear 8 0, .requar 8 0, .arm 8 0, .cancel 8 0, .activateNow 8 0, .mptLoadLo 8 0, .mptLoadLo 0 (2 ^ 32), .nominal60Change 8 0,
  .nominal60Change 0 (2 ^ 32), .mptNowRead 8, .gtNsRead 8 0, .gtNsRead 0 2] : List Instr).all (fun i => !i.wellFormed) = true := by decide

/-- Ill-formed terms, one for each check. -/
theorem test_illformed_2 : ([
  .snapTake 8 0, .snapTake 0 (2 ^ 32), .invalidate 8 0, .invalidate 0 2, .step 8 0, .step 0 2, .confirm 8 0, .confirm 0 2, .confirmWinExpiry 2,
  .holdLimitExpiry 2, .gtTrimWrite 8 0 0, .gtTrimWrite 0 2 0, .gtTrimWrite 0 0 (2 ^ 32), .gridSelWrite 8 0, .gridSelWrite 0 (2 ^ 32), .compareArm 8 0,
  .compareArm 0 (2 ^ 32), .membValWrite 8 0, .membValWrite 0 (2 ^ 32), .markTableWrite 8 0 0, .markTableWrite 0 0 (2 ^ 32), .metrologyEnable 8 0,
  .metrologyEnable 0 (2 ^ 32), .balNodeEnable 8 0, .balNodeEnable 0 (2 ^ 32), .taskEnable 8 0, .taskEnable 0 (2 ^ 32), .taskDispatch 512,
  .watchdog 512, .add 512 0 0 0, .add 0 32 0 0, .add 0 0 32 0, .add 0 0 0 32, .sub 512 0 0 0, .sub 0 32 0 0, .sub 0 0 32 0, .sub 0 0 0 32,
  .and 512 0 0 0, .and 0 32 0 0, .and 0 0 32 0, .and 0 0 0 32, .or 512 0 0 0, .or 0 32 0 0, .or 0 0 32 0, .or 0 0 0 32, .xor 512 0 0 0, .xor 0 32 0 0,
  .xor 0 0 32 0, .xor 0 0 0 32, .sll 512 0 0 0, .sll 0 32 0 0, .sll 0 0 32 0, .sll 0 0 0 32, .srl 512 0 0 0, .srl 0 32 0 0, .srl 0 0 32 0,
  .srl 0 0 0 32, .sra 512 0 0 0, .sra 0 32 0 0, .sra 0 0 32 0] : List Instr).all (fun i => !i.wellFormed) = true := by decide

/-- Ill-formed terms, one for each check. -/
theorem test_illformed_3 : ([
  .sra 0 0 0 32, .slt 512 0 0 0, .slt 0 32 0 0, .slt 0 0 32 0, .slt 0 0 0 32, .sltu 512 0 0 0, .sltu 0 32 0 0, .sltu 0 0 32 0, .sltu 0 0 0 32,
  .min 512 0 0 0, .min 0 32 0 0, .min 0 0 32 0, .min 0 0 0 32, .max 512 0 0 0, .max 0 32 0 0, .max 0 0 32 0, .max 0 0 0 32, .minu 512 0 0 0,
  .minu 0 32 0 0, .minu 0 0 32 0, .minu 0 0 0 32, .maxu 512 0 0 0, .maxu 0 32 0 0, .maxu 0 0 32 0, .maxu 0 0 0 32, .mul 512 0 0 0, .mul 0 32 0 0,
  .mul 0 0 32 0, .mul 0 0 0 32, .mulh 512 0 0 0, .mulh 0 32 0 0, .mulh 0 0 32 0, .mulh 0 0 0 32, .mulhu 512 0 0 0, .mulhu 0 32 0 0, .mulhu 0 0 32 0,
  .mulhu 0 0 0 32, .div 512 0 0 0, .div 0 32 0 0, .div 0 0 32 0, .div 0 0 0 32, .divu 512 0 0 0, .divu 0 32 0 0, .divu 0 0 32 0, .divu 0 0 0 32,
  .rem 512 0 0 0, .rem 0 32 0 0, .rem 0 0 32 0, .rem 0 0 0 32, .remu 512 0 0 0, .remu 0 32 0 0, .remu 0 0 32 0, .remu 0 0 0 32, .clz 512 0 0,
  .clz 0 32 0, .clz 0 0 32, .addi 512 0 0 0, .addi 0 32 0 0, .addi 0 0 32 0, .addi 0 0 0 65536] : List Instr).all (fun i => !i.wellFormed) = true := by decide

/-- Ill-formed terms, one for each check. -/
theorem test_illformed_4 : ([
  .andi 512 0 0 0, .andi 0 32 0 0, .andi 0 0 32 0, .andi 0 0 0 65536, .ori 512 0 0 0, .ori 0 32 0 0, .ori 0 0 32 0, .ori 0 0 0 65536, .xori 512 0 0 0,
  .xori 0 32 0 0, .xori 0 0 32 0, .xori 0 0 0 65536, .slti 512 0 0 0, .slti 0 32 0 0, .slti 0 0 32 0, .slti 0 0 0 65536, .sltiu 512 0 0 0,
  .sltiu 0 32 0 0, .sltiu 0 0 32 0, .sltiu 0 0 0 65536, .shi 512 0 0 0, .shi 0 32 0 0, .shi 0 0 32 0, .shi 0 0 0 65536, .liq 512 0 0 0, .liq 0 32 0 0,
  .liq 0 0 32 0, .liq 0 0 0 65536, .lb 512 0 0 0, .lb 0 32 0 0, .lb 0 0 32 0, .lb 0 0 0 65536, .lbu 512 0 0 0, .lbu 0 32 0 0, .lbu 0 0 32 0,
  .lbu 0 0 0 65536, .lh 512 0 0 0, .lh 0 32 0 0, .lh 0 0 32 0, .lh 0 0 0 65536, .lhu 512 0 0 0, .lhu 0 32 0 0, .lhu 0 0 32 0, .lhu 0 0 0 65536,
  .lw 512 0 0 0, .lw 0 32 0 0, .lw 0 0 32 0, .lw 0 0 0 65536, .lwu 512 0 0 0, .lwu 0 32 0 0, .lwu 0 0 32 0, .lwu 0 0 0 65536, .ld 512 0 0 0,
  .ld 0 32 0 0, .ld 0 0 32 0, .ld 0 0 0 65536, .sb 512 0 0 0, .sb 0 32 0 0, .sb 0 0 32 0, .sb 0 0 0 65536] : List Instr).all (fun i => !i.wellFormed) = true := by decide

/-- Ill-formed terms, one for each check. -/
theorem test_illformed_5 : ([
  .sh 512 0 0 0, .sh 0 32 0 0, .sh 0 0 32 0, .sh 0 0 0 65536, .sw 512 0 0 0, .sw 0 32 0 0, .sw 0 0 32 0, .sw 0 0 0 65536, .sd 512 0 0 0, .sd 0 32 0 0,
  .sd 0 0 32 0, .sd 0 0 0 65536, .xld 512 0 0 0 false, .xld 0 32 0 0 false, .xld 0 0 32 0 false, .xld 0 0 0 65536 false, .xst 512 0 0 0, .xst 0 32 0 0,
  .xst 0 0 32 0, .xst 0 0 0 65536, .storeBufferDrain 512, .beq 512 0 0 0, .beq 0 32 0 0, .beq 0 0 32 0, .beq 0 0 0 65536, .bne 512 0 0 0,
  .bne 0 32 0 0, .bne 0 0 32 0, .bne 0 0 0 65536, .blt 512 0 0 0, .blt 0 32 0 0, .blt 0 0 32 0, .blt 0 0 0 65536, .bge 512 0 0 0, .bge 0 32 0 0,
  .bge 0 0 32 0, .bge 0 0 0 65536, .bltu 512 0 0 0, .bltu 0 32 0 0, .bltu 0 0 32 0, .bltu 0 0 0 65536, .bgeu 512 0 0 0, .bgeu 0 32 0 0, .bgeu 0 0 32 0,
  .bgeu 0 0 0 65536, .jal 512 0 0, .jal 0 32 0, .jalr 512 0 0 0, .jalr 0 32 0 0, .jalr 0 0 32 0, .jalr 0 0 0 65536, .sysNop 512, .endCmd 512,
  .yield 512, .fence 512, .csrr 512 0 0, .csrr 0 32 0, .csrr 0 0 65536, .evpop 512 0 0, .evpop 0 32 0] : List Instr).all (fun i => !i.wellFormed) = true := by decide

/-- Ill-formed terms, one for each check. -/
theorem test_illformed_6 : ([
  .evpop 0 0 65536, .evcnt 512 0 0, .evcnt 0 32 0, .evcnt 0 0 65536, .evwait 512 0 0, .evwait 0 32 0, .evwait 0 0 65536, .evwaitWake 512,
  .signal 512 0 0 0, .signal 0 32 0 0, .signal 0 0 32 0, .signal 0 0 0 32, .time 512 0 0, .time 0 32 0, .time 0 0 65536, .tagset 512 0 0,
  .tagset 0 32 0, .tagset 0 0 32, .stend 512 0 0, .stend 0 32 0, .stend 0 0 32, .hdr 512 0 0, .hdr 0 32 0, .hdr 0 0 32, .int 512 0 0, .int 0 32 0,
  .int 0 0 32, .skip 512 0 0, .skip 0 32 0, .skip 0 0 32, .obis 512 0 0, .obis 0 32 0, .obis 0 0 32, .dt 512 0 0, .dt 0 32 0, .dt 0 0 32,
  .bytes 512 0 0 0, .bytes 0 32 0 0, .bytes 0 0 32 0, .find 512 0 0 0 0, .find 0 32 0 0 0, .find 0 0 32 0 0, .find 0 0 0 32 0, .scale 512 0 0 0,
  .scale 0 32 0 0, .scale 0 0 32 0, .scale 0 0 0 32, .recld 512 0 0, .recld 0 32 0, .recld 0 0 65536, .recst 512 0 0, .recst 0 32 0, .recst 0 0 65536,
  .lbegin 512 0 0 0, .lbegin 0 32 0 0, .lbegin 0 0 32 0, .lrd 512 0 0, .lrd 0 32 0, .lrd 0 0 32, .lwr 512 0 0 0] : List Instr).all (fun i => !i.wellFormed) = true := by decide

/-- Ill-formed terms, one for each check. -/
theorem test_illformed_7 : ([
  .lwr 0 32 0 0, .lwr 0 0 32 0, .lwr 0 0 0 32, .larg 512 0 0, .larg 0 32 0, .larg 0 0 32, .lcommit 512 0, .lcommit 0 32, .labort 512,
  .lcalWrite 512 0 0 0 0, .lcalWrite 0 32 0 0 0, .lcalWrite 0 0 32 0 0, .lcalWrite 0 0 0 32 0, .lcalArm 512 0 0, .lcalArm 0 32 0, .lcalArm 0 0 32,
  .lcalCancel 512 0 0, .lcalCancel 0 32 0, .lcalCancel 0 0 32, .lcalActivateNow 512 0 0, .lcalActivateNow 0 32 0, .lcalActivateNow 0 0 32,
  .qpush 512 0 0 0, .qpush 0 32 0 0, .qpush 0 0 32 0, .qpush 0 0 0 32, .qpop 512 0 0, .qpop 0 32 0, .qpop 0 0 32, .lookup 512 0 0 0 [],
  .lookup 0 32 0 0 [], .lookup 0 0 32 0 [], .lookup 0 0 0 32 [], .learn 512 0 0 0 [], .learn 0 32 0 0 [], .learn 0 0 32 0 [], .learn 0 0 0 32 [],
  .insert 512 0 0 0 [], .insert 0 32 0 0 [], .insert 0 0 32 0 [], .insert 0 0 0 32 [], .insertStatic 512 0 0 0 [], .insertStatic 0 32 0 0 [],
  .insertStatic 0 0 32 0 [], .insertStatic 0 0 0 32 [], .delete 512 0 0 0 [], .delete 0 32 0 0 [], .delete 0 0 32 0 [], .delete 0 0 0 32 [],
  .lkacq 512 0 0 0 0, .lkacq 0 32 0 0 0, .lkacq 0 0 32 0 0, .lkacq 0 0 0 32 0, .lockWaitTimeout 512, .lkrel 512 0 0, .lkrel 0 32 0, .lkrel 0 0 32,
  .issue 512 0 0 0 0, .issue 0 32 0 0 0, .issue 0 0 32 0 0] : List Instr).all (fun i => !i.wellFormed) = true := by decide

/-- Ill-formed terms, one for each check. -/
theorem test_illformed_8 : ([
  .issue 0 0 0 32 0, .openCmd 8, .seal 8, .release 8, .instructionStoreWrite 8 0 0, .instructionStoreWrite 0 0 (2 ^ 32), .pageOwnerWrite 8 0 0 0,
  .pageOwnerWrite 0 0 0 (2 ^ 32), .tskCmdClr 8 0, .tskCmdClr 0 (2 ^ 32), .queueEnable 8 0, .queueEnable 0 (2 ^ 32), .flush 8 0, .flush 0 (2 ^ 32),
  .clrHigh 8 0, .clrHigh 0 (2 ^ 32), .tableEnable 8 0, .tableEnable 0 (2 ^ 32), .sweepNow 8 {}, .sweepNow 0 { value := 2 ^ 32 }, .tClr 8 0,
  .tClr 0 (2 ^ 32), .scrubBad 8 0, .scrubBad 0 (2 ^ 32), .lockGroupEnable 8 0, .lockGroupEnable 0 (2 ^ 32), .ringEnable 8 0, .ringEnable 0 (2 ^ 32),
  .rngRClr 8 0, .rngRClr 0 (2 ^ 32), .hostUp 8, .hostDown 8, .write (2 ^ 32) [], .read (2 ^ 32) 0, .irqCoalesceTimeout 4096, .eventSignal 2048 [],
  .eventSignal 0 (List.replicate 13 0), .evtRouteWrite 8 0 0, .evtRouteWrite 0 0 (2 ^ 32), .evtSClr 8 0, .evtSClr 0 (2 ^ 32), .hello 3 [], .data 3 [],
  .ack 3 [], .nak 3 [], .close 3 [], .mrtRtoExpiry 9, .mrtKeepalive 9, .mrtSessionTimeout 9, .laneEnable 8 0, .laneEnable 0 (2 ^ 32),
  .combiningGroupWrite 8 0, .combiningGroupWrite 0 (2 ^ 32), .preambleDetect 4 {} false, .syncmFound 4 false, .fchDecode 4 false false [],
  .payloadEnd 4 false false false false, .muteEnd 4, .pairWaitExpiry 4 false, .plcFrameReceived 4 {}] : List Instr).all (fun i => !i.wellFormed) = true := by decide

/-- Ill-formed terms, one for each check. -/
theorem test_illformed_9 : ([
  .toneMapResponseSend 4 0, .plcTxStart 4 false 0 0 0, .plcTxEnd 4 0, .plcAckTimeout 4, .levelTrip 4, .plcEnergyWaitExpiry 4, .burst2Send 4 false 0,
  .beaconStart 4 false 0, .beaconAnswer 4, .plcNodeRead 8, .plcNodeWrite 8, .plcNodeClear 8, .plcLClr 8 0, .plcLClr 0 (2 ^ 32), .clrTrim 8 0,
  .clrTrim 0 (2 ^ 32), .radioEnable 8 0, .radioEnable 0 (2 ^ 32), .rfPreambleDetect 2 0, .syncWord 2 false, .rfFrameReceived 2 0 false {},
  .connectIndSend 2048 0 0, .connectingTimeout 2048, .windowOpen 2048 0, .windowClose 2 0, .csmFrameExchange 2 0 0 0 [] 0 0 0,
  .connectionEventEnd 2 0 false, .updateInstant 2048, .wmbHoldExpiry 2 0, .rfTxStart 2 0 false 0, .rfAckTimeout 2, .rfBudgetWaitExpiry 2, .rfmRClr 8 0,
  .rfmRClr 0 (2 ^ 32), .reread 8 [], .program 8 0 [], .lock 8 0 [], .kvZeroize 8 0, .kvZeroize 0 (2 ^ 32), .erase 8, .stageOpen 8 0,
  .stageOpen 0 (2 ^ 32), .writeBlock 8 0, .writeBlock 0 (2 ^ 32), .verify 8 0, .verify 0 (2 ^ 32), .stageArm 8 0, .stageArm 0 (2 ^ 32), .disarm 8 0,
  .disarm 0 (2 ^ 32), .stageActivateNow 8 0, .stageActivateNow 0 (2 ^ 32), .stageConfirm 8 0, .stageConfirm 0 (2 ^ 32), .revert 8 0,
  .revert 0 (2 ^ 32), .raiseFloor 8 0 [], .raiseFloor 0 (2 ^ 32) [], .qspiRead 8 0, .qspiRead 0 (2 ^ 32)] : List Instr).all (fun i => !i.wellFormed) = true := by decide

/-- Ill-formed terms, one for each check. -/
theorem test_illformed_10 : ([
  .qspiProgram 8 0, .qspiProgram 0 (2 ^ 32), .qspiErase 8 0, .qspiErase 0 (2 ^ 32), .boothdr 8 0, .boothdr 0 (2 ^ 32), .format 8 0 [] [],
  .format 0 (2 ^ 32) [] [], .inkwellRecord 0 1024 [], .freeze 8 0, .freeze 0 (2 ^ 32), .inkRelease 8 0, .inkRelease 0 (2 ^ 32), .inkSnapTake 8 0,
  .inkSnapTake 0 (2 ^ 32), .inkRdSeq 8 0 false, .inkRdSeq 0 (2 ^ 32) false, .ethPortEnable 8 0, .ethPortEnable 0 (2 ^ 32), .ethLinkChange 3 false 0,
  .ethFrameReceived 3 [] false [] [], .ptpRequestSend 3, .fdbLookup 8 0 [], .fdbLookup 0 (2 ^ 32) [], .fdbInsertStatic 8 0 [],
  .fdbInsertStatic 0 (2 ^ 32) [], .fdbDelete 8 0 [], .fdbDelete 0 (2 ^ 32) [], .flushDynamic 8 0, .flushDynamic 0 (2 ^ 32), .ethPClr 8 0,
  .ethPClr 0 (2 ^ 32), .claimRelease 8 0, .claimRelease 0 (2 ^ 32), .claimTake 8 0, .claimTake 0 (2 ^ 32), .resyncStreamEnd 1024, .test 8 0,
  .test 0 (2 ^ 32), .safArm 8 0 false, .safArm 0 (2 ^ 32) false, .safReset 8 0 false, .safReset 0 (2 ^ 32) false, .restart 8 0, .restart 0 (2 ^ 32),
  .tampCfgWrite 8 0 0, .tampCfgWrite 0 (2 ^ 32) 0, .island 8 0, .island 0 (2 ^ 32), .connectReq 8 0, .connectReq 0 (2 ^ 32), .degrade 8 0,
  .degrade 0 (2 ^ 32), .resume 8 0, .resume 0 (2 ^ 32), .warm 8 0, .warm 0 (2 ^ 32), .cold 8 0, .cold 0 (2 ^ 32), .padFuncWrite 8 0] : List Instr).all (fun i => !i.wellFormed) = true := by decide

/-- Ill-formed terms, one for each check. -/
theorem test_illformed_11 : ([
  .padFuncWrite 0 (2 ^ 32), .ppsPulse 2, .ppsWidthEnd 2, .rfTxEnd 2] : List Instr).all (fun i => !i.wellFormed) = true := by decide

/-! ### Words of the scribes, written out bit by bit from R233 to R235 -/

/-- ADD w3, w1, w2; ADDI w5, w6, −1; LD w4, 16(w2); BEQ w1, w2, 8. -/
theorem test_words_core : scribeOf 7 0x00611000 = some (.add 7 3 1 2) ∧ scribeOf 7 0x04A6FFFF = some (.addi 7 5 6 65535)
    ∧ scribeOf 7 0x3C820010 = some (.ld 7 4 2 16) ∧ scribeOf 7 0x60220008 = some (.beq 7 1 2 8) := by decide

/-- SYS END; LBEGIN w1 of kind 3; QPUSH w1, w2, w3; 0x5C000000 spells nothing. -/
theorem test_words_engine : scribeOf 7 0x80000001 = some (.endCmd 7) ∧ scribeOf 7 0xC0220003 = some (.lbegin 7 1 2 3)
    ∧ scribeOf 7 0xE0221800 = some (.qpush 7 1 2 3) ∧ scribeOf 7 0x5C000000 = none := by decide

/-! ### The spec's worked examples -/

/-- "Worked emergency credit in friendly hours", steps 1 and 2. -/
theorem test_charge : chargeOf 412000 3000 31500 0 180000 0 = (-155000, 3000) ∧ chargeOf (-155000) 3000 300000 0 180000 0 = (-5555000, 3000) := by decide

/-- "Worked balance window": the reference's variance, the estimate of two missing members, the technical loss, and the HIGH condition. -/
theorem test_balance_window : refVar 412800 20 = 227205 ∧ (missing { demand := 370000, var := 0, covered := 170, aligned := 130 } 172 50).2.demand = 374352
    ∧ (missing { demand := 370000, var := 0, covered := 170, aligned := 130 } 172 50).2.var = 4734976 ∧ techLoss 800 6500 500000 412800 900000 = 3772
    ∧ isqrtRound 5560210 = 2358 ∧ condMet 34676 2358 30 5000 = 1 := by decide

/-- The concentrator of "Worked Reservoir budget". -/
def pole : State :=
  st [(RES_HU_CAP.C_NOM, 0, 39), (RES_C_MEAS.C, 0, 386), (RES_C_MEAS.VALID, 0, 1), (RES_HU_CAP.DERATE, 0, 10), (RES_HU_PWR.ETA, 0, 85), (RES_HU_CFG.V_PF, 0, 240),
    (RES_HU_CFG.V_MIN, 0, 100), (RES_HU_PWR.P_HU, 0, 900), (RES_HU_PWR.T_ENTRY, 0, 20), (STO_NAND_GEOM.PAGE, 0, 2), (STO_INFO.DIES, 0, 2), (STO_HU_TPROG.US, 0, 300),
    (RES_V_NOW.V, 0, 2800)]

/-- Its E_AVAIL and its three costs. -/
theorem test_reservoir : pole.eAvail = 7027 ∧ pole.eCost 86176 = 4130 ∧ pole.eCost 166176 = 5083 ∧ pole.eCost 12096 = 3495 := by decide +kernel

/-- "Worked wrap example": the distance of the target is 1,000 cycles although the low 48 bits wrap. -/
theorem test_wrap : ({ own with time := { own.time with mpt := 4294967040 * 65536 } } : State).cmpDiff 0 (4294968040 * 65536) = 65536000 := by decide +kernel

/-- A connection of "Worked drift window": SCA 50, and, once learned, DRIFT 33 ppm; the last anchor at 120,003,960 µs. -/
def fennick (learned : Nat) : State :=
  ((((st [(RFM_R_DRIFT.LOCAL_PPM, 0, 10), (RFM_R_DRIFT.DRIFT_RES, 0, 4), (RFM_R_WIN.JIT, 0, 250)]).setCf 0 0x24 1 50).setCf 0 7 1 learned).setCf 0 0x18 8 120003960).setCf 0 0x20 4 8448

/-- Its half widths over 120 s, before and after learning, and its predicted anchor after a further 120 s. -/
theorem test_drift_window : (fennick 0).connH 0 120000000 = 7450 ∧ (fennick 1).connH 0 120000000 = 730
    ∧ ((fennick 0).setConnX 0 (some { gone := 120000000 })).pred 0 = 240007920 := by decide +kernel

/-! ### Published vectors -/

/-- CRC-32 of "123456789". -/
theorem test_crc32 : crc32 [0x31, 0x32, 0x33, 0x34, 0x35, 0x36, 0x37, 0x38, 0x39] = 0xCBF43926 := by decide +kernel

/-- FIPS 180-4: SHA-256 of "abc". -/
theorem test_sha256 : sha256 [0x61, 0x62, 0x63] = beB 32 0xba7816bf8f01cfea414140de5dae2223b00361a396177a9cb410ff61f20015ad := by decide +kernel

/-- FIPS 197: AES-128 of the block 00112233445566778899aabbccddeeff under the key 000102030405060708090a0b0c0d0e0f. -/
theorem test_aes128 : aesEnc (beB 16 0x000102030405060708090a0b0c0d0e0f) (beB 16 0x00112233445566778899aabbccddeeff) = beB 16 0x69c4e0d86a7b0430d8cdb78070b4c55a := by
  decide +kernel

/-! ### Single steps -/

/-- The front command leaves the queue and acts; the rest waits. -/
theorem test_front_first : (match step { own with pending := [.degrade 1 0, .resume 1 0] } with | .next t => t.pending == [.resume 1 0] && t.fbit CHIP_ERR.NOT_SUPV | _ => false) = true := by
  decide +kernel

/-- ADD wraps at 64 bits, with the destination also a source. -/
theorem test_add_wraps : (match exec (.add 0 1 1 2) (issuing (encR 0x00 1 1 2 0) { w := [(1, 0xFFFFFFFFFFFFFFFF), (2, 2)] }) with | .next t => (t.ctx 0).get 1 == 1 | _ => false) = true := by
  decide +kernel

/-- w0 stays 0. -/
theorem test_add_w0 : (match exec (.add 0 0 1 2) (issuing (encR 0x00 0 1 2 0) { w := [(1, 5), (2, 2)] }) with | .next t => (t.ctx 0).get 0 == 0 | _ => false) = true := by
  decide +kernel

/-! ### What the statements assume can be met -/


/-- The all-zero key. -/
abbrev zk : List Byte := List.replicate 16 0

/-- The next state a command answers. -/
def nextOf (c : Instr) (s : State) : State := match exec c s with | .next t => t | _ => s

theorem nextOf_append (n : Nat) (s : State) : exec (.append n) s = .next (nextOf (.append n) s) := rfl

/-- Something meets the hypotheses of each clause of StepRunsFront. -/
theorem witness_StepRunsFront :
    ∃ (s : State), (s.pending = []) :=
  ⟨own, by rfl⟩

/-- Something meets the hypotheses of each clause of SwitchAndPending. -/
theorem witness_SwitchAndPending :
    (∃ (s : State), ∃ host, ∃ value, (Open s host .chip) ∧ (nbit value 0 = true))
    ∧ (∃ (s : State), ∃ host, (Open s host .chip))
    ∧ (∃ (s : State), ∃ host, ∃ (ring : Nat), (Open s host .ten) ∧ (ring < 4096) ∧ (s.ten.phase = .idle) ∧ (s.fget RNG_R_STAT.STATE ring = 0))
    ∧ (∃ (s : State), ∃ host, ∃ (ring : Nat), (Open s host .ten) ∧ (ring < 4096) ∧ (s.ten.phase = .idle) ∧ (s.fget RNG_R_STAT.STATE ring ≠ 0))
    ∧ (∃ (s : State), ∃ host, ∃ off, (Open s host .ten) ∧ (0x10000 ≤ off) ∧ (off < 0x2D200) ∧ (s.ten.phase ≠ .idle))
    ∧ (∃ (s : State), (s.ten.phase = .checking))
    ∧ (∃ (s : State), (s.ten.phase = .copying) ∧ (s.ten.held = []) ∧ (s.fget CHIP_EPOCH_STAT.PENDING = 0)) :=
  ⟨⟨own, 0, 1, by simp only [Open]; decide +kernel⟩,
    ⟨own, 0, by simp only [Open]; decide +kernel⟩,
    ⟨{ st [(RNG_R_STAT.STATE, 0, 0)] with ten.phase := .idle }, 0, 0, by simp only [Open]; decide +kernel⟩,
    ⟨{ st [(RNG_R_STAT.STATE, 0, 1)] with ten.phase := .idle }, 0, 0, by simp only [Open]; decide +kernel⟩,
    ⟨{ own with ten.phase := .checking }, 0, 0x10000, by simp only [Open]; decide +kernel⟩,
    ⟨{ own with ten.phase := .checking }, by decide +kernel⟩,
    ⟨{ st [(CHIP_EPOCH_STAT.PENDING, 0, 0)] with ten.phase := .copying, ten.held := [] }, by decide⟩⟩

/-- Something meets the hypotheses of each clause of TenantsAndResources. -/
theorem witness_TenantsAndResources :
    (∃ (s : State), ∃ (index : Nat), ∃ (x : Scrub), (s.ten.scrubs[index]? = some x) ∧ (x.released = false) ∧ (s.mayScrub x = true) ∧ (x.kind ≠ .slot))
    ∧ (∃ (s : State), ∃ (index : Nat), ∃ (base : Nat), ∃ tn, (s.ten.scrubs[index]? = some ⟨.calendar, base, 1, true, tn⟩))
    ∧ (∃ (s : State), ∃ (index : Nat), ∃ (base : Nat), ∃ (count : Nat), ∃ tn, ∃ a, (s.ten.scrubs[index]? = some ⟨.ledgers, base, count, true, tn⟩) ∧ ((∀ e ∈ s.ldg.ledgers, inRange (base, count) e.1 = false)) ∧ ((s.base LDG_BASE_LO.BASE_LO 20 LDG_BASE_HI.BASE_HI + 1024 * base ≤ a ∧ a < s.base LDG_BASE_LO.BASE_LO 20 LDG_BASE_HI.BASE_HI + 1024 * base + 1024 * count)))
    ∧ (∃ (s : State), ∃ (index : Nat), ∃ (base : Nat), ∃ (count : Nat), ∃ tn, ∃ e, (s.ten.scrubs[index]? = some ⟨.ledgers, base, count, true, tn⟩) ∧ (s.ldg.ledgers.filter (fun e => inRange (base, count) e.1) = [e]) ∧ ((s.ledgersForget base count).jRoom tn 24 = none))
    ∧ (∃ (s : State), ∃ part, ∃ (index : Nat), (s.ten.scrubs.findIdx? (fun x => x.kind == .partition && x.base == part) = some index) ∧ ((∀ x, s.ten.scrubs[index]? = some x → x.released = true)))
    ∧ (∃ (s : State), ∃ host, ∃ value, ∃ t, (OpenW s host .ten 0 t) ∧ (t ≠ 0) ∧ (nbit value 0 = true) ∧ (s.fget TEN_STAT.STATE t = 0) ∧ (s.fget LDG_T_STAT.REBUILD t = 0))
    ∧ (∃ (s : State), ∃ host, ∃ value, ∃ t, (OpenW s host .ten 0 t) ∧ (t ≠ 0) ∧ (nbit value 0 = true) ∧ (s.fget TEN_STAT.STATE t = 0) ∧ (s.fget LDG_T_STAT.REBUILD t = 1))
    ∧ (∃ (s : State), ∃ host, ∃ value, (OpenW s host .ten 0 0) ∧ (nbit value 0 = false))
    ∧ (∃ (s : State), ∃ p, (s.fget ETH_P_STAT.STATE p = 1) ∧ (s.fget ETH_P_STAT.ENABLE_LATCHED p = 0))
    ∧ (∃ (s : State), ∃ (n : Nat), (s.fget MPT_CMP_STAT.STATE n = 1) ∧ (s.fget MPT_CMP_STAT.ENABLE_LATCHED n = 0))
    ∧ (∃ (s : State), ∃ u, (s.draining u = false))
    ∧ (∃ (s : State), ∃ u, (s.draining u = true) ∧ (s.keptByAct u = false) ∧ (s.mode = 5 ∨ s.mode = 6 ∨ s.mode = 7) ∧ (s.pair.en = false)) :=
  ⟨⟨{ own with ten.scrubs := [({ kind := .ledgers, base := 0, count := 1, tenant := 0, released := false })] }, 0, { kind := .ledgers, base := 0, count := 1, tenant := 0, released := false }, by decide +kernel⟩,
    ⟨{ own with ten.scrubs := [⟨.calendar, 0, 1, true, 0⟩] }, 0, 0, 0, by decide +kernel⟩,
    ⟨{ State.reset with ten.scrubs := [⟨.ledgers, 7, 1, true, 0⟩] }, 0, 7, 1, 0, 1024*7, by decide +kernel⟩,
    ⟨{ st [(LDG_T_JBUF.QUOTA, 0, 0)] with ten.scrubs := [⟨.ledgers, 0, 1, true, 0⟩], ldg.ledgers := [((0, lset [] L.CREDIT 5))] }, 0, 0, 1, 0, (0, lset [] L.CREDIT 5), by decide +kernel⟩,
    ⟨{ own with ten.scrubs := [⟨.partition, 0, 1, true, 0⟩] }, 0, 0, by exact ⟨by decide +kernel, fun x h => by have := Option.some.inj h; subst this; rfl⟩⟩,
    ⟨((st [(TEN_STAT.STATE, 1, 0), (LDG_T_STAT.REBUILD, 1, 0)]).setSel .ten 0 1), 0, 1, 1, by simp only [OpenW, Open]; decide +kernel⟩,
    ⟨((st [(TEN_STAT.STATE, 1, 0), (LDG_T_STAT.REBUILD, 1, 1)]).setSel .ten 0 1), 0, 1, 1, by simp only [OpenW, Open]; decide +kernel⟩,
    ⟨own, 0, 0, by simp only [OpenW, Open]; decide +kernel⟩,
    ⟨st [(ETH_P_STAT.STATE, 0, 1), (ETH_P_STAT.ENABLE_LATCHED, 0, 0)], 0, by decide +kernel⟩,
    ⟨st [(MPT_CMP_STAT.STATE, 0, 1), (MPT_CMP_STAT.ENABLE_LATCHED, 0, 0)], 0, by decide +kernel⟩,
    ⟨own, .lane 0, by decide +kernel⟩,
    ⟨{ st [(CHIP_MODE.MODE, 0, 5), (PLC_L_STAT.STATE, 0, 1)] with pair.en := false }, .lane 0, by decide +kernel⟩⟩

/-- Something meets the hypotheses of each clause of DoorbellsAndFetch. -/
theorem witness_DoorbellsAndFetch :
    (∃ (s : State), ∃ (ring : Nat), ∃ (v : Nat), (ring < 4096) ∧ (s.fbit RNG_H_STAT.UP (s.ringHost ring) = true) ∧ (s.fget RNG_R_CFG.TYPE ring = 0) ∧ (s.fget RNG_R_STAT.STATE ring = 2) ∧ (v % 65536 < s.ringSize ring))
    ∧ (∃ (s : State), ∃ (ring : Nat), ∃ (v : Nat), (ring < 4096) ∧ (s.fbit RNG_H_STAT.UP (s.ringHost ring) = true) ∧ (s.fget RNG_R_CFG.TYPE ring = 0) ∧ (s.ringSize ring ≤ v % 65536))
    ∧ (∃ (s : State), ∃ (ring : Nat), ∃ (v : Nat), (ring < 4096) ∧ (s.fbit RNG_H_STAT.UP (s.ringHost ring) = true) ∧ (s.fget RNG_R_CFG.TYPE ring = 0) ∧ (s.fget RNG_R_STAT.STATE ring ≠ 0) ∧ ((s.ring ring).order = []) ∧ (v % 65536 < s.ringSize ring) ∧ ((v % 65536 + s.ringSize ring - s.fget RNG_R_CQ.HEAD ring) % s.ringSize ring ≤ (s.fget RNG_R_CQ.TAIL ring + s.ringSize ring - s.fget RNG_R_CQ.HEAD ring) % s.ringSize ring))
    ∧ (∃ (s : State), ∃ (host : Nat), ∃ (ring : Nat), (ring < 4096) ∧ (host ≠ s.ringHost ring))
    ∧ (∃ (s : State), ∃ (host : Nat), ∃ l, ∃ a, ∃ r, (s.fbit RNG_H_STAT.UP host = true) ∧ (s.readsOf host < 64) ∧ (s.pickLevel host (s.fetchable host) = (some l, a)) ∧ (s.turn host l (s.fetchable host) = some r))
    ∧ (∃ (s : State), ∃ (ring : Nat), ∃ x, ∃ y, ∃ rest, (s.ringHost ring < 2) ∧ ((s.ring ring).reads = x :: y :: rest) ∧ (x.data = none) ∧ (y.data = none) ∧ (x.slot ≠ y.slot) ∧ ((∀ z ∈ rest, z.slot ≠ y.slot)))
    ∧ (∃ (s : State), ∃ (ring : Nat), ∃ x, ∃ (data : List Byte), (s.ringHost ring < 2) ∧ ((s.ring ring).reads = [x]) ∧ (x.data = none) ∧ ((s.ring ring).order ≠ []) ∧ (nbit (leAt (fit 64 data) 1 1) 1 = true) ∧ (s.tenOn (s.ringTenant ring) = true) ∧ (nbit (s.ten.active.ringMask ring) (s.ringHost ring) = true) ∧ (nbit (s.ten.active.hostMask (s.ringTenant ring)) (s.ringHost ring) = true) ∧ (s.ten.active.prioMin (s.ringTenant ring) ≤ s.fget RNG_R_CFG.PRIO ring) ∧ (leAt (fit 64 data) 0 1 < 2))
    ∧ (∃ (s : State), ∃ (ring : Nat), ∃ x, ∃ (data : List Byte), (s.ringHost ring < 2) ∧ ((s.ring ring).reads = [x]) ∧ (x.data = none) ∧ ((s.ring ring).order = []) ∧ (s.tenOn (s.ringTenant ring) = true) ∧ (nbit (s.ten.active.ringMask ring) (s.ringHost ring) = true) ∧ (nbit (s.ten.active.hostMask (s.ringTenant ring)) (s.ringHost ring) = true) ∧ (s.ten.active.prioMin (s.ringTenant ring) ≤ s.fget RNG_R_CFG.PRIO ring) ∧ (leAt (fit 64 data) 0 1 = 1))
    ∧ (∃ (s : State), ∃ ring, ∃ slot, ∃ x, ((s.ring ring).reads.find? (fun x => x.slot == slot && x.data.isNone) = some x) ∧ (s.fget PIP_RETRY_DMA.TRIES ≤ x.tries))
    ∧ (∃ (s : State), ∃ ring, ∃ slot, ∃ x, ((s.ring ring).reads.find? (fun x => x.slot == slot && x.data.isNone) = some x) ∧ (x.tries < s.fget PIP_RETRY_DMA.TRIES))
    ∧ (∃ (s : State), ∃ ring, ∃ (slot : Nat), ∃ d, (s.desc ring slot = some d) ∧ (d.st = .waitDeliver) ∧ (s.taskOwner (s.fget RNG_R_TASK.TASK ring) = some d.tenant) ∧ (s.entryFree ring slot = true) ∧ (d.prio ≠ 0) ∧ (s.fget TSK_IN.COUNT (8 * s.fget RNG_R_TASK.TASK ring + 5) < 16) ∧ (s.poolHeld ((s.taskOwner (s.fget RNG_R_TASK.TASK ring)).getD 0) < s.poolQuota ((s.taskOwner (s.fget RNG_R_TASK.TASK ring)).getD 0)) ∧ (s.fget SCB_POOL.USED < 65536) ∧ (nbit (s.fget TSK_IN_CFG.EN (s.fget RNG_R_TASK.TASK ring)) 5 = true)) :=
  ⟨⟨st [(RNG_H_STAT.UP, (0), 1), (RNG_R_CFG.TYPE, 0, 0), (RNG_R_STAT.STATE, 0, 2), (RNG_H_STAT.UP, 0, 1)], 0, 0, by decide +kernel⟩,
    ⟨st [(RNG_H_STAT.UP, (0), 1), (RNG_R_CFG.TYPE, 0, 0), (RNG_H_STAT.UP, 0, 1)], 0, 0xFFFF, by decide +kernel⟩,
    ⟨(st [(RNG_H_STAT.UP, (0), 1), (RNG_R_CFG.TYPE, 0, 0), (RNG_R_STAT.STATE, 0, 1), (RNG_H_STAT.UP, 0, 1)]).setRing 0 { ({} : Ring) with order := [] }, 0, 0, by decide +kernel⟩,
    ⟨own, 1, 0, by decide +kernel⟩,
    ⟨st [(RNG_H_STAT.UP, 0, 1), (RNG_R_STAT.STATE, 0, 2), (RNG_R_SQ.TAIL, 0, 1), (RNG_R_CFG.PRIO, 0, 7)], 0, 7, { lastLevel := 7, spent := [(7, 1)] }, 0, by decide +kernel⟩,
    ⟨(own).setRing 0 { ({} : Ring) with reads := ({ data := none, slot := 0 }) :: ({ data := none, slot := 1 }) :: ([]) }, 0, { data := none, slot := 0 }, { data := none, slot := 1 }, [], by decide +kernel⟩,
    ⟨(own).setRing 0 { ({} : Ring) with reads := [({ slot := 0, data := none })], order := [0] }, 0, { slot := 0, data := none }, [0, 2], by decide +kernel⟩,
    ⟨(own).setRing 0 { ({} : Ring) with reads := [({ slot := 0, data := none })], order := [] }, 0, { slot := 0, data := none }, [1], by decide +kernel⟩,
    ⟨(own).setRing 0 { ({} : Ring) with reads := [{slot := 0, tries := 100}] }, 0, 0, { slot := 0, tries := 100 }, by decide +kernel⟩,
    ⟨(st [(PIP_RETRY_DMA.TRIES, 0, 5)]).setRing 0 { ({} : Ring) with reads := [({ slot := 0, tries := 1 })] }, 0, 0, { slot := 0, tries := 1 }, by decide +kernel⟩,
    ⟨(st [(RNG_R_CFG.PRIO, 0, 1), (TSK_IN_CFG.EN, 0, 32)]).setDesc 0 0 (some ({ opcode := 2, flags := 0, user := 0, area := [], gen := 0, st := .waitDeliver })), 0, 0, { opcode := 2, flags := 0, user := 0, area := [], gen := 0, st := .waitDeliver }, by decide +kernel⟩⟩

/-- Something meets the hypotheses of each clause of RingsAndAttachments. -/
theorem witness_RingsAndAttachments :
    (∃ (s : State), ∃ host, ∃ value, ∃ r, ∃ tn, (OpenW s host .rng 0 r) ∧ (nbit value 0 = true) ∧ (s.fget RNG_R_STAT.STATE r = 0) ∧ (s.ten.active.ringOwner r = some tn) ∧ (s.tenOn tn = true) ∧ (nbit (s.ten.active.ringMask r) (s.ringHost r) = true) ∧ (nbit (s.ten.active.hostMask tn) (s.ringHost r) = true) ∧ (s.ringHost r ≠ 2) ∧ (s.fget RNG_R_TASK.VALID r = 0) ∧ (s.fget RNG_R_CFG.TYPE r = 0 ∨ (s.ldg.arch = [] ∧ ∀ u, u < 1024 → s.fget LDG_T_HRING.VALID u = 0 ∨ s.fget LDG_T_HRING.RING u ≠ r)))
    ∧ (∃ (s : State), ∃ host, ∃ value, ∃ r, (OpenW s host .rng 0 r) ∧ (nbit value 0 = true) ∧ (s.fget RNG_R_STAT.STATE r = 0) ∧ (s.ten.active.ringOwner r = none))
    ∧ (∃ (s : State), ∃ host, ∃ value, ∃ r, (OpenW s host .rng 0 r) ∧ (nbit value 0 = true))
    ∧ (∃ (s : State), ∃ h, (h < 2) ∧ (s.hasHost h = true) ∧ (s.rng.attach = true) ∧ (s.fbit RNG_H_CTRL.ALLOW h = true) ∧ (s.fbit RNG_H_STAT.UP h = false))
    ∧ (∃ (s : State), ∃ h, (h < 2) ∧ (s.hasHost h = true) ∧ (s.fbit RNG_H_STAT.UP h = true) ∧ ((∀ e ∈ tget [] s.regs RNG_R_STAT.STATE.id, s.ringHost e.1 ≠ h)) ∧ (s.prm.locks = []))
    ∧ (∃ (s : State), (s.fbit RNG_H_STAT.UP 2 = true) ∧ ((∀ e ∈ tget [] s.regs RNG_R_STAT.STATE.id, s.ringHost e.1 ≠ 2)) ∧ (s.prm.locks = []))
    ∧ (∃ (s : State), (s.fbit RNG_SUPV.ALT_VALID = true) ∧ (s.supv = s.fget RNG_SUPV.PRIMARY) ∧ (s.supv ≠ s.fget RNG_SUPV.ALT) ∧ (s.fbit RNG_H_STAT.UP s.supv = false) ∧ (s.fbit RNG_H_STAT.UP (s.fget RNG_SUPV.ALT) = true)) :=
  ⟨⟨st [(RNG_R_STAT.STATE, 0, 0), (RNG_R_TASK.VALID, 0, 0), (RNG_R_CFG.TYPE, 0, 0)], 0, 1, 0, 0, by simp only [OpenW, Open]; decide +kernel⟩,
    ⟨put (State.reset) [(RNG_R_STAT.STATE, 0, 0)], 0, 1, 0, by simp only [OpenW, Open]; decide +kernel⟩,
    ⟨own, 0, 1, 0, by simp only [OpenW, Open]; decide +kernel⟩,
    ⟨{ st [(RNG_H_CTRL.ALLOW, 0, 1), (RNG_H_STAT.UP, 0, 0)] with rng.attach := true }, 0, by decide +kernel⟩,
    ⟨{ st [(RNG_H_STAT.UP, 0, 1)] with prm.locks := [] }, 0, by decide +kernel⟩,
    ⟨{ st [(RNG_H_STAT.UP, 2, 1)] with prm.locks := [] }, by decide +kernel⟩,
    ⟨st [(RNG_SUPV.ALT_VALID, 0, 1), (RNG_SUPV.PRIMARY, 0, 0), (RNG_SUPV.ALT, 0, 1), (RNG_H_STAT.UP, 1, 1)], by decide +kernel⟩⟩

/-- Something meets the hypotheses of each clause of Events. -/
theorem witness_Events :
    (∃ src, (everSignalled src = false))
    ∧ (∃ (s : State), ∃ src, ∃ (pay : List Byte), (everSignalled src = true) ∧ (pay.length ≤ 12) ∧ (ownerOf s.ten.active.event src = none))
    ∧ (∃ (s : State), ∃ src, ∃ (pay : List Byte), ∃ o, ∃ r, (everSignalled src = true) ∧ (pay.length ≤ 12) ∧ (ownerOf s.ten.active.event src = some o) ∧ (nbit (tget 0 s.rng.routes src) 15 = false) ∧ (nbit (tget 0 s.rng.routes src) 28 = true) ∧ (r = nbits (tget 0 s.rng.routes src) 27 16) ∧ (s.prodRoom r 32 = true) ∧ (s.fbit RNG_H_STAT.UP (s.ringHost r) = true))
    ∧ (∃ (s : State), ∃ host, ∃ src, ∃ (v : Nat), (Open s host .evt) ∧ (src < 2048) ∧ (s.routeOks src (v % 2 ^ 29) = (true, true)))
    ∧ (∃ (s : State), ∃ host, ∃ src, ∃ (v : Nat), (Open s host .evt) ∧ (src < 2048) ∧ (nbit (v % 2 ^ 29) 15 = true) ∧ ((s.routeOks src (v % 2 ^ 29)).1 = false))
    ∧ (∃ (s : State), ∃ host, ∃ value, ∃ n, (OpenW s host .evt 0 n) ∧ (nbit value 0 = true))
    ∧ (∃ (s : State), ∃ (ring : Nat), ((s.ring ring).coal ≠ 0) ∧ (s.fbit RNG_R_IRQ.EN ring = true) ∧ (s.fget RNG_R_IRQ.COAL_US ring ≠ 0) ∧ (s.ringHost ring < 2) ∧ (nbit (tget 0 (s.host (s.ringHost ring)).mask (s.fget RNG_R_IRQ.VECTOR ring / 32)) (s.fget RNG_R_IRQ.VECTOR ring % 32) = false)) :=
  ⟨⟨10, by decide +kernel⟩,
    ⟨own, 5, [], by decide +kernel⟩,
    ⟨{ (st [(RNG_H_STAT.UP, (0), 1), (RNG_R_STAT.STATE, 0, 2), (RNG_H_STAT.UP, 0, 1), (RNG_R_CFG.SIZE_LOG2, 0, 8), (RNG_R_CFG.ESIZE_LOG2, 0, 6)]) with rng.routes := [(0, 2^28)] }, 0, [], 0, 0, by decide +kernel⟩,
    ⟨st [(RNG_R_CFG.TYPE, 0, 1)], 0, 0, 0, by simp only [Open]; decide +kernel⟩,
    ⟨own, 0, 0, 2^15+7*2^12, by simp only [Open]; decide +kernel⟩,
    ⟨own, 0, 1, 0, by simp only [OpenW, Open]; decide +kernel⟩,
    ⟨(st [(RNG_R_IRQ.EN, 0, 1), (RNG_R_IRQ.COAL_US, 0, 1)]).setRing 0 { ({} : Ring) with coal := 1 }, 0, by decide +kernel⟩⟩

/-- Something meets the hypotheses of each clause of TasksAndWatchdog. -/
theorem witness_TasksAndWatchdog :
    (∃ (s : State), ∃ host, ∃ value, ∃ (k : Nat), (OpenW s host .scb 0 k) ∧ (nbit value 0 = true) ∧ (s.fget TSK_STAT.STATE k = 0) ∧ (s.taskMay k = true))
    ∧ (∃ (s : State), ∃ host, ∃ value, ∃ (k : Nat), (OpenW s host .scb 0 k) ∧ (nbit value 0 = true) ∧ (s.fget TSK_STAT.STATE k = 0) ∧ (s.taskMay k = false))
    ∧ (∃ (s : State), ∃ ctx, ∃ (k : Nat), ∃ i, (ctx < 512) ∧ (reservedCtx ctx = false) ∧ ((s.ctx ctx).task = none) ∧ (s.candidates (ctx / 64) = [k]) ∧ (s.nextInput k = some i))
    ∧ (∃ (s : State), ∃ ctx, (s.candidates (ctx / 64) = []))
    ∧ (∃ (s : State), ∃ (k : Nat), ∃ c, (s.placedIn k = some c))
    ∧ (∃ (s : State), ∃ (k : Nat), ∃ c, ∃ d, (s.placedIn k = some c) ∧ (d < 8) ∧ (nbit (s.fget TSK_CFG.CLUSTERS k) d = true) ∧ ((∃ j, 0 < j ∧ j < 64 ∧ (s.ctx (64 * d + j)).task = none)))
    ∧ (∃ (s : State), ∃ k, ∃ r, ∃ (slot : Nat), ∃ rest, ∃ c, ∃ d, (s.rng.prio0 = (k, r, slot) :: rest) ∧ ((List.range 8).find? (fun c => nbit (s.fget TSK_CFG.CLUSTERS k) c && (s.ctx (64 * c)).task.isNone) = some c) ∧ (s.desc r slot = some d))
    ∧ (∃ (s : State), ∃ host, ∃ value, ∃ k, (OpenW s host .scb 0 k) ∧ (nbit value 0 = true))
    ∧ (∃ (s : State), ∃ ctx, ∃ (k : Nat), ((s.ctx ctx).task = some k) ∧ (s.fget SCB_CFG.RUN_MAX * 1024 ≤ (s.ctx ctx).run) ∧ ((s.ctx ctx).locks = []) ∧ ((s.ctx ctx).tag = none) ∧ ((s.ctx ctx).cmd = none) ∧ ((s.ctx ctx).stores = []) ∧ ((s.ctx ctx).wait = .none) ∧ (tget none s.ldg.txns ctx = none) ∧ (s.ctxsOf k = [ctx]) ∧ (s.fget TSK_STAT.STATE k = 2) ∧ ((s.task k).queues = []) ∧ (s.rng.rings = []) ∧ (s.rng.routes = []) ∧ (s.rng.prio0 = []) ∧ (s.pip.tags = []) ∧ (s.pip.pre = []))
    ∧ (∃ (s : State), ∃ ctx, ((s.ctx ctx).run < s.fget SCB_CFG.RUN_MAX * 1024)) :=
  ⟨⟨{ st [(TSK_STAT.STATE, 0, 0), (TSK_CFG.MULTI, 0, 1), (TSK_CFG.CLUSTERS, 0, 1), (SCB_BANK_CTRL.STATE, 0, 2), (TSK_XWIN_SIZE.PAGES, 0, 0), (SCB_BANK_LEN.LEN, 0, 1), (TSK_DATA.PAGES, 0, 0)] with scb.pages := [] }, 0, 1, 0, by simp only [OpenW, Open]; decide +kernel⟩,
    ⟨st [(TSK_STAT.STATE, 0, 0)], 0, 1, 0, by simp only [OpenW, Open]; decide +kernel⟩,
    ⟨(st [(TSK_CFG.CLUSTERS, 0, 1), (TSK_STAT.STATE, 0, 2), (TSK_IN_CFG.EN, 0, 1), (TSK_IN.COUNT, 0, 1), (TSK_CFG.MULTI, 0, 1)]).setCtx 1 { ({} : Ctx) with task := none }, 1, 0, 0, by decide +kernel⟩,
    ⟨own, 0, by decide +kernel⟩,
    ⟨st [(TSK_CFG.CLUSTERS, 0, 1)], 0, 0, by decide +kernel⟩,
    ⟨st [(TSK_CFG.CLUSTERS, 0, 2 ^ 0), (TSK_CFG.CLUSTERS, 0, 1)], 0, 0, 0, by exact ⟨by decide +kernel, by decide +kernel, by decide +kernel, 1, by decide +kernel, by decide +kernel, by decide +kernel⟩⟩,
    ⟨({ st [(TSK_CFG.CLUSTERS, 0, 1)] with rng.prio0 := (0, 0, 0) :: ([]) }).setDesc 0 0 (some ({ opcode := 2, flags := 0, user := 0, area := [], gen := 0, st := .running })), 0, 0, 0, [], 0, { opcode := 2, flags := 0, user := 0, area := [], gen := 0, st := .running }, by decide +kernel⟩,
    ⟨own, 0, 1, 0, by simp only [OpenW, Open]; decide +kernel⟩,
    ⟨{ ((st [(TSK_STAT.STATE, 0, 2), (SCB_CFG.RUN_MAX, 0, 1)]).setCtx 0 { ({} : Ctx) with task := some 0, locks := [], tag := none, cmd := none, stores := [], wait := .none, run := 1024 }).setTask 0 { ({} : Task) with queues := [] } with rng.rings := [], rng.routes := [], rng.prio0 := [], pip.tags := [], pip.pre := [] }, 0, 0, by decide +kernel⟩,
    ⟨st [(SCB_CFG.RUN_MAX, 0, 1)], 0, by decide +kernel⟩⟩

/-- Something meets the hypotheses of each clause of WaitsEnd. -/
theorem witness_WaitsEnd :
    (∃ (s : State), ∃ ctx, ∃ a, ∃ v, ∃ rest, ((s.ctx ctx).stores = (a, v) :: rest))
    ∧ (∃ (s : State), ∃ ctx, ∃ mask, ∃ rd, ∃ k, ∃ i, ((s.ctx ctx).wait = .event mask rd) ∧ ((s.ctx ctx).task = some k) ∧ (rd ≠ 0) ∧ ((List.range 8).find? (fun i => nbit mask i && s.fget TSK_IN.COUNT (8 * k + i) != 0) = some i))
    ∧ (∃ (s : State), ∃ l, ∃ x, ∃ w, ∃ kind, ∃ rd, ((s.llock l).owner = none) ∧ ((s.llock l).waiters = [w]) ∧ (w.who = .ctx x) ∧ ((s.ctx x).wait = .ledger l kind rd) ∧ (rd ≠ 0))
    ∧ (∃ (s : State), ∃ ctx, ∃ l, ∃ kind, ∃ rd, ((s.ctx ctx).wait = .ledger l kind rd) ∧ (rd ≠ 0))
    ∧ (∃ (s : State), ∃ ctx, ∃ (x : Txn), ((s.ctx ctx).wait = .none) ∧ (tget none s.ldg.txns ctx = some x) ∧ (x.timedOut = false) ∧ ((s.llock x.ledger).owner = some (.ctx ctx)))
    ∧ (∃ (s : State), ∃ ctx, ∃ n, ∃ rd, ∃ limit, ((s.ctx ctx).wait = .lock n rd limit) ∧ (limit ≠ 0) ∧ (rd ≠ 0))
    ∧ (∃ (s : State), ∃ (n : Nat), ∃ (it : Item), ∃ st, ∃ r, (s.item n = some it) ∧ (it.done = some (st, r)) ∧ (it.dead = false) ∧ (s.fget TSK_STAT.STATE it.task = 2) ∧ (s.fget TSK_STAT.GEN it.task = it.gen) ∧ (nbit (s.fget TSK_IN_CFG.EN it.task) 7 = true) ∧ (nbit (s.fget TSK_IN_CFG.MODE it.task) 7 = false))
    ∧ (∃ (s : State), ∃ (n : Nat), ∃ (it : Item), ∃ st, ∃ r, (s.item n = some it) ∧ (it.done = some (st, r)) ∧ (it.dead = true)) :=
  ⟨⟨(own).setCtx 0 { ({} : Ctx) with stores := (0, 0) :: ([]) }, 0, 0, 0, [], by decide +kernel⟩,
    ⟨(st [(TSK_IN.COUNT, 0, 1)]).setCtx 0 { ({} : Ctx) with wait := .event 1 1, task := some 0 }, 0, 1, 1, 0, 0, by decide +kernel⟩,
    ⟨((own).setLlock 0 { ({} : LLock) with owner := none, waiters := [({ prio := 0, stamp := 0, who := .ctx 0 })] }).setCtx 0 { ({} : Ctx) with wait := .ledger 0 0 1 }, 0, 0, { prio := 0, stamp := 0, who := .ctx 0 }, 0, 1, by decide +kernel⟩,
    ⟨(own).setCtx 0 { ({} : Ctx) with wait := .ledger 0 0 1 }, 0, 0, 0, 1, by decide +kernel⟩,
    ⟨(((own).setCtx 0 { ({} : Ctx) with wait := .none }).setLlock 0 { ({} : LLock) with owner := some (.ctx 0) }).setTxn 0 (some ({ ledger := 0, kind := 2, writes := [] })), 0, { ledger := 0, kind := 2, writes := [] }, by decide +kernel⟩,
    ⟨(own).setCtx 0 { ({} : Ctx) with wait := .lock 0 1 1 }, 0, 0, 1, 1, by decide +kernel⟩,
    ⟨(st [(TSK_IN_CFG.EN, 0, 128), (TSK_STAT.STATE, 0, 2)]).setItem 1 (some ({ itm 7 0 [] with done := some (0, 0), dead := false })), 1, { itm 7 0 [] with done := some (0, 0), dead := false }, 0, 0, by decide +kernel⟩,
    ⟨(own).setItem 1 (some ({ itm 7 0 [] with done := some (0, 0), dead := true })), 1, { itm 7 0 [] with done := some (0, 0), dead := true }, 0, 0, by decide +kernel⟩⟩

/-- Something meets the hypotheses of each clause of ProgramStore. -/
theorem witness_ProgramStore :
    (∃ (s : State), ∃ host, (Open s host .scb) ∧ (s.fget SCB_BANK_CTRL.STATE (s.bankOf host) = 0) ∧ (s.fget SCB_BANK_BASE.BASE (s.bankOf host) + s.fget SCB_BANK_LEN.LEN (s.bankOf host) ≤ 131072) ∧ (s.bankClear (s.bankOf host) (s.fget SCB_BANK_BASE.BASE (s.bankOf host)) (s.fget SCB_BANK_LEN.LEN (s.bankOf host)) = true))
    ∧ (∃ (s : State), ∃ host, (Open s host .scb) ∧ (s.fget SCB_BANK_CTRL.STATE (s.bankOf host) = 1))
    ∧ (∃ (s : State), ∃ host, (Open s host .scb) ∧ (s.fget SCB_BANK_CTRL.STATE (s.bankOf host) ≠ 0))
    ∧ (∃ (s : State), ∃ host, ∃ (k : Nat), ∃ (b : Nat), (Open s host .scb) ∧ (k < 131072) ∧ (b < 256) ∧ (s.fget SCB_BANK_CTRL.STATE b = 1) ∧ (s.fget SCB_BANK_BASE.BASE b ≤ k ∧ k < s.fget SCB_BANK_BASE.BASE b + s.fget SCB_BANK_LEN.LEN b))
    ∧ (∃ (s : State), ∃ host, ∃ (k : Nat), (Open s host .scb) ∧ (k < 131072) ∧ ((∀ b, b < 256 → s.fget SCB_BANK_CTRL.STATE b ≠ 1)))
    ∧ (∃ (s : State), ∃ host, ∃ p, (Open s host .scb) ∧ (p < 256) ∧ (s.pageBusy p = false))
    ∧ (∃ (s : State), ∃ host, ∃ p, (Open s host .scb) ∧ (p < 256) ∧ (s.pageBusy p = true)) :=
  ⟨⟨st [(SCB_BANK_CTRL.STATE, (0), 0)], 0, by simp only [Open]; decide +kernel⟩,
    ⟨st [(SCB_BANK_CTRL.STATE, (0), 1)], 0, by simp only [Open]; decide +kernel⟩,
    ⟨st [(SCB_BANK_CTRL.STATE, (0), 1)], 0, by simp only [Open]; decide +kernel⟩,
    ⟨st [(SCB_BANK_CTRL.STATE, 0, 1), (SCB_BANK_LEN.LEN, 0, 1)], 0, 0, 0, by simp only [Open]; decide +kernel⟩,
    ⟨own, 0, 0, by simp only [Open]; decide +kernel⟩,
    ⟨own, 0, 0, by simp only [Open]; decide +kernel⟩,
    ⟨st [(TSK_STAT.STATE, 0, 1)], 0, 0, by simp only [Open]; decide +kernel⟩⟩

/-- Something meets the hypotheses of each clause of Primitives. -/
theorem witness_Primitives :
    (∃ (s : State), ∃ host, ∃ value, ∃ q, (OpenW s host .prm 0 q) ∧ (nbit value 0 = true) ∧ (s.fget Q_STAT.STATE q = 0) ∧ (s.fget Q_BASE.BASE q + s.qDepth q ≤ 65536) ∧ (s.qPlaceOk q (s.fget Q_BASE.BASE q) (s.qDepth q) = true) ∧ (s.fget Q_BASE.BASE q % s.qDepth q = 0))
    ∧ (∃ (s : State), ∃ host, ∃ value, ∃ q, (OpenW s host .prm 0 q) ∧ (nbit value 0 = true) ∧ (s.fget Q_STAT.STATE q = 1) ∧ (s.fget Q_STAT.ENABLE_LATCHED q = 0))
    ∧ (∃ (s : State), ∃ host, ∃ value, ∃ q, (OpenW s host .prm 0 q) ∧ (nbit value 1 = true))
    ∧ (∃ (s : State), ∃ host, ∃ value, ∃ (k : Nat), (OpenW s host .prm 1 k) ∧ (nbit value 0 = true) ∧ (s.fget T_STAT.STATE k = 0) ∧ (s.fget T_BASE.BASE k + s.tSets k ≤ 16384) ∧ (s.tPlaceOk k (s.fget T_BASE.BASE k) (s.tSets k) = true) ∧ (s.fget T_BASE.BASE k % s.tSets k = 0))
    ∧ (∃ (s : State), ∃ (k : Nat), ∃ set, ∃ way, ∃ e, (s.fget T_STAT.STATE k = 2) ∧ (s.fget T_SWEEP.S k ≠ 0) ∧ ((s.htab k).ents.find? (fun e => e.bucket == set && e.way == way) = some e) ∧ (e.isStatic = false))
    ∧ (∃ (s : State), ∃ (k : Nat), ∃ set, ∃ way, ∃ e, (s.fget T_STAT.STATE k = 2) ∧ ((s.htab k).ents.find? (fun e => e.bucket == set && e.way == way) = some e) ∧ (e.isStatic = true))
    ∧ (∃ (s : State), ∃ host, ∃ value, ∃ (k : Nat), ∃ e, (OpenW s host .prm 1 k) ∧ (nbit value 2 = true) ∧ (s.fget T_STAT.STATE k = 2) ∧ (s.fget T_SWEEP.S k ≠ 0) ∧ ((s.htab k).ents = [e]) ∧ (e.isStatic = false) ∧ (e.hit = true))
    ∧ (∃ (s : State), ∃ host, ∃ value, ∃ (k : Nat), ∃ e, (OpenW s host .prm 1 k) ∧ (nbit value 2 = true) ∧ (s.fget T_STAT.STATE k = 2) ∧ (s.fget T_SWEEP.S k ≠ 0) ∧ ((s.htab k).ents = [e]) ∧ (e.bad = false))
    ∧ (∃ (s : State), ∃ host, ∃ value, ∃ k, (OpenW s host .prm 1 k) ∧ (nbit value 1 = true))
    ∧ (∃ (s : State), ∃ host, ∃ value, ∃ k, (OpenW s host .prm 1 k) ∧ (nbit value 0 = true))
    ∧ (∃ (s : State), ∃ host, ∃ value, ∃ g, (OpenW s host .prm 2 g) ∧ (nbit value 0 = true) ∧ (s.fget L_STAT.STATE g = 0))
    ∧ (∃ (s : State), ∃ n, ((s.plock n).st = 1) ∧ ((s.plock n).waiters = [])) :=
  ⟨⟨st [(Q_STAT.STATE, 0, 0)], 0, 1, 0, by simp only [OpenW, Open]; decide +kernel⟩,
    ⟨st [(Q_STAT.STATE, 0, 1), (Q_STAT.ENABLE_LATCHED, 0, 0)], 0, 1, 0, by simp only [OpenW, Open]; decide +kernel⟩,
    ⟨own, 0, 2, 0, by simp only [OpenW, Open]; decide +kernel⟩,
    ⟨(st [(T_STAT.STATE, 0, 0), (T_CFG.SETS_LOG2, 0, 4)]).setSel .prm 0 (4096 * 1), 0, 1, 0, by simp only [OpenW, Open]; decide +kernel⟩,
    ⟨(st [(T_STAT.STATE, 0, 2), (T_SWEEP.S, 0, 1)]).setHtab 0 { ({} : HTab) with ents := [({ key := 0, value := 0, bucket := 0, way := 0 })] }, 0, 0, 0, { key := 0, value := 0, bucket := 0, way := 0 }, by decide +kernel⟩,
    ⟨(st [(T_STAT.STATE, 0, 2)]).setHtab 0 { ({} : HTab) with ents := [({ key := 0, value := 0, isStatic := true })] }, 0, 0, 0, { key := 0, value := 0, isStatic := true }, by decide +kernel⟩,
    ⟨((st [(T_STAT.STATE, 0, 2), (T_SWEEP.S, 0, 1)]).setSel .prm 0 (4096 * 1)).setHtab 0 { ({} : HTab) with ents := [({ key := 0, value := 0, hit := true })] }, 0, 4, 0, { key := 0, value := 0, hit := true }, by simp only [OpenW, Open]; decide +kernel⟩,
    ⟨((st [(T_STAT.STATE, 0, 2), (T_SWEEP.S, 0, 1)]).setSel .prm 0 (4096 * 1)).setHtab 0 { ({} : HTab) with ents := [({ key := 0, value := 0, bad := false })] }, 0, 4, 0, { key := 0, value := 0, bad := false }, by simp only [OpenW, Open]; decide +kernel⟩,
    ⟨(own).setSel .prm 0 (4096 * 1), 0, 2, 0, by simp only [OpenW, Open]; decide +kernel⟩,
    ⟨(own).setSel .prm 0 (4096 * 1), 0, 1, 0, by simp only [OpenW, Open]; decide +kernel⟩,
    ⟨(st [(L_STAT.STATE, 0, 0)]).setSel .prm 0 (4096 * 2), 0, 1, 0, by simp only [OpenW, Open]; decide +kernel⟩,
    ⟨(own).setPlock 0 { ({} : PLock) with st := 1, waiters := [] }, 0, by decide +kernel⟩⟩

/-- Something meets the hypotheses of each clause of ScribeComputation. -/
theorem witness_ScribeComputation :
    (∃ (s : State), ∃ x, ∃ a, ∃ b, (Issues s x (encR 0x00 a b 0 24)))
    ∧ (∃ (s : State), ∃ x, ∃ a, ∃ q, ∃ imm, ∃ clear, (clear < 2) ∧ (q < 4) ∧ (Issues s x (encI 0x08 a (q + 4 * clear) imm))) :=
  ⟨⟨issuing (encR 0x00 1 2 0 24) {}, 0, 1, 2, by simp only [Sys2Proof.Safety.Issues]; decide +kernel⟩,
    ⟨issuing (encI 0x08 1 (0 + 4 * 0) 0) {}, 0, 1, 0, 0, 0, by simp only [Sys2Proof.Safety.Issues]; decide +kernel⟩⟩

/-- Something meets the hypotheses of each clause of ScribeMemoryAndDram. -/
theorem witness_ScribeMemoryAndDram :
    (∃ (s : State), ∃ x, ∃ a, ∃ b, ∃ imm, ∃ (k : Nat), (Issues s x (encI 0x0F a b imm)) ∧ ((s.ctx x).task = some k) ∧ (s.dwinSize k < memOff (s.ctx x) b imm + 8))
    ∧ (∃ (s : State), ∃ x, ∃ a, ∃ b, ∃ imm, ∃ k, (Issues s x (encI 0x0F a b imm)) ∧ ((s.ctx x).task = some k) ∧ (memOff (s.ctx x) b imm + 8 ≤ s.dwinSize k) ∧ (memOff (s.ctx x) b imm % 8 ≠ 0))
    ∧ (∃ (s : State), ∃ x, ∃ w, ((s.ctx x).task.isSome = true) ∧ ((s.ctx x).wait = .none) ∧ ((s.ctx x).run < s.fget SCB_CFG.RUN_MAX * 1024) ∧ (s.fetched x = some w) ∧ (s.parityBad x = true))
    ∧ (∃ (s : State), ∃ x, ∃ a, ∃ b, ∃ imm, ∃ k, (Issues s x (encI 0x15 a b imm)) ∧ ((s.ctx x).task = some k) ∧ (memFault (memOff (s.ctx x) b imm) 8 (s.xwinSize k) = none) ∧ ((s.ctx x).stores.length < 8))
    ∧ (∃ (s : State), ∃ x, ∃ a, ∃ b, ∃ imm, ∃ k, ∃ e, ∃ rest, (Issues s x (encI 0x15 a b imm)) ∧ ((s.ctx x).task = some k) ∧ (memFault (memOff (s.ctx x) b imm) 8 (s.xwinSize k) = none) ∧ ((s.ctx x).stores = e :: rest) ∧ (rest.length = 7))
    ∧ (∃ (s : State), ∃ x, ∃ a, ∃ b, ∃ imm, ∃ k, (Issues s x (encI 0x14 a b imm)) ∧ ((s.ctx x).task = some k) ∧ (memFault (memOff (s.ctx x) b imm) 8 (s.xwinSize k) = none))
    ∧ (∃ (s : State), ∃ x, (Issues s x (encR 0x20 0 0 0 3))) :=
  ⟨⟨issuing (encI 0x0F 1 2 0xFFFF) {w := [(2, 70000)]}, 0, 1, 2, 0xFFFF, 0, by simp only [Sys2Proof.Safety.Issues]; decide +kernel⟩,
    ⟨issuing (encI 0x0F 1 2 1) {}, 0, 1, 2, 1, 0, by simp only [Sys2Proof.Safety.Issues]; decide +kernel⟩,
    ⟨{ issuing 0 {} with scb.badTasks := [0] }, 0, 0, by decide +kernel⟩,
    ⟨issuing (encI 0x15 1 2 0) {}, 0, 1, 2, 0, 0, by simp only [Sys2Proof.Safety.Issues]; decide +kernel⟩,
    ⟨issuing (encI 0x15 1 2 0) {stores := ((0, 0)) :: (List.replicate 7 (0, 0))}, 0, 1, 2, 0, 0, (0, 0), List.replicate 7 (0, 0), by simp only [Sys2Proof.Safety.Issues]; decide +kernel⟩,
    ⟨issuing (encI 0x14 1 2 0) {}, 0, 1, 2, 0, 0, by simp only [Sys2Proof.Safety.Issues]; decide +kernel⟩,
    ⟨issuing (encR 0x20 0 0 0 3) {}, 0, by simp only [Sys2Proof.Safety.Issues]; decide +kernel⟩⟩

/-- Something meets the hypotheses of each clause of ScribeControl. -/
theorem witness_ScribeControl :
    (∃ (s : State), ∃ x, ∃ a, ∃ off, (Issues s x (encJ 0x1E a off)))
    ∧ (∃ (s : State), ∃ x, ∃ a, ∃ b, ∃ imm, (Issues s x (encI 0x1F a b imm)))
    ∧ (∃ (s : State), ∃ x, (Issues s x (encR 0x20 0 0 0 0)))
    ∧ (∃ (s : State), ∃ x, ∃ a, ∃ n, ∃ k, (Issues s x (encI 0x21 a 0 n)) ∧ ((s.ctx x).task = some k))
    ∧ (∃ (s : State), ∃ x, ∃ a, ∃ i, ∃ k, (i < 8) ∧ (Issues s x (encI 0x23 a 0 i)) ∧ ((s.ctx x).task = some k)) :=
  ⟨⟨issuing (encJ 0x1E 1 0) {}, 0, 1, 0, by simp only [Sys2Proof.Safety.Issues]; decide +kernel⟩,
    ⟨issuing (encI 0x1F 1 2 0) {}, 0, 1, 2, 0, by simp only [Sys2Proof.Safety.Issues]; decide +kernel⟩,
    ⟨issuing (encR 0x20 0 0 0 0) {}, 0, by simp only [Sys2Proof.Safety.Issues]; decide +kernel⟩,
    ⟨issuing (encI 0x21 1 0 0) {}, 0, 1, 0, 0, by simp only [Sys2Proof.Safety.Issues]; decide +kernel⟩,
    ⟨issuing (encI 0x23 1 0 0) {}, 0, 1, 0, 0, by simp only [Sys2Proof.Safety.Issues]; decide +kernel⟩⟩

/-- Something meets the hypotheses of each clause of ScribeEvents. -/
theorem witness_ScribeEvents :
    (∃ (s : State), ∃ x, ∃ k, (Issues s x (encR 0x20 0 0 0 1)) ∧ ((s.ctx x).task = some k) ∧ (tget none s.ldg.txns x = none) ∧ ((s.ctx x).locks = []) ∧ ((s.ctx x).cmd = none))
    ∧ (∃ (s : State), ∃ x, ∃ k, (Issues s x (encR 0x20 0 0 0 2)) ∧ ((s.ctx x).task = some k) ∧ (tget none s.ldg.txns x = none) ∧ ((s.ctx x).locks = []) ∧ ((s.ctx x).cmd = none))
    ∧ (∃ (s : State), ∃ x, ∃ a, ∃ i, ∃ k, (Issues s x (encI 0x22 a 0 i)) ∧ ((s.ctx x).task = some k) ∧ (1 ≤ a) ∧ (a ≤ 29) ∧ (i < 8) ∧ (s.fget TSK_IN.COUNT (8 * k + i) = 0))
    ∧ (∃ (s : State), ∃ x, ∃ a, ∃ i, ∃ k, ∃ e, ∃ rest, (Issues s x (encI 0x22 a 0 i)) ∧ ((s.ctx x).task = some k) ∧ (1 ≤ a) ∧ (a ≤ 29) ∧ (i < 8) ∧ (i ≠ 5) ∧ (s.fget TSK_IN.COUNT (8 * k + i) ≠ 0) ∧ (tget [] (s.task k).queues i = e :: rest))
    ∧ (∃ (s : State), ∃ x, ∃ a, ∃ m, ∃ k, ∃ i, (Issues s x (encI 0x24 a 0 m)) ∧ ((s.ctx x).task = some k) ∧ (a ≠ 0) ∧ ((List.range 8).find? (fun i => nbit m i && s.fget TSK_IN.COUNT (8 * k + i) != 0) = some i))
    ∧ (∃ (s : State), ∃ x, ∃ a, ∃ m, ∃ k, (Issues s x (encI 0x24 a 0 m)) ∧ ((s.ctx x).task = some k) ∧ ((List.range 8).find? (fun i => nbit m i && s.fget TSK_IN.COUNT (8 * k + i) != 0) = none))
    ∧ (∃ (s : State), ∃ x, ∃ a, ∃ b, ∃ c, (Issues s x (encR 0x25 a b c 0)) ∧ (c ≤ 30) ∧ (a ≠ 0) ∧ (1280 ≤ ((s.ctx x).get b).toNat) ∧ (((s.ctx x).get b).toNat < 2048))
    ∧ (∃ (s : State), ∃ x, ∃ a, (Issues s x (encI 0x26 a 0 0)))
    ∧ (∃ (s : State), ∃ x, ∃ a, (Issues s x (encI 0x26 a 0 4)) ∧ (1 ≤ a) ∧ (a ≤ 30)) :=
  ⟨⟨issuing (encR 0x20 0 0 0 1) {locks := [], cmd := none}, 0, 0, by simp only [Sys2Proof.Safety.Issues]; decide +kernel⟩,
    ⟨issuing (encR 0x20 0 0 0 2) {locks := [], cmd := none}, 0, 0, by simp only [Sys2Proof.Safety.Issues]; decide +kernel⟩,
    ⟨put (issuing (encI 0x22 1 0 0) {}) [(TSK_IN.COUNT, (8 * 0 + 0), 0)], 0, 1, 0, 0, by simp only [Sys2Proof.Safety.Issues]; decide +kernel⟩,
    ⟨(put (issuing (encI 0x22 1 0 0) {}) [(TSK_IN.COUNT, (8 * 0 + 0), 1), (TSK_IN.COUNT, 0, 1)]).setTask 0 { ({} : Task) with queues := [(0, [({ src := 0, pay := [] })])] }, 0, 1, 0, 0, { src := 0, pay := [] }, [], by simp only [Sys2Proof.Safety.Issues]; decide +kernel⟩,
    ⟨put (issuing (encI 0x24 1 0 1) {}) [(TSK_IN.COUNT, 0, 1)], 0, 1, 1, 0, 0, by simp only [Sys2Proof.Safety.Issues]; decide +kernel⟩,
    ⟨issuing (encI 0x24 1 0 0) {}, 0, 1, 0, 0, by simp only [Sys2Proof.Safety.Issues]; decide +kernel⟩,
    ⟨issuing (encR 0x25 1 2 3 0) {w := [(2, 1280)]}, 0, 1, 2, 3, by simp only [Sys2Proof.Safety.Issues]; decide +kernel⟩,
    ⟨issuing (encI 0x26 1 0 0) {}, 0, 1, by simp only [Sys2Proof.Safety.Issues]; decide +kernel⟩,
    ⟨issuing (encI 0x26 1 0 4) {}, 0, 1, by simp only [Sys2Proof.Safety.Issues]; decide +kernel⟩⟩

/-- Something meets the hypotheses of each clause of ScribeReadingAndFields. -/
theorem witness_ScribeReadingAndFields :
    (∃ (s : State), ∃ x, ∃ a, ∃ b, ∃ k, ∃ i, ∃ g, (Issues s x (encR 0x27 a b 0 0)) ∧ ((s.ctx x).task = some k) ∧ ((s.ctx x).tag = none) ∧ (a ≠ 0) ∧ (i < 65536) ∧ (g < 256) ∧ (((s.ctx x).get b).toNat = i + g * 65536) ∧ ((s.tag i).st = 1) ∧ ((s.tag i).tenant = s.ctxTenant x) ∧ ((s.tag i).gen = g) ∧ (s.serves k (s.tag i) = true))
    ∧ (∃ (s : State), ∃ x, ∃ a, ∃ b, ∃ i, ∃ g, (Issues s x (encR 0x27 a b 0 0)) ∧ ((s.ctx x).tag = none) ∧ (a ≠ 0) ∧ (i < 65536) ∧ (g < 256) ∧ (((s.ctx x).get b).toNat = i + g * 65536) ∧ ((s.tag i).st ≠ 0) ∧ ((s.tag i).tenant ≠ s.ctxTenant x))
    ∧ (∃ (s : State), ∃ x, ∃ a, ∃ (n : Nat), ∃ i, ∃ g, (Issues s x (encI 0x2A a 0 n)) ∧ (n < 8) ∧ ((s.ctx x).tag = some (i, g)) ∧ ((s.tag i).gen = g) ∧ ((s.tag i).st = 1))
    ∧ (∃ (s : State), ∃ x, ∃ a, ∃ (n : Nat), ∃ i, ∃ g, (Issues s x (encI 0x2B a 0 n)) ∧ (n < 8) ∧ ((s.ctx x).tag = some (i, g)) ∧ ((s.tag i).gen = g) ∧ ((s.tag i).st = 1) ∧ ((s.tag i).record.length = 8))
    ∧ (∃ (s : State), ∃ x, ∃ a, ∃ b, ∃ k, ∃ i, ∃ g, (Issues s x (encR 0x28 a b 0 0)) ∧ ((s.ctx x).task = some k) ∧ (a ≠ 0) ∧ ((s.ctx x).tag = some (i, g)) ∧ ((s.tag i).gen = g) ∧ (s.serves k (s.tag i) = true) ∧ (((s.ctx x).get b).toNat % 256 = 0x12))
    ∧ (∃ (s : State), ∃ x, ∃ a, ∃ b, ∃ i, ∃ g, (Issues s x (encR 0x28 a b 0 0)) ∧ (a ≠ 0) ∧ ((s.ctx x).tag = some (i, g)) ∧ ((s.tag i).gen ≠ g))
    ∧ (∃ (s : State), ∃ x, ∃ a, ∃ b, ∃ tag, ∃ gen, (Issues s x (encR 0x29 a b 0 0)) ∧ ((s.ctx x).tag = some (tag, gen)) ∧ ((s.tag tag).gen = gen) ∧ (1 ≤ a) ∧ (a ≤ 29))
    ∧ (∃ (s : State), ∃ x, ∃ a, ∃ b, ∃ (n : Nat), ∃ tag, ∃ gen, (Issues s x (encR 0x29 a b 0 (8 * n + 5))) ∧ ((s.ctx x).tag = some (tag, gen)) ∧ ((s.tag tag).gen = gen) ∧ (1 ≤ a) ∧ (a ≤ 29) ∧ (1 ≤ n) ∧ (n ≤ 8) ∧ (((s.ctx x).get b).toNat + n ≤ (s.tag tag).plain.length))
    ∧ (∃ (s : State), ∃ x, ∃ a, ∃ b, ∃ c, ∃ n, ∃ tag, ∃ gen, (Issues s x (encR 0x29 a b c (8 * n + 6))) ∧ ((s.ctx x).tag = some (tag, gen)) ∧ ((s.tag tag).gen = gen) ∧ (1 ≤ a) ∧ (a ≤ 29) ∧ (c ≤ 30))
    ∧ (∃ (s : State), ∃ x, ∃ a, ∃ b, ∃ c, ∃ tag, ∃ gen, (Issues s x (encR 0x29 a b c 7)) ∧ ((s.ctx x).tag = some (tag, gen)) ∧ (1 ≤ a) ∧ (a ≤ 29)) :=
  ⟨⟨(issuing (encR 0x27 1 2 0 0) {w := [(2, BitVec.ofNat 64 (0 + 0 * 65536))], tag := none}).setTag 0 { ({} : Reading) with st := 1, tenant := 0, gen := 0, stage := 6 }, 0, 1, 2, 0, 0, 0, by simp only [Sys2Proof.Safety.Issues]; decide +kernel⟩,
    ⟨(issuing (encR 0x27 1 2 0 0) {w := [(2, BitVec.ofNat 64 (0 + 0 * 65536))], tag := none}).setTag 0 { ({} : Reading) with st := 1, tenant := 1 }, 0, 1, 2, 0, 0, by simp only [Sys2Proof.Safety.Issues]; decide +kernel⟩,
    ⟨(issuing (encI 0x2A 1 0 0) {tag := some (0, 0)}).setTag 0 { ({} : Reading) with gen := 0, st := 1 }, 0, 1, 0, 0, 0, by simp only [Sys2Proof.Safety.Issues]; decide +kernel⟩,
    ⟨(issuing (encI 0x2B 1 0 0) {tag := some (0, 0)}).setTag 0 { ({} : Reading) with gen := 0, st := 1, record := [0, 0, 0, 0, 0, 0, 0, 0] }, 0, 1, 0, 0, 0, by simp only [Sys2Proof.Safety.Issues]; decide +kernel⟩,
    ⟨(issuing (encR 0x28 1 2 0 0) {w := [(2, BitVec.ofNat 64 (0x12))], tag := some (0, 0)}).setTag 0 { ({} : Reading) with gen := 0, st := 1, stage := 6 }, 0, 1, 2, 0, 0, 0, by simp only [Sys2Proof.Safety.Issues]; decide +kernel⟩,
    ⟨(issuing (encR 0x28 1 2 0 0) {tag := some (0, 0)}).setTag 0 { ({} : Reading) with gen := 1 }, 0, 1, 2, 0, 0, by simp only [Sys2Proof.Safety.Issues]; decide +kernel⟩,
    ⟨(issuing (encR 0x29 1 2 0 0) {tag := some (0, 0)}).setTag 0 { ({} : Reading) with gen := 0 }, 0, 1, 2, 0, 0, by simp only [Sys2Proof.Safety.Issues]; decide +kernel⟩,
    ⟨(issuing (encR 0x29 1 2 0 (8 * 1 + 5)) {tag := some (0, 0)}).setTag 0 { ({} : Reading) with gen := 0, plain := [0, 0, 0, 0] }, 0, 1, 2, 1, 0, 0, by simp only [Sys2Proof.Safety.Issues]; decide +kernel⟩,
    ⟨(issuing (encR 0x29 1 2 3 (8 * 0 + 6)) {tag := some (0, 0)}).setTag 0 { ({} : Reading) with gen := 0 }, 0, 1, 2, 3, 0, 0, 0, by simp only [Sys2Proof.Safety.Issues]; decide +kernel⟩,
    ⟨issuing (encR 0x29 1 2 3 7) {tag := some (0, 0)}, 0, 1, 2, 3, 0, 0, by simp only [Sys2Proof.Safety.Issues]; decide +kernel⟩⟩

/-- Something meets the hypotheses of each clause of ScribeLedgerAndCalendar. -/
theorem witness_ScribeLedgerAndCalendar :
    (∃ (s : State), ∃ x, ∃ a, ∃ b, ∃ f, ∃ l, (Issues s x (encR 0x30 a b 0 f)) ∧ (a ≠ 0) ∧ (s.txn x = none) ∧ (f ∈ [2, 3, 4, 5, 8, 9]) ∧ (((s.ctx x).get b).toNat = l) ∧ (s.ownsLedger (s.ctxTenant x) l = true) ∧ (s.ledExists l = true) ∧ (s.quarantined l (s.ctxTenant x) = false) ∧ ((s.llock l).owner = none) ∧ ((s.llock l).waiters = []) ∧ (s.lineFree l (x / 64) = true))
    ∧ (∃ (s : State), ∃ x, ∃ a, ∃ b, ∃ f, ∃ l, ∃ o, (Issues s x (encR 0x30 a b 0 f)) ∧ (s.txn x = none) ∧ (f ∈ [2, 3, 4, 5, 8, 9]) ∧ (((s.ctx x).get b).toNat = l) ∧ (s.ownsLedger (s.ctxTenant x) l = true) ∧ (s.ledExists l = true) ∧ (s.quarantined l (s.ctxTenant x) = false) ∧ ((s.llock l).owner = some o) ∧ ((s.llock l).waiters = []))
    ∧ (∃ (s : State), ∃ x, ∃ a, ∃ b, ∃ (tr : Txn), (Issues s x (encR 0x31 a b 0 0)) ∧ (s.txn x = some tr) ∧ (((s.ctx x).get b).toNat < 128))
    ∧ (∃ (s : State), ∃ x, ∃ a, ∃ b, ∃ c, ∃ (tr : Txn), (Issues s x (encR 0x32 a b c 0)) ∧ (s.txn x = some tr) ∧ (tr.timedOut = false))
    ∧ (∃ (s : State), ∃ x, ∃ b, ∃ c, ∃ (tr : Txn), (Issues s x (encR 0x33 0 b c 0)) ∧ (s.txn x = some tr))
    ∧ (∃ (s : State), ∃ x, ∃ (tr : Txn), (Issues s x (encR 0x35 0 0 0 0)) ∧ (s.txn x = some tr) ∧ (tr.timedOut = false))
    ∧ (∃ (s : State), ∃ x, ∃ a, ∃ (tr : Txn), ∃ u, (Issues s x (encR 0x34 a 0 0 0)) ∧ (1 ≤ a) ∧ (a ≤ 30) ∧ (s.txn x = some tr) ∧ (tr.timedOut = false) ∧ (s.txnCheck (s.ctxTenant x) tr = 0) ∧ (s.jRoom (s.ctxTenant x) (24 + (s.txnBody tr).length) = some u) ∧ (tr.kind ≠ 2 ∧ tr.kind ≠ 9 ∨ (u.identHash (s.ctxTenant x) tr.ledger (s.led tr.ledger) (u.txnLine tr)).1 = 0))
    ∧ (∃ (s : State), ∃ x, ∃ a, ∃ (tr : Txn), ∃ u, (Issues s x (encR 0x34 a 0 0 0)) ∧ (1 ≤ a) ∧ (a ≤ 30) ∧ (s.txn x = some tr) ∧ (tr.timedOut = false) ∧ (s.txnCheck (s.ctxTenant x) tr = 0) ∧ (s.jRoom (s.ctxTenant x) (24 + (s.txnBody tr).length) = some u) ∧ (tr.kind = 2 ∨ tr.kind = 9) ∧ ((u.identHash (s.ctxTenant x) tr.ledger (s.led tr.ledger) (u.txnLine tr)).1 ≠ 0))
    ∧ (∃ (s : State), ∃ x, ∃ a, ∃ (tr : Txn), (Issues s x (encR 0x34 a 0 0 0)) ∧ (1 ≤ a) ∧ (a ≤ 30) ∧ (s.txn x = some tr) ∧ (tr.timedOut = true))
    ∧ (∃ (s : State), ∃ x, ∃ a, ∃ (tr : Txn), (Issues s x (encR 0x34 a 0 0 0)) ∧ (1 ≤ a) ∧ (a ≤ 30) ∧ (s.txn x = some tr) ∧ (tr.timedOut = false) ∧ (s.quarantined tr.ledger (s.ctxTenant x) = true))
    ∧ (∃ (s : State), ∃ x, ∃ a, ∃ (tr : Txn), (Issues s x (encR 0x34 a 0 0 0)) ∧ (1 ≤ a) ∧ (a ≤ 30) ∧ (s.txn x = some tr) ∧ (tr.timedOut = false) ∧ (tr.kind = 4) ∧ (tr.writes = []) ∧ (s.quarantined tr.ledger (s.ctxTenant x) = false) ∧ (tget 0 tr.args 1 % 2 ^ 32 ≤ lget (s.led tr.ledger) L.TOPUP_SEQ))
    ∧ (∃ (s : State), ∃ x, ∃ a, ∃ b, ∃ c, ∃ q, ∃ k, ∃ id, ∃ u, (Issues s x (encR 0x36 a b c (4 * q))) ∧ (1 ≤ a) ∧ (a ≤ 30) ∧ (q < 4) ∧ ((s.ctx x).task = some k) ∧ (((s.ctx x).get c).toNat + 1024 ≤ s.dwinSize k) ∧ (((s.ctx x).get c).toNat % 64 = 0) ∧ (((s.ctx x).get b).toNat = id) ∧ (id < 8192) ∧ (s.calOwner id = some (s.ctxTenant x)) ∧ (s.fbit LDG_CFG.CAL_VALID = true) ∧ (s.fbit LDG_T_STAT.QUAR_ALL (s.ctxTenant x) = false) ∧ (s.jRoom (s.ctxTenant x) 1056 = some u))
    ∧ (∃ (s : State), ∃ x, ∃ a, ∃ b, ∃ id, (Issues s x (encR 0x36 a b 0 1)) ∧ (1 ≤ a) ∧ (a ≤ 30) ∧ (((s.ctx x).get b).toNat = id) ∧ (id < 8192) ∧ (s.calOwner id = some (s.ctxTenant x)) ∧ (s.fbit LDG_CFG.CAL_VALID = true) ∧ ((s.cal id).passive = 1) ∧ (CalCopy.armReason (s.calCopy id (!(s.cal id).activeB)) = 0) ∧ (CalCopy.flag (s.calCopy id (!(s.cal id).activeB)) 1 = false) ∧ (s.calOk = false) ∧ (s.ldg.pendList.length < 256))
    ∧ (∃ (s : State), ∃ x, ∃ a, ∃ b, ∃ id, (Issues s x (encR 0x36 a b 0 1)) ∧ (1 ≤ a) ∧ (a ≤ 30) ∧ (((s.ctx x).get b).toNat = id) ∧ (s.calOwner id ≠ some (s.ctxTenant x)))
    ∧ (∃ (s : State), ∃ x, ∃ a, ∃ b, ∃ id, (Issues s x (encR 0x36 a b 0 2)) ∧ (1 ≤ a) ∧ (a ≤ 30) ∧ (((s.ctx x).get b).toNat = id) ∧ (id < 8192) ∧ (s.calOwner id = some (s.ctxTenant x)) ∧ (s.fbit LDG_CFG.CAL_VALID = true) ∧ ((s.cal id).passive = 2))
    ∧ (∃ (s : State), ∃ x, ∃ a, ∃ b, ∃ id, (Issues s x (encR 0x36 a b 0 2)) ∧ (1 ≤ a) ∧ (a ≤ 30) ∧ (((s.ctx x).get b).toNat = id) ∧ (s.calOwner id ≠ some (s.ctxTenant x)))
    ∧ (∃ (s : State), ∃ x, ∃ a, ∃ b, ∃ id, ∃ u, (Issues s x (encR 0x36 a b 0 3)) ∧ (1 ≤ a) ∧ (a ≤ 30) ∧ (((s.ctx x).get b).toNat = id) ∧ (id < 8192) ∧ (s.calOwner id = some (s.ctxTenant x)) ∧ (s.fbit LDG_CFG.CAL_VALID = true) ∧ ((s.cal id).passive = 2) ∧ (s.fbit LDG_T_STAT.QUAR_ALL (s.ctxTenant x) = false) ∧ (s.jRoom (s.ctxTenant x) 40 = some u)) :=
  ⟨⟨(issuing (encR 0x30 1 2 0 2) {}).setLlock 0 { ({} : LLock) with owner := none, waiters := [] }, 0, 1, 2, 2, 0, by simp only [Sys2Proof.Safety.Issues]; decide +kernel⟩,
    ⟨(issuing (encR 0x30 1 2 0 9) {}).setLlock 0 { ({} : LLock) with owner := some (.pipe 0), waiters := [] }, 0, 1, 2, 9, 0, .pipe 0, by simp only [Sys2Proof.Safety.Issues]; decide +kernel⟩,
    ⟨(issuing (encR 0x31 1 2 0 0) {}).setTxn 0 (some ({ ledger := 0, kind := 2 })), 0, 1, 2, { ledger := 0, kind := 2 }, by simp only [Sys2Proof.Safety.Issues]; decide +kernel⟩,
    ⟨(issuing (encR 0x32 1 2 3 0) {}).setTxn 0 (some ({ ledger := 0, kind := 2, timedOut := false })), 0, 1, 2, 3, { ledger := 0, kind := 2, timedOut := false }, by simp only [Sys2Proof.Safety.Issues]; decide +kernel⟩,
    ⟨(issuing (encR 0x33 0 2 3 0) {}).setTxn 0 (some ({ ledger := 0, kind := 2 })), 0, 2, 3, { ledger := 0, kind := 2 }, by simp only [Sys2Proof.Safety.Issues]; decide +kernel⟩,
    ⟨(issuing (encR 0x35 0 0 0 0) {}).setTxn 0 (some ({ ledger := 0, kind := 2, timedOut := false })), 0, { ledger := 0, kind := 2, timedOut := false }, by simp only [Sys2Proof.Safety.Issues]; decide +kernel⟩,
    ⟨(issuing (encR 0x34 1 0 0 0) {}).setTxn 0 (some ({ ledger := 0, kind := 2, timedOut := false })), 0, 1, { ledger := 0, kind := 2, timedOut := false }, (issuing (encR 0x34 1 0 0 0) {}).setTxn 0 (some ({ ledger := 0, kind := 2, timedOut := false })), by simp only [Sys2Proof.Safety.Issues]; decide +kernel⟩,
    ⟨({ issuing (encR 0x34 1 0 0 0) {} with pip.stash := [{ title := List.replicate 8 0, ledger := 1, tenant := 0 }] }).setTxn 0 (some ({ ledger := 0, kind := 2, writes := [(0, 2 ^ 32, 2 ^ 32)] })), 0, 1, { ledger := 0, kind := 2, writes := [(0, 2 ^ 32, 2 ^ 32)] }, ({ issuing (encR 0x34 1 0 0 0) {} with pip.stash := [{ title := List.replicate 8 0, ledger := 1, tenant := 0 }] }).setTxn 0 (some ({ ledger := 0, kind := 2, writes := [(0, 2 ^ 32, 2 ^ 32)] })), by simp only [Sys2Proof.Safety.Issues]; decide +kernel⟩,
    ⟨(issuing (encR 0x34 1 0 0 0) {}).setTxn 0 (some ({ ledger := 0, kind := 2, timedOut := true })), 0, 1, { ledger := 0, kind := 2, timedOut := true }, by simp only [Sys2Proof.Safety.Issues]; decide +kernel⟩,
    ⟨(put (issuing (encR 0x34 1 0 0 0) {}) [(LDG_T_STAT.QUAR_ALL, 0, 1)]).setTxn 0 (some ({ ledger := 0, kind := 2, timedOut := false })), 0, 1, { ledger := 0, kind := 2, timedOut := false }, by simp only [Sys2Proof.Safety.Issues]; decide +kernel⟩,
    ⟨(put (issuing (encR 0x34 1 0 0 0) {}) [(LDG_T_JBUF.QUOTA, 0, 64)]).setTxn 0 (some ({ ledger := 0, kind := 4 })), 0, 1, { ledger := 0, kind := 4 }, by simp only [Sys2Proof.Safety.Issues]; decide +kernel⟩,
    ⟨put (issuing (encR 0x36 1 2 3 (4 * 0)) {}) [(LDG_CFG.CAL_VALID, 0, 1), (LDG_T_JBUF.QUOTA, 0, 64)], 0, 1, 2, 3, 0, 0, 0, put (issuing (encR 0x36 1 2 3 (4 * 0)) {}) [(LDG_CFG.CAL_VALID, 0, 1), (LDG_T_JBUF.QUOTA, 0, 64)], by simp only [Sys2Proof.Safety.Issues]; decide +kernel⟩,
    ⟨{ (put (issuing (encR 0x36 1 2 0 1) {}) [(LDG_CFG.CAL_VALID, 0, 1)]).setCal 0 { ({} : CalCtl) with passive := 1 } with dram := calD }, 0, 1, 2, 0, by refine ⟨?_, by decide +kernel, by decide +kernel, by decide +kernel, by decide +kernel, by decide +kernel, by decide +kernel, by decide +kernel, ?_⟩; { simp only [Issues]; decide +kernel }; rw [show (State.cal _ 0).activeB = false by decide +kernel]; rw [Bool.not_false, calCopy_read _ (by decide +kernel)]; exact ⟨cal_ok.1, cal_ok.2.1, by decide +kernel, by decide +kernel⟩⟩,
    ⟨issuing (encR 0x36 1 2 0 1) {w := [(2, 1)]}, 0, 1, 2, 1, by simp only [Sys2Proof.Safety.Issues]; decide +kernel⟩,
    ⟨(put (issuing (encR 0x36 1 2 0 2) {}) [(LDG_CFG.CAL_VALID, 0, 1)]).setCal 0 { ({} : CalCtl) with passive := 2 }, 0, 1, 2, 0, by simp only [Sys2Proof.Safety.Issues]; decide +kernel⟩,
    ⟨issuing (encR 0x36 1 2 0 2) {w := [(2, 1)]}, 0, 1, 2, 1, by simp only [Sys2Proof.Safety.Issues]; decide +kernel⟩,
    ⟨(put (issuing (encR 0x36 1 2 0 3) {}) [(LDG_CFG.CAL_VALID, 0, 1)]).setCal 0 { ({} : CalCtl) with passive := 2 }, 0, 1, 2, 0, (put (issuing (encR 0x36 1 2 0 3) {}) [(LDG_CFG.CAL_VALID, 0, 1)]).setCal 0 { ({} : CalCtl) with passive := 2 }, by simp only [Sys2Proof.Safety.Issues]; decide +kernel⟩⟩

/-- Something meets the hypotheses of each clause of ScribePrimitives. -/
theorem witness_ScribePrimitives :
    (∃ (s : State), ∃ x, ∃ a, ∃ b, ∃ c, ∃ q, (Issues s x (encR 0x38 a b c 0)) ∧ (a ≠ 0) ∧ (c ≤ 30) ∧ (((s.ctx x).get b).toNat = q) ∧ (q < 1024) ∧ (s.fget Q_CFG.OWNER q = s.ctxTenant x) ∧ (s.fget Q_ENDP.PROD_KIND q = 0) ∧ (s.fget Q_STAT.STATE q = 2))
    ∧ (∃ (s : State), ∃ x, ∃ a, ∃ b, ∃ c, ∃ q, (Issues s x (encR 0x38 a b c 0)) ∧ (a ≠ 0) ∧ (c ≤ 30) ∧ (((s.ctx x).get b).toNat = q) ∧ (s.fget Q_CFG.OWNER q ≠ s.ctxTenant x))
    ∧ (∃ (s : State), ∃ x, ∃ a, ∃ b, ∃ q, ∃ e, ∃ rest, (Issues s x (encR 0x39 a b 0 0)) ∧ (1 ≤ a) ∧ (a ≤ 29) ∧ (((s.ctx x).get b).toNat = q) ∧ (q < 1024) ∧ (s.fget Q_CFG.OWNER q = s.ctxTenant x) ∧ (s.fget Q_ENDP.CONS_KIND q = 0) ∧ (s.fget Q_STAT.STATE q ≠ 0) ∧ ((s.queue q).entries = e :: rest) ∧ ((s.queue q).unpub ≤ rest.length))
    ∧ (∃ (s : State), ∃ x, ∃ a, ∃ b, ∃ q, (Issues s x (encR 0x39 a b 0 0)) ∧ (1 ≤ a) ∧ (a ≤ 29) ∧ (((s.ctx x).get b).toNat = q) ∧ (q < 1024) ∧ (s.fget Q_CFG.OWNER q = s.ctxTenant x) ∧ (s.fget Q_ENDP.CONS_KIND q = 0) ∧ (s.fget Q_STAT.STATE q ≠ 0) ∧ ((s.queue q).entries = []))
    ∧ (∃ (s : State), ∃ x, ∃ a, ∃ b, ∃ c, ∃ f, ∃ (n : Nat), (Issues s x (encR 0x3B a b c f)) ∧ (a ≠ 0) ∧ ((s.ctx x).locks.length < 4) ∧ (((s.ctx x).get b).toNat = n) ∧ (n < 8192) ∧ (s.fget L_CFG.OWNER (n / 64) = s.ctxTenant x) ∧ (s.fget L_STAT.STATE (n / 64) = 2))
    ∧ (∃ (s : State), ∃ x, ∃ a, ∃ b, ∃ (n : Nat), (Issues s x (encR 0x3C a b 0 0)) ∧ (a ≠ 0) ∧ (((s.ctx x).get b).toNat = n) ∧ (n < 8192) ∧ ((s.plock n).st = 1) ∧ ((s.plock n).waiters = []))
    ∧ (∃ (s : State), ∃ x, ∃ a, ∃ b, ∃ c, ∃ k, ∃ e, (Issues s x (encR 0x3D a b c 0)) ∧ (1 ≤ a) ∧ (a ≤ 30) ∧ ((s.ctx x).task = some k) ∧ ((s.ctx x).stores = []) ∧ (((s.ctx x).get b).toNat = e) ∧ (5 ≤ e) ∧ (e < 10) ∧ (((s.ctx x).get c).toNat + 64 ≤ s.dwinSize k) ∧ (((s.ctx x).get c).toNat % 64 = 0) ∧ (leAt (s.winRead k true ((s.ctx x).get c).toNat 64) 0 1 < engineOps e) ∧ (nbit (s.fget TSK_IN_CFG.EN k) 7 = true) ∧ (nbit (s.fget TSK_IN_CFG.MODE k) 7 = false) ∧ (s.itemsBy (fun it => it.task == k && !it.dead) + s.fget TSK_IN.COUNT (8 * k + 7) < 16) ∧ (s.itemsBy (fun it => it.ctx == x) < 8) ∧ (s.poolHeld (s.ctxTenant x) < s.poolQuota (s.ctxTenant x)) ∧ (s.fget SCB_POOL.USED < 65536)) :=
  ⟨⟨put (issuing (encR 0x38 1 2 3 0) {}) [(Q_ENDP.PROD_KIND, 0, 0), (Q_STAT.STATE, 0, 2)], 0, 1, 2, 3, 0, by simp only [Sys2Proof.Safety.Issues]; decide +kernel⟩,
    ⟨put (issuing (encR 0x38 1 2 3 0) {}) [(Q_CFG.OWNER, 0, 1)], 0, 1, 2, 3, 0, by simp only [Sys2Proof.Safety.Issues]; decide +kernel⟩,
    ⟨(put (issuing (encR 0x39 1 2 0 0) {}) [(Q_ENDP.CONS_KIND, 0, 0), (Q_STAT.STATE, 0, 1)]).setQueue 0 { ({} : Queue) with entries := ((0, 0)) :: ([]) }, 0, 1, 2, 0, (0, 0), [], by simp only [Sys2Proof.Safety.Issues]; decide +kernel⟩,
    ⟨(put (issuing (encR 0x39 1 2 0 0) {}) [(Q_ENDP.CONS_KIND, 0, 0), (Q_STAT.STATE, 0, 1)]).setQueue 0 { ({} : Queue) with entries := [] }, 0, 1, 2, 0, by simp only [Sys2Proof.Safety.Issues]; decide +kernel⟩,
    ⟨put (issuing (encR 0x3B 1 2 3 0) {}) [(L_STAT.STATE, (0 / 64), 2)], 0, 1, 2, 3, 0, 0, by simp only [Sys2Proof.Safety.Issues]; decide +kernel⟩,
    ⟨(issuing (encR 0x3C 1 2 0 0) {}).setPlock 0 { ({} : PLock) with st := 1, waiters := [] }, 0, 1, 2, 0, by simp only [Sys2Proof.Safety.Issues]; decide +kernel⟩,
    ⟨put (issuing (encR 0x3D 1 2 3 0) {w := [(2, 5)], stores := []}) [(TSK_IN_CFG.EN, 0, 2 ^ 7), (TSK_IN_CFG.EN, 0, 128)], 0, 1, 2, 3, 0, 5, by simp only [Sys2Proof.Safety.Issues]; decide +kernel⟩⟩

/-- Something meets the hypotheses of each clause of ScribeTables. -/
theorem witness_ScribeTables :
    (∃ (s : State), ∃ x, ∃ a, ∃ b, ∃ c, ∃ (k : Nat), ∃ key, ∃ e, (Issues s x (encR 0x3A a b c 0)) ∧ (1 ≤ a) ∧ (a ≤ 29) ∧ (((s.ctx x).get b).toNat = k) ∧ (k < 32) ∧ (s.fget T_CFG.KEY16 k = 0) ∧ (((s.ctx x).get c).toNat = key) ∧ (s.fget T_CFG.OWNER k = s.ctxTenant x) ∧ (s.fget T_STAT.STATE k = 2) ∧ ((s.htab k).ents.find? (fun e => e.key == key && !e.bad) = some e) ∧ (e.value < 2 ^ 64))
    ∧ (∃ (s : State), ∃ x, ∃ a, ∃ b, ∃ c, ∃ (k : Nat), ∃ key, (Issues s x (encR 0x3A a b c 0)) ∧ (1 ≤ a) ∧ (a ≤ 29) ∧ (((s.ctx x).get b).toNat = k) ∧ (k < 32) ∧ (s.fget T_CFG.KEY16 k = 0) ∧ (((s.ctx x).get c).toNat = key) ∧ (s.fget T_CFG.OWNER k = s.ctxTenant x) ∧ (s.fget T_STAT.STATE k = 2) ∧ ((∀ e ∈ (s.htab k).ents, e.key ≠ key ∧ e.bad = false)))
    ∧ (∃ (s : State), ∃ x, ∃ a, ∃ b, ∃ c, ∃ (k : Nat), ∃ key, (Issues s x (encR 0x3A a b c 1)) ∧ (1 ≤ a) ∧ (a ≤ 29) ∧ (((s.ctx x).get b).toNat = k) ∧ (k < 32) ∧ (s.fget T_CFG.KEY16 k = 0) ∧ (((s.ctx x).get c).toNat = key) ∧ (s.fget T_CFG.OWNER k = s.ctxTenant x) ∧ (s.fget T_STAT.STATE k = 2) ∧ ((s.htab k).ents = []))
    ∧ (∃ (s : State), ∃ x, ∃ a, ∃ b, ∃ c, ∃ (k : Nat), ∃ key, (Issues s x (encR 0x3A a b c 2)) ∧ (1 ≤ a) ∧ (a ≤ 29) ∧ (((s.ctx x).get b).toNat = k) ∧ (k < 32) ∧ (s.fget T_CFG.KEY16 k = 0) ∧ (((s.ctx x).get c).toNat = key) ∧ (s.fget T_CFG.OWNER k = s.ctxTenant x) ∧ (s.fget T_STAT.STATE k = 2) ∧ ((s.htab k).ents = []))
    ∧ (∃ (s : State), ∃ x, ∃ a, ∃ b, ∃ c, ∃ (k : Nat), ∃ key, (Issues s x (encR 0x3A a b c 3)) ∧ (1 ≤ a) ∧ (a ≤ 29) ∧ (((s.ctx x).get b).toNat = k) ∧ (k < 32) ∧ (s.fget T_CFG.KEY16 k = 0) ∧ (((s.ctx x).get c).toNat = key) ∧ (s.fget T_CFG.OWNER k = s.ctxTenant x) ∧ (s.fget T_STAT.STATE k = 2) ∧ ((s.htab k).ents = []))
    ∧ (∃ (s : State), ∃ x, ∃ a, ∃ b, ∃ c, ∃ (k : Nat), ∃ key, ∃ e, (Issues s x (encR 0x3A a b c 4)) ∧ (1 ≤ a) ∧ (a ≤ 29) ∧ (((s.ctx x).get b).toNat = k) ∧ (k < 32) ∧ (s.fget T_CFG.KEY16 k = 0) ∧ (((s.ctx x).get c).toNat = key) ∧ (s.fget T_CFG.OWNER k = s.ctxTenant x) ∧ (s.fget T_STAT.STATE k = 2) ∧ ((∀ y ∈ (s.htab k).ents, y.bad = false)) ∧ (e ∈ (s.htab k).ents) ∧ (e.key = key))
    ∧ (∃ (s : State), ∃ x, ∃ a, ∃ b, ∃ c, ∃ (k : Nat), (Issues s x (encR 0x3A a b c 4)) ∧ (1 ≤ a) ∧ (a ≤ 29) ∧ (c ≤ 30) ∧ (((s.ctx x).get b).toNat = k) ∧ (s.fget T_CFG.OWNER k ≠ s.ctxTenant x)) :=
  ⟨⟨(put (issuing (encR 0x3A 1 2 3 0) {}) [(T_CFG.KEY16, 0, 0), (T_STAT.STATE, 0, 2)]).setHtab 0 { ({} : HTab) with ents := [({ key := 0, value := 0 })] }, 0, 1, 2, 3, 0, 0, { key := 0, value := 0 }, by simp only [Sys2Proof.Safety.Issues]; decide +kernel⟩,
    ⟨put (issuing (encR 0x3A 1 2 3 0) {}) [(T_CFG.KEY16, 0, 0), (T_STAT.STATE, 0, 2)], 0, 1, 2, 3, 0, 0, by simp only [Sys2Proof.Safety.Issues]; decide +kernel⟩,
    ⟨(put (issuing (encR 0x3A 1 2 3 1) {}) [(T_CFG.KEY16, 0, 0), (T_STAT.STATE, 0, 2)]).setHtab 0 { ({} : HTab) with ents := [] }, 0, 1, 2, 3, 0, 0, by simp only [Sys2Proof.Safety.Issues]; decide +kernel⟩,
    ⟨(put (issuing (encR 0x3A 1 2 3 2) {}) [(T_CFG.KEY16, 0, 0), (T_STAT.STATE, 0, 2)]).setHtab 0 { ({} : HTab) with ents := [] }, 0, 1, 2, 3, 0, 0, by simp only [Sys2Proof.Safety.Issues]; decide +kernel⟩,
    ⟨(put (issuing (encR 0x3A 1 2 3 3) {}) [(T_CFG.KEY16, 0, 0), (T_STAT.STATE, 0, 2)]).setHtab 0 { ({} : HTab) with ents := [] }, 0, 1, 2, 3, 0, 0, by simp only [Sys2Proof.Safety.Issues]; decide +kernel⟩,
    ⟨(put (issuing (encR 0x3A 1 2 3 4) {}) [(T_CFG.KEY16, 0, 0), (T_STAT.STATE, 0, 2)]).setHtab 0 { ({} : HTab) with ents := [({ key := 0, value := 0 })] }, 0, 1, 2, 3, 0, 0, { key := 0, value := 0 }, by simp only [Sys2Proof.Safety.Issues]; decide +kernel⟩,
    ⟨put (issuing (encR 0x3A 1 2 3 4) {}) [(T_CFG.OWNER, 0, 1)], 0, 1, 2, 3, 0, by simp only [Sys2Proof.Safety.Issues]; decide +kernel⟩⟩

/-- Something meets the hypotheses of each clause of ScribeWordsRoundTrip. -/
theorem witness_ScribeWordsRoundTrip :
    (∃ w, (w < 2 ^ 32) ∧ (legalWord w = true))
    ∧ (∃ w, (legalWord w = false))
    ∧ (∃ x, ∃ w, ∃ (v : Nat), ∃ i, (w < 2 ^ 32) ∧ (v < 2 ^ 32) ∧ (scribeOf x w = some i) ∧ (scribeOf x v = some i)) :=
  ⟨⟨0, by decide +kernel⟩,
    ⟨0xFFFFFFFF, by decide +kernel⟩,
    ⟨0, encR 0x20 0 0 0 0, encR 0x20 0 0 0 0, .sysNop 0, by decide +kernel⟩⟩

/-- Something meets the hypotheses of each clause of RingReadings. -/
theorem witness_RingReadings :
    (∃ (s : State), ∃ ring, ∃ slot, ∃ r, (tget {} s.pip.pre (ring * 65536 + slot) = r) ∧ (r ≠ {}) ∧ (r.stage = 0))
    ∧ (∃ (s : State), ∃ ring, ∃ slot, ∃ r, (tget {} s.pip.pre (ring * 65536 + slot) = r) ∧ (r ≠ {}) ∧ (r.stage = 0) ∧ (r.tries < s.fget PIP_RETRY_DMA.TRIES))
    ∧ (∃ (s : State), ∃ ring, ∃ (slot : Nat), ∃ r, ∃ d, (tget {} s.pip.pre (ring * 65536 + slot) = r) ∧ (r ≠ {}) ∧ (r.stage = 0) ∧ (s.fget PIP_RETRY_DMA.TRIES ≤ r.tries) ∧ (slot < 65536) ∧ (CanPost s ring slot d))
    ∧ (∃ (s : State), ∃ ring, ∃ slot, ∃ r, ∃ l, ∃ e, (tget {} s.pip.pre (ring * 65536 + slot) = r) ∧ (r ≠ {}) ∧ (r.stage = 1) ∧ (r.hint = some l) ∧ (s.ownsLedger r.tenant l = true) ∧ (s.ledExists l = true) ∧ (s.quarantined l r.tenant = false) ∧ (lstate (s.led l) 0 = true) ∧ (ledTitle (s.led l) = r.title) ∧ ((s.routeTask r.tenant 0).isSome = true) ∧ (Admits s r (if r.prio ≤ 1 then 0 else s.fget PIP_CFG.RESERVE * 64)) ∧ (accForm r.apdu = true) ∧ (s.cacheFind l (dedForm r.apdu) = some e))
    ∧ (∃ (s : State), ∃ ring, ∃ (slot : Nat), ∃ r, ∃ l, ∃ d, (tget {} s.pip.pre (ring * 65536 + slot) = r) ∧ (r ≠ {}) ∧ (r.stage = 1) ∧ (r.hint = some l) ∧ (s.ownsLedger r.tenant l = false) ∧ (slot < 65536) ∧ (CanPost s ring slot d))
    ∧ (∃ (s : State), ∃ ring, ∃ slot, ∃ r, ∃ l, (tget {} s.pip.pre (ring * 65536 + slot) = r) ∧ (r ≠ {}) ∧ (r.stage = 1) ∧ (r.hint = some l) ∧ (s.ownsLedger r.tenant l = true) ∧ (s.ledExists l = true) ∧ (s.quarantined l r.tenant = false) ∧ (lstate (s.led l) 0 = true) ∧ (ledTitle (s.led l) = r.title) ∧ ((s.routeTask r.tenant 0).isSome = true) ∧ (Admits s r (if r.prio ≤ 1 then 0 else s.fget PIP_CFG.RESERVE * 64)) ∧ (accForm r.apdu = false))
    ∧ (∃ (s : State), ∃ ring, ∃ (slot : Nat), ∃ spot, ∃ r, ∃ d, ∃ (b : Nat), (tget {} s.pip.pre (ring * 65536 + slot) = r) ∧ (r ≠ {}) ∧ (r.stage = 1) ∧ (r.hint = none) ∧ (slot < 65536) ∧ (CanPost s ring slot d) ∧ (s.hashError r.title r.tenant spot = some b) ∧ (s.pip.repair.contains b = false)) :=
  ⟨⟨{ own with pip.pre := [(0, ({ len := 1 }))] }, 0, 0, { len := 1 }, by decide +kernel⟩,
    ⟨{ st [(PIP_RETRY_DMA.TRIES, 0, 5)] with pip.pre := [(0, ({ tries := 1 }))] }, 0, 0, { tries := 1 }, by decide +kernel⟩,
    ⟨({ (st [(RNG_H_STAT.UP, 0, 1), (RNG_R_CFG.SIZE_LOG2, 0, 8)]).setRing 0 { ({} : Ring) with order := [0] } with pip.pre := [(0, ({ tries := 100 }))] }).setDesc 0 0 (some ({ opcode := 2, flags := 0, user := 0, area := [], gen := 0, st := .running })), 0, 0, { tries := 100 }, { opcode := 2, flags := 0, user := 0, area := [], gen := 0, st := .running }, by simp only [CanPost]; decide +kernel⟩,
    ⟨{ st [(CHIP_MODE.MODE, 0, 5)] with pip.pre := [(0, ({ stage := 1, hint := some 0, len := 100, apdu := [0xC8], tries := 3, prio := 7, title := [0, 0, 0, 0, 0, 0, 0, 0] }))], pip.cache := [(0, [({ ledger := 0, blobGen := 0, handle := 0, encKey := [], authKey := [], suite := 0 })])], ldg.ledgers := [(0, lsetState [] 0 true)] }, 0, 0, { stage := 1, hint := some 0, len := 100, apdu := [0xC8], tries := 3, prio := 7, title := [0, 0, 0, 0, 0, 0, 0, 0] }, 0, { ledger := 0, blobGen := 0, handle := 0, encKey := [], authKey := [], suite := 0 }, by simp only [Admits]; decide +kernel⟩,
    ⟨({ (st [(RNG_H_STAT.UP, 0, 1), (RNG_R_CFG.SIZE_LOG2, 0, 8)]).setRing 0 { ({} : Ring) with order := [0] } with pip.pre := [(0, ({ stage := 1, hint := some 0x1FFFFF }))] }).setDesc 0 0 (some ({ opcode := 2, flags := 0, user := 0, area := [], gen := 0, st := .running })), 0, 0, { stage := 1, hint := some 0x1FFFFF }, 0x1FFFFF, { opcode := 2, flags := 0, user := 0, area := [], gen := 0, st := .running }, by simp only [CanPost]; decide +kernel⟩,
    ⟨{ st [(CHIP_MODE.MODE, 0, 5)] with pip.pre := [(0, ({ stage := 1, hint := some 0, len := 100, tries := 3, prio := 7, title := [0, 0, 0, 0, 0, 0, 0, 0] }))], ldg.ledgers := [(0, lsetState [] 0 true)] }, 0, 0, { stage := 1, hint := some 0, len := 100, tries := 3, prio := 7, title := [0, 0, 0, 0, 0, 0, 0, 0] }, 0, by simp only [Admits]; decide +kernel⟩,
    ⟨({ (st [(RNG_H_STAT.UP, 0, 1), (RNG_R_CFG.SIZE_LOG2, 0, 8)]).setRing 0 { ({} : Ring) with order := [0] } with pip.pre := [(0, ({ stage := 1 }))] }).setDesc 0 0 (some ({ opcode := 2, flags := 0, user := 0, area := [], gen := 0, st := .running })), 0, 0, 1, { stage := 1 }, { opcode := 2, flags := 0, user := 0, area := [], gen := 0, st := .running }, (({ (st [(RNG_H_STAT.UP, 0, 1), (RNG_R_CFG.SIZE_LOG2, 0, 8)]).setRing 0 { ({} : Ring) with order := [0] } with pip.pre := [(0, ({ stage := 1 }))] }).setDesc 0 0 (some ({ opcode := 2, flags := 0, user := 0, area := [], gen := 0, st := .running }))).bucketOf [] 0 0, by refine ⟨by decide +kernel, by decide +kernel, by decide +kernel, by decide +kernel, by decide +kernel, ?_, rfl, rfl⟩; simp only [CanPost]; decide +kernel⟩⟩

/-- Something meets the hypotheses of each clause of FieldReadingsAndKeys. -/
theorem witness_FieldReadingsAndKeys :
    (∃ (s : State), ∃ port, ∃ r, ∃ rest, ∃ l, ∃ e, (tget [] s.pip.ingest port = r :: rest) ∧ (r.ledger = some l) ∧ (s.quarantined l r.tenant = false) ∧ (Admits s r (s.fget PIP_CFG.RESERVE * 64)) ∧ (accForm r.apdu = true) ∧ (s.cacheFind l (dedForm r.apdu) = some e))
    ∧ (∃ (s : State), ∃ port, ∃ r, ∃ rest, (tget [] s.pip.ingest port = r :: rest) ∧ (modeAdmits s.mode = false))
    ∧ (∃ (s : State), ∃ ledger, ∃ f, ∃ k, ∃ p, ∃ suite, ∃ ak, ∃ i, ∃ r, (s.pip.fills.find? (fun f => f.ledger == ledger) = some f) ∧ (f.dead = false) ∧ (s.keyAt (hSlot f.handle) (hGen f.handle) = some k) ∧ (blobOpen k (s.mread (s.blobAddr ledger) 64) (some (lget (s.led ledger) L.BLOB % 256)) ledger ((s.ledgerOwner ledger).getD 0) = some (p, suite, ak)) ∧ (s.pip.tags = [(i, r)]) ∧ (r.waitFill = true) ∧ (r.ledger = some ledger) ∧ (r.st = 1))
    ∧ (∃ (s : State), ∃ ledger, ∃ f, ∃ i, ∃ r, (s.pip.fills.find? (fun f => f.ledger == ledger) = some f) ∧ (f.dead = false) ∧ (s.keyAt (hSlot f.handle) (hGen f.handle) = none) ∧ (s.pip.tags = [(i, r)]) ∧ (r.waitFill = true) ∧ (r.ledger = some ledger) ∧ (r.st = 1))
    ∧ (∃ (s : State), ∃ ledger, ∃ f, (s.pip.fills.find? (fun f => f.ledger == ledger) = some f) ∧ (f.dead = false) ∧ (f.tries < s.fget PIP_RETRY_KEY.TRIES))
    ∧ (∃ (s : State), ∃ ledger, ∃ f, ∃ i, ∃ r, (s.pip.fills.find? (fun f => f.ledger == ledger) = some f) ∧ (f.dead = false) ∧ (s.fget PIP_RETRY_KEY.TRIES ≤ f.tries) ∧ (s.pip.tags = [(i, r)]) ∧ (r.waitFill = true) ∧ (r.ledger = some ledger) ∧ (r.st = 1))
    ∧ (∃ (s : State), ∃ ledger, ∃ f, (s.pip.fills.find? (fun f => f.ledger == ledger) = some f) ∧ (f.dead = true)) :=
  ⟨⟨{ st [(CHIP_MODE.MODE, 0, 5)] with pip.ingest := [(0, [({ ledger := some 0, len := 100, apdu := [0xC8] })])], pip.cache := [(0, [({ ledger := 0, blobGen := 0, handle := 0, encKey := [], authKey := [], suite := 0 })])] }, 0, { ledger := some 0, len := 100, apdu := [0xC8] }, [], 0, { ledger := 0, blobGen := 0, handle := 0, encKey := [], authKey := [], suite := 0 }, by simp only [Admits]; decide +kernel⟩,
    ⟨{ own with pip.ingest := [(0, [({})])] }, 0, {}, [], by decide +kernel⟩,
    ⟨{ (own).setVslot 0 { ({} : VSlot) with old := [⟨1, 1, 2, List.replicate 16 0, [], 2⟩] } with pip.fills := [((⟨0, 4096, 0, false⟩ : Fill))], pip.tags := [(0, { st := 1, waitFill := true, ledger := some 0 })], dram := cells 0 blB }, 0, (⟨0, 4096, 0, false⟩ : Fill), blK, List.replicate 32 0, 0, false, 0, ({ st := 1, waitFill := true, ledger := some 0 } : Reading), by refine ⟨by decide +kernel, by decide +kernel, by decide +kernel, ?_, by decide +kernel⟩; rw [show State.blobAddr _ 0 = 0 by decide +kernel, blB_read _ rfl]; rw [show some (lget (State.led _ 0) L.BLOB % 256) = some 0 by decide +kernel, show (State.ledgerOwner _ 0).getD 0 = 0 by decide +kernel]; exact (blB_open _ (Or.inr rfl)).2⟩,
    ⟨{ own with pip.fills := [({ ledger := 0, handle := 0, tries := 0, dead := false })], pip.tags := [(0, ({ waitFill := true, ledger := some 0, st := 1 }))] }, 0, { ledger := 0, handle := 0, tries := 0, dead := false }, 0, { waitFill := true, ledger := some 0, st := 1 }, by decide +kernel⟩,
    ⟨{ st [(PIP_RETRY_KEY.TRIES, 0, 5)] with pip.fills := [({ ledger := 0, handle := 0, tries := 0, dead := false })] }, 0, { ledger := 0, handle := 0, tries := 0, dead := false }, by decide +kernel⟩,
    ⟨{ own with pip.fills := [({ ledger := 0, handle := 0, tries := 100 })], pip.tags := [(0, ({ waitFill := true, ledger := some 0, st := 1 }))] }, 0, { ledger := 0, handle := 0, tries := 100 }, 0, { waitFill := true, ledger := some 0, st := 1 }, by decide +kernel⟩,
    ⟨{ own with pip.fills := [({ ledger := 0, handle := 0, tries := 0, dead := true })] }, 0, { ledger := 0, handle := 0, tries := 0, dead := true }, by decide +kernel⟩⟩

/-- Something meets the hypotheses of each clause of DecryptAndCommit. -/
theorem witness_DecryptAndCommit :
    (∃ (s : State), ∃ tag, ∃ st, ∃ u, ((s.tag tag).st = 1) ∧ ((s.tag tag).stage = 4) ∧ (s.decrypt (s.tag tag) = .stop st u))
    ∧ (∃ (s : State), ∃ tag, ∃ ic, ∃ p, ∃ (k : Nat), ((s.tag tag).st = 1) ∧ ((s.tag tag).stage = 4) ∧ (s.decrypt (s.tag tag) = .ok ic p) ∧ ((lstate (s.led ((s.tag tag).ledger.getD 0)) 1 = true → lget (s.led ((s.tag tag).ledger.getD 0)) L.IC < ic)) ∧ (s.routeTask (s.tag tag).tenant 0 = some k) ∧ (s.fget TSK_STAT.STATE k = 2))
    ∧ (∃ (s : State), ∃ tag, ∃ ic, ∃ p, ((s.tag tag).st = 1) ∧ ((s.tag tag).stage = 4) ∧ (s.decrypt (s.tag tag) = .ok ic p) ∧ (s.quarantined ((s.tag tag).ledger.getD 0) (s.tag tag).tenant = false) ∧ (lstate (s.led ((s.tag tag).ledger.getD 0)) 1 = true) ∧ (ic ≤ lget (s.led ((s.tag tag).ledger.getD 0)) L.IC))
    ∧ (∃ (s : State), ∃ tag, ∃ l, ((s.tag tag).st = 1) ∧ ((s.tag tag).stage = 8) ∧ ((s.tag tag).ledger = some l) ∧ (s.quarantined l (s.tag tag).tenant = true))
    ∧ (∃ (s : State), ∃ tag, ∃ l, ∃ o, ((s.tag tag).st = 1) ∧ ((s.tag tag).stage = 8) ∧ ((s.tag tag).ledger = some l) ∧ (s.quarantined l (s.tag tag).tenant = false) ∧ ((s.llock l).owner = some o) ∧ ((s.llock l).waiters = []))
    ∧ (∃ (s : State), ∃ (s1 : State), ∃ (s2 : State), ∃ tag, ∃ l, ((s.tag tag).st = 1) ∧ ((s.tag tag).stage = 8) ∧ ((s.tag tag).ledger = some l) ∧ ((∀ q slot g, (s.tag tag).origin ≠ .ring q slot g)) ∧ (s.quarantined l (s.tag tag).tenant = false) ∧ ((s.llock l).owner = none) ∧ ((s.llock l).waiters = []) ∧ (s.touch l (s.tag tag).cluster (commitSectors (s.led l)) 0 = some s1) ∧ (s1.jRoom (s.tag tag).tenant (s1.commitLen (s.tag tag) l) = some s2)) :=
  ⟨⟨(own).setTag 0 { ({} : Reading) with st := 1, stage := 4 }, 0, 0x10, false, by decide +kernel⟩,
    ⟨(st [(TSK_STAT.STATE, 0, 2), (TSK_STAT.STATE, 0, 2)]).setTag 0 { ({} : Reading) with st := 1, stage := 4, apdu := dlA, len := 19, key := some (List.replicate 16 0, [], 0) }, 0, 1, [], 0, by refine ⟨by decide +kernel, by decide +kernel, dlA_ok _ _ ?_ (by decide +kernel), by decide +kernel, by decide +kernel, by decide +kernel⟩; rw [tag_set]; exact ⟨rfl, rfl, rfl⟩⟩,
    ⟨(((own).setTag 0 { ({} : Reading) with st := 1, stage := 4, apdu := dlA, len := 19, key := some (List.replicate 16 0, [], 0) })).setLed 0 (lset (lsetState [] 1 true) L.IC 5), 0, 1, [], by refine ⟨by decide +kernel, by decide +kernel, dlA_ok _ _ ?_ (by decide +kernel), by decide +kernel, by decide +kernel, by decide +kernel⟩; rw [tag_setLed, tag_set]; exact ⟨rfl, rfl, rfl⟩⟩,
    ⟨(st [(LDG_T_STAT.QUAR_ALL, 0, 1)]).setTag 0 { ({} : Reading) with st := 1, stage := 8, ledger := some 0 }, 0, 0, by decide +kernel⟩,
    ⟨((own).setTag 0 { ({} : Reading) with st := 1, stage := 8, ledger := some 0 }).setLlock 0 { ({} : LLock) with owner := some (.ctx 0), waiters := [] }, 0, 0, .ctx 0, by decide +kernel⟩,
    ⟨((st [(LDG_T_JBUF.QUOTA, 0, 64)]).setTag 0 { ({} : Reading) with st := 1, stage := 8, ledger := some 0, origin := .lane 0 }).setLlock 0 { ({} : LLock) with owner := none, waiters := [] }, ((((st [(LDG_T_JBUF.QUOTA, 0, 64)]).setTag 0 { ({} : Reading) with st := 1, stage := 8, ledger := some 0, origin := .lane 0 }).setLlock 0 { ({} : LLock) with owner := none, waiters := [] }).touch 0 0 (commitSectors ((((st [(LDG_T_JBUF.QUOTA, 0, 64)]).setTag 0 { ({} : Reading) with st := 1, stage := 8, ledger := some 0, origin := .lane 0 }).setLlock 0 { ({} : LLock) with owner := none, waiters := [] }).led 0)) 0).getD own, ((((((st [(LDG_T_JBUF.QUOTA, 0, 64)]).setTag 0 { ({} : Reading) with st := 1, stage := 8, ledger := some 0, origin := .lane 0 }).setLlock 0 { ({} : LLock) with owner := none, waiters := [] }).touch 0 0 (commitSectors ((((st [(LDG_T_JBUF.QUOTA, 0, 64)]).setTag 0 { ({} : Reading) with st := 1, stage := 8, ledger := some 0, origin := .lane 0 }).setLlock 0 { ({} : LLock) with owner := none, waiters := [] }).led 0)) 0).getD own).jRoom 0 104).getD own, 0, 0, by refine ⟨by decide +kernel, by decide +kernel, by decide +kernel, fun q slot g h => ?_, by decide +kernel, by decide +kernel, by decide +kernel, some_getD _ _ (by decide +kernel), some_getD _ _ (by decide +kernel)⟩; { rw [show (State.tag _ 0).origin = .lane 0 by decide +kernel] at h; cases h }⟩⟩

/-- Something meets the hypotheses of each clause of TagEndsAndRoutes. -/
theorem witness_TagEndsAndRoutes :
    (∃ (s : State), ∃ tag, ((s.tag tag).st = 1))
    ∧ (∃ (s : State), ∃ tag, ((s.tag tag).st ≠ 1))
    ∧ (∃ (s : State), ∃ tag, ∃ ring, ∃ slot, ∃ g, ∃ d, ((s.tag tag).st = 3) ∧ ((s.tag tag).origin = .ring ring slot g) ∧ (CanPost s ring slot d))
    ∧ (∃ (s : State), ∃ tag, ∃ gen, ((s.tag tag).gen ≠ gen))
    ∧ (∃ (s : State), ∃ tag, ((s.tag tag).st ≠ 0))
    ∧ (∃ (s : State), ∃ b, ∃ rest, (s.pip.repair = b :: rest))
    ∧ (∃ (s : State), ∃ tenant, ∃ seq, ∃ r, ∃ (k : Nat), (((s.tenJ tenant).buf ++ (s.tenJ tenant).nand).find? (fun r => r.seq == seq && r.typ == 1) = some r) ∧ (nbit (leAt r.body 4 4) 28 = false) ∧ (s.routeTask tenant 4 = some k) ∧ (s.fget TSK_STAT.STATE k = 2))
    ∧ (∃ (s : State), ∃ tenant, ∃ seq, ∃ phase, ∃ (tag : Nat), ∃ ring, ∃ q, ∃ r, (((s.tenJ tenant).buf ++ (s.tenJ tenant).nand).find? (fun r => r.seq == seq && r.typ == 1) = some r) ∧ (nbit (leAt r.body 4 4) 28 = true) ∧ (nbits (leAt r.body 4 4) 11 0 = ring) ∧ (nbits (leAt r.body 4 4) 27 12 = q) ∧ (s.slotHolds tenant seq ring q phase tag = true))
    ∧ (∃ (s : State), ∃ tenant, ∃ seq, ∃ phase, ∃ (tag : Nat), ∃ (ring : Nat), ∃ q, ∃ r, (((s.tenJ tenant).buf ++ (s.tenJ tenant).nand).find? (fun r => r.seq == seq && r.typ == 1) = some r) ∧ (nbit (leAt r.body 4 4) 28 = true) ∧ (nbits (leAt r.body 4 4) 11 0 = ring) ∧ (nbits (leAt r.body 4 4) 27 12 = q) ∧ (s.slotHolds tenant seq ring q phase tag = false) ∧ (s.fbit RNG_H_STAT.UP (s.ringHost ring) = true) ∧ (s.fget RNG_R_STAT.STATE ring = 2))
    ∧ (∃ (s : State), ∃ host, ∃ value, ∃ n, (OpenW s host .pip 0 n) ∧ (nbit value 0 = true))
    ∧ (∃ (s : State), ∃ host, ∃ value, ∃ n, (OpenW s host .pip 0 n) ∧ (nbit value 0 = false))
    ∧ (∃ (s : State), ∃ host, ∃ off, ∃ value, ∃ (k : Nat), ∃ w, (Open s host .pip) ∧ (0x10000 ≤ off) ∧ (off < 0x18000) ∧ (k = (off - 0x10000) / 4) ∧ (w = tput 0 s.pip.routes k (Nat.land value (routeMask (k % 8)))) ∧ (s.routeOk (k / 8) (tget 0 w (8 * (k / 8))) (tget 0 w (8 * (k / 8) + 1)) (tget 0 w (8 * (k / 8) + 2)) = true))
    ∧ (∃ (s : State), ∃ host, ∃ off, ∃ value, ∃ (k : Nat), ∃ w, (Open s host .pip) ∧ (0x10000 ≤ off) ∧ (off < 0x18000) ∧ (k = (off - 0x10000) / 4) ∧ (w = tput 0 s.pip.routes k (Nat.land value (routeMask (k % 8)))) ∧ (s.routeOk (k / 8) (tget 0 w (8 * (k / 8))) (tget 0 w (8 * (k / 8) + 1)) (tget 0 w (8 * (k / 8) + 2)) = false)) :=
  ⟨⟨(own).setTag 0 { ({} : Reading) with st := 1 }, 0, by decide +kernel⟩,
    ⟨own, 0, by decide +kernel⟩,
    ⟨(((st [(RNG_H_STAT.UP, 0, 1), (RNG_R_CFG.SIZE_LOG2, 0, 8)]).setTag 0 { ({} : Reading) with st := 3, origin := .ring 0 0 0 }).setRing 0 { ({} : Ring) with order := [0] }).setDesc 0 0 (some ({ opcode := 2, flags := 0, user := 0, area := [], gen := 0, st := .running })), 0, 0, 0, 0, { opcode := 2, flags := 0, user := 0, area := [], gen := 0, st := .running }, by simp only [CanPost]; decide +kernel⟩,
    ⟨own, 0, 1, by decide +kernel⟩,
    ⟨(own).setTag 0 { ({} : Reading) with st := 1 }, 0, by decide +kernel⟩,
    ⟨{ own with pip.repair := 0 :: ([]) }, 0, [], by decide +kernel⟩,
    ⟨(st [(TSK_STAT.STATE, 0, 2)]).setTenJ 0 { ({} : TenJ) with buf := [({ seq := 1, typ := 1, target := 0, bytes := [] })] }, 0, 1, { seq := 1, typ := 1, target := 0, bytes := [] }, 0, by decide +kernel⟩,
    ⟨(own).setTenJ 0 { ({} : TenJ) with buf := [({ seq := 1, typ := 1, target := 0, bytes := List.replicate 31 0 ++ [0x10] })] }, 0, 1, 0, 0, 0, 0, { seq := 1, typ := 1, target := 0, bytes := List.replicate 31 0 ++ [0x10] }, by decide +kernel⟩,
    ⟨(st [(RNG_H_STAT.UP, (0), 1), (RNG_R_STAT.STATE, 0, 2), (RNG_H_STAT.UP, 0, 1)]).setTenJ 0 { ({} : TenJ) with buf := [({ seq := 1, typ := 1, target := 0, bytes := List.replicate 31 0 ++ [0x10] })] }, 0, 1, 1, 0, 0, 0, { seq := 1, typ := 1, target := 0, bytes := List.replicate 31 0 ++ [0x10] }, by decide +kernel⟩,
    ⟨own, 0, 1, 0, by simp only [OpenW, Open]; decide +kernel⟩,
    ⟨own, 0, 0, 0, by simp only [OpenW, Open]; decide +kernel⟩,
    ⟨own, 0, 0x10000, 0x80008000, (0x10000 - 0x10000) / 4, [(0, 0x80008000), (1, 0x80008000)], by simp only [Open]; decide +kernel⟩,
    ⟨own, 0, 0x10000, 0x80018000, (0x10000 - 0x10000) / 4, [(0, 0x80018000), (1, 0x80008000)], by simp only [Open]; decide +kernel⟩⟩

/-- Something meets the hypotheses of each clause of SinksAndCheckpoints. -/
theorem witness_SinksAndCheckpoints :
    (∃ (s : State), ∃ tenant, ∃ seq, (s.ackOf tenant 2 < seq) ∧ (seq ≤ s.nextSeq tenant) ∧ (seq < 2 ^ 64) ∧ (nbit (s.fget LDG_T_SINK.EN tenant) 2 = true) ∧ (s.ldg.actWait = []) ∧ (s.ldg.quarWait = none))
    ∧ (∃ (s : State), ∃ (tenant : Nat), ∃ sink, ∃ seq, (seq ≤ s.ackOf tenant sink ∨ s.nextSeq tenant < seq) ∧ (s.ldg.actWait = []) ∧ (s.ldg.quarWait = none))
    ∧ (∃ (s : State), (s.nandReady = false))
    ∧ (∃ (s : State), ∃ tenant, ∃ sink, (sink ∈ s.upSinks tenant) ∧ (max 1 (s.ackOf tenant sink) < s.nextSeq tenant) ∧ (s.ldg.actWait = []) ∧ (s.ldg.quarWait = none))
    ∧ (∃ (s : State), ∃ host, ∃ n, (OpenW s host .ldg 0 n) ∧ (nbit (s.fget LDG_T_SINK.EN n) 0 = true) ∧ (nbit (s.fget LDG_T_SINK_STAT.UP n) 0 = false))
    ∧ (∃ (s : State), ∃ host, ∃ n, (OpenW s host .ldg 0 n) ∧ (nbit (s.fget LDG_T_SINK.EN n) 2 = true) ∧ (nbit (s.fget LDG_T_SINK_STAT.UP n) 2 = false) ∧ (nbit (s.fget LDG_T_SINK_STAT.LOST n) 2 = false))
    ∧ (∃ (s : State), ∃ host, ∃ n, (OpenW s host .ldg 0 n) ∧ (nbit (s.fget LDG_T_SINK.EN n) 2 = true) ∧ (nbit (s.fget LDG_T_SINK_STAT.UP n) 2 = false) ∧ (nbit (s.fget LDG_T_SINK_STAT.LOST n) 2 = true))
    ∧ (∃ (s : State), ∃ (s1 : State), ∃ host, ∃ (n : Nat), (OpenW s host .ldg 0 n) ∧ (s.fbit LDG_T_CKPT_STAT.BUSY n = false) ∧ (s.fbit LDG_T_CKPT.VALID n = true) ∧ (s.jRoom n 24 = some s1))
    ∧ (∃ (s : State), ∃ (s1 : State), ∃ (n : Nat), (s.fget LDG_T_CKPT.PERIOD n ≠ 0) ∧ (s.fbit LDG_T_CKPT_STAT.BUSY n = false) ∧ (s.fbit LDG_T_CKPT.VALID n = true) ∧ (s.jRoom n 24 = some s1))
    ∧ (∃ (s : State), ∃ (n : Nat), (s.fget LDG_T_CKPT.PERIOD n = 0 ∨ s.fbit LDG_T_CKPT_STAT.BUSY n = true))
    ∧ (∃ (s : State), ∃ host, ∃ (n : Nat), (OpenW s host .ldg 0 n) ∧ (s.fbit LDG_T_CKPT_STAT.BUSY n = false) ∧ (s.fbit LDG_T_CKPT.VALID n = false))
    ∧ (∃ (s : State), ∃ (s1 : State), ∃ n, ∃ sl, ((s.tenJ n).running = some sl) ∧ ((s.tenJ n).endSeq = none) ∧ (s.jRoom n 24 = some s1))
    ∧ (∃ (s : State), ∃ (n : Nat), (s.fbit LDG_T_STAT.REBUILD n = true) ∧ (s.fbit LDG_T_STAT.REBUILD_WAIT n = false) ∧ ((∀ k, k < n → s.fbit LDG_T_STAT.REBUILD k = false)))
    ∧ (∃ (s : State), ∃ host, ∃ (n : Nat), (OpenW s host .ldg 0 n) ∧ (s.fbit LDG_T_STAT.REBUILD_WAIT n = true)) :=
  ⟨⟨{ st [(LDG_T_SINK.EN, 0, 2 ^ 2), (LDG_T_SINK.EN, 0, 4), (LDG_T_SEQ_LO.SEQ_LO, 0, 2)] with ldg.actWait := [], ldg.quarWait := none }, 0, 1, by decide +kernel⟩,
    ⟨{ own with ldg.actWait := [], ldg.quarWait := none }, 0, 0, 0, by decide +kernel⟩,
    ⟨own, by decide +kernel⟩,
    ⟨{ st [(LDG_T_SINK.EN, 0, 1), (LDG_T_SINK_STAT.UP, 0, 1), (LDG_T_SEQ_LO.SEQ_LO, 0, 2)] with ldg.actWait := [], ldg.quarWait := none }, 0, 0, by decide +kernel⟩,
    ⟨st [(LDG_T_SINK.EN, 0, 2 ^ 0), (LDG_T_SINK.EN, 0, 1), (LDG_T_SINK_STAT.UP, 0, 0)], 0, 0, by simp only [OpenW, Open]; decide +kernel⟩,
    ⟨st [(LDG_T_SINK.EN, 0, 2 ^ 2), (LDG_T_SINK.EN, 0, 4), (LDG_T_SINK_STAT.UP, 0, 0)], 0, 0, by simp only [OpenW, Open]; decide +kernel⟩,
    ⟨st [(LDG_T_SINK.EN, 0, 2 ^ 2), (LDG_T_SINK_STAT.LOST, 0, 2 ^ 2)], 0, 0, by simp only [OpenW, Open]; decide +kernel⟩,
    ⟨st [(LDG_T_CKPT_STAT.BUSY, 0, 0), (LDG_T_CKPT.VALID, 0, 1)], st [(LDG_T_CKPT_STAT.BUSY, 0, 0), (LDG_T_CKPT.VALID, 0, 1)], 0, 0, by simp only [OpenW, Open]; decide +kernel⟩,
    ⟨st [(LDG_T_CKPT.PERIOD, 0, 1), (LDG_T_CKPT_STAT.BUSY, 0, 0), (LDG_T_CKPT.VALID, 0, 1)], st [(LDG_T_CKPT.PERIOD, 0, 1), (LDG_T_CKPT_STAT.BUSY, 0, 0), (LDG_T_CKPT.VALID, 0, 1)], 0, by decide +kernel⟩,
    ⟨st [(LDG_T_CKPT.PERIOD, 0, 0)], 0, by decide +kernel⟩,
    ⟨st [(LDG_T_CKPT_STAT.BUSY, 0, 0), (LDG_T_CKPT.VALID, 0, 0)], 0, 0, by simp only [OpenW, Open]; decide +kernel⟩,
    ⟨(own).setTenJ 0 { ({} : TenJ) with running := some 0, endSeq := none }, (own).setTenJ 0 { ({} : TenJ) with running := some 0, endSeq := none }, 0, 0, by decide +kernel⟩,
    ⟨st [(LDG_T_STAT.REBUILD, 0, 1), (LDG_T_STAT.REBUILD_WAIT, 0, 0)], 0, by decide +kernel⟩,
    ⟨st [(LDG_T_STAT.REBUILD_WAIT, 0, 1)], 0, 0, by simp only [OpenW, Open]; decide +kernel⟩⟩

/-- Something meets the hypotheses of each clause of CalendarCommands. -/
theorem witness_CalendarCommands :
    (∃ (s : State), ∃ host, ∃ cal, (Open s host .ldg) ∧ (cal < 8192) ∧ (s.calOwner cal = some 0) ∧ (s.fbit LDG_CFG.CAL_VALID = true) ∧ ((s.cal cal).passive = 1) ∧ (CalCopy.flag (s.calCopy cal (!(s.cal cal).activeB)) 1 = false) ∧ (s.ldg.pendList.length < 256) ∧ (CalCopy.armReason (s.calCopy cal (!(s.cal cal).activeB)) = 0) ∧ (s.calOk = false ∨ s.utcNow < (CalCopy.actTime (s.calCopy cal (!(s.cal cal).activeB)) : Int)))
    ∧ (∃ (s : State), ∃ host, ∃ cal, (Open s host .ldg) ∧ (cal < 8192) ∧ (s.calOwner cal = some 0) ∧ (s.fbit LDG_CFG.CAL_VALID = true) ∧ ((s.cal cal).passive = 1) ∧ (CalCopy.flag (s.calCopy cal (!(s.cal cal).activeB)) 1 = false) ∧ (s.ldg.pendList.length < 256) ∧ (CalCopy.armReason (s.calCopy cal (!(s.cal cal).activeB)) ≠ 0))
    ∧ (∃ (s : State), ∃ host, ∃ cal, (Open s host .ldg) ∧ (cal < 8192) ∧ (s.calOwner cal = some 0) ∧ (s.fbit LDG_CFG.CAL_VALID = true) ∧ ((s.cal cal).passive = 2))
    ∧ (∃ (s : State), ∃ host, ∃ cal, ∃ u, (Open s host .ldg) ∧ (cal < 8192) ∧ (s.calOwner cal = some 0) ∧ (s.fbit LDG_CFG.CAL_VALID = true) ∧ ((s.cal cal).passive = 2) ∧ (s.fbit LDG_T_STAT.QUAR_ALL 0 = false) ∧ (s.jRoom 0 40 = some u))
    ∧ (∃ (s : State), ∃ host, ∃ cal, (Open s host .ldg) ∧ (cal < 8192) ∧ (s.calOwner cal = some 0) ∧ (s.fbit LDG_CFG.CAL_VALID = true) ∧ ((s.cal cal).passive = 2) ∧ (s.fbit LDG_T_STAT.QUAR_ALL 0 = true))
    ∧ (∃ (s : State), ∃ host, ∃ cal, (Open s host .ldg) ∧ (cal < 8192) ∧ (s.calOwner cal = some 0) ∧ (s.fbit LDG_CFG.CAL_VALID = true) ∧ ((s.cal cal).passive = 2) ∧ (s.fbit LDG_T_STAT.QUAR_ALL 0 = false) ∧ (s.jRoom 0 40 = none))
    ∧ (∃ (s : State), ∃ host, ∃ cal, (Open s host .ldg) ∧ (s.calOwner (cal % 8192) ≠ some 0))
    ∧ (∃ (s : State), ∃ cal, ∃ u, (s.calOk = true) ∧ (s.ldg.pendList = [cal]) ∧ ((s.cal cal).passive = 2) ∧ (s.fbit LDG_T_STAT.QUAR_ALL ((s.calOwner cal).getD 0) = false) ∧ (s.jRoom ((s.calOwner cal).getD 0) 40 = some u) ∧ (CalCopy.flag (s.calCopy cal (!(s.cal cal).activeB)) 1 = false) ∧ (s.utcNow ≥ (CalCopy.actTime (s.calCopy cal (!(s.cal cal).activeB)) : Int)))
    ∧ (∃ (s : State), (s.calOk = false)) :=
  ⟨⟨{ (st [(LDG_CFG.CAL_VALID, 0, 1)]).setCal 0 { ({} : CalCtl) with passive := 1 } with dram := calD }, 0, 0, by refine ⟨?_, by decide +kernel, by decide +kernel, by decide +kernel, by decide +kernel, ?_⟩; { simp only [Open]; decide +kernel }; rw [show (State.cal _ 0).activeB = false by decide +kernel]; rw [Bool.not_false, calCopy_read _ (by decide +kernel)]; exact ⟨cal_ok.2.1, by decide +kernel, cal_ok.1, Or.inl (by decide +kernel)⟩⟩,
    ⟨(st [(LDG_CFG.CAL_VALID, 0, 1)]).setCal 0 { ({} : CalCtl) with passive := 1 }, 0, 0, by refine ⟨?_, by decide +kernel, by decide +kernel, by decide +kernel, by decide +kernel, by decide +kernel, by decide +kernel, ?_⟩; { simp only [Open]; decide +kernel }; rw [CalCopy.armReason, if_pos (Or.inr (by decide +kernel))]; decide⟩,
    ⟨(st [(LDG_CFG.CAL_VALID, 0, 1)]).setCal 0 { ({} : CalCtl) with passive := 2 }, 0, 0, by simp only [Open]; decide +kernel⟩,
    ⟨(st [(LDG_CFG.CAL_VALID, 0, 1), (LDG_T_STAT.QUAR_ALL, 0, 0)]).setCal 0 { ({} : CalCtl) with passive := 2 }, 0, 0, (st [(LDG_CFG.CAL_VALID, 0, 1), (LDG_T_STAT.QUAR_ALL, 0, 0)]).setCal 0 { ({} : CalCtl) with passive := 2 }, by simp only [Open]; decide +kernel⟩,
    ⟨(st [(LDG_CFG.CAL_VALID, 0, 1), (LDG_T_STAT.QUAR_ALL, 0, 1)]).setCal 0 { ({} : CalCtl) with passive := 2 }, 0, 0, by simp only [Open]; decide +kernel⟩,
    ⟨(st [(LDG_CFG.CAL_VALID, 0, 1), (LDG_T_STAT.QUAR_ALL, 0, 0), (LDG_T_JBUF.QUOTA, 0, 0)]).setCal 0 { ({} : CalCtl) with passive := 2 }, 0, 0, by simp only [Open]; decide +kernel⟩,
    ⟨own, 0, 1, by simp only [Open]; decide +kernel⟩,
    ⟨{ (st [(MPT_TIME_OK.CAL_OK, 0, 1)]).setCal 0 { ({} : CalCtl) with passive := 2 } with ldg.pendList := [0], time.gt0 := { now := (1000, 0) } }, 0, { (st [(MPT_TIME_OK.CAL_OK, 0, 1)]).setCal 0 { ({} : CalCtl) with passive := 2 } with ldg.pendList := [0], time.gt0 := { now := (1000, 0) } }, by decide +kernel⟩,
    ⟨own, by decide +kernel⟩⟩

/-- Something meets the hypotheses of each clause of QuarantineAndCache. -/
theorem witness_QuarantineAndCache :
    (∃ (s : State), ∃ ledger, (tget 0 s.ldg.sectorTries ledger + 1 < s.fget PIP_RETRY_LDG.TRIES))
    ∧ (∃ (s : State), ∃ ledger, ∃ k, (s.fget PIP_RETRY_LDG.TRIES ≤ tget 0 s.ldg.sectorTries ledger + 1) ∧ (s.quarEntry ledger = none) ∧ ((tget [] s.ldg.quarAll ((s.ledgerOwner ledger).getD 0)).contains ledger = false) ∧ ((List.range 1024).find? (fun k => (tget none s.ldg.quar k).isNone) = some k))
    ∧ (∃ (s : State), ∃ host, ∃ ledger, ∃ k, ∃ c, (Open s host .ldg) ∧ (s.fbit LDG_QUAR_RES.BUSY = false) ∧ (s.quarEntry ledger = some k) ∧ ((s.tenJ ((s.ledgerOwner ledger).getD 0)).newest = some c) ∧ (nbit (s.fget LDG_T_SINK_STAT.LOST ((s.ledgerOwner ledger).getD 0)) 0 = false) ∧ ((∀ r ∈ (s.tenJ ((s.ledgerOwner ledger).getD 0)).nand, r.seq < c.s0 ∨ r.target ≠ ledger)))
    ∧ (∃ (s : State), ∃ host, ∃ ledger, ∃ k, ∃ u, (Open s host .ldg) ∧ (s.fbit LDG_QUAR_RES.BUSY = false) ∧ (s.quarEntry ledger = some k) ∧ (s.jRoom ((s.ledgerOwner ledger).getD 0) 24 = some u))
    ∧ (∃ (s : State), ∃ host, ∃ ledger, ∃ k, (Open s host .ldg) ∧ (s.fbit LDG_QUAR_RES.BUSY = false) ∧ (s.quarEntry ledger = some k) ∧ (s.jRoom ((s.ledgerOwner ledger).getD 0) 24 = none))
    ∧ (∃ (s : State), ∃ host, (Open s host .ldg) ∧ (s.fbit LDG_QUAR_RES.BUSY = true))
    ∧ (∃ (s : State), ∃ host, ∃ ledger, ∃ k, (Open s host .ldg) ∧ (s.fbit LDG_QUAR_RES.BUSY = false) ∧ ((tget [] s.ldg.quarAll ((s.ledgerOwner ledger).getD 0)).contains ledger = true) ∧ ((List.range 1024).find? (fun k => (tget none s.ldg.quar k).isNone) = some k))
    ∧ (∃ (s : State), ∃ host, ∃ ledger, (Open s host .ldg) ∧ (s.fbit LDG_QUAR_RES.BUSY = false) ∧ (s.quarEntry ledger = none))
    ∧ (∃ (s : State), ∃ (s1 : State), ∃ i, (s.calOk = true) ∧ (s.ldg.watch = [i]) ∧ (s.quarantined i ((s.ledgerOwner i).getD 0) = false) ∧ (s.jRoom ((s.ledgerOwner i).getD 0) 32 = some s1) ∧ (nbits (lget (s.led i) L.PP) 2 0 = 3))
    ∧ (∃ (s : State), (s.calOk = false))
    ∧ (∃ (s : State), ∃ ledger, ∃ l, (s.line ledger = some l) ∧ (l.wb = true) ∧ (l.waiting = []))
    ∧ (∃ (s : State), ∃ ledger, ∃ l, ∃ c, (s.line ledger = some l) ∧ (l.wb = true) ∧ (l.waiting = [c]) ∧ (c < 8) ∧ (s.wayFree c ledger = true) ∧ ((∀ e ∈ s.pip.tags, e.2.st = 1 → e.2.stage = 8 → e.2.ledger = some ledger → e.2.cluster ≠ c)))
    ∧ (∃ (s : State), ∃ ledger, ∃ l, ∃ c, ∃ i, ∃ r, ∃ u, (s.line ledger = some l) ∧ (l.wb = true) ∧ (l.waiting = [c]) ∧ (c < 8) ∧ (s.pip.tags = [(i, r)]) ∧ (r.st = 1) ∧ (r.stage = 8) ∧ (r.ledger = some ledger) ∧ (r.cluster = c) ∧ (u = (s.setLine ledger none).commitTag i false))
    ∧ (∃ (s : State), ∃ ledger, ∃ l, ∃ c, (s.line ledger = some l) ∧ (l.wb = false) ∧ ((s.llock ledger).owner = none) ∧ (l.slice ≠ c) ∧ (c < 8) ∧ (s.wayFree c ledger = true))
    ∧ (∃ (s : State), ∃ ledger, ∃ l, (s.line ledger = some l) ∧ (l.wb = true)) :=
  ⟨⟨own, 0, by decide +kernel⟩,
    ⟨{ own with ldg.sectorTries := [(0, 100)] }, 0, 0, by decide +kernel⟩,
    ⟨{ (st [(LDG_QUAR_RES.BUSY, 0, 0)]).setTenJ 0 { ({} : TenJ) with slots := [(0, ({ complete := true }))] } with ldg.quar := [(0, some (5, 0))] }, 0, 5, 0, { complete := true }, by simp only [Open]; decide +kernel⟩,
    ⟨{ st [(LDG_QUAR_RES.BUSY, 0, 0)] with ldg.quar := [(0, some (5, 0))] }, 0, 5, 0, { st [(LDG_QUAR_RES.BUSY, 0, 0)] with ldg.quar := [(0, some (5, 0))] }, by simp only [Open]; decide +kernel⟩,
    ⟨{ st [(LDG_QUAR_RES.BUSY, 0, 0), (LDG_T_JBUF.QUOTA, 0, 0)] with ldg.quar := [(0, some (0, 1))] }, 0, 0, 0, by simp only [Open]; decide +kernel⟩,
    ⟨st [(LDG_QUAR_RES.BUSY, 0, 1)], 0, by simp only [Open]; decide +kernel⟩,
    ⟨{ st [(LDG_QUAR_RES.BUSY, 0, 0)] with ldg.quarAll := [(0, [0])] }, 0, 0, 0, by simp only [Open]; decide +kernel⟩,
    ⟨st [(LDG_QUAR_RES.BUSY, 0, 0)], 0, 0, by simp only [Open]; decide +kernel⟩,
    ⟨{ st [(MPT_TIME_OK.CAL_OK, 0, 1), (LDG_T_JBUF.QUOTA, 0, 64)] with ldg.watch := [0], ldg.ledgers := [(0, lset [] L.PP 3)] }, { st [(MPT_TIME_OK.CAL_OK, 0, 1), (LDG_T_JBUF.QUOTA, 0, 64)] with ldg.watch := [0], ldg.ledgers := [(0, lset [] L.PP 3)] }, 0, by decide +kernel⟩,
    ⟨own, by decide +kernel⟩,
    ⟨(own).setLine 0 (some ({ wb := true, waiting := [] })), 0, { wb := true, waiting := [] }, by decide +kernel⟩,
    ⟨(own).setLine 0 (some ({ wb := true, waiting := [0] })), 0, { wb := true, waiting := [0] }, 0, by decide +kernel⟩,
    ⟨({ own with pip.tags := [(0, ({ st := 1, stage := 8, ledger := some 0, cluster := 0 }))] }).setLine 0 (some ({ wb := true, waiting := [0] })), 0, { wb := true, waiting := [0] }, 0, 0, { st := 1, stage := 8, ledger := some 0, cluster := 0 }, ((({ own with pip.tags := [(0, ({ st := 1, stage := 8, ledger := some 0, cluster := 0 }))] }).setLine 0 (some ({ wb := true, waiting := [0] }))).setLine 0 none).commitTag 0 false, by decide +kernel⟩,
    ⟨((own).setLlock 0 { ({} : LLock) with owner := none }).setLine 0 (some ({ wb := false })), 0, { wb := false }, 1, by decide +kernel⟩,
    ⟨(own).setLine 0 (some ({ wb := true })), 0, { wb := true }, by decide +kernel⟩⟩

/-- Something meets the hypotheses of each clause of MainsPhase. -/
theorem witness_MainsPhase :
    (∃ (s : State), ∃ v, ∃ freq, (s.centre = false) ∧ (s.crossValid v freq = true) ∧ (s.fget MPT_SRC.STATE = 1 ∨ s.fget MPT_SRC.STATE = 2))
    ∧ (∃ (s : State), ∃ v, ∃ freq, (s.centre = false) ∧ (s.crossValid v freq = true) ∧ (s.fget MPT_SRC.STATE = 3 ∨ s.fget MPT_SRC.STATE = 4))
    ∧ (∃ (s : State), ∃ v, ∃ freq, (s.crossValid v freq = false))
    ∧ (∃ (s : State), (s.centre = false) ∧ (s.fget MPT_SRC.STATE = 1 ∨ s.fget MPT_SRC.STATE = 2))
    ∧ (∃ (s : State), (s.centre = false) ∧ (s.fget MPT_SRC.STATE = 3) ∧ (s.fget MPT_CFG.HOLD_CYCLES * 65536 ≤ s.time.held))
    ∧ (∃ (s : State), (s.fget MPT_SRC.STATE ≠ 3 ∨ s.time.held < s.fget MPT_CFG.HOLD_CYCLES * 65536))
    ∧ (∃ (s : State), (s.centre = false))
    ∧ (∃ (s : State), ∃ host, (Open s host .mpt) ∧ (s.fbit MPT_SRC.LOADED = false) ∧ (s.centre = false))
    ∧ (∃ (s : State), ∃ host, (Open s host .mpt) ∧ (s.fbit MPT_SRC.LOADED = true ∨ s.centre = true))
    ∧ (∃ (s : State), ∃ c, (s.time.load = some c) ∧ ((∀ u, u < 64 → s.fget MPT_CMP_STAT.STATE u ≠ 2 ∨ s.cmpBase u ≠ 0)))
    ∧ (∃ (s : State), ∃ host, ∃ value, (Open s host .mpt) ∧ (s.locked = false) ∧ (MPT_CFG.HOLD_CYCLES.inRange (MPT_CFG.HOLD_CYCLES.of value) = true) ∧ (MPT_CFG.MAINS_MIN.inRange (MPT_CFG.MAINS_MIN.of value) = true) ∧ (s.centre = false))
    ∧ (∃ (s : State), ∃ host, ∃ (value : Nat), (Open s host .mpt) ∧ (s.locked = false) ∧ (MPT_CFG.HOLD_CYCLES.inRange (MPT_CFG.HOLD_CYCLES.of value) = true) ∧ (MPT_CFG.MAINS_MIN.inRange (MPT_CFG.MAINS_MIN.of value) = true) ∧ (s.centre = true) ∧ (s.fget MPT_CFG.NOMINAL_60 ≠ value % 2) ∧ (s.fget (gtSt (s.fget MPT_GRID_SEL.DOMAIN)) ≠ 0) ∧ ((∀ u, u < 64 → s.fget MPT_CMP_STAT.STATE u ≠ 2 ∨ s.cmpBase u ≠ 0))) :=
  ⟨⟨st [(CHIP_ROLE.CENTRE, 0, 0), (MPT_SRC.STATE, 0, 1)], 1000, 50000, by decide +kernel⟩,
    ⟨st [(CHIP_ROLE.CENTRE, 0, 0), (MPT_SRC.STATE, 0, 3)], 1000, 50000, by decide +kernel⟩,
    ⟨own, 0, 0, by decide +kernel⟩,
    ⟨st [(CHIP_ROLE.CENTRE, 0, 0), (MPT_SRC.STATE, 0, 1)], by decide +kernel⟩,
    ⟨{ st [(CHIP_ROLE.CENTRE, 0, 0), (MPT_SRC.STATE, 0, 3)] with time.held := 250 * 65536 }, by decide +kernel⟩,
    ⟨st [(MPT_SRC.STATE, 0, 0)], by decide +kernel⟩,
    ⟨st [(CHIP_ROLE.CENTRE, 0, 0)], by decide +kernel⟩,
    ⟨st [(MPT_SRC.LOADED, 0, 0), (CHIP_ROLE.CENTRE, 0, 0)], 0, by simp only [Open]; decide +kernel⟩,
    ⟨st [(MPT_SRC.LOADED, 0, 1)], 0, by simp only [Open]; decide +kernel⟩,
    ⟨{ own with time.load := some 0 }, 0, by decide +kernel⟩,
    ⟨st [(CHIP_LOCK.LOCK, 0, 0), (CHIP_ROLE.CENTRE, 0, 0)], 0, 250 * 65536 + 40 * 256, by simp only [Open]; decide +kernel⟩,
    ⟨st [(CHIP_LOCK.LOCK, 0, 0), (CHIP_ROLE.CENTRE, 0, 1), (GT0_STAT.STATE, 0, 1)], 0, 250 * 65536 + 40 * 256 + 1, by simp only [Open]; decide +kernel⟩⟩

/-- Something meets the hypotheses of each clause of TimeReadsLatch. -/
theorem witness_TimeReadsLatch :
    (∃ (s : State), ∃ (host : Nat), (host < 8) ∧ (Open s host .mpt))
    ∧ (∃ (s : State), ∃ (host : Nat), ∃ d, (host < 8) ∧ (d < 2) ∧ (s.silent .mpt = false) ∧ (host ≠ s.supv))
    ∧ (∃ (s : State), ∃ host, ∃ value, (Open s host .mpt) ∧ (nbit value 0 = true)) :=
  ⟨⟨own, 0, by simp only [Open]; decide +kernel⟩,
    ⟨own, 1, 0, by decide +kernel⟩,
    ⟨own, 0, 1, by simp only [Open]; decide +kernel⟩⟩

/-- Something meets the hypotheses of each clause of GridTime. -/
theorem witness_GridTime :
    (∃ (s : State), ∃ host, ∃ d, (Open s host .mpt) ∧ (d < 2) ∧ (s.fget (gtSt d) ≠ 0))
    ∧ (∃ (s : State), ∃ host, ∃ d, (Open s host .mpt) ∧ (d < 2) ∧ (s.fbit (gtUsed d) = false) ∧ (s.fget (gtSt d) = 0 ∨ s.fget (gtSt d) = 2) ∧ (s.centre = false) ∧ ((∀ u, u < 64 → s.fget MPT_CMP_STAT.STATE u ≠ 2 ∨ s.cmpBase u ≠ 1 + d)))
    ∧ (∃ (s : State), ∃ host, ∃ d, (Open s host .mpt) ∧ (d < 2) ∧ (s.fbit (gtUsed d) = true ∨ s.fget (gtSt d) = 1 ∨ s.fget (gtSt d) = 3))
    ∧ (∃ (s : State), ∃ host, ∃ d, (Open s host .mpt) ∧ (d < 2) ∧ (s.fget (gtSt d) ≠ 0) ∧ ((sval 32 (s.fget (if d = 0 then GT0_CONFIRM_OFS.OFS else GT1_CONFIRM_OFS.OFS))).natAbs ≤ s.fget (if d = 0 then GT0_TOL.TOL else GT1_TOL.TOL)))
    ∧ (∃ (s : State), ∃ host, ∃ d, (Open s host .mpt) ∧ (d < 2) ∧ (s.fget (gtSt d) ≠ 0) ∧ (s.fget (if d = 0 then GT0_TOL.TOL else GT1_TOL.TOL) < (sval 32 (s.fget (if d = 0 then GT0_CONFIRM_OFS.OFS else GT1_CONFIRM_OFS.OFS))).natAbs))
    ∧ (∃ (s : State), ∃ host, ∃ d, (Open s host .mpt) ∧ (d < 2) ∧ (s.fget (gtSt d) = 0))
    ∧ (∃ (s : State), ∃ d, (d < 2) ∧ (s.fget (gtSt d) = 1) ∧ (s.fget (gtWin d) ≤ s.fget (gtAge d)))
    ∧ (∃ (s : State), ∃ d, (s.fget (gtAge d) < s.fget (gtWin d)))
    ∧ (∃ (s : State), ∃ d, (s.fget (gtAge d) < s.fget (gtLimit d)))
    ∧ (∃ (s : State), ∃ d, (d < 2) ∧ (s.fget (gtSt d) = 2) ∧ (s.fget (gtLimit d) ≤ s.fget (gtAge d)))
    ∧ (∃ (s : State), ∃ host, ∃ d, ∃ value, (Open s host .mpt) ∧ (d < 2) ∧ ((sval 32 value).natAbs ≤ 2147483))
    ∧ (∃ (s : State), ∃ host, ∃ d, ∃ value, (Open s host .mpt) ∧ (d < 2) ∧ (2147483 < (sval 32 value).natAbs))
    ∧ (∃ (s : State), ∃ host, ∃ (value : Nat), (Open s host .mpt) ∧ (value % 2 ≠ s.fget MPT_GRID_SEL.DOMAIN) ∧ (s.centre = false) ∧ (s.fget (gtSt (value % 2)) = 1) ∧ (((s.gtNs 0 : Int) - (s.gtNs 1 : Int)).natAbs ≤ s.fget MPT_GRID_SEL.TOL_US * 1000))
    ∧ (∃ (s : State), ∃ host, ∃ (value : Nat), (Open s host .mpt) ∧ (value % 2 ≠ s.fget MPT_GRID_SEL.DOMAIN) ∧ (s.centre = false) ∧ (s.fget (gtSt (value % 2)) ≠ 1 ∨ s.fget MPT_GRID_SEL.TOL_US * 1000 < ((s.gtNs 0 : Int) - (s.gtNs 1 : Int)).natAbs))
    ∧ (∃ (s : State), ∃ host, ∃ (value : Nat), (Open s host .mpt) ∧ (value % 2 = s.fget MPT_GRID_SEL.DOMAIN)) :=
  ⟨⟨st [(GT0_STAT.STATE, 0, 1)], 0, 0, by simp only [Open]; decide +kernel⟩,
    ⟨st [(GT0_STAT.STATE, 0, 0), (CHIP_ROLE.CENTRE, 0, 0)], 0, 0, by simp only [Open]; decide +kernel⟩,
    ⟨st [(GT0_STAT.STEP_USED, 0, 1)], 0, 0, by simp only [Open]; decide +kernel⟩,
    ⟨st [(GT0_STAT.STATE, 0, 1)], 0, 0, by simp only [Open]; decide +kernel⟩,
    ⟨st [(GT0_STAT.STATE, 0, 1), (GT0_CONFIRM_OFS.OFS, 0, 1000), (GT0_TOL.TOL, 0, 0)], 0, 0, by simp only [Open]; decide +kernel⟩,
    ⟨st [(GT0_STAT.STATE, 0, 0)], 0, 0, by simp only [Open]; decide +kernel⟩,
    ⟨st [(GT0_STAT.STATE, 0, 1), (GT0_STAT.AGE, 0, 16)], 0, by decide +kernel⟩,
    ⟨own, 0, by decide +kernel⟩,
    ⟨own, 0, by decide +kernel⟩,
    ⟨st [(GT0_STAT.STATE, 0, 2), (GT0_STAT.AGE, 0, 14400)], 0, by decide +kernel⟩,
    ⟨own, 0, 0, 0, by simp only [Open]; decide +kernel⟩,
    ⟨own, 0, 0, 2147484, by simp only [Open]; decide +kernel⟩,
    ⟨st [(CHIP_ROLE.CENTRE, 0, 0), (GT1_STAT.STATE, 0, 1)], 0, 1, by simp only [Open]; decide +kernel⟩,
    ⟨st [(CHIP_ROLE.CENTRE, 0, 0)], 0, 1, by simp only [Open]; decide +kernel⟩,
    ⟨own, 0, 0, by simp only [Open]; decide +kernel⟩⟩

/-- Something meets the hypotheses of each clause of CompareUnits. -/
theorem witness_CompareUnits :
    (∃ (s : State), ∃ host, ∃ (value : Nat), ∃ u, ∃ (b : Nat), ∃ g, (OpenW s host .mpt 0 u) ∧ (nbit value 0 = true) ∧ (s.fget MPT_CMP_STAT.STATE u = 0) ∧ (b = MPT_CMP_CTRL.BASE.of value) ∧ (g = MPT_CMP_CTRL.TRIG.of value) ∧ (beyond b (s.cmpDiff b (s.cmpTarget u b)) = false) ∧ ((MPT_CMP_CTRL.PERIODIC.of value ≠ 0 → minPer b ≤ s.cmpPer u)) ∧ (nbit (trigBases g) b = true) ∧ ((g = 1 → s.cmpTarget u b % 256 = 0)))
    ∧ (∃ (s : State), ∃ host, ∃ value, ∃ u, ∃ (b : Nat), ∃ g, (OpenW s host .mpt 0 u) ∧ (nbit value 0 = true) ∧ (s.fget MPT_CMP_STAT.STATE u = 0) ∧ (b = MPT_CMP_CTRL.BASE.of value) ∧ (g = MPT_CMP_CTRL.TRIG.of value) ∧ (beyond b (s.cmpDiff b (s.cmpTarget u b)) = true))
    ∧ (∃ (s : State), ∃ host, ∃ value, ∃ u, (OpenW s host .mpt 0 u) ∧ (s.fget MPT_CMP_STAT.STATE u ≠ 0) ∧ ([MPT_CMP_CTRL.ARG, MPT_CMP_CTRL.TRIG, MPT_CMP_CTRL.BASE, MPT_CMP_CTRL.PERIODIC].any (fun f => s.fget f u != f.of value) = true))
    ∧ (∃ (s : State), ∃ u, (u < 64) ∧ ((∀ k, k < u → s.cmpDue k = false)) ∧ (s.fget MPT_CMP_STAT.STATE u = 2) ∧ (s.baseUsable (s.cmpBase u) = true) ∧ (s.cmpReached (s.cmpBase u) (s.cmp u).next = true) ∧ (s.fget MPT_CMP_CTRL.TRIG u = 0 ∨ s.fget MPT_CMP_CTRL.TRIG u = 2))
    ∧ (∃ (s : State), ∃ u, (s.baseUsable (s.cmpBase u) = false ∨ s.cmpReached (s.cmpBase u) (s.cmp u).next = false))
    ∧ (∃ (s : State), ∃ u, ∃ (k : Nat), (k < u) ∧ (u < 64) ∧ (s.cmpDue u = true) ∧ (s.cmpDue k = true) ∧ ((∀ j, j < u → j ≠ k → s.cmpDue j = false)) ∧ ((∀ j ∈ [k, u], s.fget MPT_CMP_CTRL.TRIG j = 0 ∨ s.fget MPT_CMP_CTRL.TRIG j = 2))) :=
  ⟨⟨st [(MPT_CMP_STAT.STATE, 0, 0)], 0, 1, 0, 0, 0, by simp only [OpenW, Open]; decide +kernel⟩,
    ⟨st [(MPT_CMP_STAT.STATE, 0, 0), (MPT_CMP_TGT_HI.TGT_HI, 0, 2^16)], 0, 1, 0, 0, 0, by simp only [OpenW, Open]; decide +kernel⟩,
    ⟨st [(MPT_CMP_STAT.STATE, 0, 1), (MPT_CMP_CTRL.ARG, 0, 5)], 0, 0, 0, by simp only [OpenW, Open]; decide +kernel⟩,
    ⟨st [(MPT_CMP_STAT.STATE, 0, 2), (MPT_CMP_CTRL.TRIG, 0, 0)], 0, by decide +kernel⟩,
    ⟨st [(MPT_CMP_CTRL.BASE, 0, 1)], 0, by decide +kernel⟩,
    ⟨st [(MPT_CMP_STAT.STATE, 0, 2), (MPT_CMP_STAT.STATE, 1, 2)], 1, 0, by decide +kernel⟩⟩

/-- Something meets the hypotheses of each clause of BalanceEngine. -/
theorem witness_BalanceEngine :
    (∃ (s : State), ∃ tag, ∃ r, ∃ i, ∃ l, (s.pip.tags = [(tag, r)]) ∧ (r.bal = some i) ∧ (r.ledger = some l) ∧ (r.st = 2) ∧ (r.balanceDone = false) ∧ (s.acked r.tenant r.commitSeq = false) ∧ (s.fget BAL_N_STAT.STATE i.node ≠ 2))
    ∧ (∃ (s : State), ∃ tag, ∃ r, ∃ i, ∃ l, ∃ w, ∃ c, ∃ t1, (s.pip.tags = [(tag, r)]) ∧ (r.bal = some i) ∧ (r.ledger = some l) ∧ (r.st = 2) ∧ (r.balanceDone = false) ∧ (s.acked r.tenant r.commitSeq = false) ∧ (s.fget BAL_N_STAT.STATE i.node = 2) ∧ (s.ten.active.ownsBal r.tenant i.node = true) ∧ (i.had = true) ∧ (nbit (s.memb l) 1 = false) ∧ (nbit (s.memb l) 0 = false) ∧ (i.t1 = some t1) ∧ (i.t0 < t1) ∧ (i.tamper = 0) ∧ (s.isRef i.node l = false) ∧ (w = s.fget BAL_N_CFG.WS i.node) ∧ (s.winSet w = { cur := some c, closed := [], bounds := [] }) ∧ (c.stop = none) ∧ (c.start.ms ≤ i.t0 * 1000) ∧ ((c.node i.node).on = true))
    ∧ (∃ (s : State), ∃ k, ∃ w, ∃ rest, ((s.winSet k).closed = w :: rest))
    ∧ (∃ (s : State), ∃ k, ((s.winSet k).closed = []))
    ∧ (∃ (s : State), ∃ host, ∃ value, ∃ (n : Nat), (OpenW s host .bal 0 n) ∧ (nbit value 0 = true) ∧ (s.fget BAL_N_STAT.STATE n = 0) ∧ (s.fbit BAL_CFG.AREA_VALID = true))
    ∧ (∃ (s : State), ∃ host, ∃ value, ∃ (n : Nat), ∃ c, (OpenW s host .bal 0 n) ∧ (nbit value 0 = false) ∧ (s.fget BAL_N_STAT.STATE n = 2) ∧ ((s.winSet (s.fget BAL_N_CFG.WS n)).cur = some c))
    ∧ (∃ (s : State), ∃ host, (Open s host .bal) ∧ (s.fbit BAL_CFG.MEMB_VALID = true))
    ∧ (∃ (s : State), ∃ host, ∃ e, (Open s host .bal) ∧ (e < 4) ∧ (s.centre = true))
    ∧ (∃ (s : State), ∃ host, ∃ e, (Open s host .bal) ∧ (e < 4) ∧ (s.centre = false))
    ∧ (∃ (s : State), ∃ node, ∃ (frame : List Byte), ∃ b, (s.thosaBody true frame = some (2, b)) ∧ (nodeValid (s.node node) = false))
    ∧ (∃ (s : State), ∃ node, ∃ (frame : List Byte), ∃ b, ∃ l, ∃ u, ∃ e, ∃ x, ∃ cands, (s.thosaBody true frame = some (2, b)) ∧ (nodeValid (s.node node) = true) ∧ (s.nodeLedger node = some (l, u)) ∧ (nbit (lget (s.led l) L.BAL) 31 = true) ∧ (e < 4) ∧ (s.fget BAL_MARK_ST.STATE e ≠ 0) ∧ (s.fget BAL_MARK_ID.ID e = leAt b 0 4) ∧ (x = (0x2AAB + leAt b 4 2) % 65536) ∧ (cands = [(1, 0, 0), (2, 0, s.fget MPT_PH_B.OFFSET), (3, 0, s.fget MPT_PH_C.OFFSET), (1, 1, 0x8000), (2, 1, s.fget MPT_PH_B.OFFSET + 0x8000), (3, 1, s.fget MPT_PH_C.OFFSET + 0x8000)]) ∧ ((∀ c ∈ cands, s.fget BAL_PH_CFG.TOL < phaseDist x c.2.2)))
    ∧ (∃ (s : State), ∃ node, ∃ (frame : List Byte), ∃ b, ∃ l, ∃ u, ∃ e, ∃ x, ∃ cands, ∃ c, (s.thosaBody true frame = some (2, b)) ∧ (nodeValid (s.node node) = true) ∧ (s.nodeLedger node = some (l, u)) ∧ (nbit (lget (s.led l) L.BAL) 31 = true) ∧ (e < 4) ∧ (s.fget BAL_MARK_ST.STATE e ≠ 0) ∧ (s.fget BAL_MARK_ID.ID e = leAt b 0 4) ∧ (x = (0x2AAB + leAt b 4 2) % 65536) ∧ (cands = [(1, 0, 0), (2, 0, s.fget MPT_PH_B.OFFSET), (3, 0, s.fget MPT_PH_C.OFFSET), (1, 1, 0x8000), (2, 1, s.fget MPT_PH_B.OFFSET + 0x8000), (3, 1, s.fget MPT_PH_C.OFFSET + 0x8000)]) ∧ (c ∈ cands) ∧ (phaseDist x c.2.2 ≤ s.fget BAL_PH_CFG.TOL) ∧ ((∀ d ∈ cands, d ≠ c → phaseDist x c.2.2 < phaseDist x d.2.2))) :=
  ⟨⟨{ st [(LDG_T_SINK.EN, 0, 1), (LDG_T_SINK_STAT.UP, 0, 1), (BAL_N_STAT.STATE, 0, 0)] with pip.tags := [(0, ({ bal := some ({ had := true, t0 := 0, t1 := none, net := 0, node := 0, bucket := 0, tamper := 0 }), ledger := some 0, st := 2, commitSeq := 1 }))] }, 0, { bal := some ({ had := true, t0 := 0, t1 := none, net := 0, node := 0, bucket := 0, tamper := 0 }), ledger := some 0, st := 2, commitSeq := 1 }, { had := true, t0 := 0, t1 := none, net := 0, node := 0, bucket := 0, tamper := 0 }, 0, by decide +kernel⟩,
    ⟨{ st [(LDG_T_SINK.EN, 0, 1), (LDG_T_SINK_STAT.UP, 0, 1), (BAL_N_STAT.STATE, 0, 2)] with pip.tags := [(0, ({ bal := some ({ had := true, t0 := 1, t1 := some 2, net := 0, node := 0, bucket := 0, tamper := 0 }), ledger := some 0, st := 2, commitSeq := 1 }))], bal.sets := [(0, { cur := some ({ start := { cyc := 0, ms := 0 }, nodes := [(0, { on := true })] }) })] }, 0, { bal := some ({ had := true, t0 := 1, t1 := some 2, net := 0, node := 0, bucket := 0, tamper := 0 }), ledger := some 0, st := 2, commitSeq := 1 }, { had := true, t0 := 1, t1 := some 2, net := 0, node := 0, bucket := 0, tamper := 0 }, 0, 0, { start := { cyc := 0, ms := 0 }, nodes := [(0, { on := true })] }, 2, by decide +kernel⟩,
    ⟨(own).setWinSet 0 { ({} : WinSet) with closed := ({ start := { cyc := 0, ms := 0 } }) :: ([]) }, 0, { start := { cyc := 0, ms := 0 } }, [], by decide +kernel⟩,
    ⟨(own).setWinSet 0 { ({} : WinSet) with closed := [] }, 0, by decide +kernel⟩,
    ⟨st [(BAL_N_STAT.STATE, 0, 0), (BAL_CFG.AREA_VALID, 0, 1)], 0, 1, 0, by simp only [OpenW, Open]; decide +kernel⟩,
    ⟨(st [(BAL_N_STAT.STATE, 0, 2)]).setWinSet 0 { ({} : WinSet) with cur := some ({ start := { cyc := 0, ms := 0 } }) }, 0, 0, 0, { start := { cyc := 0, ms := 0 } }, by simp only [OpenW, Open]; decide +kernel⟩,
    ⟨st [(BAL_CFG.MEMB_VALID, 0, 1)], 0, by simp only [Open]; decide +kernel⟩,
    ⟨st [(CHIP_ROLE.CENTRE, 0, 1)], 0, 0, by simp only [Open]; decide +kernel⟩,
    ⟨st [(CHIP_ROLE.CENTRE, 0, 0)], 0, 0, by simp only [Open]; decide +kernel⟩,
    ⟨st [(BAL_TH_CFG.THOSA_ID, 0, 0)], 0, [0x40, 0, 1, 2, 8, 0, 0, 0, 0, 0, 0, 0, 0, 0, 0, 0], [0, 0, 0, 0, 0, 0, 0, 0], by decide +kernel⟩,
    ⟨{ st [(BAL_MARK_ST.STATE, 0, 1), (BAL_MARK_ID.ID, 0, leAt ([0, 0, 0, 0, 0, 0, 0, 0]) 0 4), (BAL_TH_CFG.THOSA_ID, 0, 0), (BAL_MARK_ST.STATE, 0, 1)] with plc.nodes := [(0, (List.replicate 10 0 ++ [1, 0, 0, 0, 0, 0x80] : List Byte))], ldg.ledgers := [(0, lset [] L.BAL (2 ^ 31))] }, 0, [0x40, 0, 1, 2, 8, 0, 0, 0, 0, 0, 0, 0, 0, 0, 0, 0], [0, 0, 0, 0, 0, 0, 0, 0], 0, 0, 0, 10923, [(1, 0, 0), (2, 0, 0), (3, 0, 0), (1, 1, 0x8000), (2, 1, 0x8000), (3, 1, 0x8000)], by decide +kernel⟩,
    ⟨{ st [(BAL_MARK_ST.STATE, 0, 1), (BAL_MARK_ID.ID, 0, leAt ([0, 0, 0, 0, 0x55, 0xD5, 0, 0]) 0 4), (BAL_TH_CFG.THOSA_ID, 0, 0), (BAL_MARK_ST.STATE, 0, 1), (MPT_PH_B.OFFSET, 0, 21845), (MPT_PH_C.OFFSET, 0, 43690)] with plc.nodes := [(0, (List.replicate 10 0 ++ [1, 0, 0, 0, 0, 0x80] : List Byte))], ldg.ledgers := [(0, lset [] L.BAL (2 ^ 31))] }, 0, [0x40, 0, 1, 2, 8, 0, 0, 0, 0, 0, 0, 0, 0x55, 0xD5, 0, 0], [0, 0, 0, 0, 0x55, 0xD5, 0, 0], 0, 0, 0, 0, [(1, 0, 0), (2, 0, 21845), (3, 0, 43690), (1, 1, 0x8000), (2, 1, 54613), (3, 1, 76458)], (1, 0, 0), by decide +kernel⟩⟩

/-- Something meets the hypotheses of each clause of FeederMetrology. -/
theorem witness_FeederMetrology :
    (∃ (s : State), ∃ host, ∃ value, (Open s host .bal) ∧ (nbit value 0 = true) ∧ (s.centre = false) ∧ (s.fget BAL_MET_STAT.STATE = 0))
    ∧ (∃ (s : State), ∃ host, ∃ value, (Open s host .bal) ∧ (nbit value 0 = true) ∧ (s.centre = true))
    ∧ (∃ (s : State), ∃ host, ∃ value, (Open s host .bal) ∧ (nbit value 0 = false) ∧ (s.fget BAL_MET_STAT.STATE = 2))
    ∧ (∃ (s : State), ∃ p, (p < 3) ∧ (s.fget BAL_MET_STAT.STATE = 2))
    ∧ (∃ (s : State), (s.fget BAL_MET_STAT.STATE ≠ 2))
    ∧ (∃ (s : State), ∃ d, (s.detectorDue d = true) ∧ (nbit (s.fget BAL_TAMP_STAT.ACTIVE) d = false))
    ∧ (∃ (s : State), ∃ d, (s.detectorDue d = false))
    ∧ (∃ (s : State), ∃ d, (s.detectorDue d = true) ∧ (nbit (s.fget BAL_TAMP_STAT.ACTIVE) d = true))
    ∧ (∃ (s : State), (s.fget BAL_MET_STAT.STATE = 2) ∧ (s.coherent = true)) :=
  ⟨⟨st [(CHIP_ROLE.CENTRE, 0, 0), (BAL_MET_STAT.STATE, 0, 0)], 0, 1, by simp only [Open]; decide +kernel⟩,
    ⟨st [(CHIP_ROLE.CENTRE, 0, 1)], 0, 1, by simp only [Open]; decide +kernel⟩,
    ⟨st [(BAL_MET_STAT.STATE, 0, 2)], 0, 0, by simp only [Open]; decide +kernel⟩,
    ⟨st [(BAL_MET_STAT.STATE, 0, 2)], 0, by decide +kernel⟩,
    ⟨st [(BAL_MET_STAT.STATE, 0, 0)], by decide +kernel⟩,
    ⟨{ st [(BAL_MET_STAT.STATE, 0, 2), (MPT_SRC.STATE, 0, 2)] with bal.runs := [(0, 10000)] }, 0, by decide +kernel⟩,
    ⟨own, 0, by decide +kernel⟩,
    ⟨{ st [(BAL_TAMP_STAT.ACTIVE, 0, 16), (BAL_MET_STAT.STATE, 0, 2), (MPT_SRC.STATE, 0, 2)] with bal.runs := [(4, 10000)] }, 4, by decide +kernel⟩,
    ⟨st [(BAL_MET_STAT.STATE, 0, 2), (MPT_SRC.STATE, 0, 2)], by decide +kernel⟩⟩

/-- Something meets the hypotheses of each clause of RegisterAccess. -/
theorem witness_RegisterAccess :
    (∃ (s : State), ∃ (host : Nat), ∃ addr, ∃ (b : Blk), (host < 8) ∧ (host ≠ s.supv) ∧ (blkAt (addr % 2 ^ 25) = some b) ∧ (s.silent b = false) ∧ (addr % 2 ^ 25 % 0x100000 ≠ 0x1000))
    ∧ (∃ (s : State), ∃ (host : Nat), (Open s host .mpt) ∧ (host < 8))
    ∧ (∃ (s : State), ∃ (host : Nat), ∃ (value : Nat), (Open s host .mpt) ∧ (host < 8) ∧ (16 ≤ value % 2 ^ 11) ∧ (value % 2 ^ 11 ≤ 1024))
    ∧ (∃ (s : State), ∃ (host : Nat), ∃ (value : Nat), (Open s host .mpt) ∧ (host < 8) ∧ (value % 2 ^ 11 < 16 ∨ 1024 < value % 2 ^ 11))
    ∧ (∃ (s : State), ∃ (host : Nat), (Open s host .mpt) ∧ (host < 8) ∧ (s.locked = false))
    ∧ (∃ (s : State), ∃ (host : Nat), ∃ (value : Nat), (Open s host .mpt) ∧ (host < 8) ∧ (s.locked = true) ∧ (s.fget GT0_TOL.TOL ≠ value % 2 ^ 32))
    ∧ (∃ (s : State), ∃ (host : Nat), ∃ addr, ∃ (b : Blk), (host < 8) ∧ (blkAt addr = some b) ∧ (s.silent b = false) ∧ (addr % 0x100000 = 0x1000) ∧ (b.selMask ≠ 0))
    ∧ (∃ (s : State), ∃ (host : Nat), ∃ addr, ∃ (b : Blk), (blkAt addr = some b) ∧ (s.silent b = false) ∧ (host ≠ s.supv) ∧ (s.mayRead host b (addr % 0x100000) = false) ∧ (s.selBad host b (addr % 0x100000) = false))
    ∧ (∃ (s : State), ∃ host, ∃ addr, ∃ (b : Blk), (blkAt addr = some b) ∧ (s.silent b = false) ∧ (s.selBad host b (addr % 0x100000) = true)) :=
  ⟨⟨own, 1, 0, .chip, by decide +kernel⟩,
    ⟨own, 0, by simp only [Open]; decide +kernel⟩,
    ⟨own, 0, 1024, by simp only [Open]; decide +kernel⟩,
    ⟨own, 0, 0, by simp only [Open]; decide +kernel⟩,
    ⟨st [(CHIP_LOCK.LOCK, 0, 0)], 0, by simp only [Open]; decide +kernel⟩,
    ⟨st [(CHIP_LOCK.LOCK, 0, 1)], 0, 0, by simp only [Open]; decide +kernel⟩,
    ⟨own, 0, 0x101000, .ten, by decide +kernel⟩,
    ⟨own, 1, 0x100, .chip, by decide +kernel⟩,
    ⟨((own).setSel .eth 1 3), 1, 0x1001100, .eth, by decide +kernel⟩⟩

/-- Something meets the hypotheses of each clause of SerialPortAndPads. -/
theorem witness_SerialPortAndPads :
    (∃ (s : State), ∃ addr, ∃ (data : List Byte), (s.mode ≠ 0) ∧ (addr < 2 ^ 32) ∧ (addr / 2 ^ 30 = 2) ∧ (addr % 4 = 0) ∧ (data.length = 4) ∧ (addr % 2 ^ 26 + 4 ≤ s.fget RNG_SHP_SIZE.PAGES * 4096))
    ∧ (∃ (s : State), ∃ addr, ∃ (data : List Byte), (s.mode ≠ 0) ∧ (addr < 2 ^ 32) ∧ (addr % 4 ≠ 0 ∨ data.length % 4 ≠ 0 ∨ (addr / 2 ^ 30 = 2 ∧ s.fget RNG_SHP_SIZE.PAGES * 4096 < addr % 2 ^ 26 + data.length)))
    ∧ (∃ (s : State), ∃ addr, ∃ words, (s.mode ≠ 0) ∧ (addr < 2 ^ 32) ∧ (addr % 4 ≠ 0 ∨ (addr / 2 ^ 30 = 2 ∧ s.fget RNG_SHP_SIZE.PAGES * 4096 < addr % 2 ^ 26 + 4 * words)))
    ∧ (∃ (s : State), (s.mode ≠ 0))
    ∧ (∃ (s : State), ∃ h, (h < 2) ∧ (s.hasHost h = true) ∧ (s.fbit RNG_H_STAT.UP h = false))
    ∧ (∃ (s : State), ∃ h, (h < 2) ∧ (s.hasHost h = true) ∧ (s.fbit RNG_H_STAT.UP h = true) ∧ ((tget [] s.regs RNG_R_STAT.STATE.id).all (fun e => s.ringHost e.1 != h) = true))
    ∧ (∃ (s : State), ∃ host, ∃ value, ∃ g, (OpenW s host .pad 0 g) ∧ (nbits value 5 4 ≠ 3) ∧ ((nbit value 0 = true → g < 6)))
    ∧ (∃ (s : State), ∃ host, ∃ value, ∃ g, (OpenW s host .pad 0 g) ∧ (nbits value 5 4 = 3))
    ∧ (∃ (s : State), ∃ host, ∃ value, ∃ g, (OpenW s host .pad 0 g) ∧ (nbits value 5 4 ≠ 3) ∧ (nbit value 0 = true) ∧ (6 ≤ g))
    ∧ (∃ (s : State), ∃ d, (d < 2) ∧ (s.fbit PAD_G_CFG.FUNC (4 + d) = true) ∧ (s.fget (gtSt d) = 1 ∨ s.fget (gtSt d) = 2))
    ∧ (∃ (s : State), ∃ d, (nbit s.time.pps d = true))
    ∧ (∃ (s : State), ∃ a, ∃ l, ∃ k, (s.fbit LDG_CFG.AREA_VALID = true) ∧ (l < s.fget LDG_COUNT.COUNT) ∧ (a / 1024 = (s.fget LDG_BASE_LO.BASE_LO * 2 ^ 20 + s.fget LDG_BASE_HI.BASE_HI * 2 ^ 32) / 1024 + l) ∧ (s.quarEntry l = none) ∧ ((List.range 1024).find? (fun k => (tget none s.ldg.quar k).isNone) = some k))
    ∧ (∃ (s : State), (s.fbit LDG_CFG.AREA_VALID = false) ∧ (s.mode = 9)) :=
  ⟨⟨st [(RNG_SHP_SIZE.PAGES, 0, 1)], 0x80000000, [0, 0, 0, 0], by decide +kernel⟩,
    ⟨own, 2, [], by decide +kernel⟩,
    ⟨own, 2, 0, by decide +kernel⟩,
    ⟨own, by decide +kernel⟩,
    ⟨st [(RNG_H_STAT.UP, 0, 0)], 0, by decide +kernel⟩,
    ⟨st [(RNG_H_STAT.UP, 0, 1)], 0, by decide +kernel⟩,
    ⟨own, 0, 0, 0, by simp only [OpenW, Open]; decide +kernel⟩,
    ⟨own, 0, 48, 0, by simp only [OpenW, Open]; decide +kernel⟩,
    ⟨((own).setSel .pad 0 6), 0, 1, 6, by simp only [OpenW, Open]; decide +kernel⟩,
    ⟨st [(PAD_G_CFG.FUNC, (4 + 0), 1), (GT0_STAT.STATE, 0, 1)], 0, by decide +kernel⟩,
    ⟨{ own with time.pps := 1 }, 0, by decide +kernel⟩,
    ⟨st [(LDG_CFG.AREA_VALID, 0, 1)], 0, 0, 0, by decide +kernel⟩,
    ⟨st [(LDG_CFG.AREA_VALID, 0, 0), (CHIP_MODE.MODE, 0, 9)], by decide +kernel⟩⟩

/-- Something meets the hypotheses of each clause of PairClaim. -/
theorem witness_PairClaim :
    (∃ (s : State), (s.fbit RES_PAIR_STAT.CLAIM_IN = false) ∧ (s.pair.en = true) ∧ (AirFree s))
    ∧ (∃ (s : State), (s.fbit RES_PAIR_STAT.CLAIM_IN = true))
    ∧ (∃ (s : State), (s.pair.en = true) ∧ (s.pow.entered = true) ∧ (s.mode ≠ 10) ∧ (s.pairState = 4))
    ∧ (∃ (s : State), (MayTake s) ∧ (s.pair.heard = true) ∧ (s.partnerClaims = false))
    ∧ (∃ (s : State), (s.fbit RES_PAIR_STAT.CLAIM_OUT = true))
    ∧ (∃ (s : State), (s.pairState = 1) ∧ (s.fbit RES_PAIR_STAT.CLAIM_IN = false) ∧ (s.partnerClaims = false) ∧ (s.claimBarred = false) ∧ (AirFree s))
    ∧ (∃ (s : State), (s.pairState = 3) ∧ (s.fbit RES_PAIR_STAT.CLAIM_IN = false) ∧ (s.claimBarred = false) ∧ (s.pair.en = true) ∧ (s.pow.entered = true) ∧ (s.mode = 4))
    ∧ (∃ (s : State), (MayTake s) ∧ (s.fbit RES_PAIR_STAT.CLAIM_IN = false))
    ∧ (∃ (s : State), (MayTake s) ∧ (s.fbit RES_PAIR_STAT.CLAIM_IN = false) ∧ (s.pair.en = true))
    ∧ (∃ (s : State), (s.pairState ≠ 2))
    ∧ (∃ (s : State), (s.pairState ≠ 2) ∧ (s.pair.en = true))
    ∧ (∃ (s : State), (s.pairState = 1 ∨ s.pairState = 2) ∧ (s.partnerActive = true) ∧ (s.pair.hbMissing = false) ∧ (s.fbit RES_PAIR_STAT.CLAIM_IN = false) ∧ (AirFree s))
    ∧ (∃ (s : State), (s.pairState = 6) ∧ (s.fbit RES_PAIR_STAT.CLAIM_IN = s.partnerClaims) ∧ (AirFree s))
    ∧ (∃ (s : State), ∃ host, ∃ value, (Open s host .res) ∧ (nbit value 0 = true) ∧ (AirFree s) ∧ (nbits value 31 16 = 0x434C) ∧ (s.pairState = 4) ∧ (s.pair.heard = true) ∧ (s.fget RES_PAIR_STAT.PARTNER_STATE = 2) ∧ (s.pair.partnerSynced = true))
    ∧ (∃ (s : State), ∃ host, ∃ value, (Open s host .res) ∧ (nbit value 0 = true) ∧ (AirFree s) ∧ (nbits value 31 16 ≠ 0x434C ∨ s.pairState ≠ 4))
    ∧ (∃ (s : State), ∃ host, ∃ value, (Open s host .res) ∧ (nbit value 1 = true) ∧ (nbits value 31 16 = 0x434C) ∧ (AirFree s) ∧ (s.pairState = 2) ∧ (s.pair.partnerSynced = false) ∧ (s.takeCond = true) ∧ (s.claimBarred = false) ∧ (s.pair.faulty = false)) :=
  ⟨⟨{ st [(RES_PAIR_STAT.CLAIM_IN, 0, 0)] with pair.en := true }, by simp only [AirFree]; decide +kernel⟩,
    ⟨st [(RES_PAIR_STAT.CLAIM_IN, 0, 1)], by decide +kernel⟩,
    ⟨{ st [(RES_PAIR_STAT.STATE, 0, 4)] with pair.en := true, pow.entered := true }, by decide +kernel⟩,
    ⟨{ st [(RES_PAIR_STAT.STATE, 0, 2)] with pair.partnerSynced := true, pair.heard := true }, by simp only [MayTake, AirFree]; decide +kernel⟩,
    ⟨st [(RES_PAIR_STAT.CLAIM_OUT, 0, 1)], by decide +kernel⟩,
    ⟨st [(RES_PAIR_STAT.STATE, 0, 1), (RES_PAIR_STAT.CLAIM_IN, 0, 0)], by simp only [AirFree]; decide +kernel⟩,
    ⟨{ st [(RES_PAIR_STAT.STATE, 0, 3), (RES_PAIR_STAT.CLAIM_IN, 0, 0), (CHIP_MODE.MODE, 0, 4)] with pair.en := true, pow.entered := true }, by decide +kernel⟩,
    ⟨{ st [(RES_PAIR_STAT.STATE, 0, 2), (RES_PAIR_STAT.CLAIM_IN, 0, 0)] with pair.partnerSynced := true }, by simp only [MayTake, AirFree]; decide +kernel⟩,
    ⟨{ st [(RES_PAIR_STAT.STATE, 0, 2), (RES_PAIR_STAT.CLAIM_IN, 0, 0)] with pair.partnerSynced := true, pair.en := true }, by simp only [MayTake, AirFree]; decide +kernel⟩,
    ⟨st [(RES_PAIR_STAT.STATE, 0, 0)], by decide +kernel⟩,
    ⟨{ st [(RES_PAIR_STAT.STATE, 0, 0)] with pair.en := true }, by decide +kernel⟩,
    ⟨{ st [(RES_PAIR_STAT.STATE, 0, 1), (RES_PAIR_STAT.PARTNER_STATE, 0, 4), (RES_PAIR_STAT.CLAIM_IN, 0, 0)] with pair.heard := true, pair.hbMissing := false }, by simp only [AirFree]; decide +kernel⟩,
    ⟨st [(RES_PAIR_STAT.STATE, 0, 6), (RES_PAIR_STAT.CLAIM_IN, 0, 0)], by simp only [AirFree]; decide +kernel⟩,
    ⟨{ st [(RES_PAIR_STAT.STATE, 0, 4), (RES_PAIR_STAT.PARTNER_STATE, 0, 2)] with pair.heard := true, pair.partnerSynced := true }, 0, 1129054209, by simp only [Open, AirFree]; decide +kernel⟩,
    ⟨own, 0, 1, by simp only [Open, AirFree]; decide +kernel⟩,
    ⟨{ st [(RES_PAIR_STAT.STATE, 0, 2), (RES_PAIR_STAT.CLAIM_IN, 0, 0)] with pair.partnerSynced := false, pair.notice := true, pair.faulty := false }, 0, 1129054210, by simp only [Open, AirFree]; decide +kernel⟩⟩

/-- Something meets the hypotheses of each clause of PairLink. -/
theorem witness_PairLink :
    (∃ (s : State), (s.pair.en = true) ∧ (s.pairState ≠ 0) ∧ (s.pairOpen = true) ∧ ((s.host 8).mrt.unacked.length < 64))
    ∧ (∃ (s : State), (s.pair.en = false))
    ∧ (∃ (s : State), (s.pair.en = false))
    ∧ (∃ (s : State), ∃ b, (s.pair.en = true) ∧ (s.pairState = 1) ∧ (s.fbit RES_PAIR_STAT.CLAIM_IN = true) ∧ (leAt b 0 1 = 4) ∧ (AirFree s))
    ∧ (∃ (s : State), (s.pair.en = true) ∧ (s.pairState = 3 ∨ s.pairState = 5 ∨ s.pairState = 6))
    ∧ (∃ (s : State), ∃ (s1 : State), ∃ (data : List Byte), ∃ (k : Nat), (s.pairState = 2) ∧ ((recOf data).crcOk = true) ∧ (k = leAt data 0x0C 2 % 1024) ∧ (s.nextSeq k ≤ (recOf data).seq) ∧ (s.jRoom k (recOf data).bytes.length = some s1))
    ∧ (∃ (s : State), (s.pairState ≠ 2))
    ∧ (∃ (s : State), ∃ (d : List Byte), ∃ l, (s.pairState = 2) ∧ (leAt d 0 1 = 0) ∧ (l = (List.range 128).foldl (fun l k => tput 0 l k (leAt (d.drop 8) (8 * k) 8)) []) ∧ (lget (s.led (leAt d 4 4)) L.LAST_SEQ < lget l L.LAST_SEQ))
    ∧ (∃ (s : State), ∃ (d : List Byte), ∃ l, (s.pairState = 2) ∧ (leAt d 0 1 = 0) ∧ (l = (List.range 128).foldl (fun l k => tput 0 l k (leAt (d.drop 8) (8 * k) 8)) []) ∧ (lget l L.LAST_SEQ ≤ lget (s.led (leAt d 4 4)) L.LAST_SEQ))
    ∧ (∃ (s : State), ∃ (k : Nat), ((s.tenJ k).sync = 1) ∧ (s.pairOpen = true) ∧ (s.nextSeq k ≤ (((s.tenJ k).nand.filter (fun r => !((s.tenJ k).buf.any (fun x => x.seq == r.seq))) ++ (s.tenJ k).buf).filter (fun r => decide (r.seq ≥ (s.tenJ k).syncS0))).length + (s.tenJ k).syncS0))
    ∧ (∃ (s : State), ∃ k, ((s.tenJ k).sync ≠ 1))
    ∧ (∃ (s : State), ∃ host, ∃ n, (OpenW s host .ldg 0 n) ∧ (nbit (s.fget LDG_T_SINK.EN n) 1 = true) ∧ (s.pairState ≠ 4)) :=
  ⟨⟨{ (st [(RES_PAIR_STAT.STATE, 0, 1)]).setHost 8 { ({} : HostA) with mrt.isOpen := true } with pair.en := true }, by decide +kernel⟩,
    ⟨{ own with pair.en := false }, by decide +kernel⟩,
    ⟨{ own with pair.en := false }, by decide +kernel⟩,
    ⟨{ st [(RES_PAIR_STAT.STATE, 0, 1), (RES_PAIR_STAT.CLAIM_IN, 0, 1)] with pair.en := true }, [4], by simp only [AirFree]; decide +kernel⟩,
    ⟨{ st [(RES_PAIR_STAT.STATE, 0, 3)] with pair.en := true }, by decide +kernel⟩,
    ⟨st [(RES_PAIR_STAT.STATE, 0, 2), (LDG_T_JBUF.QUOTA, 0, 64), (LDG_T_SEQ_LO.SEQ_LO, 0, 1)], st [(RES_PAIR_STAT.STATE, 0, 2), (LDG_T_JBUF.QUOTA, 0, 64), (LDG_T_SEQ_LO.SEQ_LO, 0, 1)], jBytes 1 9 0 0 0 [], leAt (jBytes 1 9 0 0 0 []) 0x0C 2 % 1024, by decide +kernel⟩,
    ⟨st [(RES_PAIR_STAT.STATE, 0, 0)], by decide +kernel⟩,
    ⟨st [(RES_PAIR_STAT.STATE, 0, 2)], List.replicate 24 0 ++ [1], (List.range 128).foldl (fun l k => tput 0 l k (leAt ((List.replicate 24 0 ++ [1] : List Byte).drop 8) (8 * k) 8)) [], by decide +kernel⟩,
    ⟨st [(RES_PAIR_STAT.STATE, 0, 2)], [], (List.range 128).foldl (fun l k => tput 0 l k (leAt (([] : List Byte).drop 8) (8 * k) 8)) [], by decide +kernel⟩,
    ⟨((st [(LDG_T_SEQ_LO.SEQ_LO, 0, 0)]).setTenJ 0 { ({} : TenJ) with sync := 1 }).setHost 8 { ({} : HostA) with mrt.isOpen := true }, 0, by decide +kernel⟩,
    ⟨own, 0, by decide +kernel⟩,
    ⟨st [(LDG_T_SINK.EN, 0, 2 ^ 1), (RES_PAIR_STAT.STATE, 0, 0), (LDG_T_SINK.EN, 0, 2)], 0, 0, by simp only [OpenW, Open]; decide +kernel⟩⟩

/-- Something meets the hypotheses of each clause of LaneReception. -/
theorem witness_LaneReception :
    (∃ (s : State), ∃ host, ∃ value, ∃ (n : Nat), (OpenW s host .plc 0 n) ∧ (nbit value 0 = true) ∧ (s.centre = false) ∧ (s.fget PLC_L_STAT.STATE n = 0) ∧ (s.fget PLC_COMB.MASK = 0) ∧ ((∀ k, k < 4 → s.fbit PLC_L_STAT.TX_ON k = false)))
    ∧ (∃ (s : State), ∃ host, ∃ value, ∃ n, (OpenW s host .plc 0 n) ∧ (nbit value 0 = true) ∧ (s.centre = true))
    ∧ (∃ (s : State), ∃ host, ∃ value, ∃ (n : Nat), (OpenW s host .plc 0 n) ∧ (nbit value 0 = false) ∧ (s.fget PLC_L_STAT.STATE n = 2) ∧ ((s.lane n).queue = []) ∧ ((s.lane n).ack = none) ∧ ((s.lane n).mark1 = none))
    ∧ (∃ (s : State), ∃ host, ∃ value, (Open s host .plc) ∧ ((∀ n, n < 4 → s.fget PLC_L_STAT.STATE n = 0)) ∧ (nbits value 23 16 ≤ 100))
    ∧ (∃ (s : State), ∃ host, ∃ value, ∃ (n : Nat), (Open s host .plc) ∧ (n < 4) ∧ (nbit (Nat.lor (s.fget PLC_COMB.MASK) (nbits value 3 0)) n = true) ∧ (s.fget PLC_L_STAT.STATE n ≠ 0))
    ∧ (∃ (s : State), ∃ (n : Nat), (s.fget PLC_COMB.MASK = 0) ∧ (n < 4) ∧ (s.laneOn n = true) ∧ (s.fget PLC_L_STAT.RXSTATE n = 0) ∧ ((s.lane n).now = none))
    ∧ (∃ (s : State), ∃ (n : Nat), ∃ snr, ∃ c, (s.fget PLC_COMB.MASK = 0) ∧ (n < 4) ∧ (s.laneOn n = true) ∧ (s.fget PLC_L_STAT.RXSTATE n ≠ 4) ∧ ((s.lane n).now = some c) ∧ (c.snr + s.fget PLC_L_CAP.MARGIN n ≤ snr))
    ∧ (∃ (s : State), ∃ (n : Nat), ∃ snr, ∃ c, (s.fget PLC_COMB.MASK = 0) ∧ (n < 4) ∧ (s.laneOn n = true) ∧ (s.fget PLC_L_STAT.RXSTATE n ≠ 4) ∧ ((s.lane n).now = some c) ∧ (snr < c.snr + s.fget PLC_L_CAP.MARGIN n))
    ∧ (∃ (s : State), ∃ (n : Nat), ∃ c, (n < 4) ∧ (s.laneOn n = true) ∧ (1 < (s.combined n).length) ∧ (s.rxState n = 1) ∧ ((s.lane (s.lead n)).now = some c))
    ∧ (∃ (s : State), ∃ (n : Nat), (s.fget PLC_COMB.MASK = 0) ∧ (n < 4) ∧ (s.fget PLC_L_STAT.RXSTATE n = 1))
    ∧ (∃ (s : State), ∃ (n : Nat), ∃ c, (s.fget PLC_COMB.MASK = 0) ∧ (n < 4) ∧ (s.fget PLC_L_STAT.RXSTATE n = 2) ∧ ((s.lane n).now = some c))
    ∧ (∃ (s : State), ∃ (n : Nat), ∃ c, (s.fget PLC_COMB.MASK = 0) ∧ (n < 4) ∧ (s.fget PLC_L_STAT.RXSTATE n = 3) ∧ ((s.lane n).now = some c) ∧ (c.lane = n))
    ∧ (∃ (s : State), ∃ (n : Nat), ∃ c, (s.fget PLC_COMB.MASK = 0) ∧ (n < 4) ∧ (s.fget PLC_L_STAT.RXSTATE n = 3) ∧ ((s.lane n).now = some c) ∧ (c.lane = n) ∧ (c.burst2 = false) ∧ ((s.lane n).pairs = []))
    ∧ (∃ (s : State), ∃ (n : Nat), ∃ p, ∃ rest, (s.fget PLC_COMB.MASK = 0) ∧ (n < 4) ∧ ((s.lane n).pairs = p :: rest) ∧ (p.lane = n))
    ∧ (∃ (s : State), ∃ (n : Nat), (n < 4) ∧ (s.fget PLC_L_STAT.RXSTATE n = 4) ∧ ((∀ k, k < 4 → s.fbit PLC_L_STAT.TX_ON k = false)))
    ∧ (∃ (s : State), ∃ (n : Nat), (n < 4) ∧ (s.fget PLC_L_STAT.RXSTATE n = 4) ∧ (s.fbit PLC_L_STAT.TX_ON n = true))
    ∧ (∃ (s : State), ∃ n, ∃ d, ∃ rest, ∃ (f : PlcFrame), ∃ x, ∃ h, ∃ (k : Nat), ∃ (it : Item), ((s.lane n).decoded = d :: rest) ∧ (f.parity = false) ∧ (f.kind = 1) ∧ (s.plcNode f.srcKind f.src = some h) ∧ ((s.lane n).ack = some x) ∧ (s.hopOf x.node = h) ∧ (x.item = some k) ∧ (s.item k = some it))
    ∧ (∃ (s : State), ∃ n, ∃ d, ∃ rest, ∃ (f : PlcFrame), ((s.lane n).decoded = d :: rest) ∧ (f.parity = false) ∧ (f.kind ≠ 1) ∧ (f.secured = true) ∧ (f.tagOk = false))
    ∧ (∃ (s : State), ∃ n, ∃ d, ∃ rest, ∃ (f : PlcFrame), ∃ a, ∃ q, ((s.lane n).decoded = d :: rest) ∧ (f.parity = false) ∧ (f.kind = 0) ∧ (f.secured = false) ∧ (s.isUs f.dst = false) ∧ (s.isThosa f.payload = false) ∧ (f.mesh = none) ∧ (s.plcNode f.srcKind f.src = none) ∧ (s.plc.recent = []) ∧ (s.mode ≠ 4) ∧ (q = (s.lane n).slowSeq) ∧ (a = s.base PLC_SLOW_LO.BASE_LO 21 PLC_SLOW_HI.BASE_HI + n * 524288 + q % 1024 * 512))
    ∧ (∃ (s : State), ∃ n, ∃ d, ∃ rest, ∃ (f : PlcFrame), ((s.lane n).decoded = d :: rest) ∧ (f.parity = false) ∧ (f.kind = 0) ∧ (f.secured = false) ∧ (s.isUs f.dst = false) ∧ (s.isThosa f.payload = true) ∧ (f.mesh = none) ∧ (s.plcNode f.srcKind f.src = none) ∧ (s.plc.recent = []) ∧ (s.mode ≠ 4))
    ∧ (∃ (s : State), ∃ n, ∃ d, ∃ rest, ∃ (f : PlcFrame), ∃ h, ∃ l, ∃ (k : Nat), ((s.lane n).decoded = d :: rest) ∧ (f.parity = false) ∧ (f.kind = 0) ∧ (f.secured = true) ∧ (f.tagOk = true) ∧ (f.keyIdx = 0) ∧ (s.rxKeyOk PLC_KEY0.VALID PLC_KEY0.RX_SLOT = true) ∧ (s.mode ≠ 4) ∧ (s.plcNode f.srcKind f.src = some h) ∧ ((tget ({} : RxRec) s.plc.rx h).cnt < f.counter) ∧ (nbit (s.nf h 0x0A 2) 4 = false) ∧ (s.isUs f.dst = true) ∧ (f.ackReq = false) ∧ (f.tmReq = false) ∧ (s.isThosa f.payload = false) ∧ (f.mesh = none) ∧ (f.frag = false) ∧ (f.port = some (s.fget PLC_FP.PORT)) ∧ (f.wrapper = true) ∧ (s.nodeLedger h = some (l, k)) ∧ (s.tenOn k = true) ∧ (s.ten.active.ownsNode k h = true) ∧ (s.ownsLedger k l = true) ∧ (s.ledExists l = true) ∧ ((s.routeTask k 0).isSome = true) ∧ ((tget [] s.pip.ingest n).length < ingestCap n))
    ∧ (∃ (s : State), ∃ (n : Nat), ∃ snr, ∃ k, ∃ more, ((s.lane n).tmAsk = (snr, k) :: more) ∧ ((s.lane n).air = none) ∧ (s.laneOn n = true) ∧ (s.mayTransmit = true))
    ∧ (∃ (s : State), ∃ (n : Nat), ((s.lane n).bcnAsk = true) ∧ (s.laneOn n = true) ∧ (s.mayTransmit = true) ∧ ((s.lane n).queue.length < 64))
    ∧ (∃ (s : State), ∃ (k : Nat), (nodeValid (s.node k) = true) ∧ (nodeMedium (s.node k) = 0) ∧ (s.linkMode k = 0) ∧ (s.fget PLC_L_TM.TTL (nbits (s.nf k 0x14 1) 1 0) ≤ s.nf k 0x1C 2))
    ∧ (∃ (s : State), ∃ (k : Nat), (nodeValid (s.node k) = true) ∧ (nodeMedium (s.node k) = 0) ∧ (s.linkMode k = 0) ∧ (s.nf k 0x1C 2 < s.fget PLC_L_TM.TTL (nbits (s.nf k 0x14 1) 1 0)))
    ∧ (∃ (s : State), ∃ host, ∃ value, ∃ n, (OpenW s host .plc 0 n) ∧ (nbit value 0 = true))
    ∧ (∃ (s : State), ∃ host, ∃ value, ∃ n, (OpenW s host .plc 0 n) ∧ (nbit value 1 = true)) :=
  ⟨⟨st [(CHIP_ROLE.CENTRE, 0, 0), (PLC_L_STAT.STATE, 0, 0), (PLC_COMB.MASK, 0, 0)], 0, 1, 0, by simp only [OpenW, Open]; decide +kernel⟩,
    ⟨st [(CHIP_ROLE.CENTRE, 0, 1)], 0, 1, 0, by simp only [OpenW, Open]; decide +kernel⟩,
    ⟨(st [(PLC_L_STAT.STATE, 0, 2)]).setLane 0 { ({} : Lane) with queue := [], ack := none, mark1 := none }, 0, 0, 0, by simp only [OpenW, Open]; decide +kernel⟩,
    ⟨own, 0, 0, by simp only [Open]; decide +kernel⟩,
    ⟨st [(PLC_L_STAT.STATE, 0, 1)], 0, 1, 0, by simp only [Open]; decide +kernel⟩,
    ⟨(st [(PLC_COMB.MASK, 0, 0), (PLC_L_STAT.STATE, 0, 2), (PLC_L_STAT.RXSTATE, 0, 0)]).setLane 0 { ({} : Lane) with now := none }, 0, by decide +kernel⟩,
    ⟨(st [(PLC_COMB.MASK, 0, 0), (PLC_L_STAT.STATE, 0, 2), (PLC_L_STAT.RXSTATE, 0, 0)]).setLane 0 { ({} : Lane) with now := some ({ lane := 0, best := 0, snr := 0 }) }, 0, 100, { lane := 0, best := 0, snr := 0 }, by decide +kernel⟩,
    ⟨(st [(PLC_COMB.MASK, 0, 0), (PLC_L_STAT.STATE, 0, 2), (PLC_L_STAT.RXSTATE, 0, 0)]).setLane 0 { ({} : Lane) with now := some ({ lane := 0, best := 0, snr := 0 }) }, 0, 0, { lane := 0, best := 0, snr := 0 }, by decide +kernel⟩,
    ⟨(st [(PLC_L_STAT.STATE, 0, 2), (PLC_COMB.MASK, 0, 3), (PLC_L_STAT.STATE, 1, 2), (PLC_L_STAT.RXSTATE, 0, 1)]).setLane 0 { ({} : Lane) with now := some ({ lane := 0, best := 0, snr := 0 }) }, 0, { lane := 0, best := 0, snr := 0 }, by decide +kernel⟩,
    ⟨st [(PLC_COMB.MASK, 0, 0), (PLC_L_STAT.RXSTATE, 0, 1)], 0, by decide +kernel⟩,
    ⟨(st [(PLC_COMB.MASK, 0, 0), (PLC_L_STAT.RXSTATE, 0, 2)]).setLane 0 { ({} : Lane) with now := some ({ lane := 0, best := 0, snr := 0 }) }, 0, { lane := 0, best := 0, snr := 0 }, by decide +kernel⟩,
    ⟨(st [(PLC_COMB.MASK, 0, 0), (PLC_L_STAT.RXSTATE, 0, 3)]).setLane 0 { ({} : Lane) with now := some ({ best := 0, snr := 0, lane := 0 }) }, 0, { best := 0, snr := 0, lane := 0 }, by decide +kernel⟩,
    ⟨(st [(PLC_COMB.MASK, 0, 0), (PLC_L_STAT.RXSTATE, 0, 3)]).setLane 0 { ({} : Lane) with now := some ({ best := 0, snr := 0, lane := 0, burst2 := false }), pairs := [] }, 0, { best := 0, snr := 0, lane := 0, burst2 := false }, by decide +kernel⟩,
    ⟨(st [(PLC_COMB.MASK, 0, 0)]).setLane 0 { ({} : Lane) with pairs := ({ best := 0, snr := 0, lane := 0 }) :: ([]) }, 0, { best := 0, snr := 0, lane := 0 }, [], by decide +kernel⟩,
    ⟨st [(PLC_L_STAT.RXSTATE, 0, 4)], 0, by decide +kernel⟩,
    ⟨st [(PLC_L_STAT.RXSTATE, 0, 4), (PLC_L_STAT.TX_ON, 0, 1)], 0, by decide +kernel⟩,
    ⟨{ ((own).setLane 0 { ({} : Lane) with decoded := ({ lane := 0, single := false }) :: ([]), ack := some ({ node := 0, item := some 1 }) }).setItem 1 (some (itm 7 0 [])) with plc.nodes := [(0, (List.replicate 10 0 ++ [1] : List Byte))] }, 0, { lane := 0, single := false }, [], { kind := 1 }, { node := 0, item := some 1 }, 0, 1, itm 7 0 [], by decide +kernel⟩,
    ⟨(own).setLane 0 { ({} : Lane) with decoded := ({ lane := 0, single := false }) :: ([]) }, 0, { lane := 0, single := false }, [], { parity := false, secured := true, tagOk := false }, by decide +kernel⟩,
    ⟨{ (own).setLane 0 { ({} : Lane) with decoded := ({ lane := 0, single := false }) :: ([]) } with plc.recent := [] }, 0, { lane := 0, single := false }, [], { parity := false, kind := 0, secured := false, mesh := none }, own.base PLC_SLOW_LO.BASE_LO 21 PLC_SLOW_HI.BASE_HI, 0, by decide +kernel⟩,
    ⟨{ (own).setLane 0 { ({} : Lane) with decoded := ({ lane := 0, single := false }) :: ([]) } with plc.recent := [] }, 0, { lane := 0, single := false }, [], { payload := [0x40, 229] }, by decide +kernel⟩,
    ⟨{ (st [(PLC_KEY0.VALID, 0, 1), (KV_S_INFO.STATE, 0, 1)]).setLane 0 { ({} : Lane) with decoded := ({ lane := 0, single := false }) :: ([]) } with plc.nodes := [(0, (List.replicate 10 0 ++ [3, 0, 0, 0, 0, 0x80] : List Byte))] }, 0, { lane := 0, single := false }, [], { secured := true, tagOk := true, counter := 1, srcKind := 1, src := 65535, dst := (1, 65535), port := some 4059, wrapper := true }, 0, 0, 0, by decide +kernel⟩,
    ⟨(st [(PLC_L_STAT.STATE, 0, 2), (CHIP_MODE.MODE, 0, 5), (RES_PAIR_STAT.GRANT, 0, 1)]).setLane 0 { ({} : Lane) with tmAsk := [([], 0)], air := none }, 0, [], 0, [], by decide +kernel⟩,
    ⟨(st [(PLC_L_STAT.STATE, 0, 2), (CHIP_MODE.MODE, 0, 5), (RES_PAIR_STAT.GRANT, 0, 1)]).setLane 0 { ({} : Lane) with bcnAsk := true }, 0, by decide +kernel⟩,
    ⟨{ own with plc.nodes := [(0, (List.replicate 10 0 ++ [1, 0] ++ List.replicate 16 0 ++ [255, 255] : List Byte))] }, 0, by decide +kernel⟩,
    ⟨{ st [(PLC_L_TM.TTL, 0, 5)] with plc.nodes := [(0, (List.replicate 10 0 ++ [1] : List Byte))] }, 0, by decide +kernel⟩,
    ⟨own, 0, 1, 0, by simp only [OpenW, Open]; decide +kernel⟩,
    ⟨own, 0, 2, 0, by simp only [OpenW, Open]; decide +kernel⟩⟩

/-- Something meets the hypotheses of each clause of LaneTransmission. -/
theorem witness_LaneTransmission :
    (∃ (s : State), ∃ (n : Nat), ∃ x, ∃ rest, ∃ air, ∃ amp, ∃ mode, ∃ g, ∃ est, ((s.lane n).queue = x :: rest) ∧ ((s.lane n).air = none) ∧ ((s.lane n).ack = none) ∧ (s.laneOn n = true) ∧ (s.mayTransmit = true) ∧ (mode = (if nbit x.flags 4 then 2 else if nbit x.flags 3 then 1 else if x.bcast then s.fget PLC_L_MODE.BCAST n else s.linkMode (s.hopOf x.node))) ∧ (g = s.txGain n (if x.bcast then 0 else nbits (s.nf (s.hopOf x.node) 0x16 1) 3 0) amp) ∧ (est = s.fget PLC_L_PWR0.MW n * air / (10 * 2 ^ g)) ∧ (s.txHeldOff n air = true))
    ∧ (∃ (s : State), ∃ (n : Nat), ∃ x, ∃ rest, ∃ air, ∃ amp, ∃ sched, ∃ mode, ∃ g, ∃ est, ((s.lane n).queue = x :: rest) ∧ ((s.lane n).air = none) ∧ ((s.lane n).ack = none) ∧ (s.laneOn n = true) ∧ (s.mayTransmit = true) ∧ (mode = (if nbit x.flags 4 then 2 else if nbit x.flags 3 then 1 else if x.bcast then s.fget PLC_L_MODE.BCAST n else s.linkMode (s.hopOf x.node))) ∧ (g = s.txGain n (if x.bcast then 0 else nbits (s.nf (s.hopOf x.node) 0x16 1) 3 0) amp) ∧ (est = s.fget PLC_L_PWR0.MW n * air / (10 * 2 ^ g)) ∧ (s.txHeldOff n air = false) ∧ (s.plcHolds n (est + sched) = true))
    ∧ (∃ (s : State), ∃ (n : Nat), ∃ x, ∃ rest, ∃ air, ∃ amp, ∃ sched, ∃ mode, ∃ g, ∃ est, ((s.lane n).queue = x :: rest) ∧ ((s.lane n).air = none) ∧ ((s.lane n).ack = none) ∧ (s.laneOn n = true) ∧ (s.mayTransmit = true) ∧ (mode = (if nbit x.flags 4 then 2 else if nbit x.flags 3 then 1 else if x.bcast then s.fget PLC_L_MODE.BCAST n else s.linkMode (s.hopOf x.node))) ∧ (g = s.txGain n (if x.bcast then 0 else nbits (s.nf (s.hopOf x.node) 0x16 1) 3 0) amp) ∧ (est = s.fget PLC_L_PWR0.MW n * air / (10 * 2 ^ g)) ∧ (s.txHeldOff n air = false) ∧ (s.plcHolds n (est + sched) = false))
    ∧ (∃ (s : State), ∃ (n : Nat), ∃ x, ∃ rest, ∃ (k : Nat), ∃ (it : Item), ((s.lane n).queue = x :: rest) ∧ ((s.lane n).air = none) ∧ ((s.lane n).ack = none) ∧ (s.laneOn n = true) ∧ (s.mayTransmit = false) ∧ (x.what = 0) ∧ (x.item = some k) ∧ (s.item k = some it))
    ∧ (∃ (s : State), ∃ n, ∃ x, ∃ (k : Nat), ∃ (it : Item), ((s.lane n).air = some x) ∧ (x.what = 0) ∧ (x.second = false) ∧ ((s.lane n).mark1 = none) ∧ (x.bcast = true ∨ nbit x.flags 1 = true) ∧ (x.item = some k) ∧ (s.item k = some it))
    ∧ (∃ (s : State), ∃ (n : Nat), ∃ x, ((s.lane n).air = some x) ∧ (x.what = 0) ∧ (x.second = false) ∧ ((s.lane n).mark1 = none) ∧ (x.bcast = false) ∧ (nbit x.flags 1 = false) ∧ (s.laneOn n = true))
    ∧ (∃ (s : State), ∃ (n : Nat), ∃ x, ((s.lane n).ack = some x) ∧ (x.second = false) ∧ (x.bcast = false) ∧ (nbit x.flags 1 = false) ∧ (s.laneOn n = true) ∧ (x.attempts < s.fget PLC_L_MAC.MAX_ATT n))
    ∧ (∃ (s : State), ∃ n, ∃ x, ∃ (k : Nat), ∃ (it : Item), ((s.lane n).air = some x) ∧ (x.what = 0) ∧ (x.item = some k) ∧ (s.item k = some it))
    ∧ (∃ (s : State), ∃ n, ∃ x, ∃ rest, ∃ (k : Nat), ∃ (it : Item), ((s.lane n).queue = x :: rest) ∧ (x.waiting = true) ∧ (x.item = some k) ∧ (s.item k = some it))
    ∧ (∃ (s : State), ∃ (n : Nat), ∃ fr, ∃ air, ((s.lane n).mark2 = some fr) ∧ (s.laneOn n = true) ∧ (s.mayTransmit = true) ∧ (s.fbit PLC_L_STAT.TX_ON n = false) ∧ (s.txKeyOk = true) ∧ (s.plcHolds n (s.freeEst n 0 air).1 = true))
    ∧ (∃ (s : State), ∃ n, ∃ fr, ((s.lane n).mark2 = some fr))
    ∧ (∃ (s : State), ∃ (n : Nat), ∃ fr, ((s.lane n).mark2 = some fr) ∧ (s.fbit PLC_L_STAT.TX_ON n = false) ∧ (s.txKeyOk = false))
    ∧ (∃ (s : State), ∃ (n : Nat), ∃ x, ∃ (k : Nat), ∃ (it : Item), ((s.lane n).mark2 = none) ∧ ((s.lane n).ack = some x) ∧ (x.second = true) ∧ (s.fbit PLC_L_STAT.TX_ON n = false) ∧ (s.laneOn n = false ∨ s.mayTransmit = false) ∧ (x.what = 0) ∧ (x.item = some k) ∧ (s.item k = some it))
    ∧ (∃ (s : State), ∃ (n : Nat), ∃ air, ((s.lane n).bcnDue = true) ∧ (s.laneOn n = true) ∧ (s.mayTransmit = true) ∧ (s.fbit PLC_L_STAT.TX_ON n = false) ∧ (s.plcHolds n (s.freeEst n 0 air).1 = true))
    ∧ (∃ (s : State), ∃ n, ((s.lane n).bcnDue = true))
    ∧ (∃ (s : State), ∃ n, ∃ (it : Item), ∃ p, (Ready s n 7 0 it) ∧ (nbit (it.f 2 2) 15 = false) ∧ (nbit (it.f 1 1) 2 = false) ∧ (0 < it.f 4 2) ∧ (it.f 4 2 ≤ 400) ∧ (s.laneOn (it.f 1 1 % 4) = true) ∧ (nbits (it.f 6 1) 5 3 = 0) ∧ (s.buf it false (it.f 4 2) = some p) ∧ (s.mayTransmit = true) ∧ (s.fget PLC_KEY_TX.IDX = 0) ∧ (s.fbit PLC_KEY0.VALID = true) ∧ (s.keysBlocked = false) ∧ ((s.lane (it.f 1 1 % 4)).queue.length < 64))
    ∧ (∃ (s : State), ∃ n, ∃ (it : Item), ∃ v, (Turned s n 7 0 v it))
    ∧ (∃ (s : State), ∃ n, ∃ (it : Item), ∃ p, (Ready s n 7 4 it) ∧ (it.tenant = 0) ∧ (0 < it.f 4 2) ∧ (it.f 4 2 ≤ 64) ∧ (s.laneOn (it.f 1 1 % 4) = true) ∧ (s.buf it false (it.f 4 2) = some p)) :=
  ⟨⟨(st [(PLC_L_STAT.STATE, 0, 2), (CHIP_MODE.MODE, 0, 5), (RES_PAIR_STAT.GRANT, 0, 1)]).setLane 0 { ({} : Lane) with queue := ({}) :: ([]), air := none, ack := none, mark2 := some [] }, 0, {}, [], 0, 0, own.linkMode 0, own.txGain 0 0 0, 0, by decide +kernel⟩,
    ⟨(st [(PLC_L_STAT.STATE, 0, 2), (CHIP_MODE.MODE, 0, 5), (RES_PAIR_STAT.GRANT, 0, 1)]).setLane 0 { ({} : Lane) with queue := ({}) :: ([]), air := none, ack := none }, 0, {}, [], 0, 0, 0, own.linkMode 0, own.txGain 0 0 0, 0, by decide +kernel⟩,
    ⟨(st [(PLC_L_STAT.STATE, 0, 2), (CHIP_MODE.MODE, 0, 5), (RES_PAIR_STAT.GRANT, 0, 1)]).setLane 0 { ({} : Lane) with queue := ({}) :: ([]), air := none, ack := none }, 0, {}, [], 0, 0, 2^40, own.linkMode 0, own.txGain 0 0 0, 0, by decide +kernel⟩,
    ⟨((st [(PLC_L_STAT.STATE, 0, 2)]).setLane 0 { ({} : Lane) with queue := ({ what := 0, item := some 1 }) :: ([]), air := none, ack := none }).setItem 1 (some (itm 7 0 [])), 0, { what := 0, item := some 1 }, [], 1, itm 7 0 [], by decide +kernel⟩,
    ⟨((own).setLane 0 { ({} : Lane) with air := some ({ what := 0, second := false, bcast := true, item := some 1 }), mark1 := none }).setItem 1 (some (itm 7 0 [])), 0, { what := 0, second := false, bcast := true, item := some 1 }, 1, itm 7 0 [], by decide +kernel⟩,
    ⟨(st [(PLC_L_STAT.STATE, 0, 2)]).setLane 0 { ({} : Lane) with air := some ({ what := 0, second := false, bcast := false }), mark1 := none }, 0, { what := 0, second := false, bcast := false }, by decide +kernel⟩,
    ⟨(st [(PLC_L_STAT.STATE, 0, 2)]).setLane 0 { ({} : Lane) with ack := some ({ second := false, bcast := false }) }, 0, { second := false, bcast := false }, by decide +kernel⟩,
    ⟨((own).setLane 0 { ({} : Lane) with air := some ({ what := 0, item := some 1 }) }).setItem 1 (some (itm 7 0 [])), 0, { what := 0, item := some 1 }, 1, itm 7 0 [], by decide +kernel⟩,
    ⟨((own).setLane 0 { ({} : Lane) with queue := ({ waiting := true, item := some 1 }) :: ([]) }).setItem 1 (some (itm 7 0 [])), 0, { waiting := true, item := some 1 }, [], 1, itm 7 0 [], by decide +kernel⟩,
    ⟨(st [(PLC_L_STAT.STATE, 0, 2), (CHIP_MODE.MODE, 0, 5), (RES_PAIR_STAT.GRANT, 0, 1), (PLC_L_STAT.TX_ON, 0, 0), (PLC_KEY0.VALID, 0, 1)]).setLane 0 { ({} : Lane) with mark2 := some ([]) }, 0, [], 0, by refine ⟨by decide +kernel, by decide +kernel, by decide +kernel, by decide +kernel, by decide +kernel, ?_⟩ ; rw [show ∀ s : State, (s.freeEst 0 0 0).1 = 0 from fun s => by simp [State.freeEst]] ; decide +kernel⟩,
    ⟨(own).setLane 0 { ({} : Lane) with mark2 := some ([]) }, 0, [], by decide +kernel⟩,
    ⟨(st [(PLC_L_STAT.TX_ON, 0, 0)]).setLane 0 { ({} : Lane) with mark2 := some ([]) }, 0, [], by decide +kernel⟩,
    ⟨((st [(PLC_L_STAT.TX_ON, 0, 0)]).setLane 0 { ({} : Lane) with mark2 := none, ack := some ({ second := true, what := 0, item := some 1 }) }).setItem 1 (some (itm 7 0 [])), 0, { second := true, what := 0, item := some 1 }, 1, itm 7 0 [], by decide +kernel⟩,
    ⟨(st [(PLC_L_STAT.STATE, 0, 2), (CHIP_MODE.MODE, 0, 5), (RES_PAIR_STAT.GRANT, 0, 1), (PLC_L_STAT.TX_ON, 0, 0)]).setLane 0 { ({} : Lane) with bcnDue := true }, 0, 0, by refine ⟨by decide +kernel, by decide +kernel, by decide +kernel, by decide +kernel, ?_⟩ ; rw [show ∀ s : State, (s.freeEst 0 0 0).1 = 0 from fun s => by simp [State.freeEst]] ; decide +kernel⟩,
    ⟨(own).setLane 0 { ({} : Lane) with bcnDue := true }, 0, by decide +kernel⟩,
    ⟨(st [(PLC_L_STAT.STATE, ((itm 7 0 [(4, 2, 400)]).f 1 1 % 4), 2), (CHIP_MODE.MODE, 0, 5), (RES_PAIR_STAT.GRANT, 0, 1), (PLC_KEY_TX.IDX, 0, 0), (PLC_KEY0.VALID, 0, 1)]).setItem 1 (some (itm 7 0 [(4, 2, 400)])), 1, itm 7 0 [(4, 2, 400)], List.replicate 400 0, by simp only [Ready]; decide +kernel⟩,
    ⟨(own).setItem 1 (some ({ itm 7 0 [] with verdict := 0x23 })), 1, { itm 7 0 [] with verdict := 0x23 }, 0x23, by simp only [Turned]; decide +kernel⟩,
    ⟨(st [(PLC_L_STAT.STATE, (({ itm 7 4 [(4, 2, 1)] with tenant := 0 }).f 1 1 % 4), 2)]).setItem 1 (some ({ itm 7 4 [(4, 2, 1)] with tenant := 0 })), 1, { itm 7 4 [(4, 2, 1)] with tenant := 0 }, List.replicate 1 0, by simp only [Ready]; decide +kernel⟩⟩

/-- Something meets the hypotheses of each clause of NodeTable. -/
theorem witness_NodeTable :
    (∃ (s : State), ∃ n, ∃ (it : Item), (Ready s n 7 2 it) ∧ (s.winOk it.task true (it.f 8 8) 40 = true))
    ∧ (∃ (s : State), ∃ n, ∃ (it : Item), ∃ (b : List Byte), ∃ st, ∃ (s' : State), (Ready s n 7 3 it) ∧ (s.buf it true 32 = some b) ∧ (s.nodeWriteBy it.tenant (it.f 2 2 % 32768) (it.f 0x10 4) b = (st, s')))
    ∧ (∃ (s : State), ∃ n, ∃ (it : Item), ∃ p, ∃ l, ∃ (k : Nat), (Ready s n 7 1 it) ∧ (0 < it.f 4 2) ∧ (it.f 4 2 ≤ 4096) ∧ (s.buf it false (it.f 4 2) = some p) ∧ (s.nodeLedger (it.f 2 2 % 32768) = some (l, k)) ∧ ((tget [] s.pip.ingest (it.f 1 1 % 4)).length < 256) ∧ (s.ownsLedger k l = true) ∧ (s.tenOn k = true) ∧ (s.ten.active.ownsNode k (it.f 2 2 % 32768) = true) ∧ (s.ledExists l = true) ∧ ((s.routeTask k 0).isSome = true))
    ∧ (∃ (s : State), ∃ (it : Item), (s.tenOn it.tenant = true) ∧ (it.engine = 7) ∧ (it.op < 4) ∧ ((it.op = 0 → nbit (it.f 2 2) 15 = false)) ∧ (s.ten.active.ownsNode it.tenant (it.f 2 2 % 32768) = false))
    ∧ (∃ (s : State), ∃ n, ∃ (it : Item), ∃ op, ∃ v, (Turned s n 7 op v it) ∧ (op = 2))
    ∧ (∃ (s : State), ∃ n, ∃ (it : Item), ∃ op, ∃ v, (Turned s n 7 op v it) ∧ (op = 3))
    ∧ (∃ (s : State), ∃ n, ∃ (it : Item), ∃ op, ∃ v, (Turned s n 7 op v it) ∧ (op = 1))
    ∧ (∃ (s : State), ∃ host, (Open s host .plc))
    ∧ (∃ (s : State), ∃ host, ∃ e, (Open s host .plc) ∧ (s.plc.nodes = []) ∧ (e = (List.range 8).flatMap (fun k => leB 4 (s.fget PLC_NODE_D.DATA (8 * host + k))))) :=
  ⟨⟨(own).setItem 1 (some (itm 7 2 [])), 1, itm 7 2 [], by simp only [Ready]; decide +kernel⟩,
    ⟨(own).setItem 1 (some (itm 7 3 [])), 1, itm 7 3 [], List.replicate 32 0, (((own).setItem 1 (some (itm 7 3 []))).nodeWriteBy 0 0 0 (List.replicate 32 0)).1, (((own).setItem 1 (some (itm 7 3 []))).nodeWriteBy 0 0 0 (List.replicate 32 0)).2, by simp only [Ready]; decide +kernel⟩,
    ⟨{ (own).setItem 1 (some (itm 7 1 [(4, 2, 8)])) with plc.nodes := [(0, (List.replicate 15 0 ++ [128] : List Byte))] }, 1, itm 7 1 [(4, 2, 8)], List.replicate 8 0, 0, 0, by simp only [Ready]; decide +kernel⟩,
    ⟨(own).setItem 1 (some ({ itm 7 1 [(2, 2, 100)] with  })), { itm 7 1 [(2, 2, 100)] with  }, by decide +kernel⟩,
    ⟨(own).setItem 1 (some ({ itm 7 2 [] with verdict := 0x23 })), 1, { itm 7 2 [] with verdict := 0x23 }, 2, 0x23, by simp only [Turned]; decide +kernel⟩,
    ⟨(own).setItem 1 (some ({ itm 7 3 [] with verdict := 0x23 })), 1, { itm 7 3 [] with verdict := 0x23 }, 3, 0x23, by simp only [Turned]; decide +kernel⟩,
    ⟨(own).setItem 1 (some ({ itm 7 1 [] with verdict := 0x23 })), 1, { itm 7 1 [] with verdict := 0x23 }, 1, 0x23, by simp only [Turned]; decide +kernel⟩,
    ⟨own, 0, by simp only [Open]; decide +kernel⟩,
    ⟨{ own with plc.nodes := [] }, 0, List.replicate 32 0, by simp only [Open]; decide +kernel⟩⟩

/-- Something meets the hypotheses of each clause of MrtSession. -/
theorem witness_MrtSession :
    (∃ (s : State), ∃ p, ∃ h, ∃ f, ∃ (body : List Byte), ∃ (slot : Nat), (MrtIn s p h 1 f (mrtKey (s.slotKey slot).key h 0 [] []) body) ∧ (slot = s.fget RNG_H_MRT_CFG.KEY_SLOT h) ∧ (s.slotIs slot 3 = true) ∧ (s.keysBlocked = false) ∧ (s.fbit KV_STAT.TRNG_OK = true) ∧ (leAt (f.drop (ethOff f)) 4 4 = 0) ∧ ((s.host h).mrt.isOpen = false))
    ∧ (∃ (s : State), ∃ p, ∃ h, ∃ f, (MrtForm s p h 0x10 f) ∧ ((s.host h).mrt.isOpen = true) ∧ (leAt (f.drop (ethOff f)) 4 4 = s.mrtSession h) ∧ (mrtOpen (s.host h).mrt.key (f.drop (ethOff f)) = none))
    ∧ (∃ (s : State), ∃ p, ∃ h, ∃ f, ∃ (body : List Byte), (MrtOn s p h 0x10 f body) ∧ (2 ^ 31 ≤ seqAhead s h f ∨ (tget none (s.host h).mrt.held (leAt (f.drop (ethOff f)) 8 4)).isSome = true))
    ∧ (∃ (s : State), ∃ p, ∃ h, ∃ f, ∃ (body : List Byte), (MrtOn s p h 0x10 f body) ∧ (64 ≤ seqAhead s h f) ∧ (seqAhead s h f < 2 ^ 31) ∧ (tget none (s.host h).mrt.held (leAt (f.drop (ethOff f)) 8 4) = none))
    ∧ (∃ (s : State), ∃ p, ∃ h, ∃ f, ∃ (body : List Byte), (MrtOn s p h 0x10 f body) ∧ (0 < seqAhead s h f) ∧ (seqAhead s h f < 64) ∧ (tget none (s.host h).mrt.held (leAt (f.drop (ethOff f)) 8 4) = none))
    ∧ (∃ (s : State), ∃ p, ∃ h, ∃ f, ∃ (body : List Byte), (MrtOn s p h 0x10 f body) ∧ (seqAhead s h f = 0) ∧ ((s.host h).mrt.rxExp < 2 ^ 32) ∧ ((s.host h).mrt.held = []) ∧ (leAt (f.drop (ethOff f)) 0x1A 1 = 0))
    ∧ (∃ (s : State), ∃ p, ∃ h, ∃ f, ∃ (body : List Byte), ∃ r, ∃ (slot : Nat), ∃ d, (MrtOn s p h 0x10 f body) ∧ (seqAhead s h f = 0) ∧ ((s.host h).mrt.rxExp < 2 ^ 32) ∧ ((s.host h).mrt.held = []) ∧ (leAt (f.drop (ethOff f)) 0x1A 1 = 1) ∧ (body = mrtItem 1 r slot d) ∧ (r < 4096) ∧ (slot < s.ringSize r) ∧ (s.ringSize r ≤ 65536) ∧ (64 ≤ d.length) ∧ (d.length ≤ 8192) ∧ (descBytes body 1 ≤ 8388608 - s.mrtUsed h) ∧ (s.ringHost r = h) ∧ (s.fbit RNG_H_STAT.UP h = true) ∧ (s.fget RNG_R_CFG.TYPE r = 0) ∧ (s.fget RNG_R_STAT.STATE r = 2) ∧ (slot = s.fget RNG_R_SQ.TAIL r) ∧ (s.desc r slot = none) ∧ (tget none (s.ring r).stored slot = none))
    ∧ (∃ (s : State), ∃ p, ∃ h, ∃ f, ∃ (body : List Byte), ∃ ack, (MrtIn s p h 0x30 f (s.host h).mrt.key body) ∧ ((s.host h).mrt.isOpen = true) ∧ (leAt (f.drop (ethOff f)) 4 4 = s.mrtSession h) ∧ ((s.host h).mrt.queued = []) ∧ (ack = leAt (f.drop (ethOff f)) 0x0C 4) ∧ (newer32 ack (s.host h).mrt.txSeq = false) ∧ ((∃ x ∈ (s.host h).mrt.unacked, newer32 ack x.seq = true)))
    ∧ (∃ (s : State), ∃ p, ∃ h, ∃ f, ∃ (body : List Byte), ∃ x, ∃ rest, (MrtIn s p h 0x31 f (s.host h).mrt.key body) ∧ ((s.host h).mrt.isOpen = true) ∧ (leAt (f.drop (ethOff f)) 4 4 = s.mrtSession h) ∧ ((s.host h).mrt.unacked = x :: rest) ∧ (leAt (f.drop (ethOff f)) 0x0C 4 = x.seq) ∧ ((∀ y ∈ (s.host h).mrt.unacked, newer32 x.seq y.seq = false)) ∧ ((s.host h).mrt.retx < s.fget RNG_MRT_TMO.RETRIES))
    ∧ (∃ (s : State), ∃ p, ∃ h, ∃ f, ∃ (body : List Byte), (MrtOn s p h 0x40 f body) ∧ ((∀ e ∈ tget [] s.regs RNG_R_STAT.STATE.id, s.ringHost e.1 ≠ h)) ∧ (s.prm.locks = []))
    ∧ (∃ (s : State), ∃ h, ∃ x, ∃ rest, (h < 8) ∧ ((s.host h).mrt.isOpen = true) ∧ ((s.host h).mrt.unacked = x :: rest) ∧ ((s.host h).mrt.retx < s.fget RNG_MRT_TMO.RETRIES))
    ∧ (∃ (s : State), ∃ h, (h < 8) ∧ ((s.host h).mrt.isOpen = true) ∧ ((s.host h).mrt.unacked = []))
    ∧ (∃ (s : State), ∃ h, (h < 8) ∧ ((s.host h).mrt.isOpen = true))
    ∧ (∃ (s : State), ∃ h, (h < 8) ∧ ((s.host h).mrt.isOpen = true) ∧ ((∀ e ∈ tget [] s.regs RNG_R_STAT.STATE.id, s.ringHost e.1 ≠ h)) ∧ (s.prm.locks = []))
    ∧ (∃ (s : State), ∃ h, ∃ x, ∃ rest, (h < 8) ∧ ((s.host h).mrt.isOpen = true) ∧ ((∀ e ∈ tget [] s.regs RNG_R_STAT.STATE.id, s.ringHost e.1 ≠ h)) ∧ (s.prm.locks = []) ∧ ((s.host h).mrt.unacked = x :: rest) ∧ (s.fget RNG_MRT_TMO.RETRIES ≤ (s.host h).mrt.retx))
    ∧ (∃ (s : State), ∃ h, ((s.host h).mrt.isOpen = false)) :=
  ⟨⟨({ put (mrtS {}) [(KV_S_INFO.STATE, 0, 1), (KV_S_INFO.ATTR, 0, 3)] with ten.active.slot := [(0, 0x8000)] }).setHost 3 {}, 0, 3, mrtF (mrtKey [] 3 0 [] []) 1 0 0 0 0 (List.replicate 16 0), List.replicate 16 0, 0, by exact ⟨⟨mrtF_form _ _ _ _ _ _ _ (Laws.mrtKey_length ..) (by decide) (by decide) (by decide) (by decide +kernel), mrtF_open (mrtKey [] 3 0 [] []) _ _ _ _ _ _ (Laws.mrtKey_length ..) (by decide) (by decide) (by decide)⟩, by decide +kernel, by decide +kernel, by decide +kernel, by decide +kernel, (mrtF_at _ _ _ _ _ _ _ (Laws.mrtKey_length ..) (by decide) (by decide) (by decide) _ rfl).1, rfl⟩⟩,
    ⟨(mrtS {}).setHost 3 { mrt := { isOpen := true } }, 0, 3, mrtG 0x10 1 0 0 [], by exact ⟨mrtF_form _ _ _ _ _ _ _ (by rfl) (by decide) (by decide) (by decide) (by decide +kernel), rfl, mrtS_session {} _ _ _ _ _ (by decide) (by decide), Laws.mrtOpen_nil _⟩⟩,
    ⟨mrtS { rxExp := 5 }, 0, 3, mrtG 0x10 4 0 0 [], [], by exact ⟨mrtS_on _ _ _ _ _ _ (by decide) (by decide) ⟨rfl, rfl⟩, Or.inl (by rw [mrtS_ahead _ _ _ _ _ _ (by decide) (by decide)]; decide)⟩⟩,
    ⟨mrtS {}, 0, 3, mrtG 0x10 65 0 0 [], [], by exact ⟨mrtS_on _ _ _ _ _ _ (by decide) (by decide) ⟨rfl, rfl⟩, by rw [mrtS_ahead _ _ _ _ _ _ (by decide) (by decide)]; decide, by rw [mrtS_ahead _ _ _ _ _ _ (by decide) (by decide)]; decide, rfl⟩⟩,
    ⟨mrtS {}, 0, 3, mrtG 0x10 64 0 0 [], [], by exact ⟨mrtS_on _ _ _ _ _ _ (by decide) (by decide) ⟨rfl, rfl⟩, by rw [mrtS_ahead _ _ _ _ _ _ (by decide) (by decide)]; decide, by rw [mrtS_ahead _ _ _ _ _ _ (by decide) (by decide)]; decide, rfl⟩⟩,
    ⟨mrtS {}, 0, 3, mrtG 0x10 1 0 0 [], [], by exact ⟨mrtS_on _ _ _ _ _ _ (by decide) (by decide) ⟨rfl, rfl⟩, by rw [mrtS_ahead _ _ _ _ _ _ (by decide) (by decide)]; decide, by decide, rfl, (mrtF_at (List.replicate 16 0) _ 7 _ _ _ _ rfl (by decide) (by decide) (by decide) _ rfl).2.2.2⟩⟩,
    ⟨(put (mrtS {}) [(RNG_R_CFG.HOST, 0, 3), (RNG_H_STAT.UP, 3, 1), (RNG_R_CFG.SIZE_LOG2, 0, 4), (RNG_R_STAT.STATE, 0, 2)]), 0, 3, mrtG 0x10 1 0 1 (mrtItem 1 0 0 (List.replicate 64 0)), mrtItem 1 0 0 (List.replicate 64 0), 0, 0, List.replicate 64 0, by obtain ⟨a1, a2, a3, a4⟩ := mrtF_at (List.replicate 16 0) 0x10 7 1 0 1 (mrtItem 1 0 0 (List.replicate 64 0)) rfl (by decide +kernel) (by decide +kernel) (by decide +kernel) _ rfl; refine ⟨⟨⟨mrtF_form _ _ _ _ _ _ _ (by rfl) (by decide +kernel) (by decide +kernel) (by decide +kernel) (by decide +kernel), ?_⟩, by decide +kernel, a1.trans (by decide +kernel), by decide +kernel, by decide +kernel⟩, ?_⟩; exact (show ((put (mrtS {}) [(RNG_R_CFG.HOST, 0, 3), (RNG_H_STAT.UP, 3, 1), (RNG_R_CFG.SIZE_LOG2, 0, 4), (RNG_R_STAT.STATE, 0, 2)]).host 3).mrt.key = (List.replicate 16 0) by decide +kernel) ▸ mrtF_open (List.replicate 16 0) 0x10 7 1 0 1 (mrtItem 1 0 0 (List.replicate 64 0)) rfl (by decide +kernel) (by decide +kernel) (by decide +kernel); rw [seqAhead, a2, a4]; decide +kernel⟩,
    ⟨mrtS { txSeq := 3, unacked := [⟨1, []⟩, ⟨2, []⟩] }, 0, 3, mrtG 0x30 1 2 0 [], [], 2, by exact ⟨mrtS_in _ 0x30 _ _ _ _ (by decide) (by decide), rfl, mrtS_session _ 0x30 _ _ _ _ (by decide) (by decide), rfl, ((mrtF_at (List.replicate 16 0) 0x30 7 1 2 0 [] rfl (by decide) (by decide) (by decide) _ rfl).2.2.1).symm, by decide, by decide⟩⟩,
    ⟨mrtS { txSeq := 2, unacked := [⟨1, []⟩] }, 0, 3, mrtG 0x31 1 1 0 [], [], ⟨1, []⟩, [], by exact ⟨mrtS_in _ _ _ _ _ _ (by decide) (by decide), rfl, mrtS_session _ _ _ _ _ _ (by decide) (by decide), rfl, (mrtF_at (List.replicate 16 0) _ 7 _ _ _ _ rfl (by decide) (by decide) (by decide) _ rfl).2.2.1, by decide, by decide +kernel⟩⟩,
    ⟨mrtS {}, 0, 3, mrtG 0x40 1 0 0 [], [], by exact ⟨mrtS_on _ _ _ _ _ _ (by decide) (by decide) ⟨rfl, rfl⟩, by decide +kernel, rfl⟩⟩,
    ⟨(st [(RNG_MRT_TMO.RETRIES, 0, 4)]).setHost 0 { ({} : HostA) with mrt.isOpen := true, mrt.unacked := (⟨1, []⟩) :: ([]) }, 0, ⟨1, []⟩, [], by decide +kernel⟩,
    ⟨(own).setHost 0 { ({} : HostA) with mrt.isOpen := true, mrt.unacked := [] }, 0, by decide +kernel⟩,
    ⟨(own).setHost 0 { ({} : HostA) with mrt.isOpen := true }, 0, by decide +kernel⟩,
    ⟨{ (own).setHost 0 { ({} : HostA) with mrt.isOpen := true } with prm.locks := [] }, 0, by decide +kernel⟩,
    ⟨{ (st [(RNG_MRT_TMO.RETRIES, 0, 4)]).setHost 0 { ({} : HostA) with mrt.isOpen := true, mrt.unacked := (⟨1, []⟩) :: ([]), mrt.retx := 4 } with prm.locks := [] }, 0, ⟨1, []⟩, [], by decide +kernel⟩,
    ⟨(own).setHost 0 { ({} : HostA) with mrt.isOpen := false }, 0, by decide +kernel⟩⟩

/-- Something meets the hypotheses of each clause of EthernetPorts. -/
theorem witness_EthernetPorts :
    (∃ (s : State), ∃ p, (s.mode ≠ 0) ∧ (p < 3) ∧ (s.fget ETH_P_STAT.STATE p = 2))
    ∧ (∃ (s : State), ∃ p, ∃ f, (Arrives s p f) ∧ (ethType f = 0x8808))
    ∧ (∃ (s : State), ∃ p, ∃ f, (Arrives s p f) ∧ (p < 2) ∧ (ethType f ≠ 0x8808) ∧ (s.fget ETH_CFG.MODE = 0) ∧ (s.forUs f = false))
    ∧ (∃ (s : State), ∃ p, ∃ f, ∃ q, (Arrives s p f) ∧ (p < 2) ∧ (q = 1 - p) ∧ (ethType f ≠ 0x8808) ∧ (s.fget ETH_CFG.MODE = 1) ∧ (s.forUs f = false) ∧ (s.eth.fdb.ents = []) ∧ (ethOff f = 14) ∧ (f.take 6 ≠ slice f 6 6) ∧ (s.fget ETH_P_STAT.STATE q = 2) ∧ (s.fbit ETH_P_STAT.LINK q = true))
    ∧ (∃ (s : State), ∃ host, ∃ value, ∃ (n : Nat), (OpenW s host .eth 0 n) ∧ (nbit value 0 = true) ∧ (s.fget ETH_P_STAT.STATE n = 0))
    ∧ (∃ (s : State), ∃ host, ∃ value, ∃ (n : Nat), (OpenW s host .eth 0 n) ∧ (nbit value 0 = false) ∧ (s.fget ETH_P_STAT.STATE n = 2))
    ∧ (∃ (s : State), ∃ host, ∃ value, ∃ n, (OpenW s host .eth 0 n) ∧ (nbit value 0 = true))
    ∧ (∃ p, (p < 3))
    ∧ (∃ (s : State), ∃ host, ∃ (value : Nat), ∃ e, (Open s host .eth) ∧ ((∀ x ∈ s.eth.fdb.ents, x.bad = false)) ∧ (value % 8 = 1) ∧ (s.eth.fdb.ents.find? (fun x => x.key == fdbKeyOf s host) = some e))
    ∧ (∃ (s : State), ∃ host, ∃ (value : Nat), (Open s host .eth) ∧ ((∀ x ∈ s.eth.fdb.ents, x.bad = false)) ∧ (value % 8 = 1) ∧ (s.eth.fdb.ents.any (fun x => x.key == fdbKeyOf s host) = false))
    ∧ (∃ (s : State), ∃ host, ∃ (value : Nat), (Open s host .eth) ∧ ((∀ x ∈ s.eth.fdb.ents, x.bad = false)) ∧ (value % 8 = 2) ∧ (s.eth.fdb.ents.any (fun x => x.key == fdbKeyOf s host) = false) ∧ (s.eth.fdb.ents.any (fun x => x.bucket == s.fdbSet (fdbKeyOf s host)) = false))
    ∧ (∃ (s : State), ∃ host, ∃ (value : Nat), (Open s host .eth) ∧ ((∀ x ∈ s.eth.fdb.ents, x.bad = false)) ∧ (value % 8 = 3))
    ∧ (∃ (s : State), ∃ host, ∃ (value : Nat), (Open s host .eth) ∧ ((∀ x ∈ s.eth.fdb.ents, x.bad = false)) ∧ (value % 8 = 4))
    ∧ (∃ (s : State), (s.fget ETH_CFG.MODE = 2))
    ∧ (∃ (s : State), (s.fget ETH_CFG.MODE ≠ 2))
    ∧ (∃ (s : State), ∃ node, (s.eth.nodes.any (fun n => n.mac == node) = true))
    ∧ (∃ (s : State), ∃ node, (s.eth.nodes.any (fun n => n.mac == node) = true))
    ∧ (∃ (s : State), ∃ p, (s.ptpOn p = true)) :=
  ⟨⟨st [(ETH_P_STAT.STATE, 0, 2)], 0, by decide +kernel⟩,
    ⟨st [(ETH_P_STAT.STATE, 0, 2)], 0, List.replicate 12 0 ++ [0x88, 0x08] ++ List.replicate 46 0, by simp only [Arrives]; decide +kernel⟩,
    ⟨st [(ETH_CFG.MODE, 0, 0), (ETH_P_STAT.STATE, 0, 2)], 0, List.replicate 12 3 ++ [8, 1] ++ List.replicate 46 0, by simp only [Arrives]; decide +kernel⟩,
    ⟨{ st [(ETH_CFG.MODE, 0, 1), (ETH_P_STAT.STATE, 1, 2), (ETH_P_STAT.LINK, 1, 1), (ETH_P_STAT.STATE, 1, 2), (ETH_P_STAT.STATE, 0, 2), (ETH_P_STAT.LINK, 1, 1)] with eth.fdb.ents := [] }, 0, List.replicate 6 3 ++ List.replicate 6 5 ++ [8, 1] ++ List.replicate 46 0, 1, by simp only [Arrives]; decide +kernel⟩,
    ⟨st [(ETH_P_STAT.STATE, 0, 0)], 0, 1, 0, by simp only [OpenW, Open]; decide +kernel⟩,
    ⟨st [(ETH_P_STAT.STATE, 0, 2)], 0, 0, 0, by simp only [OpenW, Open]; decide +kernel⟩,
    ⟨own, 0, 1, 0, by simp only [OpenW, Open]; decide +kernel⟩,
    ⟨0, by decide +kernel⟩,
    ⟨{ own with eth.fdb := { ents := [({ key := 0, value := 0 })] } }, 0, 1, { key := 0, value := 0 }, by simp only [Open]; decide +kernel⟩,
    ⟨own, 0, 1, by simp only [Open]; decide +kernel⟩,
    ⟨own, 0, 2, by simp only [Open]; decide +kernel⟩,
    ⟨own, 0, 3, by simp only [Open]; decide +kernel⟩,
    ⟨own, 0, 4, by simp only [Open]; decide +kernel⟩,
    ⟨st [(ETH_CFG.MODE, 0, 2)], by decide +kernel⟩,
    ⟨st [(ETH_CFG.MODE, 0, 0)], by decide +kernel⟩,
    ⟨{ own with eth.nodes := [{ mac := 0 }] }, 0, by decide +kernel⟩,
    ⟨{ own with eth.nodes := [{ mac := 0 }] }, 0, by decide +kernel⟩,
    ⟨st [(ETH_P_STAT.STATE, 0, 2), (ETH_P_CFG.PTP_EN, 0, 1)], 0, by decide +kernel⟩⟩

/-- Something meets the hypotheses of each clause of RadioFrames. -/
theorem witness_RadioFrames :
    (∃ (s : State), ∃ host, ∃ value, ∃ (n : Nat), (OpenW s host .rfm 0 n) ∧ (nbit value 0 = true) ∧ (s.centre = false) ∧ (s.fget RFM_R_STAT.STATE n = 0))
    ∧ (∃ (s : State), ∃ host, ∃ value, ∃ n, (OpenW s host .rfm 0 n) ∧ (nbit value 0 = true) ∧ (s.centre = true))
    ∧ (∃ (s : State), ∃ host, ∃ value, ∃ (n : Nat), (OpenW s host .rfm 0 n) ∧ (nbit value 0 = false) ∧ (s.fget RFM_R_STAT.STATE n = 2) ∧ (s.connsOf n = []) ∧ ((s.radio n).queue = []) ∧ ((s.radio n).ack = none) ∧ ((s.radio n).held = []) ∧ ((s.radio n).resp = none))
    ∧ (∃ (s : State), ∃ host, ∃ value, ∃ n, (OpenW s host .rfm 0 n) ∧ (nbit value 0 = true))
    ∧ (∃ (s : State), ∃ (n : Nat), (n < 2) ∧ (s.radioOn n = true) ∧ (s.rx n = 0 ∨ s.rx n = 4))
    ∧ (∃ (s : State), ∃ (n : Nat), ∃ rssi, ∃ c, (n < 2) ∧ (s.radioOn n = true) ∧ (s.rx n = 1 ∨ s.rx n = 2) ∧ ((s.radio n).now = some c) ∧ ((s.radio n).win = none) ∧ (c.rssi + (s.fget RFM_R_CAP.MARGIN n : Nat) ≤ rssi))
    ∧ (∃ (s : State), ∃ (n : Nat), ∃ rssi, ∃ c, (n < 2) ∧ (s.radioOn n = true) ∧ (s.rx n = 1 ∨ s.rx n = 2) ∧ ((s.radio n).now = some c) ∧ ((s.radio n).win = none) ∧ (rssi < c.rssi + (s.fget RFM_R_CAP.MARGIN n : Nat)))
    ∧ (∃ (s : State), ∃ (n : Nat), (s.rx n = 1))
    ∧ (∃ (s : State), ∃ (n : Nat), (s.rx n = 1) ∧ ((s.radio n).win = none))
    ∧ (∃ (s : State), ∃ (n : Nat), (n < 2) ∧ (s.rx n = 2) ∧ ((s.radio n).win = none))
    ∧ (∃ (s : State), ∃ (n : Nat), ∃ (f : RfFrame), ∃ x, ∃ h, ∃ (k : Nat), ∃ (it : Item), (n < 2) ∧ (s.rx n = 2) ∧ ((s.radio n).win = none) ∧ (f.kind = 1) ∧ (f.parity = false) ∧ (s.radioNode f.srcKind f.src = some h) ∧ ((s.radio n).ack = some x) ∧ (x.node = h) ∧ (x.item = some k) ∧ (s.item k = some it))
    ∧ (∃ (s : State), ∃ (n : Nat), ∃ (f : RfFrame), (n < 2) ∧ (s.rx n = 2) ∧ ((s.radio n).win = none) ∧ (f.kind = 0) ∧ (f.secured = true) ∧ (f.tagOk = false))
    ∧ (∃ (s : State), ∃ (n : Nat), ∃ (f : RfFrame), ∃ a, ∃ q, (n < 2) ∧ (s.rx n = 2) ∧ ((s.radio n).win = none) ∧ (f.kind = 0) ∧ (f.secured = false) ∧ (f.parity = false) ∧ (f.toEui = false) ∧ (s.isRfUs f.dst = false) ∧ (f.mesh = none) ∧ (s.radioNode f.srcKind f.src = none) ∧ (s.rfm.recent = []) ∧ (s.mode ≠ 4) ∧ (q = (s.radio n).slowSeq) ∧ (a = s.base RFM_SLOW_LO.BASE_LO 22 RFM_SLOW_HI.BASE_HI + n * 2097152 + q % 512 * 4096))
    ∧ (∃ (s : State), ∃ (n : Nat), ∃ x, ∃ rest, ∃ air, (n < 2) ∧ (s.radioOn n = true) ∧ ((s.radio n).air = none) ∧ ((s.radio n).win = none) ∧ ((s.radio n).resp = none) ∧ ((s.radio n).ack = none) ∧ ((s.radio n).queue = x :: rest) ∧ (s.mayTransmit = true) ∧ (s.connsOf n = []) ∧ (s.radHolds n air = true))
    ∧ (∃ (s : State), ∃ (n : Nat), ∃ x, ∃ rest, ∃ air, (n < 2) ∧ (s.radioOn n = true) ∧ ((s.radio n).air = none) ∧ ((s.radio n).win = none) ∧ ((s.radio n).resp = none) ∧ ((s.radio n).ack = none) ∧ ((s.radio n).queue = x :: rest) ∧ (s.mayTransmit = true) ∧ (s.connsOf n = []) ∧ (s.radHolds n air = false))
    ∧ (∃ (s : State), ∃ (n : Nat), ∃ x, ∃ rest, ∃ (k : Nat), ∃ (it : Item), (n < 2) ∧ (s.radioOn n = true) ∧ ((s.radio n).air = none) ∧ ((s.radio n).win = none) ∧ ((s.radio n).resp = none) ∧ ((s.radio n).ack = none) ∧ ((s.radio n).queue = x :: rest) ∧ (s.mayTransmit = false) ∧ (x.item = some k) ∧ (s.item k = some it))
    ∧ (∃ (s : State), ∃ n, ∃ x, ∃ (k : Nat), ∃ (it : Item), ((s.radio n).air = some x) ∧ (x.what = 0) ∧ (x.bcast = true ∨ nbit x.flags 0 = true) ∧ (x.item = some k) ∧ (s.item k = some it))
    ∧ (∃ (s : State), ∃ (n : Nat), ∃ x, ((s.radio n).air = some x) ∧ (x.what = 0) ∧ (x.bcast = false) ∧ (nbit x.flags 0 = false) ∧ (s.radioOn n = true))
    ∧ (∃ (s : State), ∃ (n : Nat), ∃ x, ((s.radio n).ack = some x) ∧ (s.radioOn n = true) ∧ (x.attempts < s.fget RFM_R_MAC.MAX_ATT n))
    ∧ (∃ (s : State), ∃ n, ∃ x, ∃ rest, ∃ (k : Nat), ∃ (it : Item), ((s.radio n).queue = x :: rest) ∧ (x.waiting = true) ∧ (x.item = some k) ∧ (s.item k = some it))
    ∧ (∃ (s : State), ∃ n, ∃ x, ∃ (k : Nat), ∃ (it : Item), ((s.radio n).held.find? (fun y => y.item == some k) = some x) ∧ (s.item k = some it))
    ∧ (∃ (s : State), ∃ n, ∃ (it : Item), ∃ p, ∃ r, ∃ node, (Ready s n 8 0 it) ∧ (r = it.f 1 1 % 2) ∧ (node = it.f 2 2 % 32768) ∧ (nbit (it.f 2 2) 15 = false) ∧ (0 < it.f 4 2) ∧ (it.f 4 2 ≤ 2000) ∧ (s.radioOn r = true) ∧ (nbits (it.f 6 1) 3 1 = 0) ∧ (nbits (s.nf node 0x15 1) 4 3 = 0) ∧ (s.buf it false (it.f 4 2) = some p) ∧ (s.mayTransmit = true) ∧ (s.radQueued r < 64) ∧ ((s.rfKey (s.fget RFM_KEY_TX.IDX) true).isSome = true))
    ∧ (∃ (s : State), ∃ n, ∃ (it : Item), ∃ v, (Turned s n 8 0 v it))
    ∧ (∃ (s : State), ∃ n, ∃ (it : Item), ∃ p, ∃ l, ∃ (k : Nat), ∃ r, ∃ node, (Ready s n 8 1 it) ∧ (r = it.f 1 1 % 2) ∧ (node = it.f 2 2 % 32768) ∧ (0 < it.f 4 2) ∧ (it.f 4 2 ≤ 4096) ∧ (s.radioOn r = true) ∧ (s.buf it false (it.f 4 2) = some p) ∧ (s.nodeLedger node = some (l, k)) ∧ ((tget [] s.pip.ingest (4 + r)).length < 128) ∧ (s.ownsLedger k l = true) ∧ (s.tenOn k = true) ∧ (s.ten.active.ownsNode k node = true) ∧ (s.ledExists l = true) ∧ ((s.routeTask k 0).isSome = true))
    ∧ (∃ (s : State), ∃ n, ∃ (it : Item), ∃ v, (Turned s n 8 1 v it)) :=
  ⟨⟨st [(CHIP_ROLE.CENTRE, 0, 0), (RFM_R_STAT.STATE, 0, 0)], 0, 1, 0, by simp only [OpenW, Open]; decide +kernel⟩,
    ⟨st [(CHIP_ROLE.CENTRE, 0, 1)], 0, 1, 0, by simp only [OpenW, Open]; decide +kernel⟩,
    ⟨(st [(RFM_R_STAT.STATE, 0, 2)]).setRadio 0 { ({} : Radio) with queue := [], ack := none, held := [], resp := none }, 0, 0, 0, by simp only [OpenW, Open]; decide +kernel⟩,
    ⟨own, 0, 1, 0, by simp only [OpenW, Open]; decide +kernel⟩,
    ⟨st [(RFM_R_STAT.STATE, 0, 2), (RFM_R_STAT.RXSTATE, 0, 0)], 0, by decide +kernel⟩,
    ⟨(st [(RFM_R_STAT.STATE, 0, 2), (RFM_R_STAT.RXSTATE, 0, 1)]).setRadio 0 { ({} : Radio) with now := some ({ rssi := 0 }), win := none }, 0, 50, { rssi := 0 }, by decide +kernel⟩,
    ⟨(st [(RFM_R_STAT.STATE, 0, 2), (RFM_R_STAT.RXSTATE, 0, 1)]).setRadio 0 { ({} : Radio) with now := some ({ rssi := 0 }), win := none }, 0, 0, { rssi := 0 }, by decide +kernel⟩,
    ⟨st [(RFM_R_STAT.RXSTATE, 0, 1)], 0, by decide +kernel⟩,
    ⟨(st [(RFM_R_STAT.RXSTATE, 0, 1)]).setRadio 0 { ({} : Radio) with win := none }, 0, by decide +kernel⟩,
    ⟨(st [(RFM_R_STAT.RXSTATE, 0, 2)]).setRadio 0 { ({} : Radio) with win := none }, 0, by decide +kernel⟩,
    ⟨{ ((st [(RFM_R_STAT.RXSTATE, 0, 2)]).setRadio 0 { ({} : Radio) with win := none, ack := some ({ node := 0, item := some 1 }) }).setItem 1 (some (itm 7 0 [])) with plc.nodes := [(0, (List.replicate 10 0 ++ [1] ++ List.replicate 9 0 ++ [16] : List Byte))] }, 0, { kind := 1 }, { node := 0, item := some 1 }, 0, 1, itm 7 0 [], by decide +kernel⟩,
    ⟨(st [(RFM_R_STAT.RXSTATE, 0, 2)]).setRadio 0 { ({} : Radio) with win := none }, 0, { kind := 0, secured := true, tagOk := false }, by decide +kernel⟩,
    ⟨{ (st [(RFM_R_STAT.RXSTATE, 0, 2)]).setRadio 0 { ({} : Radio) with win := none } with rfm.recent := [] }, 0, { kind := 0, secured := false, parity := false, toEui := false, mesh := none }, own.base RFM_SLOW_LO.BASE_LO 22 RFM_SLOW_HI.BASE_HI, 0, by decide +kernel⟩,
    ⟨(st [(RFM_R_STAT.STATE, 0, 2), (CHIP_MODE.MODE, 0, 5), (RES_PAIR_STAT.GRANT, 0, 1)]).setRadio 0 { ({} : Radio) with air := none, win := none, resp := none, ack := none, queue := ({  }) :: ([]) }, 0, {  }, [], 0, by decide +kernel⟩,
    ⟨(st [(RFM_R_STAT.STATE, 0, 2), (CHIP_MODE.MODE, 0, 5), (RES_PAIR_STAT.GRANT, 0, 1)]).setRadio 0 { ({} : Radio) with air := none, win := none, resp := none, ack := none, queue := ({  }) :: ([]) }, 0, {  }, [], 2 ^ 33, by decide +kernel⟩,
    ⟨((st [(RFM_R_STAT.STATE, 0, 2)]).setRadio 0 { ({} : Radio) with air := none, win := none, resp := none, ack := none, queue := ({ item := some 1 }) :: ([]) }).setItem 1 (some (itm 7 0 [])), 0, { item := some 1 }, [], 1, itm 7 0 [], by decide +kernel⟩,
    ⟨((own).setRadio 0 { ({} : Radio) with air := some ({ what := 0, bcast := true, item := some 1 }) }).setItem 1 (some (itm 7 0 [])), 0, { what := 0, bcast := true, item := some 1 }, 1, itm 7 0 [], by decide +kernel⟩,
    ⟨(st [(RFM_R_STAT.STATE, 0, 2)]).setRadio 0 { ({} : Radio) with air := some ({ what := 0, bcast := false }) }, 0, { what := 0, bcast := false }, by decide +kernel⟩,
    ⟨(st [(RFM_R_STAT.STATE, 0, 2)]).setRadio 0 { ({} : Radio) with ack := some ({  }) }, 0, {  }, by decide +kernel⟩,
    ⟨((own).setRadio 0 { ({} : Radio) with queue := ({ waiting := true, item := some 1 }) :: ([]) }).setItem 1 (some (itm 7 0 [])), 0, { waiting := true, item := some 1 }, [], 1, itm 7 0 [], by decide +kernel⟩,
    ⟨((own).setRadio 0 { ({} : Radio) with held := [({ item := some 1 })] }).setItem 1 (some (itm 7 0 [])), 0, { item := some 1 }, 1, itm 7 0 [], by decide +kernel⟩,
    ⟨(st [(RFM_R_STAT.STATE, 0, 2), (CHIP_MODE.MODE, 0, 5), (RES_PAIR_STAT.GRANT, 0, 1), (RFM_KEY0.VALID, 0, 1), (KV_S_INFO.TYPE, 0, 1)]).setItem 1 (some (itm 8 0 [(4, 2, 2000)])), 1, itm 8 0 [(4, 2, 2000)], List.replicate 2000 0, 0, 0, by simp only [Ready]; decide +kernel⟩,
    ⟨(own).setItem 1 (some ({ itm 8 0 [] with verdict := 0x23 })), 1, { itm 8 0 [] with verdict := 0x23 }, 0x23, by simp only [Turned]; decide +kernel⟩,
    ⟨{ (st [(RFM_R_STAT.STATE, 0, 2)]).setItem 1 (some (itm 8 1 [(4, 2, 8)])) with plc.nodes := [(0, (List.replicate 15 0 ++ [128] : List Byte))] }, 1, itm 8 1 [(4, 2, 8)], List.replicate 8 0, 0, 0, 0, 0, by simp only [Ready]; decide +kernel⟩,
    ⟨(own).setItem 1 (some ({ itm 8 1 [] with verdict := 0x23 })), 1, { itm 8 1 [] with verdict := 0x23 }, 0x23, by simp only [Turned]; decide +kernel⟩⟩

/-- Something meets the hypotheses of each clause of RadioConnections. -/
theorem witness_RadioConnections :
    (∃ (s : State), ∃ n, ∃ (it : Item), ∃ r, ∃ node, ∃ (k : Nat), ∃ k0, ∃ i, ∃ j, ∃ h, (Ready s n 8 2 it) ∧ (it.tenant = 0) ∧ (r = it.f 1 1 % 2) ∧ (node = it.f 2 2 % 32768) ∧ (s.radioOn r = true) ∧ (i = it.f 0x12 2) ∧ (paramOk i (it.f 0x14 1) (it.f 0x16 2) = true) ∧ (5 ≤ it.f 0x15 1) ∧ (it.f 0x15 1 ≤ 16) ∧ (s.chmapOk r (it.f 0x18 8) = true) ∧ (s.fbit RFM_R_CFG.CSM_EN r = true) ∧ (s.fget RFM_R_CFG.PERS r = 0) ∧ ((s.radio r).joins.find? (fun j => j.seq == it.f 0x24 4) = some j) ∧ (s.rfm.clk + 1000 ≤ j.ended + j.delay * 1000) ∧ ((List.range 2048).find? (fun k => (tget none s.rfm.conns (2048 * r + k)).isNone) = some k0) ∧ (k = 2048 * r + k0) ∧ (nbit (s.nf node 0x18 2) 15 = false) ∧ (h = ((j.sca + s.fget RFM_R_DRIFT.LOCAL_PPM r) * ((it.f 0x14 1 + 1) * i * 1000) + 999999) / 1000000 + s.fget RFM_R_WIN.JIT r) ∧ ((s.occ r).1 * i + (2 * h + s.fget RFM_R_WIN.T_SET r + s.tps r) * (s.occ r).2 ≤ s.fget RFM_R_WIN.OCC_MAX r * 10 * (s.occ r).2 * i))
    ∧ (∃ (s : State), ∃ (k : Nat), ∃ (n : Nat), ∃ key, (n = connRadio k) ∧ (s.connState k = 1) ∧ ((s.connX k).sent = false) ∧ (s.radioOn n = true) ∧ (s.mayTransmit = true) ∧ ((s.radio n).air = none) ∧ (s.rfKey (s.fget RFM_KEY_TX.IDX) true = some key))
    ∧ (∃ (s : State), ∃ (k : Nat), ∃ i, ∃ (it : Item), (s.connState k = 1) ∧ ((s.connX k).item = some i) ∧ ((s.connX k).queue = []) ∧ ((s.connX k).upd = none) ∧ ((s.connX k).termItem = none) ∧ (s.item i = some it))
    ∧ (∃ (s : State), ∃ k, ∃ now, ∃ (n : Nat), (Alive s n k now) ∧ ((s.connX k).upd = none) ∧ ((s.radio n).win = none) ∧ (s.rx n = 0) ∧ ((s.radio n).waiting = []) ∧ ((now : Int) ≤ s.pred k + (s.connH k (s.connX k).gone : Nat)))
    ∧ (∃ (s : State), ∃ k, ∃ now, ∃ (n : Nat), (Alive s n k now) ∧ ((s.connX k).upd = none) ∧ ((s.radio n).win = none) ∧ (s.rx n = 0) ∧ ((s.radio n).waiting = []) ∧ (s.pred k + (s.connH k (s.connX k).gone : Nat) < (now : Int)))
    ∧ (∃ (s : State), ∃ k, ∃ now, ∃ (n : Nat), (Alive s n k now) ∧ ((s.connX k).upd = none) ∧ (s.rx n ≠ 0) ∧ ((s.radio n).waiting = []) ∧ ((s.radio n).win = none))
    ∧ (∃ (s : State), ∃ k, ∃ now, ∃ (n : Nat), (Alive s n k now) ∧ ((s.radio n).win = some k) ∧ (s.rx n = 4))
    ∧ (∃ (s : State), ∃ k, ∃ now, ∃ (n : Nat), (Alive s n k now) ∧ ((s.radio n).win = some k) ∧ (s.rx n = 2))
    ∧ (∃ (s : State), ∃ k, ∃ now, ∃ (n : Nat), (Alive s n k now) ∧ ((s.radio n).win = some k) ∧ (s.rx n = 0) ∧ ((s.connX k).anchored = true))
    ∧ (∃ (s : State), ∃ k, ∃ now, ∃ (n : Nat), ∃ ki, ∃ pdu, (Alive s n k now) ∧ ((s.radio n).win = some k) ∧ (s.rx n = 2) ∧ (s.csmOpen ki (s.cf k 0 4) (s.cf k 8 2) pdu = none))
    ∧ (∃ (s : State), ∃ k, ∃ now, ∃ (n : Nat), ∃ ki, ∃ pdu, ∃ c, ∃ pc, ∃ p, (Alive s n k now) ∧ ((s.radio n).win = some k) ∧ (s.rx n = 2) ∧ (s.csmOpen ki (s.cf k 0 4) (s.cf k 8 2) pdu = some (c, pc, p)) ∧ (s.mode ≠ 4) ∧ ((s.connX k).any = false) ∧ (pc ≤ s.cf k 0x2C 4))
    ∧ (∃ (s : State), ∃ k, ∃ now, ∃ (n : Nat), ∃ ki, ∃ pdu, ∃ c, ∃ pc, ∃ p, (Alive s n k now) ∧ ((s.radio n).win = some k) ∧ (s.rx n = 2) ∧ (s.csmOpen ki (s.cf k 0 4) (s.cf k 8 2) pdu = some (c, pc, p)) ∧ (s.mode ≠ 4) ∧ ((s.connX k).any = false) ∧ (s.cf k 0x2C 4 < pc) ∧ (c % 4 = 1) ∧ ((s.connX k).anchored = true) ∧ ((s.connX k).flight = none))
    ∧ (∃ (s : State), ∃ (k : Nat), ∃ now, ∃ (n : Nat), (connRadio k = n) ∧ (n < 2) ∧ ((s.radio n).win = some k) ∧ (s.rx n = 4) ∧ (s.connState k = 2) ∧ (s.cf k 0x0E 2 * 10000 ≤ max s.rfm.clk now - (s.connX k).lastRx))
    ∧ (∃ (s : State), ∃ (k : Nat), ∃ u, ∃ (it : Item), ((s.connX k).upd = some u) ∧ (s.connState k = 3) ∧ (s.item u.item = some it) ∧ (s.cf k 8 2 = s.cf k 0x30 2))
    ∧ (∃ (s : State), ∃ (k : Nat), ∃ u, ∃ (it : Item), ((s.connX k).upd = some u) ∧ (s.connState k = 3) ∧ (s.item u.item = some it) ∧ (s.cf k 8 2 ≠ s.cf k 0x30 2))
    ∧ (∃ (s : State), ∃ n, ∃ (it : Item), ∃ r, ∃ (k : Nat), (it.tenant = 0) ∧ (r = it.f 1 1 % 2) ∧ (s.radioOn r = true) ∧ (k = it.conn) ∧ (k < 4096) ∧ (connRadio k = r) ∧ (Ready s n 8 3 it) ∧ (s.connState k = 2) ∧ (((s.cf k 0x0C 1 + 6 : Nat) : Int) ≤ sval 16 (it.f 0x20 2 + 65536 - s.cf k 8 2)) ∧ ((if nbit (it.f 6 1) 4 then s.chmapOk r (it.f 0x18 8) = true else paramOk (it.f 0x12 2) (it.f 0x14 1) (it.f 0x16 2) = true)))
    ∧ (∃ (s : State), ∃ n, ∃ (it : Item), ∃ r, ∃ (k : Nat), (it.tenant = 0) ∧ (r = it.f 1 1 % 2) ∧ (s.radioOn r = true) ∧ (k = it.conn) ∧ (k < 4096) ∧ (connRadio k = r) ∧ (Ready s n 8 4 it) ∧ (2 ≤ s.connState k) ∧ ((s.connX k).term = false))
    ∧ (∃ (s : State), ∃ n, ∃ (it : Item), ∃ r, ∃ (k : Nat), (it.tenant = 0) ∧ (r = it.f 1 1 % 2) ∧ (s.radioOn r = true) ∧ (k = it.conn) ∧ (k < 4096) ∧ (connRadio k = r) ∧ (Ready s n 8 5 it) ∧ (s.winOk it.task true (it.f 8 8) 64 = true))
    ∧ (∃ (s : State), ∃ n, ∃ (it : Item), ∃ op, (it.tenant ≠ 0) ∧ (Ready s n 8 op it) ∧ (op = 2))
    ∧ (∃ (s : State), ∃ n, ∃ (it : Item), ∃ op, (it.tenant ≠ 0) ∧ (Ready s n 8 op it) ∧ (op = 3))
    ∧ (∃ (s : State), ∃ n, ∃ (it : Item), ∃ op, (it.tenant ≠ 0) ∧ (Ready s n 8 op it) ∧ (op = 4))
    ∧ (∃ (s : State), ∃ n, ∃ (it : Item), ∃ op, (it.tenant ≠ 0) ∧ (Ready s n 8 op it) ∧ (op = 5))
    ∧ (∃ (s : State), ∃ (it : Item), (s.tenOn it.tenant = true) ∧ (it.engine = 8) ∧ (it.op < 6) ∧ ((it.op = 0 → nbit (it.f 2 2) 15 = false)) ∧ (s.ten.active.ownsNode it.tenant (it.f 2 2 % 32768) = false))
    ∧ (∃ (s : State), ∃ n, ∃ (it : Item), (Turned s n 8 2 0x23 it)) :=
  ⟨⟨((st [(RFM_R_STAT.STATE, 0, 2), (RFM_R_CFG.CSM_EN, 0, 1), (RFM_R_CFG.PERS, 0, 0), (RFM_R_CHSP.NCH, 0, 2), (RFM_R_WIN.OCC_MAX, 0, 1023), (RFM_R_WIN.T_SET, 0, 0), (RFM_R_DRIFT.LOCAL_PPM, 0, 20), (RFM_R_WIN.JIT, 0, 16)]).setRadio 0 { ({} : Radio) with joins := [({ seq := 0, chan := 0, sca := 0, delay := 1, eui := 0, ended := 0 })] }).setItem 1 (some ({ itm 8 2 [(0x12, 2, 8), (0x15, 1, 5), (0x16, 2, 10), (0x18, 8, 3)] with tenant := 0 })), 1, { itm 8 2 [(0x12, 2, 8), (0x15, 1, 5), (0x16, 2, 10), (0x18, 8, 3)] with tenant := 0 }, 0, 0, 2048 * 0 + 0, 0, 8, { seq := 0, chan := 0, sca := 0, delay := 1, eui := 0, ended := 0 }, ((0 + 20) * ((0 + 1) * 8 * 1000) + 999999) / 1000000 + 16, by simp only [Ready]; decide +kernel⟩,
    ⟨(((st [(RFM_R_STAT.STATE, (connRadio 0), 2), (CHIP_MODE.MODE, 0, 5), (RES_PAIR_STAT.GRANT, 0, 1), (RFM_KEY0.VALID, 0, 1), (KV_S_INFO.TYPE, 0, 1)]).setConnX 0 (some { ({} : ConnX) with sent := false })).setRadio ((connRadio 0)) { ({} : Radio) with air := none }).setCf 0 6 1 1, 0, connRadio 0, [], by decide +kernel⟩,
    ⟨(((own).setConnX 0 (some { ({} : ConnX) with item := some 1, queue := [], upd := none, termItem := none })).setItem 1 (some (itm 7 0 []))).setCf 0 6 1 1, 0, 1, itm 7 0 [], by decide +kernel⟩,
    ⟨((put (alive) [(RFM_R_STAT.RXSTATE, 0, 0)]).setConnX 0 (some { ({} : ConnX) with sent := true, upd := none })).setRadio 0 { ({} : Radio) with win := none, waiting := [] }, 0, 0, 0, by simp only [Alive]; decide +kernel⟩,
    ⟨((put (alive) [(RFM_R_STAT.RXSTATE, 0, 0)]).setConnX 0 (some { ({} : ConnX) with sent := true, upd := none, lastRx := 10 ^ 9 })).setRadio 0 { ({} : Radio) with win := none, waiting := [] }, 0, 10 ^ 9, 0, by simp only [Alive]; decide +kernel⟩,
    ⟨((put (alive) [(RFM_R_STAT.RXSTATE, 0, 1)]).setConnX 0 (some { ({} : ConnX) with sent := true, upd := none })).setRadio 0 { ({} : Radio) with waiting := [], win := none }, 0, 0, 0, by simp only [Alive]; decide +kernel⟩,
    ⟨((put (alive) [(RFM_R_STAT.RXSTATE, 0, 4)]).setConnX 0 (some { ({} : ConnX) with sent := true })).setRadio 0 { ({} : Radio) with win := some 0 }, 0, 0, 0, by simp only [Alive]; decide +kernel⟩,
    ⟨((put (alive) [(RFM_R_STAT.RXSTATE, 0, 2)]).setConnX 0 (some { ({} : ConnX) with sent := true })).setRadio 0 { ({} : Radio) with win := some 0 }, 0, 0, 0, by simp only [Alive]; decide +kernel⟩,
    ⟨((put (alive) [(RFM_R_STAT.RXSTATE, 0, 0)]).setConnX 0 (some { ({} : ConnX) with sent := true, anchored := true })).setRadio 0 { ({} : Radio) with win := some 0 }, 0, 0, 0, by simp only [Alive]; decide +kernel⟩,
    ⟨((put (alive) [(RFM_R_STAT.RXSTATE, 0, 2)]).setConnX 0 (some { ({} : ConnX) with sent := true })).setRadio 0 { ({} : Radio) with win := some 0 }, 0, 0, 0, 0, [], by simp only [Alive]; decide +kernel⟩,
    ⟨(((put (alive) [(RFM_R_STAT.RXSTATE, 0, 2), (RFM_KEY0.VALID, 0, 1), (KV_S_INFO.TYPE, 0, 2), (CHIP_MODE.MODE, 0, 5)]).setConnX 0 (some { ({} : ConnX) with sent := true, any := false })).setRadio 0 { ({} : Radio) with win := some 0 }).setVslot 0 { ({} : VSlot) with cells := List.replicate 16 0, mask := List.replicate 16 0, klen := 16 }, 0, 0, 0, 0, csmP 32 0, 32, 0, [], by have e : ∀ (s : State), s.rfKey 0 false = some (List.replicate 16 0) → s.cf 0 0 4 = 0 → s.cf 0 8 2 = 0 → s.csmOpen 0 (s.cf 0 0 4) (s.cf 0 8 2) (csmP 32 0) = some (32, 0, []) := fun s h a b => by { rw [a, b]; exact csmP_open s 32 0 h (by decide) (by decide) }; refine ⟨?_, by decide +kernel, by decide +kernel, e _ (by decide +kernel) (by decide +kernel) (by decide +kernel), by decide +kernel⟩; simp only [Alive]; decide +kernel⟩,
    ⟨(((put (alive) [(RFM_R_STAT.RXSTATE, 0, 2), (RFM_KEY0.VALID, 0, 1), (KV_S_INFO.TYPE, 0, 2), (CHIP_MODE.MODE, 0, 5)]).setConnX 0 (some { ({} : ConnX) with sent := true, any := false, anchored := true, flight := none })).setRadio 0 { ({} : Radio) with win := some 0 }).setVslot 0 { ({} : VSlot) with cells := List.replicate 16 0, mask := List.replicate 16 0, klen := 16 }, 0, 0, 0, 0, csmP 33 1, 33, 1, [], by have e : ∀ (s : State), s.rfKey 0 false = some (List.replicate 16 0) → s.cf 0 0 4 = 0 → s.cf 0 8 2 = 0 → s.csmOpen 0 (s.cf 0 0 4) (s.cf 0 8 2) (csmP 33 1) = some (33, 1, []) := fun s h a b => by { rw [a, b]; exact csmP_open s 33 1 h (by decide) (by decide) }; refine ⟨?_, by decide +kernel, by decide +kernel, e _ (by decide +kernel) (by decide +kernel) (by decide +kernel), by decide +kernel⟩; simp only [Alive]; decide +kernel⟩,
    ⟨((st [(RFM_R_STAT.RXSTATE, 0, 4)]).setRadio 0 { ({} : Radio) with win := some 0 }).setCf 0 6 1 2, 0, 10, 0, by decide +kernel⟩,
    ⟨(((own).setConnX 0 (some { ({} : ConnX) with upd := some ((⟨true, 0, 0, 0, 0, 0, 1, false⟩ : ConnUpd)) })).setItem ((⟨true, 0, 0, 0, 0, 0, 1, false⟩ : ConnUpd)).item (some (itm 7 0 []))).setCf 0 6 1 3, 0, (⟨true, 0, 0, 0, 0, 0, 1, false⟩ : ConnUpd), itm 7 0 [], by decide +kernel⟩,
    ⟨((((own).setConnX 0 (some { ({} : ConnX) with upd := some ((⟨true, 0, 0, 0, 0, 0, 1, false⟩ : ConnUpd)) })).setItem ((⟨true, 0, 0, 0, 0, 0, 1, false⟩ : ConnUpd)).item (some (itm 7 0 []))).setCf 0 6 1 3).setCf 0 8 2 1, 0, (⟨true, 0, 0, 0, 0, 0, 1, false⟩ : ConnUpd), itm 7 0 [], by decide +kernel⟩,
    ⟨((st [(RFM_R_STAT.STATE, 0, 2)]).setItem 1 (some ({ itm 8 3 [(0x20, 2, 6), (0x12, 2, 8), (0x16, 2, 10)] with tenant := 0 }))).setCf 0 6 1 2, 1, { itm 8 3 [(0x20, 2, 6), (0x12, 2, 8), (0x16, 2, 10)] with tenant := 0 }, 0, 0, by simp only [Ready]; decide +kernel⟩,
    ⟨(((st [(RFM_R_STAT.STATE, 0, 2)]).setConnX 0 (some { ({} : ConnX) with term := false })).setItem 1 (some ({ itm 8 4 [] with tenant := 0 }))).setCf 0 6 1 2, 1, { itm 8 4 [] with tenant := 0 }, 0, 0, by simp only [Ready]; decide +kernel⟩,
    ⟨(st [(RFM_R_STAT.STATE, 0, 2)]).setItem 1 (some ({ itm 8 5 [] with tenant := 0 })), 1, { itm 8 5 [] with tenant := 0 }, 0, 0, by simp only [Ready]; decide +kernel⟩,
    ⟨(own).setItem 1 (some ({ itm 8 2 [] with tenant := 1 })), 1, { itm 8 2 [] with tenant := 1 }, 2, by simp only [Ready]; decide +kernel⟩,
    ⟨(own).setItem 1 (some ({ itm 8 3 [] with tenant := 1 })), 1, { itm 8 3 [] with tenant := 1 }, 3, by simp only [Ready]; decide +kernel⟩,
    ⟨(own).setItem 1 (some ({ itm 8 4 [] with tenant := 1 })), 1, { itm 8 4 [] with tenant := 1 }, 4, by simp only [Ready]; decide +kernel⟩,
    ⟨(own).setItem 1 (some ({ itm 8 5 [] with tenant := 1 })), 1, { itm 8 5 [] with tenant := 1 }, 5, by simp only [Ready]; decide +kernel⟩,
    ⟨(own).setItem 1 (some ({ itm 8 1 [(2, 2, 100)] with  })), { itm 8 1 [(2, 2, 100)] with  }, by decide +kernel⟩,
    ⟨(own).setItem 1 (some ({ itm 8 2 [] with verdict := 0x23 })), 1, { itm 8 2 [] with verdict := 0x23 }, by simp only [Turned]; decide +kernel⟩⟩

/-- Something meets the hypotheses of each clause of CryptoItems. -/
theorem witness_CryptoItems :
    (∃ (s : State), ∃ n, ∃ (it : Item), ∃ k, ∃ d, ∃ a, ∃ v, (s.itKey it [1, 2] [0] = (0, k)) ∧ (Ready s n 0 0 it) ∧ (gcmOk it = true) ∧ (s.aesIn it 0 = some (d, a, v)) ∧ (Fits s it (gcmCrypt k.key v d ++ (gcmTag k.key v a (gcmCrypt k.key v d)).take (it.f 2 1))))
    ∧ (∃ (s : State), ∃ n, ∃ (it : Item), ∃ k, ∃ d, (s.itKey it [1, 2] [0] = (0, k)) ∧ (Ready s n 0 2 it) ∧ (it.f 0x18 4 ≤ 4096) ∧ (it.f 3 1 = 16) ∧ (s.itIn it 0 (it.f 0x18 4) = some d) ∧ (Fits s it (aesCtr k.key (slice it.bytes 0x28 16) d)))
    ∧ (∃ (s : State), ∃ n, ∃ (it : Item), ∃ k, ∃ d, ∃ a, ∃ v, (s.itKey it [1, 2] [0] = (0, k)) ∧ (Ready s n 0 3 it) ∧ (ccmOk it = true) ∧ (s.aesIn it 0 = some (d, a, v)) ∧ (Fits s it (ccmCrypt k.key v d ++ ccmTag k.key v a d (it.f 2 1))))
    ∧ (∃ (s : State), ∃ n, ∃ (it : Item), ∃ k, ∃ d, (s.itKey it [1, 2] [0] = (0, k)) ∧ (Ready s n 0 5 it) ∧ (it.f 0x18 4 ≤ 768) ∧ (4 ≤ it.f 2 1) ∧ (it.f 2 1 ≤ 16) ∧ (s.itIn it 0 (it.f 0x18 4) = some d) ∧ (Fits s it ((cmac k.key d).take (it.f 2 1))))
    ∧ (∃ (s : State), ∃ n, ∃ (it : Item), ∃ k, ∃ d, ∃ a, ∃ v, ∃ len, (s.itKey it [1, 2] [1] = (0, k)) ∧ (len = it.f 0x18 4) ∧ (Ready s n 0 1 it) ∧ (gcmOk it = true) ∧ (s.aesIn it (it.f 2 1) = some (d, a, v)) ∧ ((gcmTag k.key v a (d.take len)).take (it.f 2 1) = d.drop len) ∧ (Fits s it (gcmCrypt k.key v (d.take len))))
    ∧ (∃ (s : State), ∃ n, ∃ (it : Item), ∃ k, ∃ d, ∃ a, ∃ v, ∃ len, (s.itKey it [1, 2] [1] = (0, k)) ∧ (len = it.f 0x18 4) ∧ (Ready s n 0 1 it) ∧ (gcmOk it = true) ∧ (s.aesIn it (it.f 2 1) = some (d, a, v)) ∧ ((gcmTag k.key v a (d.take len)).take (it.f 2 1) ≠ d.drop len))
    ∧ (∃ (s : State), ∃ n, ∃ (it : Item), ∃ k, ∃ d, ∃ a, ∃ v, ∃ len, (s.itKey it [1, 2] [1] = (0, k)) ∧ (len = it.f 0x18 4) ∧ (Ready s n 0 4 it) ∧ (ccmOk it = true) ∧ (s.aesIn it (it.f 2 1) = some (d, a, v)) ∧ (ccmTag k.key v a (ccmCrypt k.key v (d.take len)) (it.f 2 1) = d.drop len) ∧ (Fits s it (ccmCrypt k.key v (d.take len))))
    ∧ (∃ (s : State), ∃ n, ∃ (it : Item), ∃ k, ∃ d, ∃ a, ∃ v, ∃ len, (s.itKey it [1, 2] [1] = (0, k)) ∧ (len = it.f 0x18 4) ∧ (Ready s n 0 4 it) ∧ (ccmOk it = true) ∧ (s.aesIn it (it.f 2 1) = some (d, a, v)) ∧ (ccmTag k.key v a (ccmCrypt k.key v (d.take len)) (it.f 2 1) ≠ d.drop len))
    ∧ (∃ (s : State), ∃ n, ∃ (it : Item), ∃ k, ∃ d, ∃ a, ∃ len, (s.itKey it [1, 2] [1] = (0, k)) ∧ (len = it.f 0x18 4) ∧ (Ready s n 0 6 it) ∧ (len ≤ 768) ∧ (4 ≤ it.f 2 1) ∧ (it.f 2 1 ≤ 16) ∧ (s.itIn it 0 len = some d) ∧ (s.itAux it (it.f 2 1) = some a))
    ∧ (∃ (s : State), ∃ n, ∃ (it : Item), ∃ c, ∃ d, ∃ a, ∃ len, (itCurve it = some c) ∧ (len = it.f 0x18 4) ∧ (Ready s n 1 0 it) ∧ (len = 32 ∨ len = 48) ∧ (s.itIn it 0 (len + 2 * c.bytes) = some d) ∧ (s.itAux it (2 * c.bytes) = some a))
    ∧ (∃ (s : State), ∃ n, ∃ (it : Item), ∃ c, ∃ d, ∃ len, ∃ k, (itCurve it = some c) ∧ (len = it.f 0x18 4) ∧ (Ready s n 1 1 it) ∧ (len = 32 ∨ len = 48) ∧ (s.itKey it [itEcType it] [0] = (0, k)) ∧ (s.itIn it 0 len = some d) ∧ (Fits s it (c.sign (ofBe k.key) d)))
    ∧ (∃ (s : State), ∃ n, ∃ (it : Item), ∃ c, ∃ len, ∃ k, (itCurve it = some c) ∧ (len = it.f 0x18 4) ∧ (Ready s n 1 4 it) ∧ (s.itKey it [itEcType it] [0, 3] = (0, k)) ∧ (Fits s it (c.pub (ofBe k.key))))
    ∧ (∃ (s : State), ∃ n, ∃ (it : Item), ∃ d, ∃ len, (len = it.f 0x18 4) ∧ (len ≤ 1048576) ∧ (s.itIn it 0 len = some d) ∧ (Ready s n 2 0 it) ∧ (Fits s it (sha256 d)))
    ∧ (∃ (s : State), ∃ n, ∃ (it : Item), ∃ d, ∃ len, (len = it.f 0x18 4) ∧ (len ≤ 1048576) ∧ (s.itIn it 0 len = some d) ∧ (Ready s n 2 1 it) ∧ (Fits s it (sha384 d)))
    ∧ (∃ (s : State), ∃ n, ∃ (it : Item), ∃ d, ∃ len, (len = it.f 0x18 4) ∧ (len ≤ 1048576) ∧ (s.itIn it 0 len = some d) ∧ (Ready s n 2 2 it) ∧ (Fits s it (sha512 d)))
    ∧ (∃ (s : State), ∃ n, ∃ (it : Item), ∃ d, ∃ len, ∃ k, (len = it.f 0x18 4) ∧ (len ≤ 1048576) ∧ (s.itIn it 0 len = some d) ∧ (Ready s n 2 3 it) ∧ (s.itKey it [3, 6] [0] = (0, k)) ∧ (Fits s it (hmac256 k.key d)))
    ∧ (∃ (s : State), ∃ n, ∃ (it : Item), ∃ d, ∃ len, ∃ k, ∃ a, (len = it.f 0x18 4) ∧ (len ≤ 1048576) ∧ (s.itIn it 0 len = some d) ∧ (Ready s n 2 4 it) ∧ (s.itKey it [3, 6] [1] = (0, k)) ∧ (s.itAux it 32 = some a))
    ∧ (∃ (s : State), ∃ n, ∃ (it : Item), (Ready s n 3 0 it) ∧ (s.fbit KV_STAT.TRNG_OK = true) ∧ (0 < it.f 0x18 4) ∧ (it.f 0x18 4 ≤ 64) ∧ (s.winOk it.task (nbit (it.f 1 1) 1) (it.f 0x10 4) (it.f 0x18 4) = true))
    ∧ (∃ (s : State), ∃ n, ∃ (it : Item), (Ready s n 3 0 it) ∧ (s.fbit KV_STAT.TRNG_OK = false))
    ∧ (∃ (s : State), ∃ n, ∃ (it : Item), (Ready s n 4 5 it) ∧ (it.pin.isSome = true) ∧ (Fits s it (s.slotInfo (hSlot it.handle))))
    ∧ (∃ (s : State), ∃ n, ∃ (it : Item), ∃ d, (Ready s n 4 6 it) ∧ (it.tenant = 0) ∧ (it.f 0x18 4 = 32) ∧ (s.vault.identity ≠ 0) ∧ (s.itIn it 0 32 = some d) ∧ (Fits s it (p256.sign s.vault.identity (sha256 (d ++ s.devId)))))
    ∧ (∃ (s : State), ∃ n, ∃ (it : Item), ∃ e, ∃ k, (e ≠ 0) ∧ (Ready s n 0 0 it) ∧ (s.itKey it [1, 2] [0] = (e, k)))
    ∧ (∃ (s : State), ∃ n, ∃ (it : Item), ∃ e, ∃ k, (e ≠ 0) ∧ (Ready s n 0 1 it) ∧ (s.itKey it [1, 2] [1] = (e, k)))
    ∧ (∃ (s : State), ∃ n, ∃ (it : Item), ∃ e, ∃ k, (e ≠ 0) ∧ (Ready s n 2 3 it) ∧ (s.itKey it [3, 6] [0] = (e, k)))
    ∧ (∃ (s : State), ∃ n, ∃ (it : Item), ∃ e, ∃ k, (e ≠ 0) ∧ (Ready s n 2 4 it) ∧ (s.itKey it [3, 6] [1] = (e, k)))
    ∧ (∃ (s : State), ∃ (n : Nat), ∃ (it : Item), ∃ c, ∃ e, ∃ o, (KeyItem c n e o) ∧ (s.item n = some it) ∧ (it.engine = e) ∧ (it.op = o) ∧ (it.done = none) ∧ (it.inService = false) ∧ (it.verdict ≠ 0))
    ∧ (∃ (s : State), ∃ (n : Nat), ∃ (it : Item), ∃ c, ∃ e, ∃ o, (KeyItem c n e o) ∧ (s.item n = some it) ∧ (it.engine = e) ∧ (it.op = o) ∧ (it.done = none) ∧ (it.inService = false) ∧ (it.verdict = 0) ∧ (s.keysBlocked = true)) :=
  ⟨⟨(st [(KV_S_INFO.TYPE, 0, 1)]).setItem 1 (some ({ itm 0 0 [(3, 1, 12), (2, 1, 16)] with pin := some (0, 0) })), 1, { itm 0 0 [(3, 1, 12), (2, 1, 16)] with pin := some (0, 0) }, ⟨1, 0, [], []⟩, [], [], List.replicate 12 0, by simp only [Ready, Fits]; decide +kernel⟩,
    ⟨(st [(KV_S_INFO.TYPE, 0, 1)]).setItem 1 (some ({ itm 0 2 [(3, 1, 16)] with pin := some (0, 0) })), 1, { itm 0 2 [(3, 1, 16)] with pin := some (0, 0) }, ⟨1, 0, [], []⟩, [], by simp only [Ready, Fits]; decide +kernel⟩,
    ⟨(st [(KV_S_INFO.TYPE, 0, 1)]).setItem 1 (some ({ itm 0 3 [(3, 1, 13), (2, 1, 16)] with pin := some (0, 0) })), 1, { itm 0 3 [(3, 1, 13), (2, 1, 16)] with pin := some (0, 0) }, ⟨1, 0, [], []⟩, [], [], List.replicate 13 0, by simp only [Ready, Fits]; decide +kernel⟩,
    ⟨(st [(KV_S_INFO.TYPE, 0, 1)]).setItem 1 (some ({ itm 0 5 [(2, 1, 8)] with pin := some (0, 0) })), 1, { itm 0 5 [(2, 1, 8)] with pin := some (0, 0) }, ⟨1, 0, [], []⟩, [], by simp only [Ready, Fits]; decide +kernel⟩,
    ⟨tagS 1 12 ((gcmTag zk (List.replicate 12 0) [] []).take 4), 1, tagI 1 12, ⟨1, 1, zk, []⟩, (gcmTag zk (List.replicate 12 0) [] []).take 4, [], List.replicate 12 0, 0, by have f2 : (tagI 1 12).f 2 1 = 4 := by { decide +kernel }; have f0 : (tagI 1 12).f 0x18 4 = 0 := by { decide +kernel }; have h := tagS_in 1 12 (Or.inl ⟨rfl, rfl⟩) ((gcmTag zk (List.replicate 12 0) [] []).take 4) (by rw [List.length_take, Laws.gcmTag_length _ _ _ _ rfl]; rfl); rw [f2, f0, List.take_zero, List.drop_zero]; exact ⟨h.1, Eq.refl 0, h.2.2.1, by decide +kernel, h.2.1, rfl, h.2.2.2 _ (by rw [Laws.gcmCrypt_length _ _ _ rfl]; rfl)⟩⟩,
    ⟨(st [(KV_S_INFO.TYPE, 0, 1), (KV_S_INFO.ATTR, 0, 1)]).setItem 1 (some ({ itm 0 1 [(3, 1, 12), (2, 1, 16)] with pin := some (0, 0) })), 1, { itm 0 1 [(3, 1, 12), (2, 1, 16)] with pin := some (0, 0) }, ⟨1, 1, [], []⟩, List.replicate 16 0, [], List.replicate 12 0, 0, by simp only [Ready]; decide +kernel⟩,
    ⟨tagS 4 13 (ccmTag zk (List.replicate 13 0) [] [] 4), 1, tagI 4 13, ⟨1, 1, zk, []⟩, ccmTag zk (List.replicate 13 0) [] [] 4, [], List.replicate 13 0, 0, by have f2 : (tagI 4 13).f 2 1 = 4 := by { decide +kernel }; have f0 : (tagI 4 13).f 0x18 4 = 0 := by { decide +kernel }; have h := tagS_in 4 13 (Or.inr ⟨rfl, rfl⟩) (ccmTag zk (List.replicate 13 0) [] [] 4) (Laws.ccmTag_length _ _ _ _ _ rfl (by decide)); have e : ccmCrypt zk (List.replicate 13 0) [] = [] := by { simp [ccmCrypt, aesCtr, xorB] }; rw [f2, f0, List.take_zero, e]; exact ⟨h.1, rfl, h.2.2.1, by decide +kernel, h.2.1, rfl, h.2.2.2 _ rfl⟩⟩,
    ⟨(st [(KV_S_INFO.TYPE, 0, 1), (KV_S_INFO.ATTR, 0, 1)]).setItem 1 (some ({ itm 0 4 [(3, 1, 13), (2, 1, 16)] with pin := some (0, 0) })), 1, { itm 0 4 [(3, 1, 13), (2, 1, 16)] with pin := some (0, 0) }, ⟨1, 1, [], []⟩, List.replicate 16 0, [], List.replicate 13 0, 0, by simp only [Ready]; decide +kernel⟩,
    ⟨(st [(KV_S_INFO.TYPE, 0, 1), (KV_S_INFO.ATTR, 0, 1)]).setItem 1 (some ({ itm 0 6 [(2, 1, 8)] with pin := some (0, 0) })), 1, { itm 0 6 [(2, 1, 8)] with pin := some (0, 0) }, ⟨1, 1, [], []⟩, [], List.replicate 8 0, 0, by simp only [Ready]; decide +kernel⟩,
    ⟨(own).setItem 1 (some (itm 1 0 [(0x18, 4, 32)])), 1, itm 1 0 [(0x18, 4, 32)], p256, List.replicate 96 0, List.replicate 64 0, 32, by unfold Ready; refine ⟨rfl, ?_⟩; decide +kernel⟩,
    ⟨(st [(KV_S_INFO.TYPE, 0, 4)]).setItem 1 (some ({ itm 1 1 [(0x18, 4, 32)] with pin := some (0, 0) })), 1, { itm 1 1 [(0x18, 4, 32)] with pin := some (0, 0) }, p256, List.replicate 32 0, 32, ⟨4, 0, [], []⟩, by unfold Ready; refine ⟨rfl, by decide +kernel, by decide +kernel, by decide +kernel, by decide +kernel, by decide +kernel, Laws.winOk_of_le _ _ _ _ _ 64 (Laws.sign_le p256 _ _) (by decide +kernel)⟩⟩,
    ⟨(st [(KV_S_INFO.TYPE, 0, 4)]).setItem 1 (some ({ itm 1 4 [] with pin := some (0, 0) })), 1, { itm 1 4 [] with pin := some (0, 0) }, p256, 0, ⟨4, 0, [], []⟩, by unfold Ready; refine ⟨rfl, by decide +kernel, by decide +kernel, by decide +kernel, Laws.winOk_of_le _ _ _ _ _ 64 (Laws.pub_le p256 _) (by decide +kernel)⟩⟩,
    ⟨(own).setItem 1 (some (itm 2 0 [])), 1, itm 2 0 [], {  }, 0, by simp only [Ready, Fits]; decide +kernel⟩,
    ⟨(own).setItem 1 (some (itm 2 1 [])), 1, itm 2 1 [], {  }, 0, by simp only [Ready, Fits]; decide +kernel⟩,
    ⟨(own).setItem 1 (some (itm 2 2 [])), 1, itm 2 2 [], {  }, 0, by simp only [Ready, Fits]; decide +kernel⟩,
    ⟨(st [(KV_S_INFO.TYPE, 0, 3)]).setItem 1 (some ({ itm 2 3 [] with pin := some (0, 0) })), 1, { itm 2 3 [] with pin := some (0, 0) }, [], 0, ⟨3, 0, [], []⟩, by simp only [Ready, Fits]; decide +kernel⟩,
    ⟨(st [(KV_S_INFO.TYPE, 0, 3), (KV_S_INFO.ATTR, 0, 1)]).setItem 1 (some ({ itm 2 4 [] with pin := some (0, 0) })), 1, { itm 2 4 [] with pin := some (0, 0) }, [], 0, ⟨3, 1, [], []⟩, List.replicate 32 0, by simp only [Ready]; decide +kernel⟩,
    ⟨(st [(KV_STAT.TRNG_OK, 0, 1)]).setItem 1 (some (itm 3 0 [(0x18, 4, 1)])), 1, itm 3 0 [(0x18, 4, 1)], by simp only [Ready]; decide +kernel⟩,
    ⟨(st [(KV_STAT.TRNG_OK, 0, 0)]).setItem 1 (some (itm 3 0 [])), 1, itm 3 0 [], by simp only [Ready]; decide +kernel⟩,
    ⟨(own).setItem 1 (some ({ itm 4 5 [] with pin := some (0, 0) })), 1, { itm 4 5 [] with pin := some (0, 0) }, by simp only [Ready, Fits]; decide +kernel⟩,
    ⟨{ (own).setItem 1 (some ({ itm 4 6 [(0x18, 4, 32)] with tenant := 0 })) with vault.identity := 1 }, 1, { itm 4 6 [(0x18, 4, 32)] with tenant := 0 }, List.replicate 32 0, by unfold Ready; refine ⟨by decide +kernel, by decide +kernel, by decide +kernel, by decide +kernel, by decide +kernel, Laws.winOk_of_le _ _ _ _ _ 64 (Laws.sign_le p256 _ _) (by decide +kernel)⟩⟩,
    ⟨(own).setItem 1 (some (itm 0 0 [])), 1, itm 0 0 [], 0x15, ⟨0, 0, [], []⟩, by simp only [Ready]; decide +kernel⟩,
    ⟨(own).setItem 1 (some (itm 0 1 [])), 1, itm 0 1 [], 0x15, ⟨0, 0, [], []⟩, by simp only [Ready]; decide +kernel⟩,
    ⟨(own).setItem 1 (some (itm 2 3 [])), 1, itm 2 3 [], 0x15, ⟨0, 0, [], []⟩, by simp only [Ready]; decide +kernel⟩,
    ⟨(own).setItem 1 (some (itm 2 4 [])), 1, itm 2 4 [], 0x15, ⟨0, 0, [], []⟩, by simp only [Ready]; decide +kernel⟩,
    ⟨(own).setItem 1 (some ({ itm 0 0 [] with done := none, inService := false, verdict := 0x13 })), 1, { itm 0 0 [] with done := none, inService := false, verdict := 0x13 }, .gcmEncrypt 1, 0, 0, by refine ⟨Or.inl ⟨rfl, rfl, rfl⟩, ?_⟩; decide +kernel⟩,
    ⟨(st [(CHIP_MODE.MODE, 0, 3)]).setItem 1 (some ({ itm 0 0 [] with done := none, inService := false, verdict := 0 })), 1, { itm 0 0 [] with done := none, inService := false, verdict := 0 }, .gcmEncrypt 1, 0, 0, by refine ⟨Or.inl ⟨rfl, rfl, rfl⟩, ?_⟩; decide +kernel⟩⟩

/-- Something meets the hypotheses of each clause of KeyItems. -/
theorem witness_KeyItems :
    (∃ (s : State), ∃ n, ∃ (it : Item), ∃ m, ∃ c, ∃ k, ∃ p, ∃ x, (m = hSlot it.handle2) ∧ (s.destOk it = 0) ∧ (Idle s m) ∧ (s.fbit KV_STAT.TRNG_OK = true) ∧ (Ready s n 1 2 it) ∧ (itCurve it = some c) ∧ (s.itKey it [itEcType it] [3] = (0, k)) ∧ (s.itAux it (2 * c.bytes) = some p) ∧ (c.ecdh (ofBe k.key) p = some x))
    ∧ (∃ (s : State), ∃ n, ∃ (it : Item), ∃ m, ∃ c, (m = hSlot it.handle2) ∧ (s.destOk it = 0) ∧ (Idle s m) ∧ (s.fbit KV_STAT.TRNG_OK = true) ∧ (Ready s n 1 3 it) ∧ (itCurve it = some c) ∧ (attrOk (itEcType it) (it.f 3 1 % 4) = true) ∧ ((∀ d, Fits s it (c.pub d))))
    ∧ (∃ (s : State), ∃ n, ∃ (it : Item), ∃ m, ∃ typ, (m = hSlot it.handle2) ∧ (s.destOk it = 0) ∧ (Idle s m) ∧ (s.fbit KV_STAT.TRNG_OK = true) ∧ (Ready s n 4 2 it) ∧ (typ = it.f 2 1) ∧ (typ = 1 ∨ typ = 2 ∨ typ = 3 ∨ typ = 6) ∧ (attrOk typ (it.f 3 1 % 4) = true))
    ∧ (∃ (s : State), ∃ n, ∃ (it : Item), ∃ m, ∃ k, ∃ typ, ∃ x, ∃ l, ∃ c, (m = hSlot it.handle2) ∧ (s.destOk it = 0) ∧ (Idle s m) ∧ (s.fbit KV_STAT.TRNG_OK = true) ∧ (Ready s n 4 3 it) ∧ (s.itKey it [3, 6] [3] = (0, k)) ∧ (typ = it.f 2 1) ∧ (typ = 1 ∨ typ = 2 ∨ typ = 3 ∨ typ = 6) ∧ (attrOk typ (it.f 3 1 % 4) = true) ∧ (it.f 0x1C 2 ≤ 64) ∧ (s.itAux it (it.f 0x1C 2) = some x) ∧ (splitLabel x = some (l, c)) ∧ (l.take 4 ≠ ascii "SVX-"))
    ∧ (∃ (s : State), ∃ n, ∃ (it : Item), ∃ m, ∃ k, ∃ typ, ∃ x, ∃ l, ∃ c, (m = hSlot it.handle2) ∧ (s.destOk it = 0) ∧ (Idle s m) ∧ (s.fbit KV_STAT.TRNG_OK = true) ∧ (Ready s n 4 3 it) ∧ (s.itKey it [3, 6] [3] = (0, k)) ∧ (typ = it.f 2 1) ∧ (typ = 1 ∨ typ = 2 ∨ typ = 3 ∨ typ = 6) ∧ (attrOk typ (it.f 3 1 % 4) = true) ∧ (it.f 0x1C 2 ≤ 64) ∧ (s.itAux it (it.f 0x1C 2) = some x) ∧ (splitLabel x = some (l, c)) ∧ (l.take 4 = ascii "SVX-"))
    ∧ (∃ (s : State), ∃ n, ∃ (it : Item), (Ready s n 4 1 it) ∧ (s.handleOk it.handle = true) ∧ (Idle s (hSlot it.handle)))
    ∧ (∃ (s : State), ∃ n, ∃ (it : Item), (Ready s n 4 1 it) ∧ (s.handleOk it.handle = false))
    ∧ (∃ (s : State), ∃ n, ∃ (it : Item), ∃ m, ∃ plain, ∃ e, (Ready s n 4 0 it) ∧ (it.f 0x18 4 ≤ 192) ∧ (s.itIn it 0 (it.f 0x18 4) = some m) ∧ (s.kuCheck m it.tenant = (e, plain)) ∧ (e = 0) ∧ (leAt m 1 1 = 1) ∧ (leAt m 2 1 = 0) ∧ (s.mode ≠ 2) ∧ (Idle s (hSlot (leAt m 0x1C 4))) ∧ (leAt m 3 1 ≠ 0))
    ∧ (∃ (s : State), ∃ n, ∃ (it : Item), ∃ m, ∃ plain, ∃ e, (Ready s n 4 0 it) ∧ (it.f 0x18 4 ≤ 192) ∧ (s.itIn it 0 (it.f 0x18 4) = some m) ∧ (s.kuCheck m it.tenant = (e, plain)) ∧ (e ≠ 0))
    ∧ (∃ (s : State), ∃ n, ∃ (it : Item), ∃ l, ∃ k, ∃ k2, ∃ p, ∃ su, ∃ ak, ∃ (b : List Byte), (Ready s n 4 4 it) ∧ (l = it.f 0x20 4 % 2 ^ 21) ∧ (s.itKey it [1, 2] [2] = (0, k)) ∧ (s.itKey { it with pin := it.pin2 } [1, 2] [2] = (0, k2)) ∧ (s.fbit LDG_CFG.BLOB_VALID = true) ∧ (blobOpen k (s.mread (s.blobAddr l) 64) none l it.tenant = some (p, su, ak)) ∧ (blobFits su ak k2.ak.length = true) ∧ (s.blobRoom l = true) ∧ (b = blobWrap k2 su ak (it.f 0x23 1) l it.tenant p)) :=
  ⟨⟨(({ ((st [(KV_STAT.TRNG_OK, 0, 1), (KV_S_INFO.TYPE, 1, 4), (KV_S_INFO.ATTR, 1, 3)]).setVslot 1 { ({} : VSlot) with cells := [1], mask := [0], klen := 1 }).setItem 1 (some ({ itm 1 2 [(1, 1, 4)] with pin := some (1, 0) })) with ten.active.slot := [(0, 0x8000)] })).winWrite 0 true 0 (beB 32 p256.gx ++ beB 32 p256.gy), 1, { itm 1 2 [(1, 1, 4)] with pin := some (1, 0) }, 0, p256, ⟨4, 3, [1], []⟩, beB 32 p256.gx ++ beB 32 p256.gy, beB 32 p256.gx, by unfold Idle Ready; refine ⟨by decide +kernel, by decide +kernel, by decide +kernel, by decide +kernel, by decide +kernel, rfl, ?_⟩; decide +kernel⟩,
    ⟨{ (st [(KV_STAT.TRNG_OK, 0, 1)]).setItem 1 (some (itm 1 3 [])) with ten.active.slot := [(0, 0x8000)] }, 1, itm 1 3 [], 0, p256, by unfold Idle Ready; exact ⟨by decide +kernel, by decide +kernel, by decide +kernel, by decide +kernel, by decide +kernel, rfl, by decide +kernel, fun d => Laws.winOk_of_le _ _ _ _ _ 64 (Laws.pub_le p256 _) (by decide +kernel)⟩⟩,
    ⟨{ (st [(KV_STAT.TRNG_OK, 0, 1)]).setItem 1 (some (itm 4 2 [(2, 1, 1)])) with ten.active.slot := [(0, 0x8000)] }, 1, itm 4 2 [(2, 1, 1)], 0, 1, by simp only [Idle, Ready]; decide +kernel⟩,
    ⟨(({ (st [(KV_STAT.TRNG_OK, 0, 1), (KV_S_INFO.TYPE, 1, 3), (KV_S_INFO.ATTR, 1, 3)]).setItem 1 (some ({ itm 4 3 [(2, 1, 1), (0x1C, 2, 2), (1, 1, 4)] with pin := some (1, 0) })) with ten.active.slot := [(0, 0x8000)] })).winWrite 0 true 0 [65, 0], 1, { itm 4 3 [(2, 1, 1), (0x1C, 2, 2), (1, 1, 4)] with pin := some (1, 0) }, 0, ⟨3, 3, [], []⟩, 1, [65, 0], [65], [], by simp only [Idle, Ready]; decide +kernel⟩,
    ⟨(({ (st [(KV_STAT.TRNG_OK, 0, 1), (KV_S_INFO.TYPE, 1, 3), (KV_S_INFO.ATTR, 1, 3)]).setItem 1 (some ({ itm 4 3 [(2, 1, 1), (0x1C, 2, 5), (1, 1, 4)] with pin := some (1, 0) })) with ten.active.slot := [(0, 0x8000)] })).winWrite 0 true 0 [0x53, 0x56, 0x58, 0x2D, 0], 1, { itm 4 3 [(2, 1, 1), (0x1C, 2, 5), (1, 1, 4)] with pin := some (1, 0) }, 0, ⟨3, 3, [], []⟩, 1, [0x53, 0x56, 0x58, 0x2D, 0], [0x53, 0x56, 0x58, 0x2D], [], by simp only [Idle, Ready]; decide +kernel⟩,
    ⟨(st [(KV_S_INFO.TYPE, 0, 3)]).setItem 1 (some (itm 4 1 [])), 1, itm 4 1 [], by simp only [Ready, Idle]; decide +kernel⟩,
    ⟨(own).setItem 1 (some (itm 4 1 [])), 1, itm 4 1 [], by simp only [Ready]; decide +kernel⟩,
    ⟨kuS, 1, kuI, kuM, gcmCrypt kuK (List.replicate 12 0) (List.replicate 16 0), 0, by have d : kuI.f 0x18 4 ≤ 192 ∧ kuI.tenant = 0 ∧ kuS0.mode ≠ 2 ∧ leAt kuH 1 1 = 1 ∧ leAt kuH 2 1 = 0 ∧ leAt kuH 0x1C 4 = 1 ∧ leAt kuH 3 1 ≠ 0 ∧ Idle kuS0 (hSlot 1) := by { unfold Idle; decide +kernel }; obtain ⟨d1, d2, d3, d4, d5, d6, d7, d8⟩ := d; have a : ∀ off n, off + n ≤ 48 → leAt kuM off n = leAt kuH off n := fun off n h => leAt_pre kuH _ off n h; rw [d2, a 1 1 (by decide), a 2 1 (by decide), a 3 1 (by decide), a 0x1C 4 (by decide), d6]; exact ⟨kuS_ready, d1, kuS_in, kuS_check, rfl, d4, d5, d3, d8, d7⟩⟩,
    ⟨(own).setItem 1 (some (itm 4 0 [])), 1, itm 4 0 [], [], [], 0x23, by simp only [Ready]; decide +kernel⟩,
    ⟨{ ((st [(LDG_CFG.BLOB_VALID, 0, 1), (STO_NAND_STAT.STATE, 0, 4)]).setVslot 0 { ({} : VSlot) with old := [⟨1, 1, 2, List.replicate 16 0, [], 2⟩] }).setItem 1 (some ({ itm 4 4 [] with pin := some (0, 1), pin2 := some (0, 1) })) with nand.blobLedgers := 1, dram := cells 0 blB }, 1, { itm 4 4 [] with pin := some (0, 1), pin2 := some (0, 1) }, 0, blK, blK, List.replicate 32 0, 0, false, blobWrap blK 0 false 0 0 0 (List.replicate 32 0), by refine ⟨?_, by decide +kernel, by decide +kernel, by decide +kernel, by decide +kernel, ?_, by decide +kernel, by decide +kernel, rfl⟩; { simp only [Ready]; decide +kernel }; rw [show State.blobAddr _ 0 = 0 by decide +kernel, blB_read _ rfl]; exact (blB_open _ (Or.inl rfl)).2⟩⟩

/-- Something meets the hypotheses of each clause of Vault. -/
theorem witness_Vault :
    (∃ (s : State), ∃ host, (Open s host .kv))
    ∧ (∃ (s : State), ∃ host, ∃ c, ∃ w, ∃ (v : Nat), ∃ a, (Open s host .kv) ∧ (w = s.fget KV_FUSE_ADDR.WORD host) ∧ (v = s.fget KV_FUSE_DATA.DATA host) ∧ (c = 0x4655) ∧ (s.fuseMay w = true) ∧ ((∀ k, k < 3 → tget 0 s.vault.cells (w + 512 * k) = a)) ∧ (tget 0 s.vault.acc w = a))
    ∧ (∃ (s : State), ∃ host, ∃ c, ∃ w, ∃ (v : Nat), (Open s host .kv) ∧ (w = s.fget KV_FUSE_ADDR.WORD host) ∧ (v = s.fget KV_FUSE_DATA.DATA host) ∧ (c = 0x4655) ∧ (s.fuseMay w = false))
    ∧ (∃ (s : State), ∃ host, ∃ c, ∃ w, ∃ (v : Nat), (Open s host .kv) ∧ (w = s.fget KV_FUSE_ADDR.WORD host) ∧ (v = s.fget KV_FUSE_DATA.DATA host) ∧ (c ≠ 0x4655))
    ∧ (∃ (s : State), ∃ host, ∃ a, (Open s host .kv) ∧ (s.mode = 2) ∧ (tget 0 s.vault.acc 16 ≠ 0 ∨ tget 0 s.vault.acc 17 ≠ 0) ∧ ((∀ k, k < 3 → tget 0 s.vault.cells (8 + 512 * k) = a)) ∧ (tget 0 s.vault.acc 8 = a))
    ∧ (∃ (s : State), ∃ host, ∃ c, (Open s host .kv) ∧ (s.mode ≠ 2 ∨ c ≠ 0x4C4B))
    ∧ (∃ (s : State), ∃ m, ∃ c, ((s.vslot m).current = some c) ∧ ((s.vslot m).waiting = []) ∧ (0 < c.typ) ∧ (c.typ ≤ 6) ∧ (c.attr < 4) ∧ (c.src = .reg) ∧ (m < 4096) ∧ (s.storeFull = false) ∧ ((s.vslot m).pins = 0 ∨ s.fget KV_POOL.OLDGEN < 256))
    ∧ (∃ (s : State), ∃ m, ∃ c, ((s.vslot m).current = some c) ∧ ((s.vslot m).waiting = []) ∧ (0 < c.typ) ∧ (c.typ ≤ 6) ∧ (c.attr < 4) ∧ (c.src = .reg) ∧ (m < 4096))
    ∧ (∃ (s : State), ∃ m, ((s.vslot m).cells.length = (s.vslot m).mask.length))
    ∧ (∃ (s : State), ∃ host, ∃ m, (OpenW s host .kv 0 m) ∧ (s.fbit KV_S_RES.BUSY m = false) ∧ (s.slotLoaded m = true) ∧ (Idle s m))
    ∧ (∃ (s : State), ∃ host, ∃ m, (OpenW s host .kv 0 m) ∧ (s.fbit KV_S_RES.BUSY m = true))
    ∧ (∃ (s : State), (s.fbit KV_STAT.TRNG_OK = false))
    ∧ (∃ (s : State), ∃ host, ∃ (v : Nat), (Open s host .kv) ∧ (v % 2 ^ 32 = 0x5A45524F) ∧ (s.pip.tags = []) ∧ (s.pip.fills = []) ∧ ((∀ h, h < 9 → (s.host h).mrt.isOpen = false)) ∧ (AirFree s))
    ∧ (∃ (s : State), ∃ host, ∃ (v : Nat), (Open s host .kv) ∧ (v % 2 ^ 32 ≠ 0x5A45524F))
    ∧ (∃ (s : State), ∃ z, ∃ k, (s.vault.zeroStep5 = true) ∧ ((∀ c, c < 3 → tget 0 s.vault.cells (10 + 512 * c) = z)) ∧ (tget 0 s.vault.acc 10 = z) ∧ ((List.range 32).find? (fun j => !nbit z j) = some k))
    ∧ (∃ (s : State), (s.vault.zeroStep5 = false)) :=
  ⟨⟨own, 0, by simp only [Open]; decide +kernel⟩,
    ⟨st [(KV_FUSE_ADDR.WORD, 0, 20), (CHIP_MODE.MODE, 0, 2)], 0, 0x4655, 20, 0, 0, by simp only [Open]; decide +kernel⟩,
    ⟨own, 0, 0x4655, 0, 0, by simp only [Open]; decide +kernel⟩,
    ⟨own, 0, 1, 0, 0, by simp only [Open]; decide +kernel⟩,
    ⟨{ st [(CHIP_MODE.MODE, 0, 2)] with vault.acc := [(16, 1)] }, 0, 0, by simp only [Open]; decide +kernel⟩,
    ⟨own, 0, 0, by simp only [Open]; decide +kernel⟩,
    ⟨(own).setVslot 0 { ({} : VSlot) with current := some { src := .reg, typ := 1 }, waiting := [], pins := 0 }, 0, { src := .reg, typ := 1 }, by decide +kernel⟩,
    ⟨(own).setVslot 0 { ({} : VSlot) with current := some { src := .reg, typ := 1 }, waiting := [] }, 0, { src := .reg, typ := 1 }, by decide +kernel⟩,
    ⟨own, 0, by decide +kernel⟩,
    ⟨st [(KV_S_RES.BUSY, 0, 0), (KV_S_INFO.TYPE, 0, 1)], 0, 0, by simp only [OpenW, Idle, Open]; decide +kernel⟩,
    ⟨st [(KV_S_RES.BUSY, 0, 1)], 0, 0, by simp only [OpenW, Open]; decide +kernel⟩,
    ⟨st [(KV_STAT.TRNG_OK, 0, 0)], by decide +kernel⟩,
    ⟨{ own with pip.tags := [], pip.fills := [] }, 0, 0x5A45524F, by simp only [Open, AirFree]; decide +kernel⟩,
    ⟨own, 0, 0, by simp only [Open]; decide +kernel⟩,
    ⟨{ own with vault.zeroStep5 := true }, 0, 0, by decide +kernel⟩,
    ⟨{ own with vault.zeroStep5 := false }, by decide +kernel⟩⟩

/-- Something meets the hypotheses of each clause of VersionSets. -/
theorem witness_VersionSets :
    (∃ (s : State), ∃ host, ∃ v, ∃ (b : Nat), (Stage s host v 1 b) ∧ (s.runs b = false) ∧ ((s.bankState b = 3 ∨ s.bankState b = 0 ∨ s.bankState b = 2 ∨ s.bankState b = 6 ∨ s.bankState b = 7)))
    ∧ (∃ (s : State), ∃ host, ∃ v, ∃ (b : Nat), (Stage s host v 1 b) ∧ (s.runs b = true ∨ s.bankState b = 1 ∨ s.bankState b = 4 ∨ s.bankState b = 5))
    ∧ (∃ (s : State), ∃ host, ∃ v, ∃ (b : Nat), (s.bankState b = 1) ∧ (Stage s host v 2 b))
    ∧ (∃ (s : State), ∃ host, ∃ v, ∃ (b : Nat), (s.bankState b = 1) ∧ (Stage s host v 3 b))
    ∧ (∃ (s : State), ∃ host, ∃ v, ∃ (b : Nat), (s.bankState b ≠ 1) ∧ (Stage s host v 2 b))
    ∧ (∃ (s : State), ∃ host, ∃ v, ∃ (b : Nat), (s.bankState b ≠ 1) ∧ (Stage s host v 3 b))
    ∧ (∃ (s : State), ∃ c, (s.upd.cmd = some c) ∧ (c.op = 2))
    ∧ (∃ (s : State), ∃ c, ∃ st, ∃ r, ∃ x, (s.upd.cmd = some c) ∧ (c.op ≠ 2) ∧ (s.setCheck c.bank false = (st, r, x)) ∧ (st < 256) ∧ (r < 16))
    ∧ (∃ (s : State), ∃ host, ∃ v, ∃ (b : Nat), (Stage s host v 4 b) ∧ (s.bankState b = 2))
    ∧ (∃ (s : State), ∃ host, ∃ v, ∃ (b : Nat), (Stage s host v 4 b) ∧ (s.bankState b ≠ 2))
    ∧ (∃ (s : State), ∃ host, ∃ v, ∃ b, ∃ (k : Nat), (Stage s host v 5 b) ∧ (s.bankIn 3 = k) ∧ (k < 2))
    ∧ (∃ (s : State), ∃ host, ∃ v, ∃ b, ∃ (k : Nat), ∃ img, ∃ rest, (Stage s host v 6 b) ∧ (nbits v 31 16 = 0x5550) ∧ (s.bankIn 3 = k) ∧ (k < 2) ∧ (s.upd.act = none) ∧ (s.mode = 4 ∨ s.mode = 5 ∨ s.mode = 6 ∨ s.mode = 7 ∨ s.mode = 8) ∧ (Differ s k true = img :: rest) ∧ (s.actUnits img = []))
    ∧ (∃ (s : State), ∃ host, ∃ v, ∃ b, ∃ (k : Nat), (Stage s host v 6 b) ∧ (nbits v 31 16 = 0x5550) ∧ (s.bankIn 3 = k) ∧ (k < 2) ∧ (s.upd.act = none) ∧ (s.mode = 1 ∨ s.mode = 2 ∨ s.mode = 9 ∨ s.mode = 10 ∨ s.mode = 11))
    ∧ (∃ (s : State), ∃ (b : Nat), ∃ host, ∃ v, ∃ x, (s.bankIn 4 = b) ∧ (b < 2) ∧ (Stage s host v 7 x))
    ∧ (∃ (s : State), ∃ (b : Nat), (s.bankIn 4 = b) ∧ (b < 2) ∧ (s.fget UPD_CFG.CONFIRM_S ≠ 0) ∧ (s.upd.trialFault = false))
    ∧ (∃ (s : State), ∃ (b : Nat), (s.bankIn 4 = b) ∧ (b < 2) ∧ (s.fget UPD_CFG.CONFIRM_S = 0))
    ∧ (∃ (s : State), ∃ (b : Nat), ∃ host, ∃ v, ∃ x, (s.bankIn 4 = b) ∧ (b < 2) ∧ (Stage s host v 8 x) ∧ (nbits v 31 16 = 0x5550) ∧ ((∀ i, (Differ s b false).reverse.head? = some i → s.actUnits i = [])))
    ∧ (∃ (s : State), ∃ a, ∃ img, ∃ rest, (s.upd.act = some a) ∧ (a.todo = img :: rest) ∧ (a.restoring = false) ∧ (a.bank < 2) ∧ (s.upd.trialFault = false) ∧ (s.actUnits img = []))
    ∧ (∃ (s : State), ∃ a, ∃ img, ∃ rest, (s.upd.act = some a) ∧ (a.todo = img :: rest) ∧ (a.restoring = false) ∧ (a.bank < 2) ∧ (s.actUnits img = []))
    ∧ (∃ (s : State), ∃ a, ∃ img, ∃ rest, ∃ e, (s.upd.act = some a) ∧ (a.todo = img :: rest) ∧ (a.restoring = false) ∧ (a.bank < 2) ∧ (s.imgIn a.bank img = some e) ∧ (s.badBlock a.bank e = none) ∧ (e.kind = 4 ∨ e.kind = 5 ∨ e.kind = 6) ∧ (a.kept = []) ∧ (rest = []) ∧ (a.back < 16) ∧ (s.ten.phase = .idle) ∧ (s.mode = 9) ∧ (s.pow.updFault = false) ∧ (s.pow.due = false))
    ∧ (∃ (s : State), (s.upd.act = none))
    ∧ (∃ (s : State), (s.upd.act = none) ∧ (s.upd.trialFault = false))
    ∧ (∃ (s : State), ∃ host, ∃ v, ∃ b, (Stage s host v 9 b) ∧ (nbits v 31 16 = 0x5550) ∧ (s.bankIn 5 < 2) ∧ (nbit (leAt (s.setDesc_ (s.bankIn 5)) 6 2) 0 = true) ∧ (leAt (s.setDesc_ (s.bankIn 5)) 0x14 2 ≤ s.fget UPD_SEC_FLOOR.FLOOR))
    ∧ (∃ (s : State), ∃ host, ∃ v, ∃ b, (Stage s host v 9 b) ∧ (nbits v 31 16 = 0x5550) ∧ (s.bankIn 5 < 2) ∧ (nbit (leAt (s.setDesc_ (s.bankIn 5)) 6 2) 0 = true) ∧ (s.fget UPD_SEC_FLOOR.FLOOR < leAt (s.setDesc_ (s.bankIn 5)) 0x14 2))
    ∧ (∃ (s : State), (s.mode = 1) ∧ (s.pow.booted = false))
    ∧ (∃ (s : State), (s.mode ≠ 0) ∧ (s.mode ≠ 1 ∨ s.pow.booted = true)) :=
  ⟨⟨own, 0, 1, 0, by simp only [Stage, Open]; decide +kernel⟩,
    ⟨{ own with pow.booted := true }, 0, 1, 0, by simp only [Stage, Open]; decide +kernel⟩,
    ⟨st [(UPD_BANK_A.STATE, 0, 1)], 0, 2, 0, by simp only [Stage, Open]; decide +kernel⟩,
    ⟨st [(UPD_BANK_A.STATE, 0, 1)], 0, 3, 0, by simp only [Stage, Open]; decide +kernel⟩,
    ⟨own, 0, 2, 0, by simp only [Stage, Open]; decide +kernel⟩,
    ⟨own, 0, 3, 0, by simp only [Stage, Open]; decide +kernel⟩,
    ⟨{ own with upd.cmd := some { op := 2, bank := 0 } }, { op := 2, bank := 0 }, by decide +kernel⟩,
    ⟨{ own with upd.cmd := some { op := 3, bank := 0 } }, { op := 3, bank := 0 }, 0x23, 1, 0, by decide +kernel⟩,
    ⟨st [(UPD_BANK_A.STATE, 0, 2)], 0, 4, 0, by simp only [Stage, Open]; decide +kernel⟩,
    ⟨own, 0, 4, 0, by simp only [Stage, Open]; decide +kernel⟩,
    ⟨st [(UPD_BANK_A.STATE, 0, 3)], 0, 5, 0, 0, by simp only [Stage, Open]; decide +kernel⟩,
    ⟨{ st [(CHIP_MODE.MODE, 0, 5), (UPD_BANK_A.STATE, 0, 3), (UPD_RUN.BANK, 0, 1)] with upd.act := none, nand.qspi := [(0x400005, 1), (0x400060, 6), (0x400061, 0)] }, 0, 1431306246, 0, 0, (6, 0), [], by simp only [Stage, Open]; decide +kernel⟩,
    ⟨{ st [(CHIP_MODE.MODE, 0, 1), (UPD_BANK_A.STATE, 0, 3)] with upd.act := none }, 0, 1431306246, 0, 0, by simp only [Stage, Open]; decide +kernel⟩,
    ⟨st [(UPD_BANK_A.STATE, 0, 4)], 0, 0, 7, 0, by simp only [Stage, Open]; decide +kernel⟩,
    ⟨{ st [(UPD_CFG.CONFIRM_S, 0, 1), (UPD_BANK_A.STATE, 0, 4)] with upd.trialFault := false }, 0, by decide +kernel⟩,
    ⟨st [(UPD_CFG.CONFIRM_S, 0, 0), (UPD_BANK_A.STATE, 0, 4)], 0, by decide +kernel⟩,
    ⟨st [(UPD_BANK_A.STATE, 0, 4)], 0, 0, 1431306248, 0, by simp only [Stage, Open]; decide +kernel⟩,
    ⟨{ own with upd.act := some { bank := 0, todo := [(6, 0)] }, upd.trialFault := false }, { bank := 0, todo := [(6, 0)] }, (6, 0), [], by decide +kernel⟩,
    ⟨{ own with upd.act := some { bank := 0, todo := [(6, 0)] } }, { bank := 0, todo := [(6, 0)] }, (6, 0), [], by decide +kernel⟩,
    ⟨{ st [(CHIP_MODE.MODE, 0, 9)] with upd.act := some { bank := 0, todo := [(6, 0)], back := 5 }, ten.phase := .idle, pow.updFault := false, pow.due := false, nand.qspi := [(0x400005, 1), (0x400060, 6), (0x400061, 0), (0x400064, 0), (0x400065, 0), (0x400066, 1), (0x400067, 0), (0x410010, 0), (0x410011, 0)] }, { bank := 0, todo := [(6, 0)], back := 5 }, (6, 0), [], ⟨6, 0, 65536, 0xFFFFFFFF, 0xFFFFFFFF, List.replicate 32 0xFF⟩, by decide +kernel⟩,
    ⟨{ own with upd.act := none }, by decide +kernel⟩,
    ⟨{ own with upd.act := none, upd.trialFault := false }, by decide +kernel⟩,
    ⟨{ st [(UPD_BANK_A.STATE, 0, 5), (UPD_SEC_FLOOR.FLOOR, 0, 65535)] with nand.qspi := [(0x400014, 0), (0x400015, 0)] }, 0, 1431306249, 0, by simp only [Stage, Open]; decide +kernel⟩,
    ⟨st [(UPD_BANK_A.STATE, 0, 5)], 0, 1431306249, 0, by simp only [Stage, Open]; decide +kernel⟩,
    ⟨{ st [(CHIP_MODE.MODE, 0, 1)] with pow.booted := false }, by decide +kernel⟩,
    ⟨{ own with pow.booted := true }, by decide +kernel⟩⟩

/-- Something meets the hypotheses of each clause of Campaigns. -/
theorem witness_Campaigns :
    (∃ (s : State), ∃ n, ∃ c, ∃ (it : Item), ∃ h, ∃ size, ∃ blk, ∃ cnt, ∃ part, (CampReady s n 0 c 0 it) ∧ (size = it.f 0x1C 4) ∧ (blk = it.f 0x20 2) ∧ (part = it.f 3 1) ∧ (0 < size) ∧ (size ≤ 2 ^ 24) ∧ (blk % 16 = 0) ∧ (64 ≤ blk) ∧ (blk ≤ 384) ∧ (cnt = (size + blk - 1) / blk) ∧ (cnt ≤ 65535) ∧ (ownerOf s.ten.active.part part = some it.tenant) ∧ (s.fbit P_CFG.VALID part = true) ∧ (s.buf it false 32 = some h) ∧ (size ≤ s.campSpace part))
    ∧ (∃ (s : State), ∃ n, ∃ c, ∃ (it : Item), ∃ (b : List Byte), (CampReady s n 1 c 1 it) ∧ (it.f 0x10 4 + it.f 4 4 ≤ (s.camp c).size) ∧ (s.buf it false (it.f 4 4) = some b) ∧ (s.nandReady = true))
    ∧ (∃ (s : State), ∃ n, ∃ c, ∃ (it : Item), (CampReady s n 2 c 1 it) ∧ (s.ftlMedia false = true) ∧ (sha256 ((s.camp c).bytes 0 (s.camp c).size) = (s.camp c).hash))
    ∧ (∃ (s : State), ∃ n, ∃ c, ∃ (it : Item), (CampReady s n 2 c 1 it) ∧ (s.ftlMedia false = true) ∧ (sha256 ((s.camp c).bytes 0 (s.camp c).size) ≠ (s.camp c).hash))
    ∧ (∃ (s : State), ∃ n, ∃ c, ∃ st, ∃ (it : Item), ∃ (k : Nat), (CampReady s n 3 c st it) ∧ (2 ≤ st) ∧ (st ≤ 5) ∧ ((s.camp c).send = none) ∧ (k < 4) ∧ (nbit (it.f 2 1 % 16) k = true) ∧ (s.laneOn k = true) ∧ ((s.lane k).queue.length < 64) ∧ (s.mayTransmit = true) ∧ (s.fget PLC_KEY_TX.IDX = 0) ∧ (s.fbit PLC_KEY0.VALID = true) ∧ (s.keysBlocked = false))
    ∧ (∃ (s : State), ∃ n, ∃ c, ∃ st, ∃ (it : Item), ∃ (b : List Byte), (CampReady s n 4 c st it) ∧ (2 ≤ st) ∧ (st ≤ 5) ∧ (s.fget UPD_C_BLOCKS.COUNT c ≤ 65535) ∧ (s.buf it false ((it.f 0x14 2 + 7) / 8) = some b))
    ∧ (∃ (s : State), ∃ n, ∃ c, ∃ (it : Item), ∃ g, ∃ tg, (CampReady s n 5 c 2 it) ∧ (g = it.f 0x16 1) ∧ (tg = it.f 0x24 6) ∧ (0 < g) ∧ (g ≤ 15) ∧ (s.cycleNow + g + 2 ≤ tg) ∧ (tg ≤ s.cycleNow + 65535))
    ∧ (∃ (s : State), ∃ n, ∃ c, ∃ st, ∃ (it : Item), (CampReady s n 6 c st it) ∧ (2 ≤ st) ∧ (st ≤ 5) ∧ (it.f 0x10 4 + it.f 4 4 ≤ (s.camp c).size) ∧ (s.winOk it.task false (it.f 8 8) (it.f 4 4) = true) ∧ (s.ftlMedia false = true))
    ∧ (∃ (s : State), ∃ n, ∃ c, ∃ st, ∃ (it : Item), (CampReady s n 7 c st it) ∧ (1 ≤ st) ∧ (st ≤ 5) ∧ ((s.camp c).send = none))
    ∧ (∃ (s : State), ∃ n, ∃ c, ∃ (it : Item), ∃ op, (Ready s n 9 op it) ∧ (c = it.f 1 1 % 16) ∧ (s.fget UPD_C_STAT.STATE c ≠ 0) ∧ (s.fget UPD_C_STAT.TENANT c ≠ it.tenant) ∧ (op = 0))
    ∧ (∃ (s : State), ∃ n, ∃ c, ∃ (it : Item), ∃ op, (Ready s n 9 op it) ∧ (c = it.f 1 1 % 16) ∧ (s.fget UPD_C_STAT.STATE c ≠ 0) ∧ (s.fget UPD_C_STAT.TENANT c ≠ it.tenant) ∧ (op = 1))
    ∧ (∃ (s : State), ∃ n, ∃ c, ∃ (it : Item), ∃ op, (Ready s n 9 op it) ∧ (c = it.f 1 1 % 16) ∧ (s.fget UPD_C_STAT.STATE c ≠ 0) ∧ (s.fget UPD_C_STAT.TENANT c ≠ it.tenant) ∧ (op = 2))
    ∧ (∃ (s : State), ∃ n, ∃ c, ∃ (it : Item), ∃ op, (Ready s n 9 op it) ∧ (c = it.f 1 1 % 16) ∧ (s.fget UPD_C_STAT.STATE c ≠ 0) ∧ (s.fget UPD_C_STAT.TENANT c ≠ it.tenant) ∧ (op = 3) ∧ ((s.camp c).send = none))
    ∧ (∃ (s : State), ∃ n, ∃ c, ∃ (it : Item), ∃ op, (Ready s n 9 op it) ∧ (c = it.f 1 1 % 16) ∧ (s.fget UPD_C_STAT.STATE c ≠ 0) ∧ (s.fget UPD_C_STAT.TENANT c ≠ it.tenant) ∧ (op = 4))
    ∧ (∃ (s : State), ∃ n, ∃ c, ∃ (it : Item), ∃ op, (Ready s n 9 op it) ∧ (c = it.f 1 1 % 16) ∧ (s.fget UPD_C_STAT.STATE c ≠ 0) ∧ (s.fget UPD_C_STAT.TENANT c ≠ it.tenant) ∧ (op = 5))
    ∧ (∃ (s : State), ∃ n, ∃ c, ∃ (it : Item), ∃ op, (Ready s n 9 op it) ∧ (c = it.f 1 1 % 16) ∧ (s.fget UPD_C_STAT.STATE c ≠ 0) ∧ (s.fget UPD_C_STAT.TENANT c ≠ it.tenant) ∧ (op = 6))
    ∧ (∃ (s : State), ∃ n, ∃ c, ∃ (it : Item), ∃ op, (Ready s n 9 op it) ∧ (c = it.f 1 1 % 16) ∧ (s.fget UPD_C_STAT.STATE c ≠ 0) ∧ (s.fget UPD_C_STAT.TENANT c ≠ it.tenant) ∧ (op = 7))
    ∧ (∃ (s : State), ∃ c, (c < 16) ∧ (s.fget UPD_C_STAT.STATE c = 4))
    ∧ (∃ (s : State), ∃ c, (c < 16) ∧ (s.fget UPD_C_STAT.STATE c ≠ 4)) :=
  ⟨⟨(st [(UPD_C_STAT.STATE, 0, 0), (P_CFG.VALID, 0, 1), (P_SIZE.BLOCKS, 0, 10), (P_CFG.KIND, 0, 1), (STO_NAND_GEOM.PPB, 0, 64), (STO_NAND_GEOM.PAGE, 0, 1)]).setItem 1 (some (itm 9 0 [(0x1C, 4, 64), (0x20, 2, 64)])), 1, 0, itm 9 0 [(0x1C, 4, 64), (0x20, 2, 64)], List.replicate 32 0, 64, 64, 1, 0, by simp only [CampReady, Ready]; decide +kernel⟩,
    ⟨(st [(UPD_C_STAT.STATE, 0, 1), (STO_NAND_STAT.STATE, 0, 4)]).setItem 1 (some (itm 9 1 [])), 1, 0, itm 9 1 [], [], by simp only [CampReady, Ready]; decide +kernel⟩,
    ⟨((st [(UPD_C_STAT.STATE, 0, 1), (STO_NAND_STAT.STATE, 0, 4)]).setCamp 0 { ({} : Camp) with hash := sha256 [] }).setItem 1 (some (itm 9 2 [])), 1, 0, itm 9 2 [], by simp only [CampReady, Ready]; decide +kernel⟩,
    ⟨(st [(UPD_C_STAT.STATE, 0, 1), (STO_NAND_STAT.STATE, 0, 4)]).setItem 1 (some (itm 9 2 [])), 1, 0, itm 9 2 [], by simp only [CampReady, Ready]; decide +kernel⟩,
    ⟨((st [(UPD_C_STAT.STATE, 0, 2), (PLC_L_STAT.STATE, 0, 2), (CHIP_MODE.MODE, 0, 5), (RES_PAIR_STAT.GRANT, 0, 1), (PLC_KEY_TX.IDX, 0, 0), (PLC_KEY0.VALID, 0, 1)]).setCamp 0 { ({} : Camp) with send := none }).setItem 1 (some (itm 9 3 [(2, 1, 1)])), 1, 0, 2, itm 9 3 [(2, 1, 1)], 0, by simp only [CampReady, Ready]; decide +kernel⟩,
    ⟨(st [(UPD_C_STAT.STATE, 0, 2)]).setItem 1 (some (itm 9 4 [])), 1, 0, 2, itm 9 4 [], [], by simp only [CampReady, Ready]; decide +kernel⟩,
    ⟨(st [(UPD_C_STAT.STATE, 0, 2)]).setItem 1 (some (itm 9 5 [(0x16, 1, 1), (0x24, 6, 10)])), 1, 0, itm 9 5 [(0x16, 1, 1), (0x24, 6, 10)], 1, 10, by simp only [CampReady, Ready]; decide +kernel⟩,
    ⟨(st [(UPD_C_STAT.STATE, 0, 2), (STO_NAND_STAT.STATE, 0, 4)]).setItem 1 (some (itm 9 6 [])), 1, 0, 2, itm 9 6 [], by simp only [CampReady, Ready]; decide +kernel⟩,
    ⟨((st [(UPD_C_STAT.STATE, 0, 2)]).setCamp 0 { ({} : Camp) with send := none }).setItem 1 (some (itm 9 7 [])), 1, 0, 2, itm 9 7 [], by simp only [CampReady, Ready]; decide +kernel⟩,
    ⟨(st [(UPD_C_STAT.STATE, 0, 1), (UPD_C_STAT.TENANT, 0, 1)]).setItem 1 (some (itm 9 0 [])), 1, 0, itm 9 0 [], 0, by simp only [Ready]; decide +kernel⟩,
    ⟨(st [(UPD_C_STAT.STATE, 0, 1), (UPD_C_STAT.TENANT, 0, 1)]).setItem 1 (some (itm 9 1 [])), 1, 0, itm 9 1 [], 1, by simp only [Ready]; decide +kernel⟩,
    ⟨(st [(UPD_C_STAT.STATE, 0, 1), (UPD_C_STAT.TENANT, 0, 1)]).setItem 1 (some (itm 9 2 [])), 1, 0, itm 9 2 [], 2, by simp only [Ready]; decide +kernel⟩,
    ⟨((st [(UPD_C_STAT.STATE, 0, 1), (UPD_C_STAT.TENANT, 0, 1)]).setCamp 0 { ({} : Camp) with send := none }).setItem 1 (some (itm 9 3 [])), 1, 0, itm 9 3 [], 3, by simp only [Ready]; decide +kernel⟩,
    ⟨(st [(UPD_C_STAT.STATE, 0, 1), (UPD_C_STAT.TENANT, 0, 1)]).setItem 1 (some (itm 9 4 [])), 1, 0, itm 9 4 [], 4, by simp only [Ready]; decide +kernel⟩,
    ⟨(st [(UPD_C_STAT.STATE, 0, 1), (UPD_C_STAT.TENANT, 0, 1)]).setItem 1 (some (itm 9 5 [])), 1, 0, itm 9 5 [], 5, by simp only [Ready]; decide +kernel⟩,
    ⟨(st [(UPD_C_STAT.STATE, 0, 1), (UPD_C_STAT.TENANT, 0, 1)]).setItem 1 (some (itm 9 6 [])), 1, 0, itm 9 6 [], 6, by simp only [Ready]; decide +kernel⟩,
    ⟨(st [(UPD_C_STAT.STATE, 0, 1), (UPD_C_STAT.TENANT, 0, 1)]).setItem 1 (some (itm 9 7 [])), 1, 0, itm 9 7 [], 7, by simp only [Ready]; decide +kernel⟩,
    ⟨st [(UPD_C_STAT.STATE, 0, 4)], 0, by decide +kernel⟩,
    ⟨st [(UPD_C_STAT.STATE, 0, 0)], 0, by decide +kernel⟩⟩

/-- Something meets the hypotheses of each clause of ConfigMemory. -/
theorem witness_ConfigMemory :
    (∃ (s : State), ∃ host, ∃ v, ∃ a, ∃ (n : Nat), ∃ r, (QCmd s host v 1) ∧ (a = s.fget STO_QADDR.ADDR host) ∧ (n = s.fget STO_QLEN.LEN host) ∧ (s.qRegion a n = some r) ∧ (r ≠ 2) ∧ (r ≠ 3) ∧ (r ≠ 6) ∧ (r ≠ 7))
    ∧ (∃ (s : State), ∃ host, ∃ v, ∃ a, ∃ (n : Nat), (QCmd s host v 1) ∧ (a = s.fget STO_QADDR.ADDR host) ∧ (n = s.fget STO_QLEN.LEN host) ∧ (s.qRegion a n = some 6 ∨ s.qRegion a n = none))
    ∧ (∃ (s : State), ∃ host, ∃ v, ∃ a, ∃ (n : Nat), ∃ w, (QCmd s host v 2) ∧ (a = s.fget STO_QADDR.ADDR host) ∧ (n = s.fget STO_QLEN.LEN host) ∧ (w = List.zipWith (· &&& ·) (s.qbufRead n) (s.qread a n)) ∧ (s.qRegion a n = some 4 ∨ s.qRegion a n = some 10))
    ∧ (∃ (s : State), ∃ host, ∃ v, ∃ a, ∃ (n : Nat), ∃ w, (QCmd s host v 2) ∧ (a = s.fget STO_QADDR.ADDR host) ∧ (n = s.fget STO_QLEN.LEN host) ∧ (w = List.zipWith (· &&& ·) (s.qbufRead n) (s.qread a n)) ∧ (s.qRegion a n ≠ some 4) ∧ (s.qRegion a n ≠ some 10))
    ∧ (∃ (s : State), ∃ host, ∃ v, ∃ a, (QCmd s host v 3) ∧ (a = s.fget STO_QADDR.ADDR host) ∧ ((s.qRegion a 1 = some 4 ∨ s.qRegion a 1 = some 10)) ∧ (a % 65536 = 0))
    ∧ (∃ (s : State), ∃ host, ∃ v, ∃ a, (QCmd s host v 3) ∧ (a = s.fget STO_QADDR.ADDR host) ∧ (s.qRegion a 1 ≠ some 4 ∧ s.qRegion a 1 ≠ some 10 ∨ a % 65536 ≠ 0))
    ∧ (∃ (s : State), ∃ host, ∃ v, (Open s host .sto) ∧ (nbits v 31 16 ≠ 0x5153) ∧ (nbits v 3 0 = 2))
    ∧ (∃ (s : State), ∃ host, ∃ v, (Open s host .sto) ∧ (nbits v 31 16 ≠ 0x5153) ∧ (nbits v 3 0 = 3))
    ∧ (∃ (s : State), ∃ host, ∃ v, (Open s host .sto) ∧ (nbits v 31 16 ≠ 0x5153) ∧ (nbits v 3 0 = 4))
    ∧ (∃ (s : State), ∃ host, ∃ v, ∃ c, (QCmd s host v 4) ∧ (s.qBytes ≠ 0) ∧ (s.bootCopy = some c))
    ∧ (∃ (s : State), (s.vault.used.length ≤ 30))
    ∧ (∃ (s : State), ∃ sec, ∃ rest, (s.vault.used = sec :: rest) ∧ (30 ≤ rest.length)) :=
  ⟨⟨st [(STO_QSPI.MBIT, 0, 64)], 0, 1364393985, 0, 0, 0, by simp only [QCmd, Open]; decide +kernel⟩,
    ⟨st [(STO_QLEN.LEN, 0, 1)], 0, 1364393985, 0, 1, by simp only [QCmd, Open]; decide +kernel⟩,
    ⟨st [(STO_QADDR.ADDR, 0, 0x40000), (STO_QLEN.LEN, 0, 2), (STO_QSPI.MBIT, 0, 64)], 0, 1364393986, 0x40000, 2, [0, 0], by simp only [QCmd, Open]; decide +kernel⟩,
    ⟨st [(STO_QLEN.LEN, 0, 2), (STO_QSPI.MBIT, 0, 64)], 0, 1364393986, 0, 2, [0, 0], by simp only [QCmd, Open]; decide +kernel⟩,
    ⟨st [(STO_QADDR.ADDR, 0, 0x40000), (STO_QSPI.MBIT, 0, 64)], 0, 1364393987, 0x40000, by simp only [QCmd, Open]; decide +kernel⟩,
    ⟨st [(STO_QSPI.MBIT, 0, 64)], 0, 1364393987, 0, by simp only [QCmd, Open]; decide +kernel⟩,
    ⟨own, 0, 2, by simp only [Open]; decide +kernel⟩,
    ⟨own, 0, 3, by simp only [Open]; decide +kernel⟩,
    ⟨own, 0, 4, by simp only [Open]; decide +kernel⟩,
    ⟨{ st [(STO_QSPI.MBIT, 0, 64)] with nand.qspi := [(0, 83), (1, 86), (2, 88), (3, 66), (4, 1), (28, 14), (29, 43), (30, 30), (31, 83)] }, 0, 1364393988, 0, by simp only [QCmd, Open]; decide +kernel⟩,
    ⟨own, by decide +kernel⟩,
    ⟨{ own with vault.used := List.range 31 }, 0, (List.range 31).drop 1, by decide +kernel⟩⟩

/-- Something meets the hypotheses of each clause of FlashItems. -/
theorem witness_FlashItems :
    (∃ (s : State), ∃ n, ∃ (it : Item), ∃ c, ∃ o, ∃ ap, ∃ w, (FlashRow c n o ap w) ∧ (Ready s n 5 o it) ∧ (s.nand.jobs = []) ∧ (s.ftlMedia w = false))
    ∧ (∃ (s : State), ∃ n, ∃ (it : Item), ∃ c, ∃ o, ∃ ap, ∃ w, (FlashRow c n o ap w) ∧ (Ready s n 5 o it) ∧ (s.nand.jobs = []) ∧ (s.ftlMedia w = true) ∧ (s.ftlPart it ap = none))
    ∧ (∃ (s : State), ∃ n, ∃ (it : Item), ∃ p, ∃ cnt, ∃ a, (FlashIn s n 0 it p none false) ∧ (cnt = it.f 4 4) ∧ (a = it.f 8 8) ∧ (s.fbit P_CFG.KIND p = false) ∧ (0 < cnt) ∧ (cnt ≤ 16) ∧ (a + cnt ≤ s.partSectors p) ∧ (s.winOk it.task false (it.f 0x10 8) (cnt * 4096) = true) ∧ ((∀ k d, tget none (s.part p).sectors k = some d → d.length = 4096)))
    ∧ (∃ (s : State), ∃ n, ∃ (it : Item), ∃ p, ∃ cnt, ∃ a, (FlashIn s n 0 it p none false) ∧ (cnt = it.f 4 4) ∧ (a = it.f 8 8) ∧ (s.fbit P_CFG.KIND p = false) ∧ (cnt = 0 ∨ 16 < cnt ∨ s.partSectors p < a + cnt))
    ∧ (∃ (s : State), ∃ n, ∃ (it : Item), ∃ p, ∃ cnt, ∃ a, (FlashIn s n 0 it p none false) ∧ (cnt = it.f 4 4) ∧ (a = it.f 8 8) ∧ (s.fbit P_CFG.KIND p = true) ∧ (0 < cnt) ∧ (cnt ≤ 65536) ∧ (s.partTail p ≤ a) ∧ (a + cnt ≤ s.partHead p) ∧ (s.winOk it.task false (it.f 0x10 8) cnt = true) ∧ ((s.part p).bytes.length = s.partHead p - s.partTail p))
    ∧ (∃ (s : State), ∃ n, ∃ (it : Item), ∃ p, ∃ cnt, ∃ a, (FlashIn s n 0 it p none false) ∧ (cnt = it.f 4 4) ∧ (a = it.f 8 8) ∧ (s.fbit P_CFG.KIND p = true) ∧ (a < s.partTail p ∨ s.partHead p < a + cnt))
    ∧ (∃ (s : State), ∃ n, ∃ (it : Item), ∃ p, ∃ a, ∃ lb, ∃ (s1 : State), (FlashIn s n 1 it p (some false) true) ∧ (it.f 4 4 = 1) ∧ (a = it.f 8 8) ∧ (a + 1 ≤ s.partSectors p) ∧ (s.winOk it.task false (it.f 0x10 8) 4096 = true) ∧ (0 < s.blkSectors) ∧ (s.logFor p (a / s.blkSectors) (some n) = (some lb, s1)))
    ∧ (∃ (s : State), ∃ n, ∃ (it : Item), ∃ p, ∃ a, (FlashIn s n 1 it p (some false) true) ∧ (it.f 4 4 = 1) ∧ (a = it.f 8 8) ∧ (a + 1 ≤ s.partSectors p) ∧ (s.winOk it.task false (it.f 0x10 8) 4096 = true) ∧ (0 < s.blkSectors) ∧ ((s.logFor p (a / s.blkSectors) (some n)).1 = none))
    ∧ (∃ (s : State), ∃ n, ∃ (it : Item), ∃ p, ∃ cnt, (FlashIn s n 2 it p (some true) true) ∧ (cnt = it.f 4 4) ∧ (0 < cnt) ∧ (cnt ≤ 65536) ∧ (s.winOk it.task false (it.f 0x10 8) cnt = true) ∧ (s.partHead p + cnt ≤ s.partCap p + s.partTail p) ∧ (s.partHead p + cnt < 2 ^ 64))
    ∧ (∃ (s : State), ∃ n, ∃ (it : Item), ∃ p, ∃ cnt, (FlashIn s n 2 it p (some true) true) ∧ (cnt = it.f 4 4) ∧ (0 < cnt) ∧ (cnt ≤ 65536) ∧ (s.winOk it.task false (it.f 0x10 8) cnt = true) ∧ (s.partCap p + s.partTail p < s.partHead p + cnt) ∧ (s.partTail p ≤ s.partHead p) ∧ (s.fbit P_CFG.WRAP p = false))
    ∧ (∃ (s : State), ∃ n, ∃ (it : Item), ∃ p, ∃ cnt, ∃ (t : State), (FlashIn s n 2 it p (some true) true) ∧ (cnt = it.f 4 4) ∧ (0 < cnt) ∧ (cnt ≤ 65536) ∧ (s.winOk it.task false (it.f 0x10 8) cnt = true) ∧ (s.partCap p + s.partTail p < s.partHead p + cnt) ∧ (s.partTail p ≤ s.partHead p) ∧ (s.fbit P_CFG.WRAP p = false) ∧ (exec (.append n) s = .next t))
    ∧ (∃ (s : State), ∃ n, ∃ (it : Item), ∃ p, ∃ cnt, ∃ a, (FlashIn s n 3 it p (some false) true) ∧ (cnt = it.f 4 4) ∧ (a = it.f 8 8) ∧ (0 < cnt) ∧ (cnt ≤ 16) ∧ (a + cnt ≤ s.partSectors p))
    ∧ (∃ (s : State), ∃ n, ∃ (it : Item), ∃ p, ∃ cnt, ∃ a, (FlashIn s n 3 it p (some false) true) ∧ (cnt = it.f 4 4) ∧ (a = it.f 8 8) ∧ (s.partSectors p < a + cnt))
    ∧ (∃ (s : State), ∃ n, ∃ (it : Item), ∃ p, ∃ a, (FlashIn s n 4 it p (some true) true) ∧ (a = it.f 8 8) ∧ (s.partTail p ≤ a) ∧ (a ≤ s.partHead p) ∧ (0 < s.blockBytes))
    ∧ (∃ (s : State), ∃ n, ∃ (it : Item), ∃ p, ∃ a, (FlashIn s n 4 it p (some true) true) ∧ (a = it.f 8 8) ∧ (a < s.partTail p ∨ s.partHead p < a))
    ∧ (∃ (s : State), ∃ n, ∃ (it : Item), ∃ p, (FlashIn s n 5 it p none false)) :=
  ⟨⟨{ (own).setItem 1 (some (itm 5 0 [])) with nand.jobs := [] }, 1, itm 5 0 [], .ftlRead 1, 0, none, false, by refine ⟨Or.inl ⟨rfl, rfl, rfl, rfl⟩, ?_⟩; unfold Ready; decide +kernel⟩,
    ⟨{ (st [(STO_NAND_STAT.STATE, 0, 4)]).setItem 1 (some (itm 5 0 [])) with nand.jobs := [] }, 1, itm 5 0 [], .ftlRead 1, 0, none, false, by refine ⟨Or.inl ⟨rfl, rfl, rfl, rfl⟩, ?_⟩; unfold Ready; decide +kernel⟩,
    ⟨(st [(P_CFG.KIND, 0, 0), (P_CFG.VALID, 0, 1), (P_SIZE.BLOCKS, 0, 10), (P_CFG.LOG, 0, 4), (STO_NAND_GEOM.PPB, 0, 64), (STO_NAND_GEOM.PAGE, 0, 1), (STO_NAND_STAT.STATE, 0, 4)]).setItem 1 (some (itm 5 0 [(4, 4, 1)])), 1, itm 5 0 [(4, 4, 1)], 0, 1, 0, by unfold FlashIn Ready; refine ⟨by decide +kernel, by decide +kernel, by decide +kernel, by decide +kernel, by decide +kernel, by decide +kernel, by decide +kernel, by decide +kernel, fun k d h => ?_⟩; exact nomatch h⟩,
    ⟨(st [(P_CFG.KIND, 0, 0), (P_CFG.VALID, 0, 1), (P_SIZE.BLOCKS, 0, 10), (P_CFG.LOG, 0, 4), (STO_NAND_GEOM.PPB, 0, 64), (STO_NAND_GEOM.PAGE, 0, 1), (STO_NAND_STAT.STATE, 0, 4)]).setItem 1 (some (itm 5 0 [])), 1, itm 5 0 [], 0, 0, 0, by simp only [FlashIn, Ready]; decide +kernel⟩,
    ⟨((st [(P_CFG.KIND, 0, 1), (P_CFG.VALID, 0, 1), (P_SIZE.BLOCKS, 0, 10), (P_CFG.LOG, 0, 4), (STO_NAND_GEOM.PPB, 0, 64), (STO_NAND_GEOM.PAGE, 0, 1), (STO_NAND_STAT.STATE, 0, 4), (P_CFG.KIND, 0, 1), (P_HEAD_LO.POS_LO, 0, 1)]).setPart 0 { ({} : Part) with bytes := [5] }).setItem 1 (some (itm 5 0 [(4, 4, 1)])), 1, itm 5 0 [(4, 4, 1)], 0, 1, 0, by simp only [FlashIn, Ready]; decide +kernel⟩,
    ⟨(st [(P_CFG.KIND, 0, 1), (P_CFG.VALID, 0, 1), (P_SIZE.BLOCKS, 0, 10), (P_CFG.LOG, 0, 4), (STO_NAND_GEOM.PPB, 0, 64), (STO_NAND_GEOM.PAGE, 0, 1), (STO_NAND_STAT.STATE, 0, 4), (P_CFG.KIND, 0, 1)]).setItem 1 (some (itm 5 0 [(4, 4, 1)])), 1, itm 5 0 [(4, 4, 1)], 0, 1, 0, by simp only [FlashIn, Ready]; decide +kernel⟩,
    ⟨((st [(P_CFG.VALID, 0, 1), (P_SIZE.BLOCKS, 0, 10), (P_CFG.LOG, 0, 4), (STO_NAND_GEOM.PPB, 0, 64), (STO_NAND_GEOM.PAGE, 0, 1), (STO_NAND_STAT.STATE, 0, 4)]).setPart 0 { ({} : Part) with logs := [{ logical := 0 }] }).setItem 1 (some (itm 5 1 [(4, 4, 1)])), 1, itm 5 1 [(4, 4, 1)], 0, 0, { logical := 0 }, ((st [(P_CFG.VALID, 0, 1), (P_SIZE.BLOCKS, 0, 10), (P_CFG.LOG, 0, 4), (STO_NAND_GEOM.PPB, 0, 64), (STO_NAND_GEOM.PAGE, 0, 1), (STO_NAND_STAT.STATE, 0, 4)]).setPart 0 { ({} : Part) with logs := [{ logical := 0 }] }).setItem 1 (some (itm 5 1 [(4, 4, 1)])), by simp only [FlashIn, Ready]; decide +kernel⟩,
    ⟨((st [(P_CFG.VALID, 0, 1), (P_SIZE.BLOCKS, 0, 10), (P_CFG.LOG, 0, 4), (STO_NAND_GEOM.PPB, 0, 64), (STO_NAND_GEOM.PAGE, 0, 1), (STO_NAND_STAT.STATE, 0, 4)]).setPart 0 { ({} : Part) with merging := [{ logical := 0 }] }).setItem 1 (some (itm 5 1 [(4, 4, 1)])), 1, itm 5 1 [(4, 4, 1)], 0, 0, by simp only [FlashIn, Ready]; decide +kernel⟩,
    ⟨(st [(P_CFG.VALID, 0, 1), (P_SIZE.BLOCKS, 0, 10), (P_CFG.LOG, 0, 4), (STO_NAND_GEOM.PPB, 0, 64), (STO_NAND_GEOM.PAGE, 0, 1), (STO_NAND_STAT.STATE, 0, 4), (P_CFG.KIND, 0, 1)]).setItem 1 (some (itm 5 2 [(4, 4, 1)])), 1, itm 5 2 [(4, 4, 1)], 0, 1, by simp only [FlashIn, Ready]; decide +kernel⟩,
    ⟨(st [(P_CFG.WRAP, 0, 0), (P_CFG.VALID, 0, 1), (P_SIZE.BLOCKS, 0, 1), (P_CFG.LOG, 0, 4), (STO_NAND_GEOM.PPB, 0, 64), (STO_NAND_GEOM.PAGE, 0, 1), (STO_NAND_STAT.STATE, 0, 4), (P_CFG.KIND, 0, 1), (TSK_XWIN_SIZE.PAGES, 0, 32)]).setItem 1 (some (itm 5 2 [(4, 4, 65536)])), 1, itm 5 2 [(4, 4, 65536)], 0, 65536, by simp only [FlashIn, Ready]; decide +kernel⟩,
    ⟨(st [(P_CFG.WRAP, 0, 0), (P_CFG.VALID, 0, 1), (P_SIZE.BLOCKS, 0, 1), (P_CFG.LOG, 0, 4), (STO_NAND_GEOM.PPB, 0, 64), (STO_NAND_GEOM.PAGE, 0, 1), (STO_NAND_STAT.STATE, 0, 4), (P_CFG.KIND, 0, 1), (TSK_XWIN_SIZE.PAGES, 0, 32)]).setItem 1 (some (itm 5 2 [(4, 4, 65536)])), 1, itm 5 2 [(4, 4, 65536)], 0, 65536, nextOf (.append 1) ((st [(P_CFG.WRAP, 0, 0), (P_CFG.VALID, 0, 1), (P_SIZE.BLOCKS, 0, 1), (P_CFG.LOG, 0, 4), (STO_NAND_GEOM.PPB, 0, 64), (STO_NAND_GEOM.PAGE, 0, 1), (STO_NAND_STAT.STATE, 0, 4), (P_CFG.KIND, 0, 1), (TSK_XWIN_SIZE.PAGES, 0, 32)]).setItem 1 (some (itm 5 2 [(4, 4, 65536)]))), by unfold FlashIn Ready; refine ⟨by decide +kernel, by decide +kernel, by decide +kernel, by decide +kernel, by decide +kernel, by decide +kernel, by decide +kernel, by decide +kernel, nextOf_append _ _⟩⟩,
    ⟨(st [(P_CFG.VALID, 0, 1), (P_SIZE.BLOCKS, 0, 10), (P_CFG.LOG, 0, 4), (STO_NAND_GEOM.PPB, 0, 64), (STO_NAND_GEOM.PAGE, 0, 1), (STO_NAND_STAT.STATE, 0, 4)]).setItem 1 (some (itm 5 3 [(4, 4, 1)])), 1, itm 5 3 [(4, 4, 1)], 0, 1, 0, by simp only [FlashIn, Ready]; decide +kernel⟩,
    ⟨(st [(P_CFG.VALID, 0, 1), (P_SIZE.BLOCKS, 0, 10), (P_CFG.LOG, 0, 4), (STO_NAND_GEOM.PPB, 0, 64), (STO_NAND_GEOM.PAGE, 0, 1), (STO_NAND_STAT.STATE, 0, 4)]).setItem 1 (some (itm 5 3 [(4, 4, 10000)])), 1, itm 5 3 [(4, 4, 10000)], 0, 10000, 0, by simp only [FlashIn, Ready]; decide +kernel⟩,
    ⟨(st [(P_CFG.VALID, 0, 1), (P_SIZE.BLOCKS, 0, 10), (P_CFG.LOG, 0, 4), (STO_NAND_GEOM.PPB, 0, 64), (STO_NAND_GEOM.PAGE, 0, 1), (STO_NAND_STAT.STATE, 0, 4), (P_CFG.KIND, 0, 1)]).setItem 1 (some (itm 5 4 [])), 1, itm 5 4 [], 0, 0, by simp only [FlashIn, Ready]; decide +kernel⟩,
    ⟨(st [(P_CFG.VALID, 0, 1), (P_SIZE.BLOCKS, 0, 10), (P_CFG.LOG, 0, 4), (STO_NAND_GEOM.PPB, 0, 64), (STO_NAND_GEOM.PAGE, 0, 1), (STO_NAND_STAT.STATE, 0, 4), (P_CFG.KIND, 0, 1)]).setItem 1 (some (itm 5 4 [(8, 8, 1)])), 1, itm 5 4 [(8, 8, 1)], 0, 1, by simp only [FlashIn, Ready]; decide +kernel⟩,
    ⟨(st [(P_CFG.VALID, 0, 1), (P_SIZE.BLOCKS, 0, 10), (P_CFG.LOG, 0, 4), (STO_NAND_GEOM.PPB, 0, 64), (STO_NAND_GEOM.PAGE, 0, 1), (STO_NAND_STAT.STATE, 0, 4)]).setItem 1 (some (itm 5 5 [])), 1, itm 5 5 [], 0, by simp only [FlashIn, Ready]; decide +kernel⟩⟩

/-- Something meets the hypotheses of each clause of NandBlocks. -/
theorem witness_NandBlocks :
    (∃ (s : State), ∃ host, ∃ v, (Open s host .sto) ∧ (nbit v 0 = true) ∧ (nbits v 31 16 = 0x464D) ∧ (s.fget STO_NAND_STAT.STATE = 1 ∨ s.fget STO_NAND_STAT.STATE = 4) ∧ (s.fget STO_NAND_GEOM.BPD ≤ 16384))
    ∧ (∃ (s : State), ∃ host, ∃ v, (Open s host .sto) ∧ (nbit v 0 = true) ∧ (nbits v 31 16 ≠ 0x464D ∨ (s.fget STO_NAND_STAT.STATE ≠ 1 ∧ s.fget STO_NAND_STAT.STATE ≠ 4)))
    ∧ (∃ (s : State), ∃ b, ∃ page, ∃ j, ∃ (it : Item), ((s.phys b).st = 1) ∧ (page < (s.phys b).pages) ∧ ((s.phys b).from_ = none) ∧ (s.nand.jobs = [j]) ∧ (j.held = false) ∧ (j.todo = []) ∧ (j.pages = [(b, page)]) ∧ (s.item j.item = some it) ∧ (s.fget D_ECC.MAX_BITS (dieOf b) ≤ 255))
    ∧ (∃ (s : State), ∃ b, ((s.phys b).st = 1))
    ∧ (∃ (s : State), ∃ b, ((s.phys b).st ≠ 1))
    ∧ (∃ (s : State), ∃ b, ((s.phys b).st = 5))
    ∧ (∃ (s : State), ∃ b, ((s.phys b).st = 5) ∧ (2 ≤ s.fget D_SPARE.FREE (dieOf b)) ∧ (s.fget D_SPARE.FREE (dieOf b) < 65536))
    ∧ (∃ (s : State), ∃ b, ((s.phys b).st ≠ 5))
    ∧ (∃ (s : State), ∃ b, ∃ i, ∃ (n : Nat), ∃ (it : Item), (i = some n) ∧ (s.item n = some it) ∧ (it.engine = 5) ∧ (it.op = 0) ∧ (it.done = none) ∧ ((s.phys b).st = 3))
    ∧ (∃ (s : State), ∃ b, (2 ≤ s.fget STO_INFO.DIES) ∧ ((s.phys b).st = 1))
    ∧ (∃ (s : State), ∃ b, (2 ≤ s.fget STO_INFO.DIES) ∧ ((s.phys b).st = 2))
    ∧ (∃ (s : State), ∃ b, (s.fget STO_INFO.DIES < 2) ∧ ((s.phys b).st = 1))
    ∧ (∃ (s : State), ∃ p, ∃ lb, ∃ rest, ∃ (n : Nat), ∃ cur, ((s.part p).merging = lb :: rest) ∧ (s.nand.jobs = []) ∧ (n = s.blkSectors) ∧ (cur = (List.range n).filter (fun o => (tget none (s.part p).sectors (lb.logical * n + o)).isSome)) ∧ (cur ≠ []) ∧ (lb.sectors = List.range n))
    ∧ (∃ (s : State), ∃ p, ∃ lb, ∃ rest, ∃ (n : Nat), ∃ cur, ∃ c, ∃ (s1 : State), ((s.part p).merging = lb :: rest) ∧ (s.nand.jobs = []) ∧ (n = s.blkSectors) ∧ (cur = (List.range n).filter (fun o => (tget none (s.part p).sectors (lb.logical * n + o)).isSome)) ∧ (cur ≠ []) ∧ (lb.sectors ≠ List.range n) ∧ (s.takeBlk (s.fget P_CFG.DIES p) (some p) = some (c, s1)))
    ∧ (∃ (s : State), (s.nandReady = true))
    ∧ (∃ (s : State), (s.nandReady = false))
    ∧ (∃ (s : State), ∃ d, (s.fget D_ERASE.MAX d ≤ s.fget D_ERASE.MEAN d + s.fget STO_NAND_CFG.WL_DELTA * 100))
    ∧ (∃ (s : State), ∃ d, ∃ (k : Nat), (s.nandReady = true) ∧ (s.fget D_ERASE.MEAN d + s.fget STO_NAND_CFG.WL_DELTA * 100 < s.fget D_ERASE.MAX d) ∧ (k < s.fget STO_NAND_GEOM.BPD) ∧ ((s.phys (d * 16384 + k)).st = 3) ∧ ((∀ x, x < s.fget STO_NAND_GEOM.BPD → x ≠ k → (s.phys (d * 16384 + x)).st = 3 → (s.phys (d * 16384 + k)).erases < (s.phys (d * 16384 + x)).erases)))
    ∧ (∃ (s : State), ∃ a, (s.mode = 10) ∧ (s.nand.flushed = false) ∧ (a = s.fget STO_HU_STAT.AREA) ∧ (s.fget STO_NAND_STAT.STATE = 4 ∨ s.fget STO_NAND_STAT.STATE = 5) ∧ (tget none s.nand.hu a = none))
    ∧ (∃ (s : State), ∃ a, (s.mode = 10) ∧ (s.nand.flushed = false) ∧ (a = s.fget STO_HU_STAT.AREA) ∧ (tget none s.nand.hu a ≠ none))
    ∧ (∃ (s : State), (s.mode ≠ 10)) :=
  ⟨⟨st [(STO_NAND_STAT.STATE, 0, 1)], 0, 1179451393, by simp only [Open]; decide +kernel⟩,
    ⟨own, 0, 1, by simp only [Open]; decide +kernel⟩,
    ⟨{ ((own).setPhys 0 { ({} : Phys) with st := 1, from_ := none, pages := 1 }).setItem ((⟨1, 0, [], false, [(0, 0)], 0⟩ : FlashJob)).item (some (itm 5 1 [])) with nand.jobs := [⟨1, 0, [], false, [(0, 0)], 0⟩] }, 0, 0, (⟨1, 0, [], false, [(0, 0)], 0⟩ : FlashJob), itm 5 1 [], by decide +kernel⟩,
    ⟨(own).setPhys 0 { ({} : Phys) with st := 1 }, 0, by decide +kernel⟩,
    ⟨own, 0, by decide +kernel⟩,
    ⟨(own).setPhys 0 { ({} : Phys) with st := 5 }, 0, by decide +kernel⟩,
    ⟨(st [(D_SPARE.FREE, 0, 2)]).setPhys 0 { ({} : Phys) with st := 5 }, 0, by decide +kernel⟩,
    ⟨own, 0, by decide +kernel⟩,
    ⟨((own).setPhys 0 { ({} : Phys) with st := 3 }).setItem 1 (some ({ itm 5 0 [] with done := none })), 0, some 1, 1, { itm 5 0 [] with done := none }, by decide +kernel⟩,
    ⟨(st [(STO_INFO.DIES, 0, 2)]).setPhys 0 { ({} : Phys) with st := 1 }, 0, by decide +kernel⟩,
    ⟨(st [(STO_INFO.DIES, 0, 2)]).setPhys 0 { ({} : Phys) with st := 2 }, 0, by decide +kernel⟩,
    ⟨(own).setPhys 0 { ({} : Phys) with st := 1 }, 0, by decide +kernel⟩,
    ⟨{ (st [(STO_NAND_GEOM.PPB, 0, 1)]).setPart 0 { ({} : Part) with merging := [{ logical := 0, sectors := [0] }], sectors := [(0, some [])] } with nand.jobs := [] }, 0, { logical := 0, sectors := [0] }, [], 1, [0], by decide +kernel⟩,
    ⟨{ (st [(STO_NAND_GEOM.PPB, 0, 1), (STO_NAND_GEOM.BPD, 0, 1), (P_CFG.DIES, 0, 1)]).setPart 0 { ({} : Part) with merging := [{ logical := 0 }], sectors := [(0, some [])] } with nand.jobs := [] }, 0, { logical := 0 }, [], 1, [0], 0, ({ (st [(STO_NAND_GEOM.PPB, 0, 1), (STO_NAND_GEOM.BPD, 0, 1), (P_CFG.DIES, 0, 1)]).setPart 0 { ({} : Part) with merging := [{ logical := 0 }], sectors := [(0, some [])] } with nand.jobs := [] }).setPhys 0 { st := 1, owner := some 0 }, by decide +kernel⟩,
    ⟨st [(STO_NAND_STAT.STATE, 0, 4)], by decide +kernel⟩,
    ⟨own, by decide +kernel⟩,
    ⟨own, 0, by decide +kernel⟩,
    ⟨(st [(STO_NAND_STAT.STATE, 0, 4), (D_ERASE.MAX, 0, 2000), (STO_NAND_CFG.WL_DELTA, 0, 0), (STO_NAND_GEOM.BPD, 0, 1)]).setPhys ((0 * 16384 + 0)) { ({} : Phys) with st := 3 }, 0, 0, by decide +kernel⟩,
    ⟨{ st [(CHIP_MODE.MODE, 0, 10), (STO_NAND_STAT.STATE, 0, 4)] with nand.flushed := false }, 0, by decide +kernel⟩,
    ⟨{ st [(CHIP_MODE.MODE, 0, 10)] with nand.flushed := false, nand.hu := [(0, some ⟨0, 0, 0, [], []⟩)] }, 0, by decide +kernel⟩,
    ⟨own, by decide +kernel⟩⟩

/-- Something meets the hypotheses of each clause of InkwellRecorder. -/
theorem witness_InkwellRecorder :
    (∃ (s : State), ∃ typ, ∃ ten, ∃ (body : List Byte), (InkForm typ ten body) ∧ (s.fget INK_STAT.FREEZE = 0) ∧ (s.inkUnflushed + 16 + (body.length + 7) / 8 * 8 + 32 ≤ 507904))
    ∧ (∃ (s : State), ∃ typ, ∃ ten, ∃ (body : List Byte), (InkForm typ ten body) ∧ (inkCrit typ = false) ∧ (s.fget INK_STAT.FREEZE = 2))
    ∧ (∃ (s : State), ∃ typ, ∃ ten, ∃ (body : List Byte), (InkForm typ ten body) ∧ (s.fget INK_STAT.FREEZE = 1) ∧ (s.ink.gapDue = false) ∧ (s.inkUnflushed + 16 + (body.length + 7) / 8 * 8 ≤ 507904))
    ∧ (∃ (s : State), ∃ typ, ∃ ten, ∃ (body : List Byte), (InkForm typ ten body) ∧ (s.fget INK_STAT.FREEZE ≠ 2) ∧ (524288 < s.inkUnflushed + 16 + (body.length + 7) / 8 * 8))
    ∧ (∃ typ, ∃ ten, ∃ (body : List Byte), (¬ InkForm typ ten body))
    ∧ (∃ (s : State), ∃ host, ∃ v, (Open s host .sto) ∧ (nbit v 0 = true) ∧ (nbits v 28 16 ≤ 4096) ∧ (s.fget INK_STAT.FREEZE = 0))
    ∧ (∃ (s : State), ∃ host, ∃ v, (Open s host .sto) ∧ (nbit v 0 = true) ∧ (nbits v 28 16 ≤ 4096) ∧ (s.fget INK_STAT.FREEZE ≠ 0))
    ∧ (∃ (s : State), ∃ host, ∃ v, (Open s host .sto) ∧ (nbit v 0 = true) ∧ (4096 < nbits v 28 16))
    ∧ (∃ (s : State), ∃ host, ∃ v, (Open s host .sto) ∧ (nbit v 1 = true) ∧ (nbits v 28 16 ≤ 4096) ∧ (s.fget INK_STAT.FREEZE ≠ 0))
    ∧ (∃ (s : State), ∃ host, ∃ v, (Open s host .sto) ∧ (nbit v 1 = true) ∧ (nbits v 28 16 ≤ 4096) ∧ (s.fget INK_STAT.FREEZE = 0))
    ∧ (∃ (s : State), (s.fget INK_STAT.FREEZE = 2))
    ∧ (∃ (s : State), (s.fget INK_STAT.FREEZE ≠ 2))
    ∧ (∃ (s : State), ∃ host, ∃ v, (Open s host .sto) ∧ (nbit v 0 = true))
    ∧ (∃ (s : State), ∃ host, ∃ (v : Nat), ∃ q, (Open s host .sto) ∧ (q = v % 2 ^ 32) ∧ (newer32 q s.inkNewest = true))
    ∧ (∃ (s : State), ∃ host, ∃ (v : Nat), ∃ q, ∃ fails, ∃ r, (Open s host .sto) ∧ (q = v % 2 ^ 32) ∧ (newer32 q s.inkNewest = false) ∧ (s.ink.recs.find? (fun x => x.seq == q) = some r) ∧ (fails = false))
    ∧ (∃ (s : State), ∃ host, ∃ (v : Nat), ∃ q, ∃ fails, ∃ r, (Open s host .sto) ∧ (q = v % 2 ^ 32) ∧ (newer32 q s.inkNewest = false) ∧ (s.ink.recs.find? (fun x => x.seq == q) = some r) ∧ (fails = true) ∧ (r.place = .nand))
    ∧ (∃ (s : State), ∃ host, ∃ (v : Nat), ∃ q, ∃ fails, ∃ r, ∃ rest, (Open s host .sto) ∧ (q = v % 2 ^ 32) ∧ (newer32 q s.inkNewest = false) ∧ (s.ink.recs.find? (fun x => x.seq == q) = none) ∧ (s.ink.recs = r :: rest) ∧ (fails = false))
    ∧ (∃ (s : State), ∃ n, ∃ (it : Item), ∃ (b : List Byte), (Ready s n 6 0 it) ∧ (0x1000 ≤ it.f 2 2) ∧ (it.f 2 2 ≤ 0x1FFF) ∧ (8 ≤ it.f 4 2) ∧ (it.f 4 2 ≤ 1008) ∧ (s.buf it false (it.f 4 2) = some b) ∧ (s.fget INK_STAT.FREEZE = 0) ∧ (s.ink.gapDue = false) ∧ (s.fget INK_SEQ.SEQ < 2 ^ 32) ∧ (s.inkUnflushed + 1024 ≤ 507904))
    ∧ (∃ (s : State), ∃ n, ∃ (it : Item), ∃ (b : List Byte), (Ready s n 6 0 it) ∧ (0x1000 ≤ it.f 2 2) ∧ (it.f 2 2 ≤ 0x1FFF) ∧ (8 ≤ it.f 4 2) ∧ (it.f 4 2 ≤ 1008) ∧ (s.buf it false (it.f 4 2) = some b) ∧ (s.fget INK_STAT.FREEZE = 2))
    ∧ (∃ (s : State), ∃ n, ∃ (it : Item), (Ready s n 6 0 it) ∧ (it.f 2 2 < 0x1000 ∨ 0x1FFF < it.f 2 2 ∨ it.f 4 2 < 8 ∨ 1008 < it.f 4 2))
    ∧ (∃ (s : State), ∃ n, ∃ (it : Item), (Ready s n 6 1 it) ∧ (newer32 (it.f 0x10 4) s.inkNewest = true))
    ∧ (∃ (s : State), ∃ n, ∃ (it : Item), (Ready s n 6 1 it) ∧ (newer32 (it.f 0x10 4) s.inkNewest = false))
    ∧ (∃ (s : State), ∃ n, ∃ (it : Item), ∃ st, ∃ x, ∃ b, ∃ k, ∃ nx, (Ready s n 6 1 it) ∧ (s.inkAt (it.f 0x10 4) = (st, some x)) ∧ (st ≠ 0x24) ∧ (inkTake it.tenant (it.f 0x14 4) (s.ink.recs.dropWhile (fun y => y.seq != x.seq)) = (b, k, nx)) ∧ (s.winOk it.task false (it.f 8 8) b.length = true))
    ∧ (∃ (s : State), ∃ n, ∃ (it : Item), (Ready s n 6 2 it))
    ∧ (∃ (s : State), ∃ n, ∃ (it : Item), (Ready s n 6 3 it) ∧ (it.tenant ≠ 0 ∨ 4096 < it.f 0x18 2))
    ∧ (∃ (s : State), ∃ n, ∃ (it : Item), (Ready s n 6 3 it) ∧ (it.tenant = 0) ∧ (it.f 0x18 2 ≤ 4096) ∧ (s.fget INK_STAT.FREEZE = 0))
    ∧ (∃ (s : State), ∃ n, ∃ (it : Item), (Ready s n 6 4 it) ∧ (it.tenant ≠ 0))
    ∧ (∃ (s : State), ∃ n, ∃ (it : Item), (Ready s n 6 4 it) ∧ (it.tenant = 0) ∧ (s.fget INK_STAT.FREEZE ≠ 0)) :=
  ⟨⟨st [(INK_STAT.FREEZE, 0, 0)], 2, 0, [], by simp only [InkForm]; decide +kernel⟩,
    ⟨st [(INK_STAT.FREEZE, 0, 2)], 0x50, 0, [], by simp only [InkForm]; decide +kernel⟩,
    ⟨{ st [(INK_STAT.FREEZE, 0, 1)] with ink.gapDue := false }, 2, 0, [], by simp only [InkForm]; decide +kernel⟩,
    ⟨{ st [(INK_STAT.FREEZE, 0, 0)] with ink.recs := List.replicate 520 ⟨0, 2, 0, true, 0, 0, List.replicate 1008 0, .buffer⟩ }, 2, 0, List.replicate 8 0, by simp only [InkForm]; decide +kernel⟩,
    ⟨0, 0, [], by simp only [InkForm]; decide +kernel⟩,
    ⟨st [(INK_STAT.FREEZE, 0, 0)], 0, 1, by simp only [Open]; decide +kernel⟩,
    ⟨st [(INK_STAT.FREEZE, 0, 1)], 0, 1, by simp only [Open]; decide +kernel⟩,
    ⟨own, 0, 268500993, by simp only [Open]; decide +kernel⟩,
    ⟨st [(INK_STAT.FREEZE, 0, 1)], 0, 2, by simp only [Open]; decide +kernel⟩,
    ⟨st [(INK_STAT.FREEZE, 0, 0)], 0, 2, by simp only [Open]; decide +kernel⟩,
    ⟨st [(INK_STAT.FREEZE, 0, 2)], by decide +kernel⟩,
    ⟨st [(INK_STAT.FREEZE, 0, 0)], by decide +kernel⟩,
    ⟨own, 0, 1, by simp only [Open]; decide +kernel⟩,
    ⟨own, 0, 0, 0 % 2 ^ 32, by simp only [Open]; decide +kernel⟩,
    ⟨{ st [(INK_SEQ.SEQ, 0, 1)] with ink.recs := [⟨0, 2, 0, true, 0, 0, [], .buffer⟩] }, 0, 0, 0, false, (⟨0, 2, 0, true, 0, 0, [], .buffer⟩ : InkRec), by simp only [Open]; decide +kernel⟩,
    ⟨{ st [(INK_SEQ.SEQ, 0, 1)] with ink.recs := [⟨0, 2, 0, true, 0, 0, [], .nand⟩] }, 0, 0, 0, true, (⟨0, 2, 0, true, 0, 0, [], .nand⟩ : InkRec), by simp only [Open]; decide +kernel⟩,
    ⟨{ st [(INK_SEQ.SEQ, 0, 2)] with ink.recs := [⟨1, 2, 0, true, 0, 0, [], .buffer⟩] }, 0, 0, 0, false, (⟨1, 2, 0, true, 0, 0, [], .buffer⟩ : InkRec), [], by simp only [Open]; decide +kernel⟩,
    ⟨{ (st [(INK_STAT.FREEZE, 0, 0)]).setItem 1 (some (itm 6 0 [(2, 2, 4096), (4, 2, 8)])) with ink.gapDue := false }, 1, itm 6 0 [(2, 2, 4096), (4, 2, 8)], List.replicate 8 0, by simp only [Ready]; decide +kernel⟩,
    ⟨(st [(INK_STAT.FREEZE, 0, 2)]).setItem 1 (some (itm 6 0 [(2, 2, 4096), (4, 2, 8)])), 1, itm 6 0 [(2, 2, 4096), (4, 2, 8)], List.replicate 8 0, by simp only [Ready]; decide +kernel⟩,
    ⟨(own).setItem 1 (some (itm 6 0 [])), 1, itm 6 0 [], by simp only [Ready]; decide +kernel⟩,
    ⟨(own).setItem 1 (some (itm 6 1 [])), 1, itm 6 1 [], by simp only [Ready]; decide +kernel⟩,
    ⟨(st [(INK_SEQ.SEQ, 0, 1)]).setItem 1 (some (itm 6 1 [])), 1, itm 6 1 [], by simp only [Ready]; decide +kernel⟩,
    ⟨{ (st [(INK_SEQ.SEQ, 0, 1)]).setItem 1 (some (itm 6 1 [(0x14, 4, 1)])) with ink.recs := [⟨0, 2, 0, true, 0, 0, [], .buffer⟩] }, 1, itm 6 1 [(0x14, 4, 1)], 0, (⟨0, 2, 0, true, 0, 0, [], .buffer⟩ : InkRec), (⟨0, 2, 0, true, 0, 0, [], .buffer⟩ : InkRec).bytes, 1, none, by simp only [Ready]; decide +kernel⟩,
    ⟨(own).setItem 1 (some (itm 6 2 [])), 1, itm 6 2 [], by simp only [Ready]; decide +kernel⟩,
    ⟨(own).setItem 1 (some ({ itm 6 3 [] with tenant := 1 })), 1, { itm 6 3 [] with tenant := 1 }, by simp only [Ready]; decide +kernel⟩,
    ⟨(st [(INK_STAT.FREEZE, 0, 0)]).setItem 1 (some ({ itm 6 3 [] with tenant := 0 })), 1, { itm 6 3 [] with tenant := 0 }, by simp only [Ready]; decide +kernel⟩,
    ⟨(own).setItem 1 (some ({ itm 6 4 [] with tenant := 1 })), 1, { itm 6 4 [] with tenant := 1 }, by simp only [Ready]; decide +kernel⟩,
    ⟨(st [(INK_STAT.FREEZE, 0, 1)]).setItem 1 (some ({ itm 6 4 [] with tenant := 0 })), 1, { itm 6 4 [] with tenant := 0 }, by simp only [Ready]; decide +kernel⟩⟩

/-- Something meets the hypotheses of each clause of ReservoirAndHoldup. -/
theorem witness_ReservoirAndHoldup :
    (∃ (s : State), ∃ (v : Nat), ∃ mw, (s.mode ≠ 0) ∧ (v < 65536) ∧ (mw < 65536) ∧ (0 < s.fget STO_INFO.DIES))
    ∧ (∃ (s : State), (s.mode = 0))
    ∧ (∃ (s : State), ∃ host, ∃ v, (Open s host .res) ∧ (nbit v 0 = true) ∧ (s.fbit RES_HU_STAT.TESTING = false))
    ∧ (∃ (s : State), (s.mode ≠ 0) ∧ (s.fget RES_HU_TEST.PERIOD_H ≠ 0 ∨ s.pow.testWait = true) ∧ (s.fbit RES_HU_STAT.TESTING = false))
    ∧ (∃ (s : State), (s.fget RES_HU_TEST.PERIOD_H = 0) ∧ (s.pow.testWait = false))
    ∧ (∃ (s : State), ∃ v1, ∃ v2, ∃ e, ∃ c, (s.fbit RES_HU_STAT.TESTING = true) ∧ (s.fget RES_HU_CAP.C_NOM < 65536) ∧ (c = (if v1 < v2 + 25 then 10 * s.fget RES_HU_CAP.C_NOM else min (200000 * e / (v1 * v1 - v2 * v2)) (2 ^ 20 - 1))))
    ∧ (∃ (s : State), (s.fbit RES_HU_STAT.TESTING = false))
    ∧ (∃ (s : State), ∃ (v : Nat), (s.mode = 4 ∨ s.mode = 5 ∨ s.mode = 6 ∨ s.mode = 7 ∨ s.mode = 8 ∨ s.mode = 9 ∨ s.mode = 11) ∧ (v < 10 * s.fget RES_HU_CFG.V_PF) ∧ (Calm s))
    ∧ (∃ (s : State), ∃ v, (s.mode = 10 ∨ 10 * s.fget RES_HU_CFG.V_PF ≤ v))
    ∧ (∃ (s : State), (s.mode = 10) ∧ (s.nand.flushed = false) ∧ (s.pow.held = none) ∧ (s.pow.thermal = false))
    ∧ (∃ (s : State), (s.mode = 10) ∧ (s.nand.flushed = false) ∧ (s.pow.held = none) ∧ (s.pow.thermal = true))
    ∧ (∃ (s : State), ∃ k, ∃ c, (s.mode = 10) ∧ (s.nand.flushed = false) ∧ (s.pow.held = some (k, c)) ∧ (c < 16))
    ∧ (∃ (s : State), ∃ v, (s.mode = 10) ∧ (s.nand.flushed = true) ∧ (s.pow.thermal = false) ∧ (10 * s.fget RES_HU_CFG.V_PF + 200 ≤ v))
    ∧ (∃ (s : State), ∃ (v : Nat), (s.mode ≠ 10 ∨ s.nand.flushed = false ∨ s.pow.thermal = true ∨ v < 10 * s.fget RES_HU_CFG.V_PF + 200)) :=
  ⟨⟨st [(STO_INFO.DIES, 0, 1)], 0, 0, by decide +kernel⟩,
    ⟨st [(CHIP_MODE.MODE, 0, 0)], by decide +kernel⟩,
    ⟨st [(RES_HU_STAT.TESTING, 0, 0)], 0, 1, by simp only [Open]; decide +kernel⟩,
    ⟨st [(RES_HU_TEST.PERIOD_H, 0, 1), (RES_HU_STAT.TESTING, 0, 0)], by decide +kernel⟩,
    ⟨{ st [(RES_HU_TEST.PERIOD_H, 0, 0)] with pow.testWait := false }, by decide +kernel⟩,
    ⟨st [(RES_HU_STAT.TESTING, 0, 1), (RES_HU_CAP.C_NOM, 0, 0)], 0, 0, 0, 0, by decide +kernel⟩,
    ⟨st [(RES_HU_STAT.TESTING, 0, 0)], by decide +kernel⟩,
    ⟨st [(CHIP_MODE.MODE, 0, 4)], 0, by simp only [Calm, AirFree]; decide +kernel⟩,
    ⟨st [(CHIP_MODE.MODE, 0, 10)], 0, by decide +kernel⟩,
    ⟨{ st [(CHIP_MODE.MODE, 0, 10)] with nand.flushed := false, pow.held := none, pow.thermal := false }, by decide +kernel⟩,
    ⟨{ st [(CHIP_MODE.MODE, 0, 10)] with nand.flushed := false, pow.held := none, pow.thermal := true }, by decide +kernel⟩,
    ⟨{ st [(CHIP_MODE.MODE, 0, 10)] with nand.flushed := false, pow.held := some (0, 0) }, 0, 0, by decide +kernel⟩,
    ⟨{ st [(CHIP_MODE.MODE, 0, 10)] with nand.flushed := true, pow.thermal := false }, 65535, by decide +kernel⟩,
    ⟨own, 0, by decide +kernel⟩⟩

/-- Something meets the hypotheses of each clause of SafetyChannel. -/
theorem witness_SafetyChannel :
    (∃ (s : State), (s.mode = 0))
    ∧ (∃ (s : State), (s.mode ≠ 0))
    ∧ (∃ (s : State), ∃ c, (s.mode ≠ 0) ∧ (Runs s) ∧ (CleanScan s c) ∧ (s.safCrc = s.fget SAF_CFG_CRC.CRC))
    ∧ (∃ (s : State), ∃ (c : SafScan), ∃ (k : Nat), (s.mode ≠ 0) ∧ (Runs s) ∧ (k = 10 ∨ k = 11 ∨ k = 12) ∧ (c.self = [k]) ∧ ((k, 0) ∉ s.saf.faults) ∧ (AirFree s))
    ∧ (∃ (s : State), ∃ c, (s.mode ≠ 0) ∧ (Runs s) ∧ (CleanScan s c) ∧ (s.safCrc ≠ s.fget SAF_CFG_CRC.CRC) ∧ ((13, 0) ∉ s.saf.faults) ∧ (AirFree s))
    ∧ (∃ (s : State), ∃ o, (4 ≤ o ∨ nbit (s.fget SAF_IO_STAT.OUT) o = false))
    ∧ (∃ (s : State), ∃ o, (o < 4) ∧ (nbit (s.fget SAF_IO_STAT.OUT) o = true) ∧ (Runs s) ∧ (AirFree s))
    ∧ (∃ (s : State), ∃ o, (o < 4) ∧ (nbit (s.fget SAF_IO_STAT.OUT) o = true) ∧ (Runs s) ∧ (AirFree s) ∧ ((5, o) ∉ s.saf.faults))
    ∧ (∃ (s : State), ∃ o, (o < 4) ∧ (nbit (s.fget SAF_IO_STAT.OUT) o = true) ∧ (Runs s) ∧ (AirFree s) ∧ ((6, o) ∉ s.saf.faults))
    ∧ (∃ (s : State), (Runs s) ∧ (s.fget SAF_IO_STAT.OUT = 0))
    ∧ (∃ (s : State), (Runs s) ∧ (s.fget SAF_IO_STAT.OUT = 0) ∧ ((7, 0) ∉ s.saf.faults) ∧ (s.safState = 1) ∧ (AirFree s))
    ∧ (∃ (s : State), (s.fget SAF_IO_STAT.OUT ≠ 0))
    ∧ (∃ (s : State), ∃ host, ∃ v, (SafCmd s host v) ∧ (nbit v 0 = true) ∧ (s.safState = 0) ∧ (s.safCrc = s.fget SAF_CFG_CRC.CRC))
    ∧ (∃ (s : State), ∃ host, ∃ v, (SafCmd s host v) ∧ (nbit v 0 = true) ∧ (s.safState = 0) ∧ (s.safCrc ≠ s.fget SAF_CFG_CRC.CRC))
    ∧ (∃ (s : State), ∃ host, ∃ v, (SafCmd s host v) ∧ (nbit v 0 = true) ∧ (s.safState ≠ 0))
    ∧ (∃ (s : State), ∃ host, ∃ v, (SafCmd s host v) ∧ (nbit v 1 = true) ∧ (s.safState = 2))
    ∧ (∃ (s : State), ∃ host, ∃ v, (SafCmd s host v) ∧ (nbit v 1 = true) ∧ (s.safState = 3) ∧ ((∀ e ∈ s.saf.faults, e.1 ≠ 10 ∧ e.1 ≠ 11 ∧ e.1 ≠ 12)))
    ∧ (∃ (s : State), ∃ host, ∃ v, ∃ e, (SafCmd s host v) ∧ (nbit v 1 = true) ∧ (s.safState = 3) ∧ (e ∈ s.saf.faults) ∧ (e.1 = 10 ∨ e.1 = 11 ∨ e.1 = 12))
    ∧ (∃ (s : State), ∃ host, ∃ v, (SafCmd s host v) ∧ (nbit v 1 = true) ∧ (s.safState = 0))
    ∧ (∃ (s : State), ∃ host, ∃ v, (SafCmd s host v) ∧ (nbits v 15 8 ≠ 0))
    ∧ (∃ (s : State), ∃ host, ∃ v, (Open s host .saf) ∧ (nbits v 31 16 ≠ 0x5346) ∧ (nbit v 0 = true))
    ∧ (∃ (s : State), ∃ host, ∃ v, (Open s host .saf) ∧ (nbits v 31 16 ≠ 0x5346) ∧ (nbit v 1 = true))
    ∧ (∃ (s : State), ∃ host, ∃ v, (Open s host .saf) ∧ (nbits v 31 16 ≠ 0x5346) ∧ (nbits v 15 8 ≠ 0))
    ∧ (∃ (s : State), (s.safState = 2) ∧ (AirFree s))
    ∧ (∃ (s : State), (s.safState ≠ 2))
    ∧ (∃ (s : State), ∃ c, (5 ≤ c ∨ nbit (s.fget SAF_TAMP_CFG.LOOP + 16 * s.fget SAF_TAMP_CFG.MESH) c = false))
    ∧ (∃ (s : State), ∃ c, (c < 5) ∧ (nbit (s.fget SAF_TAMP_CFG.LOOP + 16 * s.fget SAF_TAMP_CFG.MESH) c = true) ∧ (s.mode = 0))
    ∧ (∃ (s : State), ∃ c, (c < 5) ∧ (nbit (s.fget SAF_TAMP_CFG.LOOP + 16 * s.fget SAF_TAMP_CFG.MESH) c = true) ∧ (s.mode = 11))
    ∧ (∃ (s : State), ∃ c, (c < 5) ∧ (nbit (s.fget SAF_TAMP_CFG.LOOP + 16 * s.fget SAF_TAMP_CFG.MESH) c = true) ∧ (s.mode ≠ 0) ∧ (s.mode ≠ 11) ∧ (s.pip.tags = []) ∧ (s.pip.fills = []) ∧ ((∀ h, h < 9 → (s.host h).mrt.isOpen = false)) ∧ (AirFree s))
    ∧ (∃ (s : State), ∃ host, (Open s host .saf) ∧ (s.fget SAF_TAMP_CFG.LOOP < 16)) :=
  ⟨⟨st [(CHIP_MODE.MODE, 0, 0)], by decide +kernel⟩,
    ⟨own, by decide +kernel⟩,
    ⟨st [(SAF_STAT.STATE, 0, 1), (SAF_CFG_CRC.CRC, 0, 3838115596)], {}, by simp only [Runs, CleanScan]; decide +kernel⟩,
    ⟨st [(SAF_STAT.STATE, 0, 1)], (SafScan.mk [] [] 0 0 [10] 0), 10, by simp only [Runs, AirFree]; decide +kernel⟩,
    ⟨st [(SAF_STAT.STATE, 0, 1)], {}, by simp only [Runs, CleanScan, AirFree]; decide +kernel⟩,
    ⟨own, 4, by decide +kernel⟩,
    ⟨st [(SAF_IO_STAT.OUT, 0, 2 ^ 0), (SAF_STAT.STATE, 0, 1)], 0, by simp only [Runs, AirFree]; decide +kernel⟩,
    ⟨st [(SAF_IO_STAT.OUT, 0, 2 ^ 0), (SAF_STAT.STATE, 0, 1)], 0, by simp only [Runs, AirFree]; decide +kernel⟩,
    ⟨st [(SAF_IO_STAT.OUT, 0, 2 ^ 0), (SAF_STAT.STATE, 0, 1)], 0, by simp only [Runs, AirFree]; decide +kernel⟩,
    ⟨st [(SAF_STAT.STATE, 0, 1), (SAF_IO_STAT.OUT, 0, 0)], by simp only [Runs]; decide +kernel⟩,
    ⟨st [(SAF_STAT.STATE, 0, 1), (SAF_IO_STAT.OUT, 0, 0)], by simp only [Runs, AirFree]; decide +kernel⟩,
    ⟨st [(SAF_IO_STAT.OUT, 0, 1)], by decide +kernel⟩,
    ⟨st [(SAF_STAT.STATE, 0, 0), (SAF_CFG_CRC.CRC, 0, 3838115596)], 0, 1397096449, by simp only [SafCmd, Open]; decide +kernel⟩,
    ⟨st [(SAF_STAT.STATE, 0, 0)], 0, 1397096449, by simp only [SafCmd, Open]; decide +kernel⟩,
    ⟨st [(SAF_STAT.STATE, 0, 1)], 0, 1397096449, by simp only [SafCmd, Open]; decide +kernel⟩,
    ⟨st [(SAF_STAT.STATE, 0, 2)], 0, 1397096450, by simp only [SafCmd, Open]; decide +kernel⟩,
    ⟨st [(SAF_STAT.STATE, 0, 3)], 0, 1397096450, by simp only [SafCmd, Open]; decide +kernel⟩,
    ⟨{ st [(SAF_STAT.STATE, 0, 3)] with saf.faults := [(10, 0)] }, 0, 1397096450, (10, 0), by simp only [SafCmd, Open]; decide +kernel⟩,
    ⟨st [(SAF_STAT.STATE, 0, 0)], 0, 1397096450, by simp only [SafCmd, Open]; decide +kernel⟩,
    ⟨own, 0, 0x53460100, by simp only [SafCmd, Open]; decide +kernel⟩,
    ⟨own, 0, 1, by simp only [Open]; decide +kernel⟩,
    ⟨own, 0, 2, by simp only [Open]; decide +kernel⟩,
    ⟨own, 0, 0x100, by simp only [Open]; decide +kernel⟩,
    ⟨st [(SAF_STAT.STATE, 0, 2)], by simp only [AirFree]; decide +kernel⟩,
    ⟨st [(SAF_STAT.STATE, 0, 0)], by decide +kernel⟩,
    ⟨own, 5, by decide +kernel⟩,
    ⟨st [(CHIP_MODE.MODE, 0, 0), (SAF_TAMP_CFG.LOOP, 0, 1)], 0, by decide +kernel⟩,
    ⟨st [(CHIP_MODE.MODE, 0, 11), (SAF_TAMP_CFG.LOOP, 0, 1)], 0, by decide +kernel⟩,
    ⟨{ st [(SAF_TAMP_CFG.LOOP, 0, 1)] with pip.tags := [], pip.fills := [] }, 0, by simp only [AirFree]; decide +kernel⟩,
    ⟨own, 0, by simp only [Open]; decide +kernel⟩⟩

/-- Something meets the hypotheses of each clause of PowerChain. -/
theorem witness_PowerChain :
    (∃ (s : State), ∃ g, (s.mode = 0) ∧ (s.pow.hv = true) ∧ (s.pow.vsys = true) ∧ (s.pow.stopped = false) ∧ (s.pow.retry = false) ∧ (s.pow.group = g) ∧ (g < 5))
    ∧ (∃ (s : State), (s.mode = 0) ∧ (s.pow.vsys = true) ∧ (s.pow.stopped = false) ∧ (s.pow.retry = false) ∧ (s.pow.group ≠ 0) ∧ (s.pow.fails < 2))
    ∧ (∃ (s : State), (s.mode = 0) ∧ (s.pow.vsys = true) ∧ (s.pow.stopped = false) ∧ (s.pow.retry = false) ∧ (s.pow.group ≠ 0) ∧ (2 ≤ s.pow.fails))
    ∧ (∃ (s : State), (s.mode ≠ 0))
    ∧ (∃ (s : State), ∃ r, (r < 7) ∧ (s.mode ≠ 0))
    ∧ (∃ (s : State), ∃ r, (7 ≤ r ∨ s.mode = 0))
    ∧ (∃ (s : State), ∃ r, (r < 7) ∧ (s.mode ≠ 0) ∧ (AirFree s))
    ∧ (∃ (s : State), ∃ mv, (mv < 2200) ∧ (s.mode ≠ 0))
    ∧ (∃ (s : State), ∃ mv, (2200 ≤ mv) ∧ (mv < 65536) ∧ (s.mode ≠ 0))
    ∧ (∃ (s : State), (s.mode = 0) ∧ (s.pow.vsys = false))
    ∧ (∃ (s : State), ∃ (temps : List Nat), (s.mode ≠ 0) ∧ (temps.length = 9))
    ∧ (∃ (s : State), ∃ (k : Nat), (s.mode ≠ 0) ∧ (k < 6) ∧ (s.fget PWR_TBAND.BAND = k) ∧ (s.thr k ≤ s.tjMax) ∧ (k < 5))
    ∧ (∃ (s : State), ∃ (k : Nat), (s.mode ≠ 0) ∧ (k < 6) ∧ (s.fget PWR_TBAND.BAND = 5) ∧ (k = 5) ∧ (s.thr 5 ≤ s.tjMax) ∧ (s.mode = 5 ∨ s.mode = 6) ∧ (Calm s))
    ∧ (∃ (s : State), ∃ (k : Nat), (s.mode ≠ 0) ∧ (k < 6) ∧ (s.fget PWR_TBAND.BAND = k + 1) ∧ (s.tjMax < s.thr k - 30))
    ∧ (∃ (s : State), ∃ (k : Nat), (s.mode ≠ 0) ∧ (k < 6) ∧ (s.tjMax < s.thr k))
    ∧ (∃ (s : State), ∃ (k : Nat), (s.mode ≠ 0) ∧ (k < 6) ∧ (s.thr k - 30 ≤ s.tjMax))
    ∧ (∃ (s : State), (s.mode = 0) ∧ (s.pow.hot = true) ∧ (s.pow.vsys = false) ∧ (s.pow.hv = true))
    ∧ (∃ (s : State), (s.mode = 1))
    ∧ (∃ (s : State), (s.mode ≠ 1))
    ∧ (∃ (s : State), (s.mode = 1) ∧ (s.pow.booted = true) ∧ (s.pow.dram = true) ∧ (s.pow.boot = none) ∧ (s.fget PWR_TBAND.BAND ≤ 4) ∧ (s.pow.hot = false) ∧ (s.fbit RES_HU_STAT.TESTING = false) ∧ (AirFree s))
    ∧ (∃ (s : State), (s.mode ≠ 1 ∨ s.pow.booted = false ∨ s.pow.dram = false ∨ 4 < s.fget PWR_TBAND.BAND))
    ∧ (∃ (s : State), (s.mode = 1) ∧ (s.fget PWR_RST_CAUSE.BOOT_FAILS < 3) ∧ (s.pow.dram = false))
    ∧ (∃ (s : State), (s.mode ≠ 1 ∨ 3 ≤ s.fget PWR_RST_CAUSE.BOOT_FAILS)) :=
  ⟨⟨{ st [(CHIP_MODE.MODE, 0, 0)] with pow.hv := true, pow.vsys := true, pow.stopped := false, pow.retry := false, pow.group := 0 }, 0, by decide +kernel⟩,
    ⟨{ st [(CHIP_MODE.MODE, 0, 0)] with pow.vsys := true, pow.stopped := false, pow.retry := false }, by decide +kernel⟩,
    ⟨{ st [(CHIP_MODE.MODE, 0, 0)] with pow.vsys := true, pow.stopped := false, pow.retry := false, pow.fails := 2, pow.group := 1 }, by decide +kernel⟩,
    ⟨own, by decide +kernel⟩,
    ⟨own, 0, by decide +kernel⟩,
    ⟨own, 7, by decide +kernel⟩,
    ⟨own, 0, by simp only [AirFree]; decide +kernel⟩,
    ⟨own, 0, by decide +kernel⟩,
    ⟨own, 2200, by decide +kernel⟩,
    ⟨{ st [(CHIP_MODE.MODE, 0, 0)] with pow.vsys := false }, by decide +kernel⟩,
    ⟨own, (List.replicate 9 0 : List Nat), by decide +kernel⟩,
    ⟨st [(PWR_TBAND.BAND, 0, 0)], 0, by decide +kernel⟩,
    ⟨st [(PWR_TBAND.BAND, 0, 5), (CHIP_MODE.MODE, 0, 5), (PWR_TJMAX.T, 0, 1500)], 5, by simp only [Calm, AirFree]; decide +kernel⟩,
    ⟨st [(PWR_TBAND.BAND, 0, 1), (PWR_TJMAX.T, 0, 0), (PWR_THR_A.TH0, 0, 50)], 0, by decide +kernel⟩,
    ⟨st [(PWR_TJMAX.T, 0, 0), (PWR_THR_A.TH0, 0, 50)], 0, by decide +kernel⟩,
    ⟨own, 0, by decide +kernel⟩,
    ⟨{ st [(CHIP_MODE.MODE, 0, 0)] with pow.hot := true, pow.vsys := false, pow.hv := true }, by decide +kernel⟩,
    ⟨st [(CHIP_MODE.MODE, 0, 1)], by decide +kernel⟩,
    ⟨st [(CHIP_MODE.MODE, 0, 5)], by decide +kernel⟩,
    ⟨{ st [(CHIP_MODE.MODE, 0, 1), (RES_HU_STAT.TESTING, 0, 0)] with pow.booted := true, pow.dram := true, pow.boot := none, pow.hot := false }, by simp only [AirFree]; decide +kernel⟩,
    ⟨own, by decide +kernel⟩,
    ⟨{ st [(CHIP_MODE.MODE, 0, 1)] with pow.dram := false }, by decide +kernel⟩,
    ⟨st [(CHIP_MODE.MODE, 0, 5)], by decide +kernel⟩⟩

/-- Something meets the hypotheses of each clause of ModesAndResets. -/
theorem witness_ModesAndResets :
    (∃ (s : State), ∃ host, ∃ v, (ModeReq s host v 1) ∧ (s.centre = false) ∧ (s.mode = 5))
    ∧ (∃ (s : State), ∃ host, ∃ v, (ModeReq s host v 1) ∧ (s.centre = true ∨ s.mode ≠ 5))
    ∧ (∃ (s : State), ∃ host, ∃ v, (ModeReq s host v 2) ∧ (s.centre = false) ∧ (s.mode = 7))
    ∧ (∃ (s : State), ∃ host, ∃ v, (ModeReq s host v 2) ∧ (s.centre = true ∨ s.mode ≠ 7))
    ∧ (∃ (s : State), ∃ host, ∃ v, (ModeReq s host v 3) ∧ (4 ≤ s.mode) ∧ (s.mode ≤ 9) ∧ (AirFree s))
    ∧ (∃ (s : State), ∃ host, ∃ v, (ModeReq s host v 3) ∧ (s.mode < 4 ∨ 9 < s.mode))
    ∧ (∃ (s : State), ∃ host, ∃ v, (ModeReq s host v 4) ∧ (s.mode = 8) ∧ (s.resumeBarred = false) ∧ (s.fget PWR_MODE_STAT.RETURN < 16))
    ∧ (∃ (s : State), ∃ host, ∃ v, (ModeReq s host v 4) ∧ (s.mode = 8 ∨ s.mode = 4) ∧ (s.resumeBarred = true))
    ∧ (∃ (s : State), ∃ host, ∃ v, (ModeReq s host v 4) ∧ (s.mode ≠ 8) ∧ (s.mode ≠ 4))
    ∧ (∃ (s : State), ∃ host, ∃ v, (Open s host .pwr) ∧ (nbits v 31 16 ≠ 0x4D44) ∧ (nbits v 3 0 = 1))
    ∧ (∃ (s : State), ∃ host, ∃ v, (Open s host .pwr) ∧ (nbits v 31 16 ≠ 0x4D44) ∧ (nbits v 3 0 = 2))
    ∧ (∃ (s : State), ∃ host, ∃ v, (Open s host .pwr) ∧ (nbits v 31 16 ≠ 0x4D44) ∧ (nbits v 3 0 = 3))
    ∧ (∃ (s : State), ∃ host, ∃ v, (Open s host .pwr) ∧ (nbits v 31 16 ≠ 0x4D44) ∧ (nbits v 3 0 = 4))
    ∧ (∃ (s : State), ∃ (b : Nat), (b < 7) ∧ (s.mode ≠ 0) ∧ (AirFree s))
    ∧ (∃ (s : State), ∃ b, (7 ≤ b ∨ s.mode = 0))
    ∧ (∃ (s : State), (s.centre = false) ∧ (s.fbit PWR_ISL.EN = true) ∧ (s.backhaulUp = false) ∧ (s.mode = 5))
    ∧ (∃ (s : State), (s.centre = false) ∧ (s.fbit PWR_ISL.EN = true) ∧ (s.backhaulUp = true) ∧ (s.mode = 7))
    ∧ (∃ (s : State), (s.centre = false) ∧ (s.fbit PWR_ISL.EN = true) ∧ (s.backhaulUp = true))
    ∧ (∃ (s : State), (s.centre = false) ∧ (s.fbit PWR_ISL.EN = true) ∧ (s.backhaulUp = false))
    ∧ (∃ (s : State), (s.centre = true ∨ s.fbit PWR_ISL.EN = false))
    ∧ (∃ (s : State), (s.pow.timer = true) ∧ (s.mode = 8))
    ∧ (∃ (s : State), (s.pow.timer = true) ∧ (s.mode = 9))
    ∧ (∃ (s : State), (s.pow.timer = false ∨ (s.mode ≠ 8 ∧ s.mode ≠ 9)))
    ∧ (∃ (s : State), ∃ host, ∃ v, (Open s host .pwr) ∧ (nbits v 31 16 = 0x5253) ∧ (nbits v 1 0 = 1) ∧ (s.mode ≠ 11))
    ∧ (∃ (s : State), ∃ host, ∃ v, (Open s host .pwr) ∧ (nbits v 31 16 = 0x5253) ∧ (nbits v 1 0 = 1) ∧ (s.mode = 11))
    ∧ (∃ (s : State), ∃ host, ∃ v, (Open s host .pwr) ∧ (nbits v 31 16 = 0x5253) ∧ (nbits v 1 0 = 2))
    ∧ (∃ (s : State), ∃ host, ∃ v, (Open s host .pwr) ∧ (nbits v 31 16 ≠ 0x5253) ∧ (nbits v 1 0 = 1))
    ∧ (∃ (s : State), ∃ host, ∃ v, (Open s host .pwr) ∧ (nbits v 31 16 ≠ 0x5253) ∧ (nbits v 1 0 = 2))
    ∧ (∃ (s : State), (s.mode = 0)) :=
  ⟨⟨st [(CHIP_ROLE.CENTRE, 0, 0), (CHIP_MODE.MODE, 0, 5)], 0, 1296302081, by simp only [ModeReq, Open]; decide +kernel⟩,
    ⟨st [(CHIP_ROLE.CENTRE, 0, 1)], 0, 1296302081, by simp only [ModeReq, Open]; decide +kernel⟩,
    ⟨st [(CHIP_ROLE.CENTRE, 0, 0), (CHIP_MODE.MODE, 0, 7)], 0, 1296302082, by simp only [ModeReq, Open]; decide +kernel⟩,
    ⟨st [(CHIP_ROLE.CENTRE, 0, 1)], 0, 1296302082, by simp only [ModeReq, Open]; decide +kernel⟩,
    ⟨st [(CHIP_MODE.MODE, 0, 5)], 0, 1296302083, by simp only [ModeReq, AirFree, Open]; decide +kernel⟩,
    ⟨own, 0, 1296302083, by simp only [ModeReq, Open]; decide +kernel⟩,
    ⟨st [(CHIP_MODE.MODE, 0, 8)], 0, 1296302084, by simp only [ModeReq, Open]; decide +kernel⟩,
    ⟨st [(CHIP_MODE.MODE, 0, 8), (PWR_RAIL_STAT.WARN, 0, 1)], 0, 1296302084, by simp only [ModeReq, Open]; decide +kernel⟩,
    ⟨own, 0, 1296302084, by simp only [ModeReq, Open]; decide +kernel⟩,
    ⟨own, 0, 1, by simp only [Open]; decide +kernel⟩,
    ⟨own, 0, 2, by simp only [Open]; decide +kernel⟩,
    ⟨own, 0, 3, by simp only [Open]; decide +kernel⟩,
    ⟨own, 0, 4, by simp only [Open]; decide +kernel⟩,
    ⟨own, 0, by simp only [AirFree]; decide +kernel⟩,
    ⟨own, 7, by decide +kernel⟩,
    ⟨st [(CHIP_ROLE.CENTRE, 0, 0), (PWR_ISL.EN, 0, 1), (CHIP_MODE.MODE, 0, 5)], by decide +kernel⟩,
    ⟨st [(CHIP_ROLE.CENTRE, 0, 0), (PWR_ISL.EN, 0, 1), (CHIP_MODE.MODE, 0, 7), (PWR_ISL.HOSTS, 0, 1), (RNG_H_STAT.UP, 0, 1)], by decide +kernel⟩,
    ⟨st [(CHIP_ROLE.CENTRE, 0, 0), (PWR_ISL.EN, 0, 1), (PWR_ISL.HOSTS, 0, 1), (RNG_H_STAT.UP, 0, 1)], by decide +kernel⟩,
    ⟨st [(CHIP_ROLE.CENTRE, 0, 0), (PWR_ISL.EN, 0, 1)], by decide +kernel⟩,
    ⟨st [(CHIP_ROLE.CENTRE, 0, 1)], by decide +kernel⟩,
    ⟨{ st [(CHIP_MODE.MODE, 0, 8)] with pow.timer := true }, by decide +kernel⟩,
    ⟨{ st [(CHIP_MODE.MODE, 0, 9)] with pow.timer := true }, by decide +kernel⟩,
    ⟨{ own with pow.timer := false }, by decide +kernel⟩,
    ⟨own, 0, 1381171201, by simp only [Open]; decide +kernel⟩,
    ⟨st [(CHIP_MODE.MODE, 0, 11)], 0, 1381171201, by simp only [Open]; decide +kernel⟩,
    ⟨own, 0, 1381171202, by simp only [Open]; decide +kernel⟩,
    ⟨own, 0, 1, by simp only [Open]; decide +kernel⟩,
    ⟨own, 0, 2, by simp only [Open]; decide +kernel⟩,
    ⟨st [(CHIP_MODE.MODE, 0, 0)], by decide +kernel⟩⟩

/-- Something meets the hypotheses of each clause of OwnerEntriesOfBusyUnits. -/
theorem witness_OwnerEntriesOfBusyUnits :
    (∃ (s : State), ∃ host, ∃ r, (Open s host .ten) ∧ (s.ten.phase = .idle) ∧ (r < 4096) ∧ (s.fget RNG_R_STAT.STATE r ≠ 0))
    ∧ (∃ (s : State), ∃ host, ∃ (k : Nat), ∃ (value : Nat), (Open s host .ten) ∧ (s.ten.phase = .idle) ∧ (k < 4096) ∧ (s.fget TSK_STAT.STATE k ≠ 0) ∧ (tget 0 s.ten.pend.task k ≠ Nat.land (value % 65536) 0x83FF)) :=
  ⟨⟨{ st [(RNG_R_STAT.STATE, 0, 1)] with ten.phase := .idle }, 0, 0, by simp only [Open]; decide +kernel⟩,
    ⟨{ st [(TSK_STAT.STATE, 0, 1)] with ten.phase := .idle }, 0, 0, 1, by simp only [Open]; decide +kernel⟩⟩

/-- Something meets the hypotheses of each clause of FaultOfAnActiveUnit. -/
theorem witness_FaultOfAnActiveUnit :
    (∃ (s : State), ∃ (b : Nat), (b < 7) ∧ (s.mode = 5 ∨ s.mode = 6 ∨ s.mode = 7) ∧ (s.pair.en = true) ∧ (s.pairState = 4) ∧ (AirFree s) ∧ (s.pair.heard = true ∧ s.fget RES_PAIR_STAT.PARTNER_STATE = 2 ∧ s.pair.partnerSynced = true))
    ∧ (∃ (s : State), ∃ (b : Nat), (b < 7) ∧ (s.mode = 5 ∨ s.mode = 6 ∨ s.mode = 7) ∧ (s.pair.en = true) ∧ (s.pairState = 4) ∧ (AirFree s) ∧ (¬ (s.pair.heard = true ∧ s.fget RES_PAIR_STAT.PARTNER_STATE = 2 ∧ s.pair.partnerSynced = true))) :=
  ⟨⟨{ st [(CHIP_MODE.MODE, 0, 5), (RES_PAIR_STAT.STATE, 0, 4), (RES_PAIR_STAT.PARTNER_STATE, 0, 2)] with pair.en := true, pair.heard := true, pair.partnerSynced := true }, 0, by simp only [AirFree]; decide +kernel⟩,
    ⟨{ st [(CHIP_MODE.MODE, 0, 5), (RES_PAIR_STAT.STATE, 0, 4)] with pair.en := true }, 0, by simp only [AirFree]; decide +kernel⟩⟩

/-- Something meets the hypotheses of each clause of OtherHostsChangeNothing. -/
theorem witness_OtherHostsChangeNothing :
    (∃ (s0 : State), ∃ (s : State), (s.pending ≠ []) ∧ (OthersOnly s0 s))
    ∧ (∃ (s : State), ∃ (c : Instr), ∃ h, (supvCommand c = some h) ∧ (h ≠ s.supv) ∧ ((∀ b, s.silent b = false)) ∧ (c.wellFormed = true))
    ∧ (∃ (s : State), ∃ (c : Instr), ∃ h, (supvCommand c = some h) ∧ (h ≠ s.supv) ∧ (s.mode = 0)) :=
  ⟨⟨own, ({ own with pending := [.degrade 1 0] } : State), by refine ⟨by decide, fun c hc => ?_, Quiet.refl _⟩; rcases List.mem_singleton.mp hc with rfl; exact ⟨1, rfl, by decide +kernel⟩⟩,
    ⟨own, (.degrade 1 0 : Instr), 1, by refine ⟨rfl, by decide +kernel, fun b => ?_, by decide +kernel⟩; cases b <;> decide +kernel⟩,
    ⟨st [(CHIP_MODE.MODE, 0, 0)], (.degrade 1 0 : Instr), 1, by decide +kernel⟩⟩

/-- Something meets the hypotheses of each clause of ResetState. -/
theorem witness_ResetState :
    (∃ (f : Fld), (f.id ≠ LDG_T_JBUF.QUOTA.id))
    ∧ (∃ i, (i ≠ 0)) :=
  ⟨⟨CHIP_MODE.MODE, by decide +kernel⟩,
    ⟨1, by decide +kernel⟩⟩

end Sys2Proof.Tests
end

/-! PROOFS. O1: a step runs the command at the front of the queue, and every command answers a next state. -/
namespace Sys2Proof.Proofs.Scope
open Sys2Proof Sys2Proof.Machine

/-- On an empty queue one powered second passes (log entry 1). -/
theorem step_of_pending_nil {s : State} (h : s.pending = []) : step s = .next s.tick := by
  unfold step
  rw [h]

/-! The commands whose meaning ends in more than one branch: each branch answers a next state. -/

theorem execSinkDown_next (tenant sink : Nat) (s : State) : ∃ t, execSinkDown tenant sink s = .next t := by
  unfold execSinkDown
  split
  · exact ⟨_, rfl⟩
  · exact ⟨_, rfl⟩

theorem execCkptCopyDone_next (tenant : Nat) (s : State) : ∃ t, execCkptCopyDone tenant s = .next t := by
  unfold execCkptCopyDone
  extract_lets
  split
  · exact ⟨_, rfl⟩
  · split
    · exact ⟨_, rfl⟩
    · split
      · exact ⟨_, rfl⟩
      · exact ⟨_, rfl⟩

theorem execTenantRebuild_next (tenant ms : Nat) (s : State) : ∃ t, execTenantRebuild tenant ms s = .next t := by
  unfold execTenantRebuild
  extract_lets
  split
  · exact ⟨_, rfl⟩
  · split
    · exact ⟨_, rfl⟩
    · exact ⟨_, rfl⟩

theorem execWritebackLanded_next (ledger : Nat) (s : State) : ∃ t, execWritebackLanded ledger s = .next t := by
  unfold execWritebackLanded
  split
  · exact ⟨_, rfl⟩
  · split
    · exact ⟨_, rfl⟩
    · exact ⟨_, rfl⟩

theorem execLineMove_next (ledger cluster : Nat) (s : State) : ∃ t, execLineMove ledger cluster s = .next t := by
  unfold execLineMove
  split
  · exact ⟨_, rfl⟩
  · split
    · exact ⟨_, rfl⟩
    · exact ⟨_, rfl⟩

/-- No arm of `exec` is a fault or a refusal. The arms named here branch before they answer; the meaning of every other command is written as
one next state. -/
theorem exec_next (c : Instr) (s : State) : ∃ t, exec c s = .next t := by
  cases c
  case sinkDown tenant sink => exact execSinkDown_next tenant sink s
  case ckptCopyDone tenant => exact execCkptCopyDone_next tenant s
  case tenantRebuild tenant ms => exact execTenantRebuild_next tenant ms s
  case writebackLanded ledger => exact execWritebackLanded_next ledger s
  case lineMove ledger cluster => exact execLineMove_next ledger cluster s
  all_goals exact ⟨_, rfl⟩

/-- Settles O1: the two branches of `step`, and `exec_next` for every command. -/
theorem stepRunsFront : Obligations.StepRunsFront :=
  ⟨fun _ _ _ => rfl, fun _ => step_of_pending_nil, exec_next⟩

end Sys2Proof.Proofs.Scope

/-! PROOFS. O32: the feeder metrology. A cycle is cut into its stages, each with what it writes; the detectors are read bit by bit. -/
namespace Sys2Proof.Proofs.Feeder
open Sys2Proof Sys2Proof.Machine Sys2Proof.Machine.Reg Sys2Proof.Safety

/-! ### Bits of a number -/

theorem nbit_eq_testBit (v n : Nat) : nbit v n = v.testBit n := by
  rw [nbit, Nat.testBit_eq_decide_div_mod_eq]; rfl

/-- A number cut to its low bits keeps them. -/
theorem nbit_mod_two_pow (v : Nat) {k w : Nat} (h : k < w) : nbit (v % 2 ^ w) k = nbit v k := by
  simp [nbit_eq_testBit, h]

/-- Setting a bit replaces the digit of its weight, between the digits above and those below. -/
theorem nsetBit_eq (v n : Nat) (b : Bool) : nsetBit v n b = 2 ^ n * (2 * (v / 2 ^ n / 2) + b2n b) + v % 2 ^ n := by
  have hv : v = 2 ^ n * (2 * (v / 2 ^ n / 2)) + 2 ^ n * (v / 2 ^ n % 2) + v % 2 ^ n := by
    rw [← Nat.mul_add, Nat.div_add_mod, Nat.div_add_mod]
  rw [Nat.mul_add]
  unfold nsetBit
  rcases Nat.mod_two_eq_zero_or_one (v / 2 ^ n) with clear | set
  · have bit : nbit v n = false := by simp [nbit, clear]
    rw [clear] at hv
    cases b
    · simpa [bit, b2n] using hv
    · simp [bit, b2n]
      omega
  · have bit : nbit v n = true := by simp [nbit, set]
    rw [set] at hv
    cases b
    · simp [bit, b2n]
      omega
    · simpa [bit, b2n] using hv

theorem nbit_nsetBit (v n : Nat) (b : Bool) (k : Nat) : nbit (nsetBit v n b) k = if k = n then b else nbit v k := by
  have low : v % 2 ^ n < 2 ^ n := Nat.mod_lt _ (Nat.two_pow_pos n)
  rw [nbit_eq_testBit, nbit_eq_testBit, nsetBit_eq, Nat.testBit_two_pow_mul_add _ low]
  rcases Nat.lt_trichotomy k n with h | rfl | h
  · simp [h, Nat.ne_of_lt h]
  · cases b <;> simp [b2n]
  · obtain ⟨m, rfl⟩ : ∃ m, k = m + 1 + n := ⟨k - n - 1, by omega⟩
    have half : (2 * (v / 2 ^ n / 2) + b2n b) / 2 = v / 2 ^ n / 2 := by cases b <;> simp [b2n]; omega
    rw [if_neg (by omega), if_neg (by omega), Nat.add_sub_cancel, Nat.testBit_add_one, half, Nat.testBit_add v, Nat.testBit_add_one]

/-! ### What a step of a cycle leaves alone -/

/-- Another key reads as before, whatever default either side takes. -/
theorem tget_tput_of_ne {α : Type} [DecidableEq α] (d e : α) (t : Tab α) {i j : Nat} (v : α) (h : i ≠ j) : tget d (tput e t i v) j = tget d t j := by
  unfold tput
  split
  · rw [tget_filter, if_neg h]
  · rw [tget_tins, if_neg h]

/-- From `s` to `t` no register changes but those of `W` (a field's number and its index) and a signal's; DRAM, the ledgers, the kept voltage tails and
the detectors' runs are as before. -/
structure Metered (W : List (Nat × Nat)) (s t : State) : Prop where
  reg : ∀ f i, f.id ∉ sigIds → (f.id, i) ∉ W → t.fget f i = s.fget f i
  dram : t.dram = s.dram
  ldg : t.ldg = s.ldg
  tails : t.bal.tails = s.bal.tails
  runs : t.bal.runs = s.bal.runs

section
variable {W : List (Nat × Nat)} {s t u : State}

theorem Metered.refl (s : State) : Metered W s s := ⟨fun _ _ _ _ => rfl, rfl, rfl, rfl, rfl⟩

theorem Metered.trans (h : Metered W s t) (k : Metered W t u) : Metered W s u where
  reg f i hs hw := (k.reg f i hs hw).trans (h.reg f i hs hw)
  dram := k.dram.trans h.dram
  ldg := k.ldg.trans h.ldg
  tails := k.tails.trans h.tails
  runs := k.runs.trans h.runs

theorem Metered.mono {V : List (Nat × Nat)} (h : Metered V s t) (hV : V ⊆ W) : Metered W s t :=
  { h with reg := fun f i hs hw => h.reg f i hs (fun c => hw (hV c)) }

theorem Metered.signal (s : State) (src : Nat) (pay : List Byte) : Metered W s (s.signal src pay) :=
  have q := signal_quiet (L := []) s src pay
  ⟨fun f i hs _ => q.reg f i (by simp) hs, q.dram, q.ldg, by rw [q.bal], by rw [q.bal]⟩

theorem Metered.fset (s : State) (f : Fld) (i v : Nat) (h : (f.id, i) ∈ W) : Metered W s (s.fset f i v) where
  reg g j _ hg := by
    by_cases hid : f.id = g.id
    · have hij : i ≠ j := fun e => hg (hid ▸ e ▸ h)
      simp only [State.fget, State.fset, hid, tget_tput_same, tget_tput_of_ne _ _ _ _ hij]
    · exact fget_fset_ne s f g i j v hid
  dram := rfl
  ldg := rfl
  tails := rfl
  runs := rfl

/-- Parts of the balance engine other than the kept tails and the runs. -/
theorem Metered.bal (s : State) (b : BalS) (ht : b.tails = s.bal.tails) (hr : b.runs = s.bal.runs) : Metered W s { s with bal := b } :=
  ⟨fun _ _ _ _ => rfl, rfl, rfl, ht, hr⟩

theorem Metered.foldl (f : State → Nat → State) (hf : ∀ s k, Metered W s (f s k)) (l : List Nat) (s : State) : Metered W s (l.foldl f s) := by
  induction l generalizing s with
  | nil => exact Metered.refl s
  | cons k l ih => exact (hf s k).trans (ih (f s k))

theorem samples_metered (s : State) (ch : Nat) (raw : List Nat) (h : (BAL_MET_STAT.OVER.id, 0) ∈ W) : Metered W s (s.samples ch raw).2 := by
  have draw : Metered W s { s with freeCtr := s.freeCtr + 1 } := ⟨fun _ _ _ _ => rfl, rfl, rfl, rfl, rfl⟩
  unfold State.samples
  dsimp only
  split
  · exact draw.trans ((Metered.fset _ _ _ _ h).trans (Metered.signal _ _ _))
  · exact draw

theorem latchSet_metered (s : State) (w p : Nat) : Metered W s (s.latchSet w p) := by
  unfold State.latchSet
  dsimp only
  split
  · exact Metered.refl s
  · exact Metered.bal s _ rfl rfl

theorem energyAdd_metered (s : State) (lo hi : Fld) (p slot pn t : Nat) (hlo : (lo.id, p) ∈ W) (hhi : (hi.id, p) ∈ W) :
    Metered W s (s.energyAdd lo hi p slot pn t) := by
  unfold State.energyAdd State.set64
  dsimp only
  exact (Metered.bal s _ (by rfl) (by rfl)).trans ((Metered.fset _ _ _ _ hlo).trans (Metered.fset _ _ _ _ hhi))

end

/-! ### The stages of a cycle -/

/-- The corrected samples of a phase's voltage in a cycle. -/
def volts (s : State) (p : Nat) (v : List Nat) : List Int := (s.samples p v).1

/-- The corrected samples of its current, taken next. -/
def amps (s : State) (p : Nat) (v i : List Nat) : List Int := ((s.samples p v).2.samples (4 + p) i).1

/-- The state once both channels are sampled. -/
def sampled (s : State) (p : Nat) (v i : List Nat) : State := ((s.samples p v).2.samples (4 + p) i).2

/-- The sum of products of two channels' samples. -/
def dot (xs ys : List Int) : Int := (xs.zip ys).foldl (fun a p => a + p.1 * p.2) 0

/-- What one unit of a power register is in a sum of products (R176). -/
def powerUnit : Nat := 256 * 2 ^ 90 * 10 ^ 4

/-- A phase's sum of products, in the full scales of its two channels. -/
def powerSum (s : State) (p : Nat) (xs ys : List Int) : Int := dot xs ys * ((s.fget BAL_CAL_FS.FS p * s.fget BAL_CAL_FS.FS (4 + p) : Nat) : Int)

/-- The voltage samples from a quarter cycle earlier on (R176): the kept tail, then this cycle's. -/
def quarterBack (s : State) (p : Nat) (vs : List Int) : List Int :=
  (List.replicate (64 - (tget [] s.bal.tails p).length) 0 ++ tget [] s.bal.tails p) ++ vs

def keepTail (s : State) (p : Nat) (vs : List Int) : State := { s with bal := { s.bal with tails := tput [] s.bal.tails p (vs.drop 192) } }

def setResults (s : State) (p w var mv ma : Nat) : State :=
  (((s.fset BAL_P.W p w).fset BAL_Q.VAR p var).fset BAL_VRMS.MV p mv).fset BAL_IRMS.MA p ma

/-- A cycle up to its results (R176). -/
def resulted (s : State) (p : Nat) (v i : List Nat) : State :=
  let u := sampled s p v i
  setResults (keepTail u p (volts s p v)) p (sat32 (roundInt (powerSum u p (volts s p v) (amps s p v i)) powerUnit))
    (sat32 (roundInt (powerSum u p (quarterBack u p (volts s p v)) (amps s p v i)) powerUnit))
    (rms (volts s p v) (u.fget BAL_CAL_FS.FS p * 100)) (rms (amps s p v i) (u.fget BAL_CAL_FS.FS (4 + p)))

/-- A signed energy goes to the accumulator of its sign (R177). -/
def addSigned (s : State) (lo hi lo' hi' : Fld) (p slot : Nat) (n : Int) (period : Nat) : State :=
  if n ≥ 0 then s.energyAdd lo hi p slot n.natAbs period else s.energyAdd lo' hi' p (slot + 1) n.natAbs period

def addEnergies (s : State) (p : Nat) (pn qn : Int) (period : Nat) : State :=
  addSigned (addSigned s BAL_EAI.LO BAL_EAI.HI BAL_EAE.LO BAL_EAE.HI p (4 * p) pn period) BAL_ERI.LO BAL_ERI.HI BAL_ERE.LO BAL_ERE.HI p (4 * p + 2) qn period

def latchPhase (s : State) (p : Nat) : State := (List.range 8).foldl (fun (s : State) w => s.latchSet w p) s

def keepCurrents (s : State) (p : Nat) (is_ : List Int) : State := { s with bal := { s.bal with currents := tput [] s.bal.currents p is_ } }

/-- A phase's cycle, without what phase A does for the neutral and the detectors. -/
def phaseCycle (s : State) (p : Nat) (v i : List Nat) (period : Nat) : State :=
  let u := sampled s p v i
  keepCurrents (latchPhase (addEnergies (resulted s p v i) p (powerSum u p (volts s p v) (amps s p v i))
    (powerSum u p (quarterBack u p (volts s p v)) (amps s p v i)) period) p) p (amps s p v i)

/-- The neutral's two channels at the end of a phase-A cycle. -/
def neutralResults (s : State) (vn n : List Nat) : State :=
  let a := s.samples 3 vn
  let b := a.2.samples 7 n
  (b.2.fset BAL_N_VRMS.MV 0 (rms a.1 (b.2.fget BAL_CAL_FS.FS 3 * 100))).fset BAL_N_IRMS.MA 0 (rms b.1 (b.2.fget BAL_CAL_FS.FS 7))

/-- The rest of a phase-A cycle: the neutral, then the detectors. -/
def neutralCycle (s : State) (vn n : List Nat) : State :=
  (neutralResults s vn n).detectCycle (s.samples 3 vn).1 ((s.samples 3 vn).2.samples 7 n).1

/-- A cycle that is measured. -/
def cycleEnd (s : State) (p : Nat) (v i vn n : List Nat) (period : Nat) : State :=
  if p = 0 then neutralCycle (phaseCycle s p v i period) vn n else phaseCycle s p v i period

/-- The stages together are what the command does. -/
theorem exec_metrologyCycleEnd {s : State} {p : Nat} (v i vn n : List Nat) (period : Nat) (hp : p < 3) (hon : s.fget BAL_MET_STAT.STATE = 2) :
    exec (.metrologyCycleEnd p v i vn n period) s = .next (cycleEnd s p v i vn n period) := by
  have go : ¬(p ≥ 3 ∨ s.fget BAL_MET_STAT.STATE ≠ 2) := by omega
  show execMetrologyCycleEnd p v i vn n period s = _
  unfold execMetrologyCycleEnd
  rw [if_neg go]
  dsimp -zeta only
  extract_lets old quarter dot' fv fi pn qn den bal tailed powers results active energies latched bal' measured
  have stages : measured = phaseCycle s p v i period := by
    have hr : results = resulted s p v i := rfl
    have he : energies = addEnergies results p pn qn period := rfl
    have hl : latched = latchPhase energies p := rfl
    have hm : measured = keepCurrents latched p (amps s p v i) := rfl
    rw [hm, hl, he, hr]
    rfl
  rw [stages]
  rfl

/-! ### What the stages write -/

def resultFlds : List Fld := [BAL_P.W, BAL_Q.VAR, BAL_VRMS.MV, BAL_IRMS.MA]

def energyFlds : List Fld := [BAL_EAI.LO, BAL_EAI.HI, BAL_EAE.LO, BAL_EAE.HI, BAL_ERI.LO, BAL_ERI.HI, BAL_ERE.LO, BAL_ERE.HI]

def resultWrites (p : Nat) : List (Nat × Nat) := resultFlds.map (fun f => (f.id, p))

def energyWrites (p : Nat) : List (Nat × Nat) := energyFlds.map (fun f => (f.id, p))

def sampleWrites : List (Nat × Nat) := [(BAL_MET_STAT.OVER.id, 0), (BAL_N_VRMS.MV.id, 0), (BAL_N_IRMS.MA.id, 0)]

/-- What a cycle writes after its results. -/
def laterWrites (p : Nat) : List (Nat × Nat) := energyWrites p ++ sampleWrites

/-- What a cycle writes. -/
def cycleWrites (p : Nat) : List (Nat × Nat) := resultWrites p ++ laterWrites p

/-- The detectors' runs replaced. -/
def withRuns (s : State) (r : Tab Nat) : State := { s with bal := { s.bal with runs := r } }

section
variable {W : List (Nat × Nat)} {s t : State}

theorem Metered.keepTail (h : Metered W s t) (p : Nat) (vs : List Int) : Metered W (keepTail s p vs) (keepTail t p vs) :=
  { h with tails := congrArg (fun x => tput [] x p (vs.drop 192)) h.tails }

theorem Metered.withRuns (h : Metered W s t) (r : Tab Nat) : Metered W (withRuns s r) (withRuns t r) :=
  { h with runs := rfl }

theorem sampled_metered (s : State) (p : Nat) (v i : List Nat) : Metered sampleWrites s (sampled s p v i) :=
  (samples_metered s p v List.mem_cons_self).trans (samples_metered _ _ _ List.mem_cons_self)

theorem setResults_metered (s : State) (p w var mv ma : Nat) : Metered (resultWrites p) s (setResults s p w var mv ma) :=
  (((Metered.fset _ _ _ _ (by simp [resultWrites, resultFlds])).trans (Metered.fset _ _ _ _ (by simp [resultWrites, resultFlds]))).trans
    (Metered.fset _ _ _ _ (by simp [resultWrites, resultFlds]))).trans (Metered.fset _ _ _ _ (by simp [resultWrites, resultFlds]))

theorem addSigned_metered (s : State) (lo hi lo' hi' : Fld) (p slot : Nat) (n : Int) (period : Nat)
    (h : [(lo.id, p), (hi.id, p), (lo'.id, p), (hi'.id, p)] ⊆ W) : Metered W s (addSigned s lo hi lo' hi' p slot n period) := by
  simp only [List.cons_subset, List.nil_subset, and_true] at h
  obtain ⟨hlo, hhi, hlo', hhi'⟩ := h
  unfold addSigned
  split
  · exact energyAdd_metered _ _ _ _ _ _ _ hlo hhi
  · exact energyAdd_metered _ _ _ _ _ _ _ hlo' hhi'

theorem addEnergies_metered (s : State) (p : Nat) (pn qn : Int) (period : Nat) : Metered (energyWrites p) s (addEnergies s p pn qn period) :=
  (addSigned_metered _ _ _ _ _ _ _ _ _ (by simp [energyWrites, energyFlds])).trans (addSigned_metered _ _ _ _ _ _ _ _ _ (by simp [energyWrites, energyFlds]))

theorem resulted_metered (s : State) (p : Nat) (v i : List Nat) : Metered (cycleWrites p) (keepTail s p (volts s p v)) (resulted s p v i) :=
  (((sampled_metered s p v i).keepTail p _).mono (by simp [cycleWrites, laterWrites])).trans ((setResults_metered _ _ _ _ _ _).mono (by simp [cycleWrites]))

theorem latchPhase_metered (s : State) (p : Nat) : Metered W s (latchPhase s p) := Metered.foldl _ (fun s w => latchSet_metered s w p) _ s

theorem keepCurrents_metered (s : State) (p : Nat) (is_ : List Int) : Metered W s (keepCurrents s p is_) := Metered.bal s _ rfl rfl

theorem phaseCycle_metered (s : State) (p : Nat) (v i : List Nat) (period : Nat) : Metered (laterWrites p) (resulted s p v i) (phaseCycle s p v i period) :=
  (((addEnergies_metered _ _ _ _ _).mono (by simp [laterWrites])).trans (latchPhase_metered _ p)).trans (keepCurrents_metered _ p _)

theorem neutralResults_metered (s : State) (vn n : List Nat) : Metered sampleWrites s (neutralResults s vn n) :=
  (((samples_metered s _ _ (by simp [sampleWrites])).trans (samples_metered _ _ _ (by simp [sampleWrites]))).trans
    (Metered.fset _ _ _ _ (by simp [sampleWrites]))).trans (Metered.fset _ _ _ _ (by simp [sampleWrites]))

@[simp] theorem withRuns_fget (s : State) (r : Tab Nat) (f : Fld) (i : Nat) : (withRuns s r).fget f i = s.fget f i := rfl
@[simp] theorem withRuns_tails (s : State) (r : Tab Nat) : (withRuns s r).bal.tails = s.bal.tails := rfl
@[simp] theorem keepTail_fget (s : State) (p : Nat) (vs : List Int) (f : Fld) (i : Nat) : (keepTail s p vs).fget f i = s.fget f i := rfl
@[simp] theorem keepTail_runs (s : State) (p : Nat) (vs : List Int) : (keepTail s p vs).bal.runs = s.bal.runs := rfl

theorem withRuns_self (s : State) : withRuns s s.bal.runs = s := rfl

/-- The detectors' part of a cycle touches their runs alone. -/
theorem detectCycle_eq (s : State) (xs ys : List Int) : s.detectCycle xs ys = withRuns s (s.detectCycle xs ys).bal.runs := by
  unfold State.detectCycle
  split <;> rfl

theorem cycleEnd_metered (s : State) (p : Nat) (v i vn n : List Nat) (period : Nat) :
    ∃ r, Metered (laterWrites p) (withRuns (resulted s p v i) r) (cycleEnd s p v i vn n period) := by
  have cycle := phaseCycle_metered s p v i period
  unfold cycleEnd
  split
  · rw [neutralCycle, detectCycle_eq]
    exact ⟨_, (cycle.trans ((neutralResults_metered _ vn n).mono (by simp [laterWrites]))).withRuns _⟩
  · exact ⟨_, (withRuns_self (resulted s p v i)).symm ▸ cycle⟩

/-! ### The registers after a cycle -/

/-- A field that is not written reads as before. -/
theorem Metered.fget (h : Metered W s t) (f : Fld) (i : Nat) (hf : (sigIds ++ W.map Prod.fst).contains f.id = false) : t.fget f i = s.fget f i := by
  simp only [List.contains_eq_mem, decide_eq_false_iff_not, List.mem_append, not_or] at hf
  exact h.reg f i hf.1 (fun c => hf.2 (List.mem_map_of_mem c))

/-- Nor does a phase's cycle write another phase's registers. -/
theorem not_mem_cycleWrites {p q : Nat} (hq : q ≠ p) (f : Fld) (hf : (sampleWrites.map Prod.fst).contains f.id = false) : (f.id, q) ∉ cycleWrites p := by
  simp only [List.contains_eq_mem, decide_eq_false_iff_not] at hf
  simp only [cycleWrites, laterWrites, resultWrites, energyWrites, List.mem_append, List.mem_map, Prod.mk.injEq, not_or]
  exact ⟨fun ⟨_, _, _, e⟩ => hq e.symm, fun ⟨_, _, _, e⟩ => hq e.symm, fun c => hf (List.mem_map_of_mem c)⟩

theorem sampled_fs (s : State) (p : Nat) (v i : List Nat) (k : Nat) : (sampled s p v i).fget BAL_CAL_FS.FS k = s.fget BAL_CAL_FS.FS k :=
  (sampled_metered s p v i).fget _ _ rfl

theorem resulted_p (s : State) (p : Nat) (v i : List Nat) :
    (resulted s p v i).fget BAL_P.W p = sat32 (roundInt (powerSum s p (volts s p v) (amps s p v i)) powerUnit) % 2 ^ 32 := by
  have same : powerSum (sampled s p v i) p = powerSum s p := by unfold powerSum; rw [sampled_fs, sampled_fs]
  unfold resulted setResults
  rw [fget_fset_ne _ _ _ _ _ _ (by decide), fget_fset_ne _ _ _ _ _ _ (by decide), fget_fset_ne _ _ _ _ _ _ (by decide), fget_fset_same, same]
  rfl

theorem resulted_vrms (s : State) (p : Nat) (v i : List Nat) :
    (resulted s p v i).fget BAL_VRMS.MV p = rms (volts s p v) (s.fget BAL_CAL_FS.FS p * 100) % 2 ^ 32 := by
  unfold resulted setResults
  rw [fget_fset_ne _ _ _ _ _ _ (by decide), fget_fset_same, sampled_fs]
  rfl

theorem resulted_irms (s : State) (p : Nat) (v i : List Nat) :
    (resulted s p v i).fget BAL_IRMS.MA p = rms (amps s p v i) (s.fget BAL_CAL_FS.FS (4 + p)) % 2 ^ 32 := by
  unfold resulted setResults
  rw [fget_fset_same, sampled_fs]
  rfl

theorem resulted_tail (s : State) (p : Nat) (v i : List Nat) : tget [] (resulted s p v i).bal.tails p = (volts s p v).drop 192 :=
  tget_tput_same _ _ _ _

/-- From before a cycle to its end: the registers it does not write, DRAM and the ledgers. -/
theorem cycleEnd_frame (s : State) (p : Nat) (v i vn n : List Nat) (period : Nat) :
    (∀ f k, f.id ∉ sigIds → (f.id, k) ∉ cycleWrites p → (cycleEnd s p v i vn n period).fget f k = s.fget f k)
      ∧ (cycleEnd s p v i vn n period).dram = s.dram ∧ (cycleEnd s p v i vn n period).ldg = s.ldg := by
  obtain ⟨r, later⟩ := cycleEnd_metered s p v i vn n period
  have whole := ((resulted_metered s p v i).withRuns r).trans (later.mono (by simp [cycleWrites]))
  exact ⟨whole.reg, whole.dram, whole.ldg⟩

end

/-- A phase-A cycle up to its detectors. -/
theorem phaseA_metered (s : State) (v i vn n : List Nat) (period : Nat) :
    Metered (cycleWrites 0) (keepTail s 0 (volts s 0 v)) (neutralResults (phaseCycle s 0 v i period) vn n) :=
  ((resulted_metered s 0 v i).trans ((phaseCycle_metered s 0 v i period).mono (by simp [cycleWrites]))).trans
    ((neutralResults_metered _ vn n).mono (by simp [cycleWrites, laterWrites]))

/-! ### The detectors' runs -/

/-- The reverse-energy condition of a phase (R205). -/
def reversed (s : State) (p : Nat) : Bool :=
  !nbit (s.fget BAL_TAMP_CFG0.EXPORT_OK) p && decide (sval 32 (s.fget BAL_P.W p) < -(s.fget BAL_TAMP_CFG0.REV_MIN : Int))

/-- The low bits of the conditions are the reverse-energy conditions of the three phases. -/
theorem nbit_detectorConds (s : State) (vn n : List Int) {d : Nat} (h : d < 3) : nbit (s.detectorConds vn n) d = reversed s d := by
  have bits : ∀ a b c e f : Bool, ∀ d < 3, nbit (b2n a + 2 * b2n b + 4 * b2n c + 8 * b2n e + 16 * b2n f) d = [a, b, c].getD d false := by decide
  refine (bits _ _ _ _ _ d h).trans ?_
  match d, h with
  | 0, _ => rfl
  | 1, _ => rfl
  | 2, _ => rfl

/-- A table filled key by key. -/
theorem tget_foldl_tput (g : Nat → Nat) (n : Nat) {d : Nat} (h : d < n) : tget 0 ((List.range n).foldl (fun t d => tput 0 t d (g d)) []) d = g d := by
  induction n with
  | zero => omega
  | succ n ih =>
    rw [List.range_succ, List.foldl_append, List.foldl_cons, List.foldl_nil, tget_tput]
    split
    · next e => rw [e]
    · exact ih (by omega)

/-- A cycle counts in a reverse-energy detector's run where its condition differs from its state, and ends the run otherwise. -/
theorem detectCycle_run (s : State) (xs ys : List Int) (on : s.detectorsRun = true) {d : Nat} (h : d < 3) :
    tget 0 (s.detectCycle xs ys).bal.runs d = if reversed s d = nbit (s.fget BAL_TAMP_STAT.ACTIVE) d then 0 else tget 0 s.bal.runs d + 1 := by
  unfold State.detectCycle
  rw [if_neg (by simp [on])]
  dsimp only
  rw [tget_foldl_tput _ 5 (by omega), nbit_detectorConds s xs ys h]
  simp only [bne_iff_ne, ite_not]

/-! ### A detector changes -/

/-- An open window is marked. -/
def markOpen (s : State) (w : Nat) : State :=
  match (s.winSet w).cur with
  | some c => s.setWinSet w { s.winSet w with cur := some { c with tamper := true } }
  | none => s

theorem winSet_setWinSet (s : State) (w : Nat) (x : WinSet) (k : Nat) : (s.setWinSet w x).winSet k = if w = k then x else s.winSet k :=
  tget_tput _ _ _ _ _

theorem markOpen_metered (s : State) (w : Nat) : Metered [] s (markOpen s w) := by
  unfold markOpen
  split
  · exact Metered.bal s _ rfl rfl
  · exact Metered.refl s

theorem markOpen_cur (s : State) (w k : Nat) :
    ((markOpen s w).winSet k).cur = if w = k then (s.winSet k).cur.map (fun c => { c with tamper := true }) else (s.winSet k).cur := by
  unfold markOpen
  split
  · next c hc =>
    rw [winSet_setWinSet]
    split
    · next e => rw [← e, hc]; rfl
    · rfl
  · next hc =>
    split
    · next e => rw [← e, hc]; rfl
    · rfl

theorem markOpen_range_cur (s : State) (n k : Nat) :
    (((List.range n).foldl markOpen s).winSet k).cur = if k < n then (s.winSet k).cur.map (fun c => { c with tamper := true }) else (s.winSet k).cur := by
  induction n with
  | zero => rfl
  | succ n ih =>
    rw [List.range_succ, List.foldl_append, List.foldl_cons, List.foldl_nil, markOpen_cur, ih]
    rcases Nat.lt_trichotomy k n with h | rfl | h
    · rw [if_neg (by omega), if_pos h, if_pos (by omega)]
    · rw [if_pos rfl, if_neg (by omega), if_pos (by omega)]
    · rw [if_neg (by omega), if_neg (by omega), if_neg (by omega)]

/-- The state a detector that changes leaves, its run at 0 and its bit of ACTIVE set or cleared. -/
def flipped (s : State) (d : Nat) (b : Bool) : State :=
  (withRuns s (tput 0 s.bal.runs d 0)).fset BAL_TAMP_STAT.ACTIVE 0 (nsetBit (s.fget BAL_TAMP_STAT.ACTIVE) d b)

/-- Each detector's bit of a field of five, after one of them is stored. -/
theorem nbit_fset_nsetBit (s : State) (f : Fld) (hf : f.span = 2 ^ 5) (v d : Nat) (b : Bool) {k : Nat} (h : k < 5) :
    nbit ((s.fset f 0 (nsetBit v d b)).fget f) k = if k = d then b else nbit v k := by
  rw [fget_fset_same, hf, nbit_mod_two_pow _ h, nbit_nsetBit]

theorem flipped_active (s : State) (d : Nat) (b : Bool) {k : Nat} (h : k < 5) :
    nbit ((flipped s d b).fget BAL_TAMP_STAT.ACTIVE) k = if k = d then b else nbit (s.fget BAL_TAMP_STAT.ACTIVE) k :=
  nbit_fset_nsetBit _ _ rfl _ _ _ h

/-- The detector active and seen. -/
def latched (s : State) (d : Nat) : State :=
  (flipped s d true).fset BAL_TAMP_LATCH.SEEN 0 (nsetBit ((flipped s d true).fget BAL_TAMP_LATCH.SEEN) d true)

/-- The same with every open window marked: the state before event 902. -/
def tampered (s : State) (d : Nat) : State := (List.range 8).foldl markOpen (latched s d)

theorem exec_feederDetectorSet {s : State} {d : Nat} (due : s.detectorDue d = true) (clear : nbit (s.fget BAL_TAMP_STAT.ACTIVE) d = false) :
    exec (.feederDetectorSet d) s = .next ((tampered s d).signal 902 (leB 1 (2 ^ d))) := by
  show execFeederDetectorSet d s = _
  unfold execFeederDetectorSet
  rw [if_neg (by simp [due, clear])]
  rfl

theorem exec_feederDetectorClear {s : State} {d : Nat} (due : s.detectorDue d = true) (active : nbit (s.fget BAL_TAMP_STAT.ACTIVE) d = true) :
    exec (.feederDetectorClear d) s = .next (flipped s d false) := by
  show execFeederDetectorClear d s = _
  unfold execFeederDetectorClear
  rw [if_neg (by simp [due, active])]
  rfl

theorem exec_feederDetectorSet_idle {s : State} {d : Nat} (idle : s.detectorDue d = false) : exec (.feederDetectorSet d) s = .next s := by
  show execFeederDetectorSet d s = _
  unfold execFeederDetectorSet
  rw [if_pos (.inl idle)]

theorem exec_feederDetectorClear_idle {s : State} {d : Nat} (idle : s.detectorDue d = false) : exec (.feederDetectorClear d) s = .next s := by
  show execFeederDetectorClear d s = _
  unfold execFeederDetectorClear
  rw [if_pos (.inl idle)]

/-- When a detector is due (R205). -/
theorem detectorDue_iff (s : State) (d : Nat) : s.detectorDue d = true ↔ d < 5 ∧ s.fget BAL_MET_STAT.STATE = 2 ∧ s.coherent = true
    ∧ 0 < tget 0 s.bal.runs d ∧ s.detectorCycles d ≤ tget 0 s.bal.runs d := by
  simp [State.detectorDue, State.detectorsRun, and_assoc]

theorem tampered_metered (s : State) (d : Nat) : Metered [] (latched s d) (tampered s d) :=
  Metered.foldl _ markOpen_metered _ _

theorem tampered_active (s : State) (d : Nat) {k : Nat} (h : k < 5) :
    nbit ((tampered s d).fget BAL_TAMP_STAT.ACTIVE) k = if k = d then true else nbit (s.fget BAL_TAMP_STAT.ACTIVE) k := by
  rw [(tampered_metered s d).fget _ _ rfl, latched, fget_fset_ne _ _ _ _ _ _ (by decide), flipped_active s d true h]

theorem tampered_seen (s : State) {d : Nat} (h : d < 5) : nbit ((tampered s d).fget BAL_TAMP_LATCH.SEEN) d = true := by
  rw [(tampered_metered s d).fget _ _ rfl, latched, nbit_fset_nsetBit _ _ rfl _ _ _ h, if_pos rfl]

theorem tampered_cur (s : State) (d : Nat) {w : Nat} (h : w < 8) :
    ((tampered s d).winSet w).cur = (s.winSet w).cur.map (fun c => { c with tamper := true }) := by
  rw [tampered, markOpen_range_cur, if_pos h]
  rfl

/-! ### ENABLE -/

theorem exec_metrologyEnable {s : State} {host : Nat} (h : Open s host .bal) (value : Nat) :
    exec (.metrologyEnable host value) s = .next (if s.centre ∧ nbit value 0 then s.errAt BAL_ERR.ROLE 0x40
      else s.enableWrite lifeMet 0 (nbit value 0) State.metStart State.metDrain) :=
  congrArg _ (gate_open h _ _)

/-- An error recorded with an offset sets its bit. -/
theorem errAt_sets (s : State) (f : Fld) (off : Nat) (h : f.id ∉ sigIds) : (s.errAt f off).fget f = 1 % f.span :=
  ((errSignal_quiet (L := []) _ f.blk).reg f 0 (by simp) h).trans (fget_fset_same _ _ _ _)

theorem enableWrite_off {s : State} {u : Life} {i : Nat} (off : s.fget u.st i = 0) (start drain : State → State) :
    s.enableWrite u i true start drain = start s := by
  unfold State.enableWrite
  rw [off]
  rfl

theorem enableWrite_on {s : State} {u : Life} {i : Nat} (on : s.fget u.st i = 2) (start drain : State → State) :
    s.enableWrite u i false start drain = drain ((s.fset u.en i 0).fset u.st i 1) := by
  unfold State.enableWrite
  rw [on]
  rfl

theorem metStart_spec (s : State) : s.metStart.fget BAL_MET_STAT.STATE = 2 ∧ s.metStart.fget BAL_MET_STAT.GEN = (s.fget BAL_MET_STAT.GEN + 1) % 256
    ∧ s.metStart.bal = s.bal := by
  unfold State.metStart
  refine ⟨?_, ?_, (signal_quiet (L := []) _ _ _).bal⟩
  · rw [signal_fget _ _ _ _ _ (by decide)]
    unfold State.turnOn
    rw [fget_fadd_ne _ _ _ _ _ _ (by decide), fget_fset_ne _ _ _ _ _ _ (by decide)]
    exact fget_fset_same _ _ _ _
  · rw [signal_fget _ _ _ _ _ (by decide)]
    unfold State.turnOn State.fadd
    refine (fget_fset_same _ _ _ _).trans ?_
    rw [fget_fset_ne _ _ _ _ _ _ (by decide), fget_fset_ne _ _ _ _ _ _ (by decide), fget_fset_ne _ _ _ _ _ _ (by decide)]
    rfl

theorem metDrain_spec (s : State) : ((s.fset lifeMet.en 0 0).fset lifeMet.st 0 1).metDrain.fget BAL_MET_STAT.STATE = 1
    ∧ ((s.fset lifeMet.en 0 0).fset lifeMet.st 0 1).metDrain.fget BAL_MET_CTRL.ENABLE = 0 ∧ ((s.fset lifeMet.en 0 0).fset lifeMet.st 0 1).metDrain.bal = s.bal := by
  unfold State.metDrain
  refine ⟨?_, ?_, (signal_quiet (L := []) _ _ _).bal⟩
  · rw [signal_fget _ _ _ _ _ (by decide)]
    exact fget_fset_same _ _ _ _
  · rw [signal_fget _ _ _ _ _ (by decide), fget_fset_ne _ _ _ _ _ _ (by decide)]
    exact fget_fset_same _ _ _ _

/-! ### The clauses of the obligation -/

theorem enable_field {s : State} {host value : Nat} (h : Open s host .bal) (one : nbit value 0 = true) (field : s.centre = false) (off : s.fget BAL_MET_STAT.STATE = 0) :
    exec (.metrologyEnable host value) s = .next s.metStart := by
  rw [exec_metrologyEnable h, if_neg (by simp [field]), one, enableWrite_off off]

theorem enable_centre {s : State} {host value : Nat} (h : Open s host .bal) (one : nbit value 0 = true) (centre : s.centre = true) :
    exec (.metrologyEnable host value) s = .next (s.errAt BAL_ERR.ROLE 0x40) := by
  rw [exec_metrologyEnable h, if_pos ⟨centre, one⟩]

theorem disable_on {s : State} {host value : Nat} (h : Open s host .bal) (zero : nbit value 0 = false) (on : s.fget BAL_MET_STAT.STATE = 2) :
    exec (.metrologyEnable host value) s = .next ((s.fset lifeMet.en 0 0).fset lifeMet.st 0 1).metDrain := by
  rw [exec_metrologyEnable h, if_neg (by simp [zero]), zero, enableWrite_on on]

theorem exec_metrologyCycleEnd_idle {s : State} (p : Nat) (v i vn n : List Nat) (period : Nat) (off : s.fget BAL_MET_STAT.STATE ≠ 2) :
    exec (.metrologyCycleEnd p v i vn n period) s = .next s := by
  show execMetrologyCycleEnd p v i vn n period s = _
  unfold execMetrologyCycleEnd
  rw [if_pos (.inr off)]

/-- The results of a cycle stand at its end. -/
theorem cycleEnd_results (s : State) (p : Nat) (v i vn n : List Nat) (period : Nat) :
    (cycleEnd s p v i vn n period).fget BAL_VRMS.MV p = rms (volts s p v) (s.fget BAL_CAL_FS.FS p * 100) % 2 ^ 32
      ∧ (cycleEnd s p v i vn n period).fget BAL_IRMS.MA p = rms (amps s p v i) (s.fget BAL_CAL_FS.FS (4 + p)) % 2 ^ 32
      ∧ (cycleEnd s p v i vn n period).fget BAL_P.W p = sat32 (roundInt (powerSum s p (volts s p v) (amps s p v i)) powerUnit) % 2 ^ 32
      ∧ tget [] (cycleEnd s p v i vn n period).bal.tails p = (volts s p v).drop 192 := by
  obtain ⟨r, later⟩ := cycleEnd_metered s p v i vn n period
  rw [later.fget _ _ rfl, later.fget _ _ rfl, later.fget _ _ rfl, later.tails, withRuns_fget, withRuns_fget, withRuns_fget, withRuns_tails]
  exact ⟨resulted_vrms s p v i, resulted_irms s p v i, resulted_p s p v i, resulted_tail s p v i⟩

/-- A cycle leaves the registers of another phase. -/
theorem cycleEnd_other (s : State) {p q : Nat} (hq : q ≠ p) (v i vn n : List Nat) (period : Nat) (f : Fld)
    (hf : (sigIds ++ sampleWrites.map Prod.fst).contains f.id = false) : (cycleEnd s p v i vn n period).fget f q = s.fget f q := by
  simp only [List.contains_eq_mem, decide_eq_false_iff_not, List.mem_append, not_or] at hf
  exact (cycleEnd_frame s p v i vn n period).1 f q hf.1 (not_mem_cycleWrites hq f (by simpa using hf.2))

/-- The run of a reverse-energy detector after a phase-A cycle. -/
theorem cycleEnd_run (s : State) (v i vn n : List Nat) (period : Nat) (on : s.fget BAL_MET_STAT.STATE = 2) (coherent : s.coherent = true) {d : Nat} (h : d < 3) :
    tget 0 (cycleEnd s 0 v i vn n period).bal.runs d
      = if (!nbit (s.fget BAL_TAMP_CFG0.EXPORT_OK) d
            && decide (sval 32 ((cycleEnd s 0 v i vn n period).fget BAL_P.W d) < -(s.fget BAL_TAMP_CFG0.REV_MIN : Int))) = nbit (s.fget BAL_TAMP_STAT.ACTIVE) d
        then 0 else tget 0 s.bal.runs d + 1 := by
  have before := phaseA_metered s v i vn n period
  have keep : ∀ f, (sigIds ++ (cycleWrites 0).map Prod.fst).contains f.id = false → (neutralResults (phaseCycle s 0 v i period) vn n).fget f = s.fget f :=
    fun f hf => (before.fget f 0 hf).trans (keepTail_fget _ _ _ _ _)
  have running : (neutralResults (phaseCycle s 0 v i period) vn n).detectorsRun = true := by
    unfold State.coherent at coherent
    unfold State.detectorsRun State.coherent
    rw [keep _ rfl, keep _ rfl, on, coherent]
    rfl
  have power : (cycleEnd s 0 v i vn n period).fget BAL_P.W d = (neutralResults (phaseCycle s 0 v i period) vn n).fget BAL_P.W d := by
    rw [cycleEnd, if_pos rfl, neutralCycle, detectCycle_eq, withRuns_fget]
  rw [power, cycleEnd, if_pos rfl, neutralCycle, detectCycle_run _ _ _ running h, reversed, keep _ rfl, keep _ rfl, keep _ rfl, before.runs, keepTail_runs]

theorem get64_congr {s t : State} {lo hi : Fld} {i : Nat} (hlo : t.fget lo i = s.fget lo i) (hhi : t.fget hi i = s.fget hi i) :
    t.get64 lo hi i = s.get64 lo hi i := by
  unfold State.get64
  rw [hlo, hhi]

/-- Settles O32: the commands' outcomes by cases of their guards, the cycle by its stages. -/
theorem feederMetrology : Obligations.FeederMetrology := by
  unfold Obligations.FeederMetrology
  refine ⟨fun s host value h one => ⟨fun field off => ⟨_, enable_field h one field off, metStart_spec s⟩, fun centre => ?_⟩,
    fun s host value h zero on => ⟨_, disable_on h zero on, metDrain_spec s⟩,
    fun s p v i vn n period hp on => ?_,
    fun s p v i vn n period off => exec_metrologyCycleEnd_idle p v i vn n period off,
    fun s d due clear => ?_,
    fun s d idle => exec_feederDetectorSet_idle idle,
    fun s d due active => ?_,
    fun s d idle => exec_feederDetectorClear_idle idle,
    fun s v i vn n period on coherent => ⟨_, exec_metrologyCycleEnd v i vn n period (by omega) on, fun d h => cycleEnd_run s v i vn n period on coherent h⟩,
    detectorDue_iff⟩
  case refine_1 =>
    exact ⟨_, enable_centre h one centre, errAt_sets s _ _ (by decide), (errAt_quiet s _ _).reg _ _ (by decide) (by decide)⟩
  case refine_2 =>
    obtain ⟨hv, hi, hp', ht⟩ := cycleEnd_results s p v i vn n period
    have other := fun {q : Nat} (hq : q ≠ p) => cycleEnd_other s hq v i vn n period
    refine ⟨_, exec_metrologyCycleEnd v i vn n period hp on, hv, hi, hp', ht, fun q hq => ⟨other hq _ rfl, other hq _ rfl, other hq _ rfl, ?_, ?_⟩,
      (cycleEnd_frame s p v i vn n period).2⟩
    · exact get64_congr (other hq _ rfl) (other hq _ rfl)
    · exact get64_congr (other hq _ rfl) (other hq _ rfl)
  case refine_3 =>
    have five : d < 5 := ((detectorDue_iff s d).1 due).1
    have q := signal_quiet (L := []) (tampered s d) 902 (leB 1 (2 ^ d))
    refine ⟨_, exec_feederDetectorSet due clear, ?_, ?_, fun k hk hkd => ?_, fun w c hw hc => ?_, ?_⟩
    · rw [signal_fget _ _ _ _ _ (by decide), tampered_active s d five, if_pos rfl]
    · rw [signal_fget _ _ _ _ _ (by decide), tampered_seen s five]
    · rw [signal_fget _ _ _ _ _ (by decide), tampered_active s d hk, if_neg hkd]
    · rw [State.winSet, q.bal]
      exact (tampered_cur s d hw).trans (by rw [hc]; rfl)
    · exact q.dram.trans (tampered_metered s d).dram
  case refine_4 =>
    have five : d < 5 := ((detectorDue_iff s d).1 due).1
    refine ⟨_, exec_feederDetectorClear due active, ?_, rfl, fun k hk hkd => ?_, rfl, fun f i hf => ?_⟩
    · rw [flipped_active s d false five, if_pos rfl]
    · rw [flipped_active s d false hk, if_neg hkd]
    · exact fget_fset_ne _ _ _ _ _ _ (fun e => hf (List.mem_singleton.2 e.symm))

end Sys2Proof.Proofs.Feeder
